-- ==== Sys2Proof/Syntax.lean ====
section
/-! DEFINITION. The steps of the LZ1: `Instr` has one constructor per row of spec/opcode_table.json, the slot
operations first.
Slot operations carry the decoded fields of their slot (02 R51 to R64); the events of the table, which the spec
gives no encoding, carry what the outside party or the choice of the hub supplies. -/

namespace Sys2Proof

/-- The guard byte of R49: predicate sense, predicate and leaf. -/
structure Guard where
  sense : Bool
  pred : BitVec 4
  leaf : BitVec 3
  deriving DecidableEq, Repr, Inhabited

/-- One test of a branch tree (R53): predicate, sense and target register. -/
structure Test where
  pred : BitVec 4
  sense : Bool
  breg : BitVec 3
  deriving DecidableEq, Repr, Inhabited

/-- Source b of a vector slot: a register, or IMM8 when IMM is 1 (R58). -/
inductive VSrc where
  | reg (r : BitVec 8)
  | imm (i : BitVec 8)
  deriving DecidableEq, Repr, Inhabited

/-- Fields of a class A vector slot (R58). -/
structure AOp where
  vd : BitVec 8
  va : BitVec 8
  b : VSrc
  ty : BitVec 3
  sat : Bool
  g : Guard
  deriving DecidableEq, Repr, Inhabited

/-- Fields of a class Q vector slot (R58): the destination is a predicate. -/
structure QOp where
  pd : BitVec 4
  va : BitVec 8
  b : VSrc
  ty : BitVec 3
  g : Guard
  deriving DecidableEq, Repr, Inhabited

/-- Fields of a class F or class H vector slot (R58). -/
structure FOp where
  vd : BitVec 8
  va : BitVec 8
  vb : BitVec 8
  rnd : BitVec 2
  g : Guard
  deriving DecidableEq, Repr, Inhabited

/-- Fields of VCVTF and VCVTS but the rounding mode (R58 class N). -/
structure CvtOp where
  vd : BitVec 8
  va : BitVec 8
  fmt : BitVec 5
  pos : BitVec 3
  sat : Bool
  amx : Bool
  g : Guard
  deriving DecidableEq, Repr, Inhabited

/-- Fields of a load or store slot (R51, R60); `ix` is opcode bit [3], the indexed form. -/
structure MOp where
  data : BitVec 8
  xb : BitVec 4
  vi : BitVec 8
  ix : Bool
  off : BitVec 10
  hint : BitVec 3
  g : Guard
  deriving DecidableEq, Repr, Inhabited

/-- Fields of an atomic, FST or TXST slot, which are always indexed (R60). -/
structure IxOp where
  data : BitVec 8
  xb : BitVec 4
  vi : BitVec 8
  off : BitVec 10
  g : Guard
  deriving DecidableEq, Repr, Inhabited

/-- The wait and signal fields of an X or C slot (R23, R24, R51). -/
structure Sync where
  wsem : BitVec 8
  wth : BitVec 8
  ssem : BitVec 8
  inc : BitVec 4
  deriving DecidableEq, Repr, Inhabited

/-- Fields of MMA (R61). -/
structure MmaOp where
  h : Sync
  tile : BitVec 3
  xa : BitVec 4
  xb : BitVec 4
  fa : BitVec 5
  fb : BitVec 5
  kb : BitVec 4
  zf : Bool
  mid : Bool
  lb : Bool
  deriving DecidableEq, Repr, Inhabited

/-- Fields of TLOAD, PLOAD, DLOAD and INTAKE (R62). -/
structure LoadOp where
  h : Sync
  tag : BitVec 6
  ch : BitVec 2
  xs : BitVec 4
  xd : BitVec 4
  deriving DecidableEq, Repr, Inhabited

/-- Fields of COPY and COPYX (R62). -/
structure CopyOp where
  c : LoadOp
  sh : BitVec 3
  mask : BitVec 5
  xform : BitVec 3
  timed : Bool
  deriving DecidableEq, Repr, Inhabited

/-- The access that met an uncorrectable error (R368). -/
inductive ErrMet where
  | nothing
  | thread (group pc ident : Nat)
  | command (cmd : Nat)
  | windlass (group addr : Nat)
  deriving DecidableEq, Repr, Inhabited

/-- A read or a write that an outside agent brings to the home (R364, R399). -/
inductive BusOp where
  | read (len : Nat)
  | write (bytes : List (BitVec 8))
  deriving DecidableEq, Repr, Inhabited

/-- The read-modify-write of an LZ1-P hart's atomic access (RV64 A extension names). -/
inductive AmoOp where
  | swap | add | xor | and | or | min | max | minu | maxu
  deriving DecidableEq, Repr, Inhabited

/-- The fences of R318, by the accesses that they order. -/
inductive HartFence where
  | rwW | rRw | rwRw
  deriving DecidableEq, Repr, Inhabited

/-- What an LZ1-P hart brings to the hub (R318): loads and stores, a load-reserved and store-conditional pair, atomics
with their ordering bits, and fences. -/
inductive HartOp where
  | load (len : Nat)
  | store (bytes : List (BitVec 8))
  | lr (len : Nat) (aq rl : Bool)
  | sc (len : Nat) (value : BitVec 64) (aq rl : Bool)
  | amo (op : AmoOp) (len : Nat) (value : BitVec 64) (aq rl : Bool)
  | fence (kind : HartFence)
  deriving DecidableEq, Repr, Inhabited

/-- The name of a message between a transaction's coordinator and a target (R396): the package at the other end, which
sent it or answers it, and the identifier that its sender gave it. -/
structure FabName where
  peer : Nat
  id : Nat
  deriving DecidableEq, Repr, Inhabited

/-- Where a transactional store stands (R404): its place in the coordinator's program order, and its address. -/
structure TxPlace where
  seq : Nat
  addr : Nat
  deriving DecidableEq, Repr, Inhabited

/-- What the hub asks a host's directory (R400): the line, and whether the copies are to be invalidated. -/
structure DirAsk where
  line : Nat
  inval : Bool
  deriving DecidableEq, Repr, Inhabited

/-- A candidate's key in the pod leader election (R445): priority, then serial. -/
structure BootKey where
  prio : Nat
  serial : Nat
  deriving DecidableEq, Repr, Inhabited

/-- One constructor per row of the opcode table. -/
inductive Instr where
  /-- BR (R115). -/
  | br (tests : List Test) (file : Bool)
  /-- CALL (R281). -/
  | call (b : BitVec 3) (dem : BitVec 4) (carry : BitVec 3) (mark : Bool)
  /-- CALLI (R281). -/
  | calli (x : BitVec 4) (carry : BitVec 3) (mark : Bool)
  /-- RET (R289). -/
  | ret (carry : BitVec 3)
  /-- UNWIND (R291). -/
  | unwind (x : BitVec 4)
  /-- UNWIND_MARK (R291). -/
  | unwindMark
  /-- REFORM (R127). -/
  | reform
  /-- BAR (R128). -/
  | bar
  /-- EXIT (R130). -/
  | exit
  /-- LOOP (R120). -/
  | loop (x : BitVec 4) (epi : BitVec 8) (rot : BitVec 3)
  /-- LOOP_L1 (R124). -/
  | loopL1 (x : BitVec 4)
  /-- LEND1 (R124). -/
  | lend1
  /-- TRAP (R131). -/
  | trap (code : BitVec 8) (pred : BitVec 4) (sense : Bool)
  /-- SVC (R132). -/
  | svc (num : BitVec 16)
  /-- BRK (R133). -/
  | brk (code : BitVec 8)
  /-- ADD (R142). -/
  | add (xd : BitVec 4) (xa : BitVec 4) (xb : BitVec 4) (g : Guard)
  /-- SUB (R142). -/
  | sub (xd : BitVec 4) (xa : BitVec 4) (xb : BitVec 4) (g : Guard)
  /-- MUL (R142). -/
  | mul (xd : BitVec 4) (xa : BitVec 4) (xb : BitVec 4) (g : Guard)
  /-- MULH (R142). -/
  | mulh (xd : BitVec 4) (xa : BitVec 4) (xb : BitVec 4) (g : Guard)
  /-- MULHU (R142). -/
  | mulhu (xd : BitVec 4) (xa : BitVec 4) (xb : BitVec 4) (g : Guard)
  /-- MIN (R142). -/
  | min (xd : BitVec 4) (xa : BitVec 4) (xb : BitVec 4) (g : Guard)
  /-- MAX (R142). -/
  | max (xd : BitVec 4) (xa : BitVec 4) (xb : BitVec 4) (g : Guard)
  /-- MINU (R142). -/
  | minu (xd : BitVec 4) (xa : BitVec 4) (xb : BitVec 4) (g : Guard)
  /-- MAXU (R142). -/
  | maxu (xd : BitVec 4) (xa : BitVec 4) (xb : BitVec 4) (g : Guard)
  /-- AND (R142). -/
  | and (xd : BitVec 4) (xa : BitVec 4) (xb : BitVec 4) (g : Guard)
  /-- OR (R142). -/
  | or (xd : BitVec 4) (xa : BitVec 4) (xb : BitVec 4) (g : Guard)
  /-- XOR (R142). -/
  | xor (xd : BitVec 4) (xa : BitVec 4) (xb : BitVec 4) (g : Guard)
  /-- ANDN (R142). -/
  | andn (xd : BitVec 4) (xa : BitVec 4) (xb : BitVec 4) (g : Guard)
  /-- SLL (R142). -/
  | sll (xd : BitVec 4) (xa : BitVec 4) (xb : BitVec 4) (g : Guard)
  /-- SRL (R142). -/
  | srl (xd : BitVec 4) (xa : BitVec 4) (xb : BitVec 4) (g : Guard)
  /-- SRA (R142). -/
  | sra (xd : BitVec 4) (xa : BitVec 4) (xb : BitVec 4) (g : Guard)
  /-- ADD_IMM (R142). -/
  | addImm (xd : BitVec 4) (xa : BitVec 4) (imm : BitVec 9) (g : Guard)
  /-- MUL_IMM (R142). -/
  | mulImm (xd : BitVec 4) (xa : BitVec 4) (imm : BitVec 9) (g : Guard)
  /-- AND_IMM (R142). -/
  | andImm (xd : BitVec 4) (xa : BitVec 4) (imm : BitVec 9) (g : Guard)
  /-- OR_IMM (R142). -/
  | orImm (xd : BitVec 4) (xa : BitVec 4) (imm : BitVec 9) (g : Guard)
  /-- XOR_IMM (R142). -/
  | xorImm (xd : BitVec 4) (xa : BitVec 4) (imm : BitVec 9) (g : Guard)
  /-- SLL_IMM (R142). -/
  | sllImm (xd : BitVec 4) (xa : BitVec 4) (imm : BitVec 6) (g : Guard)
  /-- SRL_IMM (R142). -/
  | srlImm (xd : BitVec 4) (xa : BitVec 4) (imm : BitVec 6) (g : Guard)
  /-- SRA_IMM (R142). -/
  | sraImm (xd : BitVec 4) (xa : BitVec 4) (imm : BitVec 6) (g : Guard)
  /-- SH1ADD (R142). -/
  | sh1add (xd : BitVec 4) (xa : BitVec 4) (xb : BitVec 4) (g : Guard)
  /-- SH2ADD (R142). -/
  | sh2add (xd : BitVec 4) (xa : BitVec 4) (xb : BitVec 4) (g : Guard)
  /-- SH3ADD (R142). -/
  | sh3add (xd : BitVec 4) (xa : BitVec 4) (xb : BitVec 4) (g : Guard)
  /-- CLZ (R142). -/
  | clz (xd : BitVec 4) (xa : BitVec 4) (g : Guard)
  /-- CTZ (R142). -/
  | ctz (xd : BitVec 4) (xa : BitVec 4) (g : Guard)
  /-- POPC (R142). -/
  | popc (xd : BitVec 4) (xa : BitVec 4) (g : Guard)
  /-- BEXT (R143). -/
  | bext (xd : BitVec 4) (xa : BitVec 4) (xb : BitVec 4) (g : Guard)
  /-- BEXTU (R143). -/
  | bextu (xd : BitVec 4) (xa : BitVec 4) (xb : BitVec 4) (g : Guard)
  /-- BINS (R143). -/
  | bins (xd : BitVec 4) (xa : BitVec 4) (xb : BitVec 4) (g : Guard)
  /-- CMPEQ (R145). -/
  | cmpeq (pd : BitVec 4) (xa : BitVec 4) (xb : BitVec 4) (g : Guard)
  /-- CMPNE (R145). -/
  | cmpne (pd : BitVec 4) (xa : BitVec 4) (xb : BitVec 4) (g : Guard)
  /-- CMPLT (R145). -/
  | cmplt (pd : BitVec 4) (xa : BitVec 4) (xb : BitVec 4) (g : Guard)
  /-- CMPLTU (R145). -/
  | cmpltu (pd : BitVec 4) (xa : BitVec 4) (xb : BitVec 4) (g : Guard)
  /-- CMPLE (R145). -/
  | cmple (pd : BitVec 4) (xa : BitVec 4) (xb : BitVec 4) (g : Guard)
  /-- CMPLEU (R145). -/
  | cmpleu (pd : BitVec 4) (xa : BitVec 4) (xb : BitVec 4) (g : Guard)
  /-- CMPEQ_IMM (R145). -/
  | cmpeqImm (pd : BitVec 4) (xa : BitVec 4) (imm : BitVec 9) (g : Guard)
  /-- CMPNE_IMM (R145). -/
  | cmpneImm (pd : BitVec 4) (xa : BitVec 4) (imm : BitVec 9) (g : Guard)
  /-- CMPLT_IMM (R145). -/
  | cmpltImm (pd : BitVec 4) (xa : BitVec 4) (imm : BitVec 9) (g : Guard)
  /-- CMPLTU_IMM (R145). -/
  | cmpltuImm (pd : BitVec 4) (xa : BitVec 4) (imm : BitVec 9) (g : Guard)
  /-- CMPGT_IMM (R145). -/
  | cmpgtImm (pd : BitVec 4) (xa : BitVec 4) (imm : BitVec 9) (g : Guard)
  /-- CMPGTU_IMM (R145). -/
  | cmpgtuImm (pd : BitVec 4) (xa : BitVec 4) (imm : BitVec 9) (g : Guard)
  /-- SEL (R146). -/
  | sel (xd : BitVec 4) (pn : BitVec 4) (sense : Bool) (xa : BitVec 4) (xb : BitVec 4) (g : Guard)
  /-- LIMM (R56). -/
  | limm (imm : BitVec 25)
  /-- ADR (R144). -/
  | adr (xd : BitVec 4) (imm : BitVec 9) (g : Guard)
  /-- TGT_LABEL (R144). -/
  | tgtLabel (bd : BitVec 3) (imm : BitVec 9) (g : Guard)
  /-- TGT_REG (R144). -/
  | tgtReg (bd : BitVec 3) (xa : BitVec 4) (g : Guard)
  /-- GETSR (R139). -/
  | getsr (xd : BitVec 4) (sr : BitVec 9) (g : Guard)
  /-- SETSR (R139). -/
  | setsr (sr : BitVec 9) (xa : BitVec 4) (g : Guard)
  /-- SEMSET (R147). -/
  | semset (sem : BitVec 8) (xa : BitVec 4) (g : Guard)
  /-- SEMADD (R147). -/
  | semadd (sem : BitVec 8) (xa : BitVec 4) (g : Guard)
  /-- SEMWAIT (R148). -/
  | semwait (sem : BitVec 8) (xa : BitVec 4) (g : Guard)
  /-- TAGWA (R149). -/
  | tagwa (xa : BitVec 4) (g : Guard)
  /-- TAGWL (R149). -/
  | tagwl (xa : BitVec 4) (g : Guard)
  /-- TAGFF (R150). -/
  | tagff (xd : BitVec 4) (xa : BitVec 4) (g : Guard)
  /-- TSEL (R151). -/
  | tsel (tb : BitVec 3) (xa : BitVec 4) (g : Guard)
  /-- PSWAP (R152). -/
  | pswap (g : Guard)
  /-- FTSET (R153). -/
  | ftset (ft : BitVec 4) (xa : BitVec 4) (g : Guard)
  /-- SQRD (R154). -/
  | sqrd (xd : BitVec 4) (w : BitVec 3) (g : Guard)
  /-- RESUME_SLOTS (R71). -/
  | resumeSlots (xa : BitVec 4) (xb : BitVec 4) (g : Guard)
  /-- DSWAP (R155). -/
  | dswap (xa : BitVec 4) (g : Guard)
  /-- VADD (R162). -/
  | vadd (o : AOp)
  /-- VSUB (R162). -/
  | vsub (o : AOp)
  /-- VMUL (R162). -/
  | vmul (o : AOp)
  /-- VMULH (R162). -/
  | vmulh (o : AOp)
  /-- VMAD (R162). -/
  | vmad (o : AOp)
  /-- VDOT4 (R163). -/
  | vdot4 (o : AOp)
  /-- VMIN (R162). -/
  | vmin (o : AOp)
  /-- VMAX (R162). -/
  | vmax (o : AOp)
  /-- VABS (R162). -/
  | vabs (o : AOp)
  /-- VAND (R162). -/
  | vand (o : AOp)
  /-- VOR (R162). -/
  | vor (o : AOp)
  /-- VXOR (R162). -/
  | vxor (o : AOp)
  /-- VANDN (R162). -/
  | vandn (o : AOp)
  /-- VSHL (R162). -/
  | vshl (o : AOp)
  /-- VSHR (R162). -/
  | vshr (o : AOp)
  /-- VCLZ (R162). -/
  | vclz (o : AOp)
  /-- VPOPC (R162). -/
  | vpopc (o : AOp)
  /-- VMOV (R162). -/
  | vmov (o : AOp)
  /-- VCMPEQ (R164). -/
  | vcmpeq (o : QOp)
  /-- VCMPNE (R164). -/
  | vcmpne (o : QOp)
  /-- VCMPLT (R164). -/
  | vcmplt (o : QOp)
  /-- VCMPLE (R164). -/
  | vcmple (o : QOp)
  /-- VSEL (R165). -/
  | vsel (vd : BitVec 8) (pn : BitVec 4) (sense : Bool) (va : BitVec 8) (vb : BitVec 8) (g : Guard)
  /-- VFADD (R166). -/
  | vfadd (o : FOp)
  /-- VFSUB (R166). -/
  | vfsub (o : FOp)
  /-- VFMUL (R166). -/
  | vfmul (o : FOp)
  /-- VFMA (R166). -/
  | vfma (o : FOp)
  /-- VFMIN (R166). -/
  | vfmin (o : FOp)
  /-- VFMAX (R166). -/
  | vfmax (o : FOp)
  /-- VFABS (R166). -/
  | vfabs (vd : BitVec 8) (va : BitVec 8) (g : Guard)
  /-- VFNEG (R166). -/
  | vfneg (vd : BitVec 8) (va : BitVec 8) (g : Guard)
  /-- VHADD (R167). -/
  | vhadd (o : FOp)
  /-- VHSUB (R167). -/
  | vhsub (o : FOp)
  /-- VHMUL (R167). -/
  | vhmul (o : FOp)
  /-- VHFMA (R167). -/
  | vhfma (o : FOp)
  /-- VBADD (R167). -/
  | vbadd (o : FOp)
  /-- VBSUB (R167). -/
  | vbsub (o : FOp)
  /-- VBMUL (R167). -/
  | vbmul (o : FOp)
  /-- VBFMA (R167). -/
  | vbfma (o : FOp)
  /-- VCVTF (R168). -/
  | vcvtf (o : CvtOp) (rnd : BitVec 2)
  /-- VCVTS (R168). -/
  | vcvts (o : CvtOp)
  /-- VCVTX (R169). -/
  | vcvtx (vd : BitVec 8) (va : BitVec 8) (fmt : BitVec 5) (pos : BitVec 3) (g : Guard)
  /-- VFTOI (R170). -/
  | vftoi (vd : BitVec 8) (va : BitVec 8) (unsig : Bool) (rnd : BitVec 2) (sat : Bool) (g : Guard)
  /-- VITOF (R170). -/
  | vitof (vd : BitVec 8) (va : BitVec 8) (unsig : Bool) (rnd : BitVec 2) (g : Guard)
  /-- VCVTH (R170). -/
  | vcvth (vd : BitVec 8) (va : BitVec 8) (vb : BitVec 8) (bf : Bool) (rnd : BitVec 2) (sat : Bool) (g : Guard)
  /-- VNPS (R171). -/
  | vnps (vd : BitVec 8) (va : BitVec 8) (plane : BitVec 3) (g : Guard)
  /-- VNPM (R172). -/
  | vnpm (vd : BitVec 8) (va : BitVec 8) (plane : BitVec 3) (g : Guard)
  /-- VSHFL (R174). -/
  | vshfl (vd : BitVec 8) (va : BitVec 8) (vb : VSrc) (width : BitVec 3) (g : Guard)
  /-- VPERM (R176). -/
  | vperm (vd : BitVec 8) (va : BitVec 8) (pat : BitVec 6) (g : Guard)
  /-- VMATCH (R177). -/
  | vmatch (vd : BitVec 8) (va : BitVec 8) (key : Option (BitVec 5 × BitVec 3)) (g : Guard)
  /-- VBALLOT (R177). -/
  | vballot (vd : BitVec 8) (pn : BitVec 4) (inv : Bool) (g : Guard)
  /-- VVOTE (R177). -/
  | vvote (pd : BitVec 4) (pn : BitVec 4) (mode : BitVec 2) (quorum : BitVec 6) (g : Guard)
  /-- VSCAN (R178). -/
  | vscan (vd : BitVec 8) (va : BitVec 8) (op : BitVec 2) (excl : Bool) (ty : BitVec 3) (g : Guard)
  /-- VRED (R178). -/
  | vred (vd : BitVec 8) (va : BitVec 8) (op : BitVec 2) (ty : BitVec 3) (g : Guard)
  /-- VBCAST (R179). -/
  | vbcast (vd : BitVec 8) (va : BitVec 8) (lane : BitVec 5) (g : Guard)
  /-- VACCRD (R180). -/
  | vaccrd (vd : BitVec 8) (tile : BitVec 3) (half : Bool) (row : BitVec 8) (g : Guard)
  /-- VACCWR (R180). -/
  | vaccwr (tile : BitVec 3) (half : Bool) (row : BitVec 8) (data : BitVec 8) (g : Guard)
  /-- TOKV (R182). -/
  | tokv (tile : BitVec 3) (g : Guard)
  /-- TOKM (R182). -/
  | tokm (tile : BitVec 3) (g : Guard)
  /-- VXTOV (R183). -/
  | vxtov (vd : BitVec 8) (xa : BitVec 4) (hi : Bool) (g : Guard)
  /-- VVTOX (R183). -/
  | vvtox (xd : BitVec 4) (va : BitVec 8) (zero : Bool) (g : Guard)
  /-- FEV (R195). -/
  | fev (vd : BitVec 8) (va : BitVec 8) (tb : BitVec 3) (g : Guard)
  /-- FEV_E2 (R194). -/
  | fevE2 (vd : BitVec 8) (va : BitVec 8) (tb : BitVec 3) (g : Guard)
  /-- FEV_L2 (R194). -/
  | fevL2 (vd : BitVec 8) (va : BitVec 8) (tb : BitVec 3) (g : Guard)
  /-- FEV_RC (R194). -/
  | fevRc (vd : BitVec 8) (va : BitVec 8) (tb : BitVec 3) (g : Guard)
  /-- FEV_RS (R194). -/
  | fevRs (vd : BitVec 8) (va : BitVec 8) (tb : BitVec 3) (g : Guard)
  /-- FEV_PD (R194). -/
  | fevPd (vd : BitVec 8) (va : BitVec 8) (tb : BitVec 3) (g : Guard)
  /-- FSEG (R196). -/
  | fseg (vd : BitVec 8) (va : BitVec 8) (tb : BitVec 3) (g : Guard)
  /-- FDOM (R197). -/
  | fdom (pd : BitVec 4) (va : BitVec 8) (tb : BitVec 3) (g : Guard)
  /-- LD_Z8 (R208). -/
  | ldZ8 (o : MOp)
  /-- LD_S8 (R208). -/
  | ldS8 (o : MOp)
  /-- LD_Z16 (R208). -/
  | ldZ16 (o : MOp)
  /-- LD_S16 (R208). -/
  | ldS16 (o : MOp)
  /-- LD_32 (R208). -/
  | ld32 (o : MOp)
  /-- LD_64 (R208). -/
  | ld64 (o : MOp)
  /-- LD_128 (R208). -/
  | ld128 (o : MOp)
  /-- LD_A16 (R208). -/
  | ldA16 (o : MOp)
  /-- LDS_Z8 (R208). -/
  | ldsZ8 (o : MOp)
  /-- LDS_S8 (R208). -/
  | ldsS8 (o : MOp)
  /-- LDS_Z16 (R208). -/
  | ldsZ16 (o : MOp)
  /-- LDS_S16 (R208). -/
  | ldsS16 (o : MOp)
  /-- LDS_32 (R208). -/
  | lds32 (o : MOp)
  /-- LDS_64 (R208). -/
  | lds64 (o : MOp)
  /-- LDS_128 (R208). -/
  | lds128 (o : MOp)
  /-- LDS_A16 (R208). -/
  | ldsA16 (o : MOp)
  /-- ST_8 (R208). -/
  | st8 (o : MOp)
  /-- ST_16 (R208). -/
  | st16 (o : MOp)
  /-- ST_32 (R208). -/
  | st32 (o : MOp)
  /-- ST_64 (R208). -/
  | st64 (o : MOp)
  /-- ST_128 (R208). -/
  | st128 (o : MOp)
  /-- ST_A16 (R208). -/
  | stA16 (o : MOp)
  /-- STS_8 (R208). -/
  | sts8 (o : MOp)
  /-- STS_16 (R208). -/
  | sts16 (o : MOp)
  /-- STS_32 (R208). -/
  | sts32 (o : MOp)
  /-- STS_64 (R208). -/
  | sts64 (o : MOp)
  /-- STS_128 (R208). -/
  | sts128 (o : MOp)
  /-- STS_A16 (R208). -/
  | stsA16 (o : MOp)
  /-- ATOM_ADD (R212). -/
  | atomAdd (o : IxOp)
  /-- ATOM_MIN (R212). -/
  | atomMin (o : IxOp)
  /-- ATOM_MAX (R212). -/
  | atomMax (o : IxOp)
  /-- ATOM_MINU (R212). -/
  | atomMinu (o : IxOp)
  /-- ATOM_MAXU (R212). -/
  | atomMaxu (o : IxOp)
  /-- ATOM_AND (R212). -/
  | atomAnd (o : IxOp)
  /-- ATOM_OR (R212). -/
  | atomOr (o : IxOp)
  /-- ATOM_XOR (R212). -/
  | atomXor (o : IxOp)
  /-- ATOM_EXCH (R212). -/
  | atomExch (o : IxOp)
  /-- ATOM_CAS (R212). -/
  | atomCas (o : IxOp)
  /-- ATOM_FADD_F32 (R212). -/
  | atomFaddF32 (o : IxOp)
  /-- ATOM_FADD_BF16X2 (R212). -/
  | atomFaddBf16X2 (o : IxOp)
  /-- ATOMS_ADD (R212). -/
  | atomsAdd (o : IxOp)
  /-- ATOMS_MIN (R212). -/
  | atomsMin (o : IxOp)
  /-- ATOMS_MAX (R212). -/
  | atomsMax (o : IxOp)
  /-- ATOMS_MINU (R212). -/
  | atomsMinu (o : IxOp)
  /-- ATOMS_MAXU (R212). -/
  | atomsMaxu (o : IxOp)
  /-- ATOMS_AND (R212). -/
  | atomsAnd (o : IxOp)
  /-- ATOMS_OR (R212). -/
  | atomsOr (o : IxOp)
  /-- ATOMS_XOR (R212). -/
  | atomsXor (o : IxOp)
  /-- ATOMS_EXCH (R212). -/
  | atomsExch (o : IxOp)
  /-- ATOMS_CAS (R212). -/
  | atomsCas (o : IxOp)
  /-- ATOMS_FADD_F32 (R212). -/
  | atomsFaddF32 (o : IxOp)
  /-- ATOMS_FADD_BF16X2 (R212). -/
  | atomsFaddBf16X2 (o : IxOp)
  /-- PREF (R216). -/
  | pref (xb : BitVec 4) (off : BitVec 10) (hint : BitVec 3) (g : Guard)
  /-- CLEAN (R217). -/
  | clean (xb : BitVec 4) (off : BitVec 10) (g : Guard)
  /-- INVAL (R217). -/
  | inval (xb : BitVec 4) (off : BitVec 10) (g : Guard)
  /-- ICINV (R218). -/
  | icinv (xb : BitVec 4) (g : Guard)
  /-- FENCE_ACQ (R219). -/
  | fenceAcq (g : Guard)
  /-- FENCE_REL (R219). -/
  | fenceRel (g : Guard)
  /-- FENCE_AR (R219). -/
  | fenceAr (g : Guard)
  /-- FENCE_SC (R219). -/
  | fenceSc (g : Guard)
  /-- FENCE_CP (R219). -/
  | fenceCp (g : Guard)
  /-- DRAIN (R221). -/
  | drain (g : Guard)
  /-- FST (R222). -/
  | fst (o : IxOp)
  /-- FSIG (R223). -/
  | fsig (xb : BitVec 4) (inc : BitVec 10) (g : Guard)
  /-- LAUNCH (R224). -/
  | launch (data : BitVec 8) (xb : BitVec 4) (g : Guard)
  /-- ACQ_PROM (R225). -/
  | acqProm (xb : BitVec 4) (g : Guard)
  /-- TXBEGIN (R403). -/
  | txbegin (data : BitVec 8) (xb : BitVec 4) (g : Guard)
  /-- TXST (R403). -/
  | txst (o : IxOp)
  /-- TXCOMMIT (R405). -/
  | txcommit (data : BitVec 8) (g : Guard)
  /-- TXABORT (R403). -/
  | txabort (g : Guard)
  /-- MMA (R264). -/
  | mma (o : MmaOp)
  /-- ACCZ (R266). -/
  | accz (h : Sync) (tile : BitVec 3)
  /-- MST (R267). -/
  | mst (h : Sync) (tile : BitVec 3) (xa : BitVec 4) (xb : BitVec 4) (fmt : BitVec 5)
  /-- MLD (R267). -/
  | mld (h : Sync) (tile : BitVec 3) (xa : BitVec 4) (xb : BitVec 4)
  /-- MSYNC (R269). -/
  | msync (h : Sync)
  /-- MSTAT (R270). -/
  | mstat (h : Sync) (tile : BitVec 3) (xa : BitVec 4)
  /-- SCLA (R263). -/
  | scla (lb : Bool) (xa : BitVec 4)
  /-- SCLB (R263). -/
  | sclb (lb : Bool) (xa : BitVec 4)
  /-- SCLZ (R263). -/
  | sclz (side : Bool) (lb : Bool)
  /-- COPY (R242). -/
  | copy (o : CopyOp)
  /-- COPYX (R242). -/
  | copyx (o : CopyOp)
  /-- TLOAD (R249). -/
  | tload (o : LoadOp)
  /-- PLOAD (R249). -/
  | pload (o : LoadOp)
  /-- DLOAD (R249). -/
  | dload (o : LoadOp)
  /-- INTAKE (R385). -/
  | intake (o : LoadOp)
  /-- SHSET (R240). -/
  | shset (sh : BitVec 3) (field : BitVec 5) (xs : BitVec 4)
  /-- SHSETI (R240). -/
  | shseti (sh : BitVec 3) (field : BitVec 5) (imm : BitVec 16)
  /-- BUNDLE_ISSUE (R104). -/
  | bundleIssue (core : Nat)
  /-- BIN_AGED (R103). -/
  | binAged (core : Nat) (bin : Nat)
  /-- LOAD_VALUE_ARRIVES (R112). -/
  | loadValueArrives (flight : Nat)
  /-- SWAP_COMMIT (R426). -/
  | swapCommit (group : Nat)
  /-- PAGE_REQUEST_POST (R377). -/
  | pageRequestPost (req : Nat)
  /-- PRRESP_WRITE (R377). -/
  | prrespWrite (id : BitVec 16) (refuse : Bool)
  /-- WAIT_PARK_CANDIDATE (R29). -/
  | waitParkCandidate (group : Nat)
  /-- PARK_GROUP (R332). -/
  | parkGroup (group : Nat)
  /-- UNPARK_GROUP (R332). -/
  | unparkGroup (group : Nat)
  /-- GROUP_END (R130). -/
  | groupEnd (group : Nat)
  /-- SIPHON_COMMAND_START (R235). -/
  | siphonCommandStart (core : Nat)
  /-- TIMED_COPY_START_TIME (R236). -/
  | timedCopyStartTime (cmd : Nat)
  /-- MATRIX_COMMAND_START (R255). -/
  | matrixCommandStart (core : Nat)
  /-- COMMAND_RETIRE (R26). -/
  | commandRetire (cmd : Nat)
  /-- FRAME_GRANT (R285). -/
  | frameGrant (core : Nat) (lane : Nat)
  /-- SPILL_TIMEOUT (R286). -/
  | spillTimeout (core : Nat) (lane : Nat)
  /-- REFILL (R288). -/
  | refill (core : Nat) (lane : Nat)
  /-- WRITE_PERFORMS (R301). -/
  | writePerforms (core : Nat) (write : Nat)
  /-- LINE_EVICTION (R363). -/
  | lineEviction (core : Nat) (line : Nat)
  /-- PROMOTION_AT_VICTIM (R225). -/
  | promotionAtVictim (prom : Nat)
  /-- PROMOTION_ACK (R225). -/
  | promotionAck (prom : Nat)
  /-- LAUNCH_WINDOW_WRITE (R323). -/
  | launchWindowWrite (tenant : BitVec 6) (cell : BitVec 5) (off : BitVec 7) (bytes : List (BitVec 8))
  /-- LAUNCH_WINDOW_READ (R323). -/
  | launchWindowRead (tenant : BitVec 6) (cell : BitVec 5) (off : BitVec 7) (len : Nat)
  /-- LAUNCH_BATCH_ACCEPT (R224). -/
  | launchBatchAccept (batch : Nat)
  /-- MEMORY_CONDITION_POLL (R326). -/
  | memoryConditionPoll (launch : Nat)
  /-- QUEUE_AGING (R328). -/
  | queueAging (tenant : BitVec 6) (level : BitVec 3)
  /-- PLACE_GANG (R329). -/
  | placeGang (cores : List Nat)
  /-- PREEMPT (R333). -/
  | preempt (cluster : Nat)
  /-- PREEMPT_DEADLINE (R333). -/
  | preemptDeadline (group : Nat)
  /-- CONTEXT_SAVE (R353). -/
  | contextSave (group : Nat)
  /-- CONTEXT_RESTORE (R355). -/
  | contextRestore (group : Nat) (cores : List Nat)
  /-- LAUNCH_COMPLETE (R335). -/
  | launchComplete (launch : Nat)
  /-- LAUNCH_ABORT (R337). -/
  | launchAbort (launch : Nat)
  /-- TABOWN_WRITE (R185). -/
  | tabownWrite (core : Nat) (hi : Bool) (value : BitVec 64)
  /-- REGISTER_WRITE (R6). -/
  | registerWrite (off : Nat) (size : Nat) (value : BitVec 64)
  /-- SERVICE_ENTRY (R358). -/
  | serviceEntry (core : Nat)
  /-- SERVICE_DEADLINE (R358). -/
  | serviceDeadline (core : Nat)
  /-- PFADD (R369). -/
  | pfadd (frame : BitVec 28)
  /-- PFDEL (R369). -/
  | pfdel (frame : BitVec 28)
  /-- UNCORRECTABLE_ERROR (R368). -/
  | uncorrectableError (addr : Nat) (met : ErrMet)
  /-- SCRUB (R367). -/
  | scrub (stack : Nat) (found : Option (BitVec 28))
  /-- TLBINV_ASID (R375). -/
  | tlbinvAsid (asid : BitVec 16)
  /-- TLBINV_RANGE (R375). -/
  | tlbinvRange (asid : BitVec 16) (count : BitVec 24)
  /-- TLBINV_ALL (R375). -/
  | tlbinvAll
  /-- TLB_INVALIDATION_DONE (R376). -/
  | tlbInvalidationDone
  /-- SNADD (R381). -/
  | snadd (dom : BitVec 4) (first : BitVec 24) (count : BitVec 24)
  /-- SNREM (R381). -/
  | snrem (dom : BitVec 4) (first : BitVec 24) (count : BitVec 24)
  /-- SNAP (R382). -/
  | snap (dom : BitVec 4)
  /-- SNOUT (R384). -/
  | snout (dom : BitVec 4)
  /-- SNSTOP (R381). -/
  | snstop (dom : BitVec 4)
  /-- SNPOOL_WRITE (R380). -/
  | snpoolWrite (value : BitVec 64)
  /-- COPY_BEFORE_WRITE (R383). -/
  | copyBeforeWrite (page : Nat)
  /-- DRAIN_PAGE_SEND (R384). -/
  | drainPageSend (dom : BitVec 4)
  /-- DRAIN_PAGE_ACK (R384). -/
  | drainPageAck (dom : BitVec 4) (page : Nat)
  /-- DRAIN_TARGET_FAIL (R381). -/
  | drainTargetFail (dom : BitVec 4)
  /-- LINK_RETRAIN (R391). -/
  | linkRetrain (port : BitVec 4) (lanes : Nat)
  /-- LINK_FAIL (R396). -/
  | linkFail (port : BitVec 4)
  /-- REMOTE_LOAD_REQUEST (R315). -/
  | remoteLoadRequest (src : Nat) (id : Nat) (addr : Nat) (len : Nat)
  /-- REMOTE_LOAD_RESPONSE (R211). -/
  | remoteLoadResponse (id : Nat) (bytes : List (BitVec 8))
  /-- FST_APPLY (R222). -/
  | fstApply (src : Nat) (id : Nat) (addr : Nat) (data : BitVec 128)
  /-- FST_ACK (R221). -/
  | fstAck (id : Nat)
  /-- FSIG_APPLY (R223). -/
  | fsigApply (src : Nat) (id : Nat) (handle : BitVec 64) (inc : Nat)
  /-- FSIG_FORWARD (R395). -/
  | fsigForward (src : Nat) (id : Nat) (handle : BitVec 64) (inc : Nat) (hops : Nat)
  /-- TARGET_LOST (R397). -/
  | targetLost (pkg : Nat)
  /-- TX_STAGE (R404). -/
  | txStage (msg : FabName) (handle : BitVec 32) (place : TxPlace) (data : BitVec 128)
  /-- TX_STAGE_ACK (R405). -/
  | txStageAck (handle : BitVec 32) (msg : FabName) (doom : Option (BitVec 32))
  /-- TX_PREPARE (R405). -/
  | txPrepare (msg : FabName) (handle : BitVec 32)
  /-- TX_VOTE (R405). -/
  | txVote (handle : BitVec 32) (msg : FabName) (no : Option (BitVec 32))
  /-- TX_VOTE_TIMEOUT (R405). -/
  | txVoteTimeout (handle : BitVec 32)
  /-- TX_DECISION (R406). -/
  | txDecision (msg : FabName) (handle : BitVec 32) (commit : Bool)
  /-- TX_APPLY_ACK (R405). -/
  | txApplyAck (handle : BitVec 32) (msg : FabName)
  /-- TX_PART_TIMEOUT (R407). -/
  | txPartTimeout (coord : Nat) (handle : BitVec 32)
  /-- TX_RECOVERY (R407). -/
  | txRecovery (coord : Nat) (handle : BitVec 32) (commit : Bool)
  /-- HOST_ACCESS (R399). -/
  | hostAccess (addr : Nat) (op : BusOp)
  /-- HOST_SNOOP (R400). -/
  | hostSnoop (line : Nat)
  /-- PACKAGE_RESET (R432). -/
  | packageReset
  /-- DIE_ENUMERATE (R433). -/
  | dieEnumerate (die : BitVec 8) (table : List (BitVec 8))
  /-- DIE_ISOLATE (R437). -/
  | dieIsolate (die : BitVec 8)
  /-- DIE_REJOIN (R436). -/
  | dieRejoin (die : BitVec 8)
  /-- DIE_INTERNAL_ERROR (R436). -/
  | dieInternalError (die : BitVec 8)
  /-- ISOLATION_COMPLETE (R436). -/
  | isolationComplete (die : BitVec 8) (lost : List (BitVec 28))
  /-- ISLAND_FREQ_WRITE (R439). -/
  | islandFreqWrite (island : BitVec 7) (freq : BitVec 7)
  /-- ISLAND_GATE (R440). -/
  | islandGate (island : BitVec 7)
  /-- ISLAND_GATED (R440). -/
  | islandGated (island : BitVec 7)
  /-- ISLAND_UNGATE (R440). -/
  | islandUngate (island : BitVec 7)
  /-- THROTTLE (R441). -/
  | throttle (lower : Bool)
  /-- FATAL_ERROR (R450). -/
  | fatalError (cause : BitVec 8) (detail : BitVec 64)
  /-- BOOT (R444). -/
  | boot (hub : List (BitVec 8)) (service : List (BitVec 8)) (hart : List (BitVec 8))
  /-- FIRMWARE_VERIFY (R443). -/
  | firmwareVerify (image : List (BitVec 8))
  /-- CLAIM (R445). -/
  | claim (term : Nat) (sender : Nat) (key : BootKey)
  /-- LEASE (R445). -/
  | lease (term : Nat) (sender : Nat)
  /-- LOAD (R445). -/
  | load (term : Nat) (sender : Nat) (off : Nat) (bytes : List (BitVec 8))
  /-- DONE (R445). -/
  | done (term : Nat) (sender : Nat)
  /-- LEASE_TIMEOUT (R445). -/
  | leaseTimeout
  /-- CLAIM_TIMEOUT (R445). -/
  | claimTimeout
  /-- LEASE_PERIOD (R445). -/
  | leasePeriod
  /-- MGMT_DIE (R447). -/
  | mgmtDie (op : BitVec 4) (die : BitVec 8)
  /-- MGMT_ISLAND (R447). -/
  | mgmtIsland (island : BitVec 7) (freq : BitVec 7) (gate : Bool)
  /-- MGMT_MONITOR (R447). -/
  | mgmtMonitor (mon : BitVec 5) (cfg : Option (BitVec 64))
  /-- MGMT_KEY_SLOT (R447). -/
  | mgmtKeySlot (slot : BitVec 8) (tenant : BitVec 6) (wrapped : List (BitVec 8))
  /-- MGMT_SERVICE_STORE (R447). -/
  | mgmtServiceStore (image : List (BitVec 8))
  /-- MGMT_IMAGE (R447). -/
  | mgmtImage (image : List (BitVec 8))
  /-- MGMT_DUMP (R447). -/
  | mgmtDump
  /-- GET_VERSION (R446). -/
  | getVersion
  /-- GET_CAPABILITIES (R446). -/
  | getCapabilities
  /-- NEGOTIATE_ALGORITHMS (R446). -/
  | negotiateAlgorithms (offersP384 : Bool) (offersSha384 : Bool)
  /-- GET_DIGESTS (R446). -/
  | getDigests
  /-- GET_CERTIFICATE (R446). -/
  | getCertificate (slot : Nat) (off : Nat) (len : Nat)
  /-- CHALLENGE (R446). -/
  | challenge (slot : Nat) (nonce : Nat)
  /-- GET_MEASUREMENTS (R446). -/
  | getMeasurements (index : Nat)
  /-- MONITOR_SAMPLE (R448). -/
  | monitorSample (mon : BitVec 5) (value : BitVec 64)
  /-- MONITOR_CLEAR (R448). -/
  | monitorClear (mon : BitVec 5)
  /-- LINK_UP (R390). -/
  | linkUp (port : BitVec 4) (width : BitVec 2)
  /-- FSIG_ACK (R221). -/
  | fsigAck (id : Nat) (void : Bool)
  /-- HART_ACCESS (R318). -/
  | hartAccess (hart : Nat) (addr : Nat) (op : HartOp)
  /-- PCIE_MEMORY_REQUEST (R364). -/
  | pcieMemoryRequest (port : Nat) (addr : Nat) (op : BusOp)
  /-- DIRECTORY_RESPONSE (R400). -/
  | directoryResponse (ask : DirAsk)
  /-- ISLAND_CHANGE_COMPLETE (R440). -/
  | islandChangeComplete (island : BitVec 7)
  deriving DecidableEq, Repr, Inhabited

end Sys2Proof
end

