-- ==== Sys2Proof/Word.lean ====
section
/-! DEFINITION. The word types of the LZ1 and their plainest arithmetic. -/

namespace Sys2Proof

/-- A byte of memory. -/
abbrev Byte := BitVec 8

/-- A 32-bit v register word (R275) or code word. -/
abbrev Word := BitVec 32

/-- A 64-bit x register, address or hub register. -/
abbrev DWord := BitVec 64

/-- A 16-byte value: the widest register operand and the lane value of a flight record (R351). -/
abbrev QWord := BitVec 128

/-- A mask with one bit per home lane (R16). -/
abbrev LaneMask := BitVec 32

end Sys2Proof
end

