-- ==== Sys2Proof/Config.lean ====
section
/-! DEFINITION. What an implementation fixes and what the manual leaves free. Every free value is an opaque constant
without a body: no proof can see what it is, and a claim holds whatever it is (log entry 6). -/

namespace Sys2Proof.Config

/-- The step that comes next when the agenda is empty (log entry 2): the manual fixes no order between agents. -/
opaque nextEvent : Nat → Instr

/-- Reference cycles that pass before a step (log entry 3): the manual fixes no duration of most steps. -/
opaque elapsed : Nat → Nat

/-- Whether an access uses a cached translation (R374), which a PTE change may have made stale: by turn, page and entry. -/
opaque useCachedPte : Nat → Nat → DWord → Bool

/-- Whether a walk takes a non-leaf entry that the hub's walk caches keep (R374): by turn, the entry's own address and the
entry. -/
opaque useCachedWalk : Nat → Nat → DWord → Bool

/-- Which line a full L1 evicts for a new one (R205): by turn. -/
opaque l1Victim : Nat → Nat

/-- Whether a piece of an outstanding load is read before the event of a turn (R112, R302, R305): by turn, access, thread
and place in the value. -/
opaque readsNow : Nat → Nat → Nat → Nat → Bool

/-- The scope at which a pending write performs next (R300, R301): 1 the cluster, 2 the die, else every scope: by turn. -/
opaque performsTo : Nat → Nat

/-- Whether a fetch returns the copy of a fetch block that its core keeps (R427): by turn and block. -/
opaque useFetchCopy : Nat → Nat → Bool

/-- A byte of another package or of a host that a load made by RESUME.SLOTS or DSWAP returns (R71, R424): by turn and
physical address. -/
opaque farByte : Nat → Nat → Byte

/-- A byte that the hub reads at a physical address outside device memory (R361): by turn and address. -/
opaque voidByte : Nat → Nat → Byte

/-- Whether a copy command reads a write of its own group that has not performed at its scope (R312): by turn and
8-byte unit. -/
opaque copySees : Nat → Nat → Bool

/-- How many elements of a copy, or chunks of a load's image, are read in one step of it (R312): by turn. -/
opaque copySteps : Nat → Nat

/-- The detail word of a stream record whose status gives it no meaning (R253): by opcode and status. -/
opaque recordDetail : Nat → Nat → BitVec 64

/-- How many output blocks an INTAKE that stops has written by then, if it made as many (R389): by turn. -/
opaque intakeWritten : Nat → Nat

/-- A transaction handle (R403): by turn. -/
opaque txHandle : Nat → Nat

/-- The identifier of a page request (R377): by turn. -/
opaque requestId : Nat → Nat

/-- Bytes of the group-state section of a context part (R354), whose layout the manual does not give: of the values
that it holds. -/
opaque groupSection : List Nat → List Byte

/-- The values that bytes of the group-state section hold which the save did not write there (R354). -/
opaque groupValues : List Byte → List Nat

/-- Bytes of a command's entry in a context part (R354), whose layout the manual does not give: of the values that it
holds. -/
opaque commandSection : List Nat → List Byte

/-- The values that a command's entry holds which the save did not write there (R354). -/
opaque commandValues : List Byte → List Nat

/-- Address ranges that the hub assigns a die at enumeration (R11): by die, base and size. -/
opaque dieRanges : Nat → List (Nat × Nat)

/-- The first hub message queue identifier that the hub assigns a die (R11): by turn and die. -/
opaque dieQueue : Nat → Nat → Nat

/-- Whether a store-conditional of an LZ1-P hart fails although its reservation stands, which RVWMO allows (R318): by
turn. -/
opaque scFails : Nat → Bool

/-- Whether a target's transaction buffer can hold another 16 bytes (R404): by turn. -/
opaque txRoom : Nat → Bool

/-- A byte of an intake key slot beyond the key that was loaded, where a cipher of R387 wants a longer one: by its place. -/
opaque slotByte : Nat → Byte

/-- Fused SHA-384 values of the two public keys (R443): 0 ECDSA, 1 LMS. -/
opaque fusedKeyHash : Nat → List Byte

/-- Fused minimum security version of an image type (R443). -/
opaque fusedSvn : Nat → Nat

/-- The device's key-wrapping key (R447). -/
opaque keyWrapKey : List Byte

/-- SPDM answers whose bytes the standard and the device's certificates fix (R446): request code and argument. -/
opaque spdmBytes : Nat → Nat → List Byte

/-- Module strap BOOTSRC (R444), 0 module flash, 1 pod boot leader, 2 side-band port. -/
opaque bootsrc : Nat

/-- This package's election key and whether it is a candidate by strap (R445). -/
opaque bootKey : BootKey

/-- Bytes of host memory that the package's own walker reads (R370): by turn and physical address. -/
opaque hostByte : Nat → Nat → Byte

/-- The firmware's device-private mapping that service code translates through (R356): page of a virtual address to
page of a physical address. -/
opaque servicePage : Nat → Option Nat

/-- POD and PKG of FBID, which firmware sets at boot (R392). -/
opaque bootFbid : Nat

end Sys2Proof.Config
end

