-- ==== Sys2Proof/WellFormed.lean ====
section
/-! DEFINITION. Which decoded slot operations are instructions: the limits that R49 and R52 to R65 put on field values.
A slot whose fields break one of them is a reserved encoding (R66). The events of the table have no encoding and no
limits. -/

namespace Sys2Proof

/-- A guard leaf of 5 or 6 is reserved (R49). -/
def Guard.wf (g : Guard) : Bool := g.leaf != 5 && g.leaf != 6

/-- The special registers of R138. -/
def srReadable (n : Nat) : Bool :=
  decide (n ≤ 0x00A) || n == 0x010 || n == 0x011 || (decide (0x020 ≤ n) && decide (n ≤ 0x023)) || n == 0x030 ||
  (decide (0x040 ≤ n) && decide (n ≤ 0x047)) || (decide (0x050 ≤ n) && decide (n ≤ 0x054)) ||
  (decide (0x060 ≤ n) && decide (n ≤ 0x062)) || (decide (0x070 ≤ n) && decide (n ≤ 0x073)) || n == 0x080

/-- The special registers that SETSR may write (R138). -/
def srWritable (n : Nat) : Bool :=
  (decide (0x020 ≤ n) && decide (n ≤ 0x022)) || (decide (0x050 ≤ n) && decide (n ≤ 0x054))

/-- Element width in bits of a TYPE code (R58). -/
def typeWidth (ty : Nat) : Nat := if ty = 0 ∨ ty = 1 ∨ ty = 6 then 32 else if ty = 2 ∨ ty = 3 then 16 else 8

/-- Class A: TYPE 000 to 101. -/
def AOp.wf (o : AOp) : Bool := o.g.wf && decide (o.ty.toNat ≤ 5)

/-- An opcode that takes no source b. -/
def AOp.noB (o : AOp) : Bool := o.b == .reg 0

/-- VMOV moves VA or IMM8. With IMM = 1 the register field it does not use is zero (R52). -/
def AOp.movB (o : AOp) : Bool :=
  match o.b with
  | .reg r => r == 0
  | .imm _ => o.va == 0

/-- An immediate shift amount lies below the element width. -/
def AOp.shiftB (o : AOp) : Bool :=
  match o.b with
  | .reg _ => true
  | .imm i => decide (i.toNat < typeWidth o.ty.toNat)

/-- Class Q. -/
def QOp.wf (o : QOp) : Bool :=
  o.g.wf && o.pd != 0 &&
  match o.b with
  | .reg _ => decide (o.ty.toNat ≤ 6)
  | .imm _ => decide (o.ty.toNat ≤ 5)

/-- Class F and H: the guard only. -/
def FOp.wf (o : FOp) : Bool := o.g.wf

/-- Element width in bits of a conversion's format code, 0 where the code is not allowed (R58, R65). -/
def cvtWidth (fmt : Nat) : Nat :=
  if fmt = 1 ∨ fmt = 2 then 16
  else if fmt = 3 ∨ fmt = 4 ∨ fmt = 18 then 8
  else if fmt = 5 ∨ fmt = 6 then 6
  else if fmt = 7 then 4
  else 0

/-- A conversion's format is allowed and its element position lies in the word. -/
def cvtFits (fmt pos : Nat) : Bool := cvtWidth fmt != 0 && decide (pos < 32 / cvtWidth fmt)

def CvtOp.wf (o : CvtOp) : Bool := o.g.wf && cvtFits o.fmt.toNat o.pos.toNat

/-- The key of VMATCH lies in the word (R177): its width is 4 bits per width code step. -/
def keyFits : Option (BitVec 5 × BitVec 3) → Bool
  | none => true
  | some (p, w) => decide (p.toNat + 4 * (w.toNat + 1) ≤ 32)

/-- Mode and quorum of VVOTE (R177). -/
def voteFits (mode : BitVec 2) (quorum : BitVec 6) : Bool :=
  mode != 3 && decide (quorum.toNat ≤ 32) && (mode != 2 || quorum == 0)

/-- Loads and stores: HINT 0 to 3, and VI = 0 in the base-only form. -/
def MOp.wf (o : MOp) : Bool := o.g.wf && decide (o.hint.toNat ≤ 3) && (o.ix || o.vi == 0)

/-- The data register is a multiple of n. -/
def MOp.aligned (o : MOp) (n : Nat) : Bool := decide (o.data.toNat % n = 0)

/-- A node-plane format code (R65). -/
def isNp (f : Nat) : Bool := decide (11 ≤ f) && decide (f ≤ 17)

/-- The format combinations of R61; `late` says that code 31 stands for one still to be resolved. -/
def mmaFits (fa fb : Nat) (mid : Bool) : Bool :=
  ((decide (1 ≤ fa) && decide (fa ≤ 17)) || fa == 31) && ((decide (1 ≤ fb) && decide (fb ≤ 10)) || fb == 31) &&
  (!isNp fa || fb == 8 || fb == 9 || fb == 31) && (!mid || isNp fa || fa == 31)

/-- The well-formed instructions. -/
def Instr.wf (i : Instr) : Bool :=
  match i with
  | .bundleIssue _ => true
  | .binAged _ _ => true
  | .loadValueArrives _ => true
  | .swapCommit _ => true
  | .pageRequestPost _ => true
  | .prrespWrite _ _ => true
  | .waitParkCandidate _ => true
  | .parkGroup _ => true
  | .unparkGroup _ => true
  | .br tests _ => decide (tests.length ≤ 4)
  | .call _ _ _ _ => true
  | .calli _ _ _ => true
  | .ret _ => true
  | .unwind _ => true
  | .unwindMark => true
  | .reform => true
  | .bar => true
  | .exit => true
  | .groupEnd _ => true
  | .loop _ _ rot => decide (rot.toNat ≤ 4)
  | .loopL1 _ => true
  | .lend1 => true
  | .trap _ _ _ => true
  | .svc _ => true
  | .brk _ => true
  | .add _ _ _ g => g.wf
  | .sub _ _ _ g => g.wf
  | .mul _ _ _ g => g.wf
  | .mulh _ _ _ g => g.wf
  | .mulhu _ _ _ g => g.wf
  | .min _ _ _ g => g.wf
  | .max _ _ _ g => g.wf
  | .minu _ _ _ g => g.wf
  | .maxu _ _ _ g => g.wf
  | .and _ _ _ g => g.wf
  | .or _ _ _ g => g.wf
  | .xor _ _ _ g => g.wf
  | .andn _ _ _ g => g.wf
  | .sll _ _ _ g => g.wf
  | .srl _ _ _ g => g.wf
  | .sra _ _ _ g => g.wf
  | .addImm _ _ _ g => g.wf
  | .mulImm _ _ _ g => g.wf
  | .andImm _ _ _ g => g.wf
  | .orImm _ _ _ g => g.wf
  | .xorImm _ _ _ g => g.wf
  | .sllImm _ _ _ g => g.wf
  | .srlImm _ _ _ g => g.wf
  | .sraImm _ _ _ g => g.wf
  | .sh1add _ _ _ g => g.wf
  | .sh2add _ _ _ g => g.wf
  | .sh3add _ _ _ g => g.wf
  | .clz _ _ g => g.wf
  | .ctz _ _ g => g.wf
  | .popc _ _ g => g.wf
  | .bext _ _ _ g => g.wf
  | .bextu _ _ _ g => g.wf
  | .bins _ _ _ g => g.wf
  | .cmpeq pd _ _ g => g.wf && pd != 0
  | .cmpne pd _ _ g => g.wf && pd != 0
  | .cmplt pd _ _ g => g.wf && pd != 0
  | .cmpltu pd _ _ g => g.wf && pd != 0
  | .cmple pd _ _ g => g.wf && pd != 0
  | .cmpleu pd _ _ g => g.wf && pd != 0
  | .cmpeqImm pd _ _ g => g.wf && pd != 0
  | .cmpneImm pd _ _ g => g.wf && pd != 0
  | .cmpltImm pd _ _ g => g.wf && pd != 0
  | .cmpltuImm pd _ _ g => g.wf && pd != 0
  | .cmpgtImm pd _ _ g => g.wf && pd != 0
  | .cmpgtuImm pd _ _ g => g.wf && pd != 0
  | .sel _ _ _ _ _ g => g.wf
  | .limm _ => true
  | .adr _ _ g => g.wf
  | .tgtLabel _ _ g => g.wf
  | .tgtReg _ _ g => g.wf
  | .getsr _ sr g => g.wf && srReadable sr.toNat
  | .setsr sr _ g => g.wf && srWritable sr.toNat
  | .semset _ _ g => g.wf
  | .semadd _ _ g => g.wf
  | .semwait _ _ g => g.wf
  | .tagwa _ g => g.wf
  | .tagwl _ g => g.wf
  | .tagff _ _ g => g.wf
  | .tsel _ _ g => g.wf
  | .pswap g => g.wf
  | .ftset _ _ g => g.wf
  | .sqrd _ _ g => g.wf
  | .resumeSlots _ _ g => g.wf
  | .dswap _ g => g.wf
  | .vadd o => o.wf
  | .vsub o => o.wf
  | .vmul o => o.wf
  | .vmulh o => o.wf && !o.sat
  | .vmad o => o.wf
  | .vdot4 o => o.wf && (o.ty == 4 || o.ty == 5)
  | .vmin o => o.wf && !o.sat
  | .vmax o => o.wf && !o.sat
  | .vabs o => o.wf && o.noB
  | .vand o => o.wf && !o.sat
  | .vor o => o.wf && !o.sat
  | .vxor o => o.wf && !o.sat
  | .vandn o => o.wf && !o.sat
  | .vshl o => o.wf && !o.sat && o.shiftB
  | .vshr o => o.wf && !o.sat && o.shiftB
  | .vclz o => o.wf && !o.sat && o.noB
  | .vpopc o => o.wf && !o.sat && o.noB
  | .vmov o => o.wf && !o.sat && o.movB
  | .vcmpeq o => o.wf
  | .vcmpne o => o.wf
  | .vcmplt o => o.wf
  | .vcmple o => o.wf
  | .vsel _ _ _ _ _ g => g.wf
  | .vfadd o => o.wf
  | .vfsub o => o.wf
  | .vfmul o => o.wf
  | .vfma o => o.wf
  | .vfmin o => o.wf
  | .vfmax o => o.wf
  | .vfabs _ _ g => g.wf
  | .vfneg _ _ g => g.wf
  | .vhadd o => o.wf
  | .vhsub o => o.wf
  | .vhmul o => o.wf
  | .vhfma o => o.wf
  | .vbadd o => o.wf
  | .vbsub o => o.wf
  | .vbmul o => o.wf
  | .vbfma o => o.wf
  | .vcvtf o _ => o.wf
  | .vcvts o => o.wf
  | .vcvtx _ _ fmt pos g => g.wf && cvtFits fmt.toNat pos.toNat
  | .vftoi _ _ _ _ _ g => g.wf
  | .vitof _ _ _ _ g => g.wf
  | .vcvth _ _ _ _ _ _ g => g.wf
  | .vnps _ va _ g => g.wf && decide (va.toNat + 7 ≤ 255)
  | .vnpm vd _ _ g => g.wf && decide (vd.toNat + 7 ≤ 255)
  | .vshfl _ _ _ width g => g.wf && decide (width.toNat ≤ 5)
  | .vperm _ _ _ g => g.wf
  | .vmatch _ _ key g => g.wf && keyFits key
  | .vballot _ _ _ g => g.wf
  | .vvote pd _ mode quorum g => g.wf && pd != 0 && voteFits mode quorum
  | .vscan _ _ op _ ty g => g.wf && op != 3 && decide (ty.toNat ≤ 6)
  | .vred _ _ op ty g => g.wf && op != 3 && decide (ty.toNat ≤ 6)
  | .vbcast _ _ _ g => g.wf
  | .vaccrd _ _ _ _ g => g.wf
  | .vaccwr _ _ _ _ g => g.wf
  | .tokv _ g => g.wf
  | .tokm _ g => g.wf
  | .vxtov _ _ _ g => g.wf
  | .vvtox _ _ _ g => g.wf
  | .fev _ _ _ g => g.wf
  | .fevE2 _ _ _ g => g.wf
  | .fevL2 _ _ _ g => g.wf
  | .fevRc _ _ _ g => g.wf
  | .fevRs _ _ _ g => g.wf
  | .fevPd _ _ _ g => g.wf
  | .fseg _ _ _ g => g.wf
  | .fdom pd _ _ g => g.wf && pd != 0
  | .ldZ8 o => o.wf
  | .ldS8 o => o.wf
  | .ldZ16 o => o.wf
  | .ldS16 o => o.wf
  | .ld32 o => o.wf
  | .ld64 o => o.wf && o.aligned 2
  | .ld128 o => o.wf && o.aligned 4
  | .ldA16 o => o.wf && o.aligned 4
  | .ldsZ8 o => o.wf && o.hint == 0
  | .ldsS8 o => o.wf && o.hint == 0
  | .ldsZ16 o => o.wf && o.hint == 0
  | .ldsS16 o => o.wf && o.hint == 0
  | .lds32 o => o.wf && o.hint == 0
  | .lds64 o => o.wf && o.aligned 2 && o.hint == 0
  | .lds128 o => o.wf && o.aligned 4 && o.hint == 0
  | .ldsA16 o => o.wf && o.aligned 4 && o.hint == 0
  | .st8 o => o.wf
  | .st16 o => o.wf
  | .st32 o => o.wf
  | .st64 o => o.wf && o.aligned 2
  | .st128 o => o.wf && o.aligned 4
  | .stA16 o => o.wf && o.aligned 4
  | .sts8 o => o.wf && o.hint == 0
  | .sts16 o => o.wf && o.hint == 0
  | .sts32 o => o.wf && o.hint == 0
  | .sts64 o => o.wf && o.aligned 2 && o.hint == 0
  | .sts128 o => o.wf && o.aligned 4 && o.hint == 0
  | .stsA16 o => o.wf && o.aligned 4 && o.hint == 0
  | .atomAdd o => o.g.wf
  | .atomMin o => o.g.wf
  | .atomMax o => o.g.wf
  | .atomMinu o => o.g.wf
  | .atomMaxu o => o.g.wf
  | .atomAnd o => o.g.wf
  | .atomOr o => o.g.wf
  | .atomXor o => o.g.wf
  | .atomExch o => o.g.wf
  | .atomCas o => o.g.wf && decide (o.data.toNat % 2 = 0)
  | .atomFaddF32 o => o.g.wf
  | .atomFaddBf16X2 o => o.g.wf
  | .atomsAdd o => o.g.wf
  | .atomsMin o => o.g.wf
  | .atomsMax o => o.g.wf
  | .atomsMinu o => o.g.wf
  | .atomsMaxu o => o.g.wf
  | .atomsAnd o => o.g.wf
  | .atomsOr o => o.g.wf
  | .atomsXor o => o.g.wf
  | .atomsExch o => o.g.wf
  | .atomsCas o => o.g.wf && decide (o.data.toNat % 2 = 0)
  | .atomsFaddF32 o => o.g.wf
  | .atomsFaddBf16X2 o => o.g.wf
  | .pref _ _ hint g => g.wf && decide (hint.toNat ≤ 3)
  | .clean _ _ g => g.wf
  | .inval _ _ g => g.wf
  | .icinv _ g => g.wf
  | .fenceAcq g => g.wf
  | .fenceRel g => g.wf
  | .fenceAr g => g.wf
  | .fenceSc g => g.wf
  | .fenceCp g => g.wf
  | .drain g => g.wf
  | .fst o => o.g.wf && decide (o.data.toNat % 4 = 0)
  | .fsig _ inc g => g.wf && decide (1 ≤ inc.toNat) && decide (inc.toNat ≤ 511)
  | .launch data _ g => g.wf && decide (data.toNat % 2 = 0)
  | .acqProm _ g => g.wf
  | .txbegin _ _ g => g.wf
  | .txst o => o.g.wf && decide (o.data.toNat % 4 = 0)
  | .txcommit _ g => g.wf
  | .txabort g => g.wf
  | .mma o => mmaFits o.fa.toNat o.fb.toNat o.mid
  | .accz _ _ => true
  | .mst _ _ _ _ fmt => decide (fmt.toNat ≤ 2)
  | .mld _ _ _ _ => true
  | .msync _ => true
  | .mstat _ _ _ => true
  | .scla _ _ => true
  | .sclb _ _ => true
  | .sclz _ _ => true
  | .copy o => o.mask != 0 && decide (o.xform.toNat ≤ 3)
  | .copyx o => o.mask != 0 && decide (o.xform.toNat ≤ 3)
  | .tload _ => true
  | .pload _ => true
  | .dload _ => true
  | .intake _ => true
  | .shset _ field _ => decide (field.toNat ≤ 17)
  | .shseti _ field _ => decide (field.toNat ≤ 17)
  | .siphonCommandStart _ => true
  | .timedCopyStartTime _ => true
  | .matrixCommandStart _ => true
  | .commandRetire _ => true
  | .frameGrant _ _ => true
  | .spillTimeout _ _ => true
  | .refill _ _ => true
  | .writePerforms _ _ => true
  | .lineEviction _ _ => true
  | .promotionAtVictim _ => true
  | .promotionAck _ => true
  | .launchWindowWrite _ _ _ _ => true
  | .launchWindowRead _ _ _ _ => true
  | .launchBatchAccept _ => true
  | .memoryConditionPoll _ => true
  | .queueAging _ _ => true
  | .placeGang _ => true
  | .preempt _ => true
  | .preemptDeadline _ => true
  | .contextSave _ => true
  | .contextRestore _ _ => true
  | .launchComplete _ => true
  | .launchAbort _ => true
  | .tabownWrite _ _ _ => true
  | .registerWrite _ _ _ => true
  | .serviceEntry _ => true
  | .serviceDeadline _ => true
  | .pfadd _ => true
  | .pfdel _ => true
  | .uncorrectableError _ _ => true
  | .scrub _ _ => true
  | .tlbinvAsid _ => true
  | .tlbinvRange _ _ => true
  | .tlbinvAll => true
  | .tlbInvalidationDone => true
  | .snadd _ _ _ => true
  | .snrem _ _ _ => true
  | .snap _ => true
  | .snout _ => true
  | .snstop _ => true
  | .snpoolWrite _ => true
  | .copyBeforeWrite _ => true
  | .drainPageSend _ => true
  | .drainPageAck _ _ => true
  | .drainTargetFail _ => true
  | .linkRetrain _ _ => true
  | .linkFail _ => true
  | .remoteLoadRequest _ _ _ _ => true
  | .remoteLoadResponse _ _ => true
  | .fstApply _ _ _ _ => true
  | .fstAck _ => true
  | .fsigApply _ _ _ _ => true
  | .fsigForward _ _ _ _ _ => true
  | .targetLost _ => true
  | .txStage _ _ _ _ => true
  | .txStageAck _ _ _ => true
  | .txPrepare _ _ => true
  | .txVote _ _ _ => true
  | .txVoteTimeout _ => true
  | .txDecision _ _ _ => true
  | .txApplyAck _ _ => true
  | .txPartTimeout _ _ => true
  | .txRecovery _ _ _ => true
  | .hostAccess _ _ => true
  | .hostSnoop _ => true
  | .packageReset => true
  | .dieEnumerate _ _ => true
  | .dieIsolate _ => true
  | .dieRejoin _ => true
  | .dieInternalError _ => true
  | .isolationComplete _ _ => true
  | .islandFreqWrite _ _ => true
  | .islandGate _ => true
  | .islandGated _ => true
  | .islandUngate _ => true
  | .throttle _ => true
  | .fatalError _ _ => true
  | .boot _ _ _ => true
  | .firmwareVerify _ => true
  | .claim _ _ _ => true
  | .lease _ _ => true
  | .load _ _ _ _ => true
  | .done _ _ => true
  | .leaseTimeout => true
  | .claimTimeout => true
  | .leasePeriod => true
  | .mgmtDie _ _ => true
  | .mgmtIsland _ _ _ => true
  | .mgmtMonitor _ _ => true
  | .mgmtKeySlot _ _ _ => true
  | .mgmtServiceStore _ => true
  | .mgmtImage _ => true
  | .mgmtDump => true
  | .getVersion => true
  | .getCapabilities => true
  | .negotiateAlgorithms _ _ => true
  | .getDigests => true
  | .getCertificate _ _ _ => true
  | .challenge _ _ => true
  | .getMeasurements _ => true
  | .monitorSample _ _ => true
  | .monitorClear _ => true
  | .linkUp _ _ => true
  | .fsigAck _ _ => true
  | .hartAccess _ _ _ => true
  | .pcieMemoryRequest _ _ _ => true
  | .directoryResponse _ => true
  | .islandChangeComplete _ => true

end Sys2Proof
end

