-- ==== Sys2Proof/Decode.lean ====
section
/-! DEFINITION. The decoder of slots and bundles, total on any bits, and the encoder, both written from the encoding
tables of 02 (R45 to R64). Each slot class has a structure of raw fields, a split of the slot's bits into them and a
join; the opcode maps work on the fields. -/

namespace Sys2Proof

/-- Bits [lo + n - 1 : lo]. -/
def bitsOf {w : Nat} (x : BitVec w) (lo n : Nat) : BitVec n := x.extractLsb' lo n

/-- Bit [i]. -/
def bitAt {w : Nat} (x : BitVec w) (i : Nat) : Bool := x.getLsbD i

/-- The guard byte of R49. -/
def guardOf (g : BitVec 8) : Guard := ⟨bitAt g 7, bitsOf g 3 4, bitsOf g 0 3⟩

/-- The bits of a guard. -/
def Guard.bits (g : Guard) : BitVec 8 := BitVec.ofBool g.sense ++ g.pred ++ g.leaf

/-- Source b of a vector slot: VB, or IMM8 when IMM is 1. -/
def srcOf (imm : Bool) (vb : BitVec 8) : VSrc := if imm then .imm vb else .reg vb

def VSrc.isImm : VSrc → Bool
  | .reg _ => false
  | .imm _ => true

def VSrc.bits : VSrc → BitVec 8
  | .reg r => r
  | .imm i => i

/-- The key field of VMATCH (R177): IMM8 [4:0] its lowest bit, [7:5] its width code. -/
def keyOf (imm : Bool) (vb : BitVec 8) : Option (BitVec 5 × BitVec 3) :=
  if imm then some (bitsOf vb 0 5, bitsOf vb 5 3) else none

def keyBits : Option (BitVec 5 × BitVec 3) → BitVec 8
  | none => 0
  | some (p, w) => w ++ p

/-! ### Slot classes and their raw fields (R51) -/

/-- The classes of slots. -/
inductive SlotKind where
  | br | s | v | f | m | x | c | h | k
  deriving DecidableEq, Repr, Inhabited

/-- The class of a PRES bit (R46): 0 BR, 1 S0, 2 S1, 3 to 5 V, 6 F, 7 and 8 M, 9 X, 10 C, 11 H, 12 K. -/
def kindOf : Nat → SlotKind
  | 0 => .br
  | 1 => .s
  | 2 => .s
  | 3 => .v
  | 4 => .v
  | 5 => .v
  | 6 => .f
  | 7 => .m
  | 8 => .m
  | 9 => .x
  | 10 => .c
  | 11 => .h
  | _ => .k

/-- Parcels of a slot (R47). -/
def SlotKind.parcels : SlotKind → Nat
  | .br => 4
  | .s => 2
  | .v => 3
  | .f => 2
  | .m => 3
  | .x => 4
  | .c => 4
  | .h => 2
  | .k => 2

/-- S slot. -/
structure SFields where
  xb : BitVec 9
  xa : BitVec 4
  xd : BitVec 4
  g : BitVec 8
  op : BitVec 7
  deriving DecidableEq, Repr, Inhabited

/-- V slot. -/
structure VFields where
  sat : Bool
  imm : Bool
  rnd : BitVec 2
  ty : BitVec 3
  vb : BitVec 8
  va : BitVec 8
  vd : BitVec 8
  g : BitVec 8
  op : BitVec 9
  deriving DecidableEq, Repr, Inhabited

/-- F slot. -/
structure FFields where
  tb : BitVec 3
  va : BitVec 8
  vd : BitVec 8
  g : BitVec 8
  op : BitVec 5
  deriving DecidableEq, Repr, Inhabited

/-- M slot. -/
structure MFields where
  hint : BitVec 3
  off : BitVec 10
  vi : BitVec 8
  xb : BitVec 4
  data : BitVec 8
  g : BitVec 8
  op : BitVec 7
  deriving DecidableEq, Repr, Inhabited

/-- X slot without its two zero bits. -/
structure XFields where
  lb : Bool
  mid : Bool
  zf : Bool
  kb : BitVec 4
  fb : BitVec 5
  fa : BitVec 5
  xb : BitVec 4
  xa : BitVec 4
  tile : BitVec 3
  h : Sync
  op : BitVec 6
  deriving DecidableEq, Repr, Inhabited

/-- C slot without its two zero bits. -/
structure CFields where
  timed : Bool
  xform : BitVec 3
  mask : BitVec 5
  ch : BitVec 2
  tag : BitVec 6
  xd : BitVec 4
  xs : BitVec 4
  sh : BitVec 3
  h : Sync
  op : BitVec 6
  deriving DecidableEq, Repr, Inhabited

/-- H slot. -/
structure HFields where
  imm : BitVec 16
  xs : BitVec 4
  field : BitVec 5
  sh : BitVec 3
  op : BitVec 4
  deriving DecidableEq, Repr, Inhabited

/-- K slot without its zero bits. -/
structure KFields where
  lb : Bool
  side : Bool
  xa : BitVec 4
  op : BitVec 4
  deriving DecidableEq, Repr, Inhabited

def splitS (w : BitVec 32) : SFields := ⟨bitsOf w 23 9, bitsOf w 19 4, bitsOf w 15 4, bitsOf w 7 8, bitsOf w 0 7⟩
def joinS (f : SFields) : BitVec 32 := f.xb ++ f.xa ++ f.xd ++ f.g ++ f.op

def splitV (w : BitVec 48) : VFields :=
  ⟨bitAt w 47, bitAt w 46, bitsOf w 44 2, bitsOf w 41 3, bitsOf w 33 8, bitsOf w 25 8, bitsOf w 17 8, bitsOf w 9 8,
   bitsOf w 0 9⟩
def joinV (f : VFields) : BitVec 48 :=
  BitVec.ofBool f.sat ++ BitVec.ofBool f.imm ++ f.rnd ++ f.ty ++ f.vb ++ f.va ++ f.vd ++ f.g ++ f.op

def splitF (w : BitVec 32) : FFields := ⟨bitsOf w 29 3, bitsOf w 21 8, bitsOf w 13 8, bitsOf w 5 8, bitsOf w 0 5⟩
def joinF (f : FFields) : BitVec 32 := f.tb ++ f.va ++ f.vd ++ f.g ++ f.op

def splitM (w : BitVec 48) : MFields :=
  ⟨bitsOf w 45 3, bitsOf w 35 10, bitsOf w 27 8, bitsOf w 23 4, bitsOf w 15 8, bitsOf w 7 8, bitsOf w 0 7⟩
def joinM (f : MFields) : BitVec 48 := f.hint ++ f.off ++ f.vi ++ f.xb ++ f.data ++ f.g ++ f.op

/-- The wait and signal fields, bits [33:6] of X and C slots. -/
def splitSync (w : BitVec 64) : Sync := ⟨bitsOf w 6 8, bitsOf w 14 8, bitsOf w 22 8, bitsOf w 30 4⟩

def splitX (w : BitVec 64) : XFields :=
  ⟨bitAt w 61, bitAt w 60, bitAt w 59, bitsOf w 55 4, bitsOf w 50 5, bitsOf w 45 5, bitsOf w 41 4, bitsOf w 37 4,
   bitsOf w 34 3, splitSync w, bitsOf w 0 6⟩
def joinX (f : XFields) : BitVec 64 :=
  (0 : BitVec 2) ++ BitVec.ofBool f.lb ++ BitVec.ofBool f.mid ++ BitVec.ofBool f.zf ++ f.kb ++ f.fb ++ f.fa ++ f.xb ++
    f.xa ++ f.tile ++ f.h.inc ++ f.h.ssem ++ f.h.wth ++ f.h.wsem ++ f.op

def splitC (w : BitVec 64) : CFields :=
  ⟨bitAt w 61, bitsOf w 58 3, bitsOf w 53 5, bitsOf w 51 2, bitsOf w 45 6, bitsOf w 41 4, bitsOf w 37 4, bitsOf w 34 3,
   splitSync w, bitsOf w 0 6⟩
def joinC (f : CFields) : BitVec 64 :=
  (0 : BitVec 2) ++ BitVec.ofBool f.timed ++ f.xform ++ f.mask ++ f.ch ++ f.tag ++ f.xd ++ f.xs ++ f.sh ++ f.h.inc ++
    f.h.ssem ++ f.h.wth ++ f.h.wsem ++ f.op

def splitH (w : BitVec 32) : HFields := ⟨bitsOf w 16 16, bitsOf w 12 4, bitsOf w 7 5, bitsOf w 4 3, bitsOf w 0 4⟩
def joinH (f : HFields) : BitVec 32 := f.imm ++ f.xs ++ f.field ++ f.sh ++ f.op

def splitK (w : BitVec 32) : KFields := ⟨bitAt w 9, bitAt w 8, bitsOf w 4 4, bitsOf w 0 4⟩
def joinK (f : KFields) : BitVec 32 := (0 : BitVec 22) ++ BitVec.ofBool f.lb ++ BitVec.ofBool f.side ++ f.xa ++ f.op

/-! ### Branch trees (R53): bits [63:4] of a BR slot, `r` -/

/-- One test of a tree from its 8 bits: predicate [7:4], sense [3], target [2:0]. -/
def testOf (t : BitVec 8) : Test := ⟨bitsOf t 4 4, bitAt t 3, bitsOf t 0 3⟩

def Test.bits (t : Test) : BitVec 8 := t.pred ++ BitVec.ofBool t.sense ++ t.breg

/-- The tests of a tree: the count is r[2:0] and test t lies at r[10 + 8t : 3 + 8t]. -/
def testsOf (n : Nat) : List Test :=
  let t0 := testOf (BitVec.ofNat 8 (n / 2 ^ 3))
  let t1 := testOf (BitVec.ofNat 8 (n / 2 ^ 11))
  let t2 := testOf (BitVec.ofNat 8 (n / 2 ^ 19))
  let t3 := testOf (BitVec.ofNat 8 (n / 2 ^ 27))
  match n % 8 with
  | 0 => []
  | 1 => [t0]
  | 2 => [t0, t1]
  | 3 => [t0, t1, t2]
  | _ => [t0, t1, t2, t3]

/-- The bits [63:4] of a tree. -/
def brBits (tests : List Test) (file : Bool) : BitVec 60 :=
  BitVec.ofNat 60 (tests.length + 2 ^ 35 * file.toNat +
    (match tests with
     | [] => 0
     | [a] => a.bits.toNat * 2 ^ 3
     | [a, b] => a.bits.toNat * 2 ^ 3 + b.bits.toNat * 2 ^ 11
     | [a, b, c] => a.bits.toNat * 2 ^ 3 + b.bits.toNat * 2 ^ 11 + c.bits.toNat * 2 ^ 19
     | a :: b :: c :: d :: _ =>
       a.bits.toNat * 2 ^ 3 + b.bits.toNat * 2 ^ 11 + c.bits.toNat * 2 ^ 19 + d.bits.toNat * 2 ^ 27))

/-! ### Opcode maps -/

/-- BR kinds (R53): bits [3:0] the kind, [63:4] the rest `r`. UNWIND is split by its mode bit, LOOP by its level. -/
def mapBr (kind : BitVec 4) (r : BitVec 60) : Option Instr :=
  match kind.toNat with
  | 0x0 => if r.toNat % 8 ≤ 4 ∧ r.toNat % 2 ^ 35 / 2 ^ (3 + 8 * (r.toNat % 8)) = 0 ∧ r.toNat / 2 ^ 36 = 0 then some (.br (testsOf r.toNat) (bitAt r 35)) else none
  | 0x1 => if bitsOf r 11 49 = 0 then some (.call (bitsOf r 0 3) (bitsOf r 3 4) (bitsOf r 7 3) (bitAt r 10)) else none
  | 0x2 => if bitsOf r 8 52 = 0 then some (.calli (bitsOf r 0 4) (bitsOf r 4 3) (bitAt r 7)) else none
  | 0x3 => if bitsOf r 3 57 = 0 then some (.ret (bitsOf r 0 3)) else none
  | 0x4 => 
    if bitsOf r 5 55 ≠ 0 then none
    else if bitAt r 0 then (if bitsOf r 1 4 = 0 then some .unwindMark else none)
    else some (.unwind (bitsOf r 1 4))
  | 0x5 => if r = 0 then some (.reform) else none
  | 0x6 => if r = 0 then some (.bar) else none
  | 0x7 => if r = 0 then some (.exit) else none
  | 0x8 => 
    if bitsOf r 16 44 ≠ 0 then none
    else if bitAt r 15 then (if bitsOf r 4 11 = 0 then some (.loopL1 (bitsOf r 0 4)) else none)
    else some (.loop (bitsOf r 0 4) (bitsOf r 4 8) (bitsOf r 12 3))
  | 0x9 => if r = 0 then some (.lend1) else none
  | 0xA => if bitsOf r 13 47 = 0 then some (.trap (bitsOf r 0 8) (bitsOf r 8 4) (bitAt r 12)) else none
  | 0xB => if bitsOf r 16 44 = 0 then some (.svc (bitsOf r 0 16)) else none
  | 0xC => if bitsOf r 8 52 = 0 then some (.brk (bitsOf r 0 8)) else none
  | _ => none

/-- S opcodes (R54, R55); LIMM, which has no guard, is decoded apart. -/
def mapS (f : SFields) : Option Instr :=
  match f.op.toNat with
  | 0x01 => if bitsOf f.xb 4 5 = 0 then some (.add f.xd f.xa (bitsOf f.xb 0 4) (guardOf f.g)) else none
  | 0x02 => if bitsOf f.xb 4 5 = 0 then some (.sub f.xd f.xa (bitsOf f.xb 0 4) (guardOf f.g)) else none
  | 0x03 => if bitsOf f.xb 4 5 = 0 then some (.mul f.xd f.xa (bitsOf f.xb 0 4) (guardOf f.g)) else none
  | 0x04 => if bitsOf f.xb 4 5 = 0 then some (.mulh f.xd f.xa (bitsOf f.xb 0 4) (guardOf f.g)) else none
  | 0x05 => if bitsOf f.xb 4 5 = 0 then some (.mulhu f.xd f.xa (bitsOf f.xb 0 4) (guardOf f.g)) else none
  | 0x06 => if bitsOf f.xb 4 5 = 0 then some (.min f.xd f.xa (bitsOf f.xb 0 4) (guardOf f.g)) else none
  | 0x07 => if bitsOf f.xb 4 5 = 0 then some (.max f.xd f.xa (bitsOf f.xb 0 4) (guardOf f.g)) else none
  | 0x08 => if bitsOf f.xb 4 5 = 0 then some (.minu f.xd f.xa (bitsOf f.xb 0 4) (guardOf f.g)) else none
  | 0x09 => if bitsOf f.xb 4 5 = 0 then some (.maxu f.xd f.xa (bitsOf f.xb 0 4) (guardOf f.g)) else none
  | 0x0A => if bitsOf f.xb 4 5 = 0 then some (.and f.xd f.xa (bitsOf f.xb 0 4) (guardOf f.g)) else none
  | 0x0B => if bitsOf f.xb 4 5 = 0 then some (.or f.xd f.xa (bitsOf f.xb 0 4) (guardOf f.g)) else none
  | 0x0C => if bitsOf f.xb 4 5 = 0 then some (.xor f.xd f.xa (bitsOf f.xb 0 4) (guardOf f.g)) else none
  | 0x0D => if bitsOf f.xb 4 5 = 0 then some (.andn f.xd f.xa (bitsOf f.xb 0 4) (guardOf f.g)) else none
  | 0x0E => if bitsOf f.xb 4 5 = 0 then some (.sll f.xd f.xa (bitsOf f.xb 0 4) (guardOf f.g)) else none
  | 0x0F => if bitsOf f.xb 4 5 = 0 then some (.srl f.xd f.xa (bitsOf f.xb 0 4) (guardOf f.g)) else none
  | 0x10 => if bitsOf f.xb 4 5 = 0 then some (.sra f.xd f.xa (bitsOf f.xb 0 4) (guardOf f.g)) else none
  | 0x11 => some (.addImm f.xd f.xa f.xb (guardOf f.g))
  | 0x12 => some (.mulImm f.xd f.xa f.xb (guardOf f.g))
  | 0x13 => some (.andImm f.xd f.xa f.xb (guardOf f.g))
  | 0x14 => some (.orImm f.xd f.xa f.xb (guardOf f.g))
  | 0x15 => some (.xorImm f.xd f.xa f.xb (guardOf f.g))
  | 0x16 => if bitsOf f.xb 6 3 = 0 then some (.sllImm f.xd f.xa (bitsOf f.xb 0 6) (guardOf f.g)) else none
  | 0x17 => if bitsOf f.xb 6 3 = 0 then some (.srlImm f.xd f.xa (bitsOf f.xb 0 6) (guardOf f.g)) else none
  | 0x18 => if bitsOf f.xb 6 3 = 0 then some (.sraImm f.xd f.xa (bitsOf f.xb 0 6) (guardOf f.g)) else none
  | 0x19 => if bitsOf f.xb 4 5 = 0 then some (.sh1add f.xd f.xa (bitsOf f.xb 0 4) (guardOf f.g)) else none
  | 0x1A => if bitsOf f.xb 4 5 = 0 then some (.sh2add f.xd f.xa (bitsOf f.xb 0 4) (guardOf f.g)) else none
  | 0x1B => if bitsOf f.xb 4 5 = 0 then some (.sh3add f.xd f.xa (bitsOf f.xb 0 4) (guardOf f.g)) else none
  | 0x1C => if f.xb = 0 then some (.clz f.xd f.xa (guardOf f.g)) else none
  | 0x1D => if f.xb = 0 then some (.ctz f.xd f.xa (guardOf f.g)) else none
  | 0x1E => if f.xb = 0 then some (.popc f.xd f.xa (guardOf f.g)) else none
  | 0x1F => if bitsOf f.xb 4 5 = 0 then some (.bext f.xd f.xa (bitsOf f.xb 0 4) (guardOf f.g)) else none
  | 0x20 => if bitsOf f.xb 4 5 = 0 then some (.bextu f.xd f.xa (bitsOf f.xb 0 4) (guardOf f.g)) else none
  | 0x21 => if bitsOf f.xb 4 5 = 0 then some (.bins f.xd f.xa (bitsOf f.xb 0 4) (guardOf f.g)) else none
  | 0x22 => if bitsOf f.xb 4 5 = 0 then some (.cmpeq f.xd f.xa (bitsOf f.xb 0 4) (guardOf f.g)) else none
  | 0x23 => if bitsOf f.xb 4 5 = 0 then some (.cmpne f.xd f.xa (bitsOf f.xb 0 4) (guardOf f.g)) else none
  | 0x24 => if bitsOf f.xb 4 5 = 0 then some (.cmplt f.xd f.xa (bitsOf f.xb 0 4) (guardOf f.g)) else none
  | 0x25 => if bitsOf f.xb 4 5 = 0 then some (.cmpltu f.xd f.xa (bitsOf f.xb 0 4) (guardOf f.g)) else none
  | 0x26 => if bitsOf f.xb 4 5 = 0 then some (.cmple f.xd f.xa (bitsOf f.xb 0 4) (guardOf f.g)) else none
  | 0x27 => if bitsOf f.xb 4 5 = 0 then some (.cmpleu f.xd f.xa (bitsOf f.xb 0 4) (guardOf f.g)) else none
  | 0x28 => some (.cmpeqImm f.xd f.xa f.xb (guardOf f.g))
  | 0x29 => some (.cmpneImm f.xd f.xa f.xb (guardOf f.g))
  | 0x2A => some (.cmpltImm f.xd f.xa f.xb (guardOf f.g))
  | 0x2B => some (.cmpltuImm f.xd f.xa f.xb (guardOf f.g))
  | 0x2C => some (.cmpgtImm f.xd f.xa f.xb (guardOf f.g))
  | 0x2D => some (.cmpgtuImm f.xd f.xa f.xb (guardOf f.g))
  | 0x2E => some (.sel f.xd (bitsOf f.xb 4 4) (bitAt f.xb 8) f.xa (bitsOf f.xb 0 4) (guardOf f.g))
  | 0x30 => if f.xa = 0 then some (.adr f.xd f.xb (guardOf f.g)) else none
  | 0x31 => if f.xa = 0 ∧ bitAt f.xd 3 = false then some (.tgtLabel (bitsOf f.xd 0 3) f.xb (guardOf f.g)) else none
  | 0x32 => if f.xb = 0 ∧ bitAt f.xd 3 = false then some (.tgtReg (bitsOf f.xd 0 3) f.xa (guardOf f.g)) else none
  | 0x33 => if f.xa = 0 then some (.getsr f.xd f.xb (guardOf f.g)) else none
  | 0x34 => if f.xd = 0 then some (.setsr f.xb f.xa (guardOf f.g)) else none
  | 0x35 => if f.xd = 0 ∧ bitAt f.xb 8 = false then some (.semset (bitsOf f.xb 0 8) f.xa (guardOf f.g)) else none
  | 0x36 => if f.xd = 0 ∧ bitAt f.xb 8 = false then some (.semadd (bitsOf f.xb 0 8) f.xa (guardOf f.g)) else none
  | 0x37 => if f.xd = 0 ∧ bitAt f.xb 8 = false then some (.semwait (bitsOf f.xb 0 8) f.xa (guardOf f.g)) else none
  | 0x38 => if f.xd = 0 ∧ f.xb = 0 then some (.tagwa f.xa (guardOf f.g)) else none
  | 0x39 => if f.xd = 0 ∧ f.xb = 0 then some (.tagwl f.xa (guardOf f.g)) else none
  | 0x3A => if f.xb = 0 then some (.tagff f.xd f.xa (guardOf f.g)) else none
  | 0x3B => if f.xb = 0 ∧ bitAt f.xd 3 = false then some (.tsel (bitsOf f.xd 0 3) f.xa (guardOf f.g)) else none
  | 0x3C => if f.xd = 0 ∧ f.xa = 0 ∧ f.xb = 0 then some (.pswap (guardOf f.g)) else none
  | 0x3D => if f.xd = 0 ∧ bitsOf f.xb 4 5 = 0 then some (.ftset (bitsOf f.xb 0 4) f.xa (guardOf f.g)) else none
  | 0x3E => if f.xa = 0 ∧ bitsOf f.xb 3 6 = 0 then some (.sqrd f.xd (bitsOf f.xb 0 3) (guardOf f.g)) else none
  | 0x3F => if f.xd = 0 ∧ bitsOf f.xb 4 5 = 0 then some (.resumeSlots f.xa (bitsOf f.xb 0 4) (guardOf f.g)) else none
  | 0x40 => if f.xd = 0 ∧ f.xb = 0 then some (.dswap f.xa (guardOf f.g)) else none
  | _ => none

/-- V opcodes (R57, R58). -/
def mapV (f : VFields) : Option Instr :=
  match f.op.toNat with
  | 0x01 => if f.rnd = 0 then some (.vadd ⟨f.vd, f.va, srcOf f.imm f.vb, f.ty, f.sat, guardOf f.g⟩) else none
  | 0x02 => if f.rnd = 0 then some (.vsub ⟨f.vd, f.va, srcOf f.imm f.vb, f.ty, f.sat, guardOf f.g⟩) else none
  | 0x03 => if f.rnd = 0 then some (.vmul ⟨f.vd, f.va, srcOf f.imm f.vb, f.ty, f.sat, guardOf f.g⟩) else none
  | 0x04 => if f.rnd = 0 then some (.vmulh ⟨f.vd, f.va, srcOf f.imm f.vb, f.ty, f.sat, guardOf f.g⟩) else none
  | 0x05 => if f.rnd = 0 then some (.vmad ⟨f.vd, f.va, srcOf f.imm f.vb, f.ty, f.sat, guardOf f.g⟩) else none
  | 0x06 => if f.rnd = 0 then some (.vdot4 ⟨f.vd, f.va, srcOf f.imm f.vb, f.ty, f.sat, guardOf f.g⟩) else none
  | 0x07 => if f.rnd = 0 then some (.vmin ⟨f.vd, f.va, srcOf f.imm f.vb, f.ty, f.sat, guardOf f.g⟩) else none
  | 0x08 => if f.rnd = 0 then some (.vmax ⟨f.vd, f.va, srcOf f.imm f.vb, f.ty, f.sat, guardOf f.g⟩) else none
  | 0x09 => if f.rnd = 0 then some (.vabs ⟨f.vd, f.va, srcOf f.imm f.vb, f.ty, f.sat, guardOf f.g⟩) else none
  | 0x0A => if f.rnd = 0 then some (.vand ⟨f.vd, f.va, srcOf f.imm f.vb, f.ty, f.sat, guardOf f.g⟩) else none
  | 0x0B => if f.rnd = 0 then some (.vor ⟨f.vd, f.va, srcOf f.imm f.vb, f.ty, f.sat, guardOf f.g⟩) else none
  | 0x0C => if f.rnd = 0 then some (.vxor ⟨f.vd, f.va, srcOf f.imm f.vb, f.ty, f.sat, guardOf f.g⟩) else none
  | 0x0D => if f.rnd = 0 then some (.vandn ⟨f.vd, f.va, srcOf f.imm f.vb, f.ty, f.sat, guardOf f.g⟩) else none
  | 0x0E => if f.rnd = 0 then some (.vshl ⟨f.vd, f.va, srcOf f.imm f.vb, f.ty, f.sat, guardOf f.g⟩) else none
  | 0x0F => if f.rnd = 0 then some (.vshr ⟨f.vd, f.va, srcOf f.imm f.vb, f.ty, f.sat, guardOf f.g⟩) else none
  | 0x10 => if f.rnd = 0 then some (.vclz ⟨f.vd, f.va, srcOf f.imm f.vb, f.ty, f.sat, guardOf f.g⟩) else none
  | 0x11 => if f.rnd = 0 then some (.vpopc ⟨f.vd, f.va, srcOf f.imm f.vb, f.ty, f.sat, guardOf f.g⟩) else none
  | 0x12 => if f.rnd = 0 then some (.vmov ⟨f.vd, f.va, srcOf f.imm f.vb, f.ty, f.sat, guardOf f.g⟩) else none
  | 0x13 => if f.rnd = 0 ∧ f.sat = false ∧ bitsOf f.vd 4 4 = 0 then some (.vcmpeq ⟨bitsOf f.vd 0 4, f.va, srcOf f.imm f.vb, f.ty, guardOf f.g⟩) else none
  | 0x14 => if f.rnd = 0 ∧ f.sat = false ∧ bitsOf f.vd 4 4 = 0 then some (.vcmpne ⟨bitsOf f.vd 0 4, f.va, srcOf f.imm f.vb, f.ty, guardOf f.g⟩) else none
  | 0x15 => if f.rnd = 0 ∧ f.sat = false ∧ bitsOf f.vd 4 4 = 0 then some (.vcmplt ⟨bitsOf f.vd 0 4, f.va, srcOf f.imm f.vb, f.ty, guardOf f.g⟩) else none
  | 0x16 => if f.rnd = 0 ∧ f.sat = false ∧ bitsOf f.vd 4 4 = 0 then some (.vcmple ⟨bitsOf f.vd 0 4, f.va, srcOf f.imm f.vb, f.ty, guardOf f.g⟩) else none
  | 0x17 => if f.sat = false ∧ f.imm = false then some (.vsel f.vd (bitsOf f.rnd 0 1 ++ f.ty) (bitAt f.rnd 1) f.va f.vb (guardOf f.g)) else none
  | 0x18 => if f.sat = false ∧ f.imm = false ∧ f.ty = 6 then some (.vfadd ⟨f.vd, f.va, f.vb, f.rnd, guardOf f.g⟩) else none
  | 0x19 => if f.sat = false ∧ f.imm = false ∧ f.ty = 6 then some (.vfsub ⟨f.vd, f.va, f.vb, f.rnd, guardOf f.g⟩) else none
  | 0x1A => if f.sat = false ∧ f.imm = false ∧ f.ty = 6 then some (.vfmul ⟨f.vd, f.va, f.vb, f.rnd, guardOf f.g⟩) else none
  | 0x1B => if f.sat = false ∧ f.imm = false ∧ f.ty = 6 then some (.vfma ⟨f.vd, f.va, f.vb, f.rnd, guardOf f.g⟩) else none
  | 0x1C => if f.sat = false ∧ f.imm = false ∧ f.ty = 6 then some (.vfmin ⟨f.vd, f.va, f.vb, f.rnd, guardOf f.g⟩) else none
  | 0x1D => if f.sat = false ∧ f.imm = false ∧ f.ty = 6 then some (.vfmax ⟨f.vd, f.va, f.vb, f.rnd, guardOf f.g⟩) else none
  | 0x1E => if f.sat = false ∧ f.imm = false ∧ f.ty = 6 ∧ f.rnd = 0 ∧ f.vb = 0 then some (.vfabs f.vd f.va (guardOf f.g)) else none
  | 0x1F => if f.sat = false ∧ f.imm = false ∧ f.ty = 6 ∧ f.rnd = 0 ∧ f.vb = 0 then some (.vfneg f.vd f.va (guardOf f.g)) else none
  | 0x20 => if f.sat = false ∧ f.imm = false ∧ f.ty = 0 then some (.vhadd ⟨f.vd, f.va, f.vb, f.rnd, guardOf f.g⟩) else none
  | 0x21 => if f.sat = false ∧ f.imm = false ∧ f.ty = 0 then some (.vhsub ⟨f.vd, f.va, f.vb, f.rnd, guardOf f.g⟩) else none
  | 0x22 => if f.sat = false ∧ f.imm = false ∧ f.ty = 0 then some (.vhmul ⟨f.vd, f.va, f.vb, f.rnd, guardOf f.g⟩) else none
  | 0x23 => if f.sat = false ∧ f.imm = false ∧ f.ty = 0 then some (.vhfma ⟨f.vd, f.va, f.vb, f.rnd, guardOf f.g⟩) else none
  | 0x24 => if f.sat = false ∧ f.imm = false ∧ f.ty = 0 then some (.vbadd ⟨f.vd, f.va, f.vb, f.rnd, guardOf f.g⟩) else none
  | 0x25 => if f.sat = false ∧ f.imm = false ∧ f.ty = 0 then some (.vbsub ⟨f.vd, f.va, f.vb, f.rnd, guardOf f.g⟩) else none
  | 0x26 => if f.sat = false ∧ f.imm = false ∧ f.ty = 0 then some (.vbmul ⟨f.vd, f.va, f.vb, f.rnd, guardOf f.g⟩) else none
  | 0x27 => if f.sat = false ∧ f.imm = false ∧ f.ty = 0 then some (.vbfma ⟨f.vd, f.va, f.vb, f.rnd, guardOf f.g⟩) else none
  | 0x28 => if f.ty = 0 then some (.vcvtf ⟨f.vd, f.va, bitsOf f.vb 0 5, bitsOf f.vb 5 3, f.sat, f.imm, guardOf f.g⟩ f.rnd) else none
  | 0x29 => if f.ty = 0 ∧ f.rnd = 0 then some (.vcvts ⟨f.vd, f.va, bitsOf f.vb 0 5, bitsOf f.vb 5 3, f.sat, f.imm, guardOf f.g⟩) else none
  | 0x2A => if f.ty = 0 ∧ f.rnd = 0 ∧ f.sat = false ∧ f.imm = false then some (.vcvtx f.vd f.va (bitsOf f.vb 0 5) (bitsOf f.vb 5 3) (guardOf f.g)) else none
  | 0x2B => if bitsOf f.ty 1 2 = 0 ∧ f.imm = false ∧ f.vb = 0 then some (.vftoi f.vd f.va (bitAt f.ty 0) f.rnd f.sat (guardOf f.g)) else none
  | 0x2C => if bitsOf f.ty 1 2 = 0 ∧ f.imm = false ∧ f.vb = 0 ∧ f.sat = false then some (.vitof f.vd f.va (bitAt f.ty 0) f.rnd (guardOf f.g)) else none
  | 0x2D => if bitsOf f.ty 1 2 = 0 ∧ f.imm = false then some (.vcvth f.vd f.va f.vb (bitAt f.ty 0) f.rnd f.sat (guardOf f.g)) else none
  | 0x2E => if f.ty = 0 ∧ f.rnd = 0 ∧ f.sat = false ∧ f.imm = true ∧ bitsOf f.vb 3 5 = 0 then some (.vnps f.vd f.va (bitsOf f.vb 0 3) (guardOf f.g)) else none
  | 0x2F => if f.ty = 0 ∧ f.rnd = 0 ∧ f.sat = false ∧ f.imm = true ∧ bitsOf f.vb 3 5 = 0 then some (.vnpm f.vd f.va (bitsOf f.vb 0 3) (guardOf f.g)) else none
  | 0x30 => if f.rnd = 0 ∧ f.sat = false then some (.vshfl f.vd f.va (srcOf f.imm f.vb) f.ty (guardOf f.g)) else none
  | 0x31 => if f.rnd = 0 ∧ f.sat = false ∧ f.imm = true ∧ f.ty = 0 ∧ bitsOf f.vb 6 2 = 0 then some (.vperm f.vd f.va (bitsOf f.vb 0 6) (guardOf f.g)) else none
  | 0x32 => if f.rnd = 0 ∧ f.sat = false ∧ f.ty = 0 ∧ (f.imm = true ∨ f.vb = 0) then some (.vmatch f.vd f.va (keyOf f.imm f.vb) (guardOf f.g)) else none
  | 0x33 => if f.rnd = 0 ∧ f.sat = false ∧ f.ty = 0 ∧ bitsOf f.va 4 4 = 0 ∧ f.vb = BitVec.zeroExtend 8 (BitVec.ofBool f.imm) then some (.vballot f.vd (bitsOf f.va 0 4) f.imm (guardOf f.g)) else none
  | 0x34 => if f.rnd = 0 ∧ f.sat = false ∧ f.imm = true ∧ f.ty = 0 ∧ bitsOf f.va 4 4 = 0 ∧ bitsOf f.vd 4 4 = 0 then some (.vvote (bitsOf f.vd 0 4) (bitsOf f.va 0 4) (bitsOf f.vb 6 2) (bitsOf f.vb 0 6) (guardOf f.g)) else none
  | 0x35 => if f.rnd = 0 ∧ f.sat = false ∧ f.imm = true ∧ bitsOf f.vb 3 5 = 0 then some (.vscan f.vd f.va (bitsOf f.vb 0 2) (bitAt f.vb 2) f.ty (guardOf f.g)) else none
  | 0x36 => if f.rnd = 0 ∧ f.sat = false ∧ f.imm = true ∧ bitsOf f.vb 2 6 = 0 then some (.vred f.vd f.va (bitsOf f.vb 0 2) f.ty (guardOf f.g)) else none
  | 0x37 => if f.rnd = 0 ∧ f.sat = false ∧ f.imm = true ∧ f.ty = 0 ∧ bitsOf f.vb 5 3 = 0 then some (.vbcast f.vd f.va (bitsOf f.vb 0 5) (guardOf f.g)) else none
  | 0x38 => if f.sat = false ∧ f.imm = false ∧ bitAt f.rnd 1 = false ∧ f.vb = 0 then some (.vaccrd f.vd f.ty (bitAt f.rnd 0) f.va (guardOf f.g)) else none
  | 0x39 => if f.sat = false ∧ f.imm = false ∧ bitAt f.rnd 1 = false ∧ f.vd = 0 then some (.vaccwr f.ty (bitAt f.rnd 0) f.va f.vb (guardOf f.g)) else none
  | 0x3A => if f.sat = false ∧ f.imm = false ∧ f.rnd = 0 ∧ f.vb = 0 ∧ f.va = 0 ∧ f.vd = 0 then some (.tokv f.ty (guardOf f.g)) else none
  | 0x3B => if f.sat = false ∧ f.imm = false ∧ f.rnd = 0 ∧ f.vb = 0 ∧ f.va = 0 ∧ f.vd = 0 then some (.tokm f.ty (guardOf f.g)) else none
  | 0x3C => if f.sat = false ∧ f.imm = false ∧ f.rnd = 0 ∧ f.vb = 0 ∧ bitsOf f.ty 1 2 = 0 ∧ bitsOf f.va 4 4 = 0 then some (.vxtov f.vd (bitsOf f.va 0 4) (bitAt f.ty 0) (guardOf f.g)) else none
  | 0x3D => if f.sat = false ∧ f.imm = false ∧ f.rnd = 0 ∧ f.vb = 0 ∧ bitsOf f.ty 1 2 = 0 ∧ bitsOf f.vd 4 4 = 0 then some (.vvtox (bitsOf f.vd 0 4) f.va (bitAt f.ty 0) (guardOf f.g)) else none
  | _ => none

/-- F opcodes (R59). -/
def mapF (f : FFields) : Option Instr :=
  match f.op.toNat with
  | 0x01 => some (.fev f.vd f.va f.tb (guardOf f.g))
  | 0x02 => some (.fevE2 f.vd f.va f.tb (guardOf f.g))
  | 0x03 => some (.fevL2 f.vd f.va f.tb (guardOf f.g))
  | 0x04 => some (.fevRc f.vd f.va f.tb (guardOf f.g))
  | 0x05 => some (.fevRs f.vd f.va f.tb (guardOf f.g))
  | 0x06 => some (.fevPd f.vd f.va f.tb (guardOf f.g))
  | 0x07 => some (.fseg f.vd f.va f.tb (guardOf f.g))
  | 0x08 => if bitsOf f.vd 4 4 = 0 then some (.fdom (bitsOf f.vd 0 4) f.va f.tb (guardOf f.g)) else none
  | _ => none

/-- M opcodes (R60). -/
def mapM (f : MFields) : Option Instr :=
  match f.op.toNat with
  | 0x00 => some (.ldZ8 ⟨f.data, f.xb, f.vi, false, f.off, f.hint, guardOf f.g⟩)
  | 0x01 => some (.ldS8 ⟨f.data, f.xb, f.vi, false, f.off, f.hint, guardOf f.g⟩)
  | 0x02 => some (.ldZ16 ⟨f.data, f.xb, f.vi, false, f.off, f.hint, guardOf f.g⟩)
  | 0x03 => some (.ldS16 ⟨f.data, f.xb, f.vi, false, f.off, f.hint, guardOf f.g⟩)
  | 0x04 => some (.ld32 ⟨f.data, f.xb, f.vi, false, f.off, f.hint, guardOf f.g⟩)
  | 0x05 => some (.ld64 ⟨f.data, f.xb, f.vi, false, f.off, f.hint, guardOf f.g⟩)
  | 0x06 => some (.ld128 ⟨f.data, f.xb, f.vi, false, f.off, f.hint, guardOf f.g⟩)
  | 0x07 => some (.ldA16 ⟨f.data, f.xb, f.vi, false, f.off, f.hint, guardOf f.g⟩)
  | 0x08 => some (.ldZ8 ⟨f.data, f.xb, f.vi, true, f.off, f.hint, guardOf f.g⟩)
  | 0x09 => some (.ldS8 ⟨f.data, f.xb, f.vi, true, f.off, f.hint, guardOf f.g⟩)
  | 0x0A => some (.ldZ16 ⟨f.data, f.xb, f.vi, true, f.off, f.hint, guardOf f.g⟩)
  | 0x0B => some (.ldS16 ⟨f.data, f.xb, f.vi, true, f.off, f.hint, guardOf f.g⟩)
  | 0x0C => some (.ld32 ⟨f.data, f.xb, f.vi, true, f.off, f.hint, guardOf f.g⟩)
  | 0x0D => some (.ld64 ⟨f.data, f.xb, f.vi, true, f.off, f.hint, guardOf f.g⟩)
  | 0x0E => some (.ld128 ⟨f.data, f.xb, f.vi, true, f.off, f.hint, guardOf f.g⟩)
  | 0x0F => some (.ldA16 ⟨f.data, f.xb, f.vi, true, f.off, f.hint, guardOf f.g⟩)
  | 0x10 => some (.ldsZ8 ⟨f.data, f.xb, f.vi, false, f.off, f.hint, guardOf f.g⟩)
  | 0x11 => some (.ldsS8 ⟨f.data, f.xb, f.vi, false, f.off, f.hint, guardOf f.g⟩)
  | 0x12 => some (.ldsZ16 ⟨f.data, f.xb, f.vi, false, f.off, f.hint, guardOf f.g⟩)
  | 0x13 => some (.ldsS16 ⟨f.data, f.xb, f.vi, false, f.off, f.hint, guardOf f.g⟩)
  | 0x14 => some (.lds32 ⟨f.data, f.xb, f.vi, false, f.off, f.hint, guardOf f.g⟩)
  | 0x15 => some (.lds64 ⟨f.data, f.xb, f.vi, false, f.off, f.hint, guardOf f.g⟩)
  | 0x16 => some (.lds128 ⟨f.data, f.xb, f.vi, false, f.off, f.hint, guardOf f.g⟩)
  | 0x17 => some (.ldsA16 ⟨f.data, f.xb, f.vi, false, f.off, f.hint, guardOf f.g⟩)
  | 0x18 => some (.ldsZ8 ⟨f.data, f.xb, f.vi, true, f.off, f.hint, guardOf f.g⟩)
  | 0x19 => some (.ldsS8 ⟨f.data, f.xb, f.vi, true, f.off, f.hint, guardOf f.g⟩)
  | 0x1A => some (.ldsZ16 ⟨f.data, f.xb, f.vi, true, f.off, f.hint, guardOf f.g⟩)
  | 0x1B => some (.ldsS16 ⟨f.data, f.xb, f.vi, true, f.off, f.hint, guardOf f.g⟩)
  | 0x1C => some (.lds32 ⟨f.data, f.xb, f.vi, true, f.off, f.hint, guardOf f.g⟩)
  | 0x1D => some (.lds64 ⟨f.data, f.xb, f.vi, true, f.off, f.hint, guardOf f.g⟩)
  | 0x1E => some (.lds128 ⟨f.data, f.xb, f.vi, true, f.off, f.hint, guardOf f.g⟩)
  | 0x1F => some (.ldsA16 ⟨f.data, f.xb, f.vi, true, f.off, f.hint, guardOf f.g⟩)
  | 0x20 => some (.st8 ⟨f.data, f.xb, f.vi, false, f.off, f.hint, guardOf f.g⟩)
  | 0x22 => some (.st16 ⟨f.data, f.xb, f.vi, false, f.off, f.hint, guardOf f.g⟩)
  | 0x24 => some (.st32 ⟨f.data, f.xb, f.vi, false, f.off, f.hint, guardOf f.g⟩)
  | 0x25 => some (.st64 ⟨f.data, f.xb, f.vi, false, f.off, f.hint, guardOf f.g⟩)
  | 0x26 => some (.st128 ⟨f.data, f.xb, f.vi, false, f.off, f.hint, guardOf f.g⟩)
  | 0x27 => some (.stA16 ⟨f.data, f.xb, f.vi, false, f.off, f.hint, guardOf f.g⟩)
  | 0x28 => some (.st8 ⟨f.data, f.xb, f.vi, true, f.off, f.hint, guardOf f.g⟩)
  | 0x2A => some (.st16 ⟨f.data, f.xb, f.vi, true, f.off, f.hint, guardOf f.g⟩)
  | 0x2C => some (.st32 ⟨f.data, f.xb, f.vi, true, f.off, f.hint, guardOf f.g⟩)
  | 0x2D => some (.st64 ⟨f.data, f.xb, f.vi, true, f.off, f.hint, guardOf f.g⟩)
  | 0x2E => some (.st128 ⟨f.data, f.xb, f.vi, true, f.off, f.hint, guardOf f.g⟩)
  | 0x2F => some (.stA16 ⟨f.data, f.xb, f.vi, true, f.off, f.hint, guardOf f.g⟩)
  | 0x30 => some (.sts8 ⟨f.data, f.xb, f.vi, false, f.off, f.hint, guardOf f.g⟩)
  | 0x32 => some (.sts16 ⟨f.data, f.xb, f.vi, false, f.off, f.hint, guardOf f.g⟩)
  | 0x34 => some (.sts32 ⟨f.data, f.xb, f.vi, false, f.off, f.hint, guardOf f.g⟩)
  | 0x35 => some (.sts64 ⟨f.data, f.xb, f.vi, false, f.off, f.hint, guardOf f.g⟩)
  | 0x36 => some (.sts128 ⟨f.data, f.xb, f.vi, false, f.off, f.hint, guardOf f.g⟩)
  | 0x37 => some (.stsA16 ⟨f.data, f.xb, f.vi, false, f.off, f.hint, guardOf f.g⟩)
  | 0x38 => some (.sts8 ⟨f.data, f.xb, f.vi, true, f.off, f.hint, guardOf f.g⟩)
  | 0x3A => some (.sts16 ⟨f.data, f.xb, f.vi, true, f.off, f.hint, guardOf f.g⟩)
  | 0x3C => some (.sts32 ⟨f.data, f.xb, f.vi, true, f.off, f.hint, guardOf f.g⟩)
  | 0x3D => some (.sts64 ⟨f.data, f.xb, f.vi, true, f.off, f.hint, guardOf f.g⟩)
  | 0x3E => some (.sts128 ⟨f.data, f.xb, f.vi, true, f.off, f.hint, guardOf f.g⟩)
  | 0x3F => some (.stsA16 ⟨f.data, f.xb, f.vi, true, f.off, f.hint, guardOf f.g⟩)
  | 0x40 => if f.hint = 0 then some (.atomAdd ⟨f.data, f.xb, f.vi, f.off, guardOf f.g⟩) else none
  | 0x41 => if f.hint = 0 then some (.atomMin ⟨f.data, f.xb, f.vi, f.off, guardOf f.g⟩) else none
  | 0x42 => if f.hint = 0 then some (.atomMax ⟨f.data, f.xb, f.vi, f.off, guardOf f.g⟩) else none
  | 0x43 => if f.hint = 0 then some (.atomMinu ⟨f.data, f.xb, f.vi, f.off, guardOf f.g⟩) else none
  | 0x44 => if f.hint = 0 then some (.atomMaxu ⟨f.data, f.xb, f.vi, f.off, guardOf f.g⟩) else none
  | 0x45 => if f.hint = 0 then some (.atomAnd ⟨f.data, f.xb, f.vi, f.off, guardOf f.g⟩) else none
  | 0x46 => if f.hint = 0 then some (.atomOr ⟨f.data, f.xb, f.vi, f.off, guardOf f.g⟩) else none
  | 0x47 => if f.hint = 0 then some (.atomXor ⟨f.data, f.xb, f.vi, f.off, guardOf f.g⟩) else none
  | 0x48 => if f.hint = 0 then some (.atomExch ⟨f.data, f.xb, f.vi, f.off, guardOf f.g⟩) else none
  | 0x49 => if f.hint = 0 then some (.atomCas ⟨f.data, f.xb, f.vi, f.off, guardOf f.g⟩) else none
  | 0x4A => if f.hint = 0 then some (.atomFaddF32 ⟨f.data, f.xb, f.vi, f.off, guardOf f.g⟩) else none
  | 0x4B => if f.hint = 0 then some (.atomFaddBf16X2 ⟨f.data, f.xb, f.vi, f.off, guardOf f.g⟩) else none
  | 0x50 => if f.hint = 0 then some (.atomsAdd ⟨f.data, f.xb, f.vi, f.off, guardOf f.g⟩) else none
  | 0x51 => if f.hint = 0 then some (.atomsMin ⟨f.data, f.xb, f.vi, f.off, guardOf f.g⟩) else none
  | 0x52 => if f.hint = 0 then some (.atomsMax ⟨f.data, f.xb, f.vi, f.off, guardOf f.g⟩) else none
  | 0x53 => if f.hint = 0 then some (.atomsMinu ⟨f.data, f.xb, f.vi, f.off, guardOf f.g⟩) else none
  | 0x54 => if f.hint = 0 then some (.atomsMaxu ⟨f.data, f.xb, f.vi, f.off, guardOf f.g⟩) else none
  | 0x55 => if f.hint = 0 then some (.atomsAnd ⟨f.data, f.xb, f.vi, f.off, guardOf f.g⟩) else none
  | 0x56 => if f.hint = 0 then some (.atomsOr ⟨f.data, f.xb, f.vi, f.off, guardOf f.g⟩) else none
  | 0x57 => if f.hint = 0 then some (.atomsXor ⟨f.data, f.xb, f.vi, f.off, guardOf f.g⟩) else none
  | 0x58 => if f.hint = 0 then some (.atomsExch ⟨f.data, f.xb, f.vi, f.off, guardOf f.g⟩) else none
  | 0x59 => if f.hint = 0 then some (.atomsCas ⟨f.data, f.xb, f.vi, f.off, guardOf f.g⟩) else none
  | 0x5A => if f.hint = 0 then some (.atomsFaddF32 ⟨f.data, f.xb, f.vi, f.off, guardOf f.g⟩) else none
  | 0x5B => if f.hint = 0 then some (.atomsFaddBf16X2 ⟨f.data, f.xb, f.vi, f.off, guardOf f.g⟩) else none
  | 0x60 => if f.vi = 0 ∧ f.data = 0 then some (.pref f.xb f.off f.hint (guardOf f.g)) else none
  | 0x61 => if f.hint = 0 ∧ f.vi = 0 ∧ f.data = 0 then some (.clean f.xb f.off (guardOf f.g)) else none
  | 0x62 => if f.hint = 0 ∧ f.vi = 0 ∧ f.data = 0 then some (.inval f.xb f.off (guardOf f.g)) else none
  | 0x63 => if f.hint = 0 ∧ f.vi = 0 ∧ f.data = 0 ∧ f.off = 0 then some (.icinv f.xb (guardOf f.g)) else none
  | 0x64 => if f.hint = 0 ∧ f.vi = 0 ∧ f.data = 0 ∧ f.off = 0 ∧ f.xb = 0 then some (.fenceAcq (guardOf f.g)) else none
  | 0x65 => if f.hint = 0 ∧ f.vi = 0 ∧ f.data = 0 ∧ f.off = 0 ∧ f.xb = 0 then some (.fenceRel (guardOf f.g)) else none
  | 0x66 => if f.hint = 0 ∧ f.vi = 0 ∧ f.data = 0 ∧ f.off = 0 ∧ f.xb = 0 then some (.fenceAr (guardOf f.g)) else none
  | 0x67 => if f.hint = 0 ∧ f.vi = 0 ∧ f.data = 0 ∧ f.off = 0 ∧ f.xb = 0 then some (.fenceSc (guardOf f.g)) else none
  | 0x68 => if f.hint = 0 ∧ f.vi = 0 ∧ f.data = 0 ∧ f.off = 0 ∧ f.xb = 0 then some (.drain (guardOf f.g)) else none
  | 0x69 => if f.hint = 0 then some (.fst ⟨f.data, f.xb, f.vi, f.off, guardOf f.g⟩) else none
  | 0x6A => if f.hint = 0 ∧ f.vi = 0 ∧ f.data = 0 then some (.fsig f.xb f.off (guardOf f.g)) else none
  | 0x6B => if f.hint = 0 ∧ f.vi = 0 ∧ f.off = 0 then some (.launch f.data f.xb (guardOf f.g)) else none
  | 0x6C => if f.hint = 0 ∧ f.vi = 0 ∧ f.data = 0 ∧ f.off = 0 then some (.acqProm f.xb (guardOf f.g)) else none
  | 0x6D => if f.hint = 0 ∧ f.vi = 0 ∧ f.off = 0 then some (.txbegin f.data f.xb (guardOf f.g)) else none
  | 0x6E => if f.hint = 0 then some (.txst ⟨f.data, f.xb, f.vi, f.off, guardOf f.g⟩) else none
  | 0x6F => if f.hint = 0 ∧ f.vi = 0 ∧ f.off = 0 ∧ f.xb = 0 then some (.txcommit f.data (guardOf f.g)) else none
  | 0x70 => if f.hint = 0 ∧ f.vi = 0 ∧ f.data = 0 ∧ f.off = 0 ∧ f.xb = 0 then some (.txabort (guardOf f.g)) else none
  | 0x71 => if f.hint = 0 ∧ f.vi = 0 ∧ f.data = 0 ∧ f.off = 0 ∧ f.xb = 0 then some (.fenceCp (guardOf f.g)) else none
  | _ => none

/-- X opcodes (R61). -/
def mapX (f : XFields) : Option Instr :=
  match f.op.toNat with
  | 0x01 => some (.mma ⟨f.h, f.tile, f.xa, f.xb, f.fa, f.fb, f.kb, f.zf, f.mid, f.lb⟩)
  | 0x02 => if f.lb = false ∧ f.mid = false ∧ f.zf = false ∧ f.kb = 0 ∧ f.fb = 0 ∧ f.fa = 0 ∧ f.xb = 0 ∧ f.xa = 0 then some (.accz f.h f.tile) else none
  | 0x03 => if f.lb = false ∧ f.mid = false ∧ f.zf = false ∧ f.kb = 0 ∧ f.fb = 0 then some (.mst f.h f.tile f.xa f.xb f.fa) else none
  | 0x04 => if f.lb = false ∧ f.mid = false ∧ f.zf = false ∧ f.kb = 0 ∧ f.fb = 0 ∧ f.fa = 0 then some (.mld f.h f.tile f.xa f.xb) else none
  | 0x05 => if f.lb = false ∧ f.mid = false ∧ f.zf = false ∧ f.kb = 0 ∧ f.fb = 0 ∧ f.fa = 0 ∧ f.xb = 0 ∧ f.xa = 0 ∧ f.tile = 0 then some (.msync f.h) else none
  | 0x06 => if f.lb = false ∧ f.mid = false ∧ f.zf = false ∧ f.kb = 0 ∧ f.fb = 0 ∧ f.fa = 0 ∧ f.xb = 0 then some (.mstat f.h f.tile f.xa) else none
  | _ => none

/-- C opcodes (R62). -/
def mapC (f : CFields) : Option Instr :=
  match f.op.toNat with
  | 0x01 => some (.copy ⟨⟨f.h, f.tag, f.ch, f.xs, f.xd⟩, f.sh, f.mask, f.xform, f.timed⟩)
  | 0x02 => some (.copyx ⟨⟨f.h, f.tag, f.ch, f.xs, f.xd⟩, f.sh, f.mask, f.xform, f.timed⟩)
  | 0x03 => if f.timed = false ∧ f.xform = 0 ∧ f.mask = 0 ∧ f.sh = 0 then some (.tload ⟨f.h, f.tag, f.ch, f.xs, f.xd⟩) else none
  | 0x04 => if f.timed = false ∧ f.xform = 0 ∧ f.mask = 0 ∧ f.sh = 0 then some (.pload ⟨f.h, f.tag, f.ch, f.xs, f.xd⟩) else none
  | 0x05 => if f.timed = false ∧ f.xform = 0 ∧ f.mask = 0 ∧ f.sh = 0 then some (.dload ⟨f.h, f.tag, f.ch, f.xs, f.xd⟩) else none
  | 0x06 => if f.timed = false ∧ f.xform = 0 ∧ f.mask = 0 ∧ f.sh = 0 then some (.intake ⟨f.h, f.tag, f.ch, f.xs, f.xd⟩) else none
  | _ => none

/-- H opcodes (R63). -/
def mapH (f : HFields) : Option Instr :=
  match f.op.toNat with
  | 0x01 => if f.imm = 0 then some (.shset f.sh f.field f.xs) else none
  | 0x02 => if f.xs = 0 then some (.shseti f.sh f.field f.imm) else none
  | _ => none

/-- K opcodes (R64). -/
def mapK (f : KFields) : Option Instr :=
  match f.op.toNat with
  | 0x01 => if f.side = false then some (.scla f.lb f.xa) else none
  | 0x02 => if f.side = true then some (.sclb f.lb f.xa) else none
  | 0x03 => if f.xa = 0 then some (.sclz f.side f.lb) else none
  | _ => none

/-! ### Slots -/

/-- Keep a candidate whose field values R52 to R65 allow. -/
def keepWf (c : Option Instr) : Option Instr :=
  match c with
  | some i => if i.wf then some i else none
  | none => none

/-- The candidate instruction of a slot's bits, before the limits on field values. -/
def rawDecode (k : SlotKind) (w : BitVec 64) : Option Instr :=
  match k with
  | .br => mapBr (bitsOf w 0 4) (bitsOf w 4 60)
  | .s => if bitsOf w 0 7 = 0x2F then some (.limm (bitsOf w 7 25)) else mapS (splitS (w.truncate 32))
  | .v => mapV (splitV (w.truncate 48))
  | .f => mapF (splitF (w.truncate 32))
  | .m => mapM (splitM (w.truncate 48))
  | .x => if bitsOf w 62 2 = 0 then mapX (splitX w) else none
  | .c => if bitsOf w 62 2 = 0 then mapC (splitC w) else none
  | .h => mapH (splitH (w.truncate 32))
  | .k => if bitsOf w 10 22 = 0 then mapK (splitK (w.truncate 32)) else none

/-- Decode one slot of a class from its bits, zero-extended to 64; `none` is a reserved encoding (R72). -/
def decodeSlot (k : SlotKind) (w : BitVec 64) : Option Instr := keepWf (rawDecode k w)

/-- Decode the slot at a PRES bit. LIMM is legal only in S1 (R56). -/
def decodeAt (pos : Nat) (w : BitVec 64) : Option Instr :=
  match decodeSlot (kindOf pos) w with
  | some (.limm imm) => if pos = 2 then some (.limm imm) else none
  | r => r

/-! ### The encoder -/

/-- The class and bits of an instruction; the events of the table have no encoding (log entry 11). -/
def encode (i : Instr) : Option (SlotKind × BitVec 64) :=
  match i with
  | .bundleIssue _ => none
  | .binAged _ _ => none
  | .loadValueArrives _ => none
  | .swapCommit _ => none
  | .pageRequestPost _ => none
  | .prrespWrite _ _ => none
  | .waitParkCandidate _ => none
  | .parkGroup _ => none
  | .unparkGroup _ => none
  | .br tests file => some (.br, (brBits tests file : BitVec 60) ++ (0x0 : BitVec 4))
  | .call b dem carry mark => some (.br, ((0 : BitVec 49) ++ BitVec.ofBool mark ++ carry ++ dem ++ b : BitVec 60) ++ (0x1 : BitVec 4))
  | .calli x carry mark => some (.br, ((0 : BitVec 52) ++ BitVec.ofBool mark ++ carry ++ x : BitVec 60) ++ (0x2 : BitVec 4))
  | .ret carry => some (.br, ((0 : BitVec 57) ++ carry : BitVec 60) ++ (0x3 : BitVec 4))
  | .unwind x => some (.br, ((0 : BitVec 55) ++ x ++ (0 : BitVec 1) : BitVec 60) ++ (0x4 : BitVec 4))
  | .unwindMark => some (.br, (1 : BitVec 60) ++ (0x4 : BitVec 4))
  | .reform => some (.br, (0 : BitVec 60) ++ (0x5 : BitVec 4))
  | .bar => some (.br, (0 : BitVec 60) ++ (0x6 : BitVec 4))
  | .exit => some (.br, (0 : BitVec 60) ++ (0x7 : BitVec 4))
  | .groupEnd _ => none
  | .loop x epi rot => some (.br, ((0 : BitVec 45) ++ rot ++ epi ++ x : BitVec 60) ++ (0x8 : BitVec 4))
  | .loopL1 x => some (.br, ((0 : BitVec 44) ++ (1 : BitVec 1) ++ (0 : BitVec 11) ++ x : BitVec 60) ++ (0x8 : BitVec 4))
  | .lend1 => some (.br, (0 : BitVec 60) ++ (0x9 : BitVec 4))
  | .trap code pred sense => some (.br, ((0 : BitVec 47) ++ BitVec.ofBool sense ++ pred ++ code : BitVec 60) ++ (0xA : BitVec 4))
  | .svc num => some (.br, ((0 : BitVec 44) ++ num : BitVec 60) ++ (0xB : BitVec 4))
  | .brk code => some (.br, ((0 : BitVec 52) ++ code : BitVec 60) ++ (0xC : BitVec 4))
  | .add xd xa xb g => some (.s, (joinS ⟨xb.zeroExtend 9, xa, xd, g.bits, 1⟩).zeroExtend 64)
  | .sub xd xa xb g => some (.s, (joinS ⟨xb.zeroExtend 9, xa, xd, g.bits, 2⟩).zeroExtend 64)
  | .mul xd xa xb g => some (.s, (joinS ⟨xb.zeroExtend 9, xa, xd, g.bits, 3⟩).zeroExtend 64)
  | .mulh xd xa xb g => some (.s, (joinS ⟨xb.zeroExtend 9, xa, xd, g.bits, 4⟩).zeroExtend 64)
  | .mulhu xd xa xb g => some (.s, (joinS ⟨xb.zeroExtend 9, xa, xd, g.bits, 5⟩).zeroExtend 64)
  | .min xd xa xb g => some (.s, (joinS ⟨xb.zeroExtend 9, xa, xd, g.bits, 6⟩).zeroExtend 64)
  | .max xd xa xb g => some (.s, (joinS ⟨xb.zeroExtend 9, xa, xd, g.bits, 7⟩).zeroExtend 64)
  | .minu xd xa xb g => some (.s, (joinS ⟨xb.zeroExtend 9, xa, xd, g.bits, 8⟩).zeroExtend 64)
  | .maxu xd xa xb g => some (.s, (joinS ⟨xb.zeroExtend 9, xa, xd, g.bits, 9⟩).zeroExtend 64)
  | .and xd xa xb g => some (.s, (joinS ⟨xb.zeroExtend 9, xa, xd, g.bits, 10⟩).zeroExtend 64)
  | .or xd xa xb g => some (.s, (joinS ⟨xb.zeroExtend 9, xa, xd, g.bits, 11⟩).zeroExtend 64)
  | .xor xd xa xb g => some (.s, (joinS ⟨xb.zeroExtend 9, xa, xd, g.bits, 12⟩).zeroExtend 64)
  | .andn xd xa xb g => some (.s, (joinS ⟨xb.zeroExtend 9, xa, xd, g.bits, 13⟩).zeroExtend 64)
  | .sll xd xa xb g => some (.s, (joinS ⟨xb.zeroExtend 9, xa, xd, g.bits, 14⟩).zeroExtend 64)
  | .srl xd xa xb g => some (.s, (joinS ⟨xb.zeroExtend 9, xa, xd, g.bits, 15⟩).zeroExtend 64)
  | .sra xd xa xb g => some (.s, (joinS ⟨xb.zeroExtend 9, xa, xd, g.bits, 16⟩).zeroExtend 64)
  | .addImm xd xa imm g => some (.s, (joinS ⟨imm, xa, xd, g.bits, 17⟩).zeroExtend 64)
  | .mulImm xd xa imm g => some (.s, (joinS ⟨imm, xa, xd, g.bits, 18⟩).zeroExtend 64)
  | .andImm xd xa imm g => some (.s, (joinS ⟨imm, xa, xd, g.bits, 19⟩).zeroExtend 64)
  | .orImm xd xa imm g => some (.s, (joinS ⟨imm, xa, xd, g.bits, 20⟩).zeroExtend 64)
  | .xorImm xd xa imm g => some (.s, (joinS ⟨imm, xa, xd, g.bits, 21⟩).zeroExtend 64)
  | .sllImm xd xa imm g => some (.s, (joinS ⟨imm.zeroExtend 9, xa, xd, g.bits, 22⟩).zeroExtend 64)
  | .srlImm xd xa imm g => some (.s, (joinS ⟨imm.zeroExtend 9, xa, xd, g.bits, 23⟩).zeroExtend 64)
  | .sraImm xd xa imm g => some (.s, (joinS ⟨imm.zeroExtend 9, xa, xd, g.bits, 24⟩).zeroExtend 64)
  | .sh1add xd xa xb g => some (.s, (joinS ⟨xb.zeroExtend 9, xa, xd, g.bits, 25⟩).zeroExtend 64)
  | .sh2add xd xa xb g => some (.s, (joinS ⟨xb.zeroExtend 9, xa, xd, g.bits, 26⟩).zeroExtend 64)
  | .sh3add xd xa xb g => some (.s, (joinS ⟨xb.zeroExtend 9, xa, xd, g.bits, 27⟩).zeroExtend 64)
  | .clz xd xa g => some (.s, (joinS ⟨0, xa, xd, g.bits, 28⟩).zeroExtend 64)
  | .ctz xd xa g => some (.s, (joinS ⟨0, xa, xd, g.bits, 29⟩).zeroExtend 64)
  | .popc xd xa g => some (.s, (joinS ⟨0, xa, xd, g.bits, 30⟩).zeroExtend 64)
  | .bext xd xa xb g => some (.s, (joinS ⟨xb.zeroExtend 9, xa, xd, g.bits, 31⟩).zeroExtend 64)
  | .bextu xd xa xb g => some (.s, (joinS ⟨xb.zeroExtend 9, xa, xd, g.bits, 32⟩).zeroExtend 64)
  | .bins xd xa xb g => some (.s, (joinS ⟨xb.zeroExtend 9, xa, xd, g.bits, 33⟩).zeroExtend 64)
  | .cmpeq pd xa xb g => some (.s, (joinS ⟨xb.zeroExtend 9, xa, pd, g.bits, 34⟩).zeroExtend 64)
  | .cmpne pd xa xb g => some (.s, (joinS ⟨xb.zeroExtend 9, xa, pd, g.bits, 35⟩).zeroExtend 64)
  | .cmplt pd xa xb g => some (.s, (joinS ⟨xb.zeroExtend 9, xa, pd, g.bits, 36⟩).zeroExtend 64)
  | .cmpltu pd xa xb g => some (.s, (joinS ⟨xb.zeroExtend 9, xa, pd, g.bits, 37⟩).zeroExtend 64)
  | .cmple pd xa xb g => some (.s, (joinS ⟨xb.zeroExtend 9, xa, pd, g.bits, 38⟩).zeroExtend 64)
  | .cmpleu pd xa xb g => some (.s, (joinS ⟨xb.zeroExtend 9, xa, pd, g.bits, 39⟩).zeroExtend 64)
  | .cmpeqImm pd xa imm g => some (.s, (joinS ⟨imm, xa, pd, g.bits, 40⟩).zeroExtend 64)
  | .cmpneImm pd xa imm g => some (.s, (joinS ⟨imm, xa, pd, g.bits, 41⟩).zeroExtend 64)
  | .cmpltImm pd xa imm g => some (.s, (joinS ⟨imm, xa, pd, g.bits, 42⟩).zeroExtend 64)
  | .cmpltuImm pd xa imm g => some (.s, (joinS ⟨imm, xa, pd, g.bits, 43⟩).zeroExtend 64)
  | .cmpgtImm pd xa imm g => some (.s, (joinS ⟨imm, xa, pd, g.bits, 44⟩).zeroExtend 64)
  | .cmpgtuImm pd xa imm g => some (.s, (joinS ⟨imm, xa, pd, g.bits, 45⟩).zeroExtend 64)
  | .sel xd pn sense xa xb g => some (.s, (joinS ⟨BitVec.ofBool sense ++ pn ++ xb, xa, xd, g.bits, 0x2E⟩).zeroExtend 64)
  | .limm imm => some (.s, ((imm ++ (0x2F : BitVec 7) : BitVec 32)).zeroExtend 64)
  | .adr xd imm g => some (.s, (joinS ⟨imm, 0, xd, g.bits, 0x30⟩).zeroExtend 64)
  | .tgtLabel bd imm g => some (.s, (joinS ⟨imm, 0, bd.zeroExtend 4, g.bits, 0x31⟩).zeroExtend 64)
  | .tgtReg bd xa g => some (.s, (joinS ⟨0, xa, bd.zeroExtend 4, g.bits, 0x32⟩).zeroExtend 64)
  | .getsr xd sr g => some (.s, (joinS ⟨sr, 0, xd, g.bits, 0x33⟩).zeroExtend 64)
  | .setsr sr xa g => some (.s, (joinS ⟨sr, xa, 0, g.bits, 0x34⟩).zeroExtend 64)
  | .semset sem xa g => some (.s, (joinS ⟨sem.zeroExtend 9, xa, 0, g.bits, 53⟩).zeroExtend 64)
  | .semadd sem xa g => some (.s, (joinS ⟨sem.zeroExtend 9, xa, 0, g.bits, 54⟩).zeroExtend 64)
  | .semwait sem xa g => some (.s, (joinS ⟨sem.zeroExtend 9, xa, 0, g.bits, 55⟩).zeroExtend 64)
  | .tagwa xa g => some (.s, (joinS ⟨0, xa, 0, g.bits, 56⟩).zeroExtend 64)
  | .tagwl xa g => some (.s, (joinS ⟨0, xa, 0, g.bits, 57⟩).zeroExtend 64)
  | .tagff xd xa g => some (.s, (joinS ⟨0, xa, xd, g.bits, 58⟩).zeroExtend 64)
  | .tsel tb xa g => some (.s, (joinS ⟨0, xa, tb.zeroExtend 4, g.bits, 0x3B⟩).zeroExtend 64)
  | .pswap g => some (.s, (joinS ⟨0, 0, 0, g.bits, 0x3C⟩).zeroExtend 64)
  | .ftset ft xa g => some (.s, (joinS ⟨ft.zeroExtend 9, xa, 0, g.bits, 0x3D⟩).zeroExtend 64)
  | .sqrd xd w g => some (.s, (joinS ⟨w.zeroExtend 9, 0, xd, g.bits, 0x3E⟩).zeroExtend 64)
  | .resumeSlots xa xb g => some (.s, (joinS ⟨xb.zeroExtend 9, xa, 0, g.bits, 0x3F⟩).zeroExtend 64)
  | .dswap xa g => some (.s, (joinS ⟨0, xa, 0, g.bits, 64⟩).zeroExtend 64)
  | .vadd o => some (.v, (joinV ⟨o.sat, o.b.isImm, 0, o.ty, o.b.bits, o.va, o.vd, o.g.bits, 1⟩).zeroExtend 64)
  | .vsub o => some (.v, (joinV ⟨o.sat, o.b.isImm, 0, o.ty, o.b.bits, o.va, o.vd, o.g.bits, 2⟩).zeroExtend 64)
  | .vmul o => some (.v, (joinV ⟨o.sat, o.b.isImm, 0, o.ty, o.b.bits, o.va, o.vd, o.g.bits, 3⟩).zeroExtend 64)
  | .vmulh o => some (.v, (joinV ⟨o.sat, o.b.isImm, 0, o.ty, o.b.bits, o.va, o.vd, o.g.bits, 4⟩).zeroExtend 64)
  | .vmad o => some (.v, (joinV ⟨o.sat, o.b.isImm, 0, o.ty, o.b.bits, o.va, o.vd, o.g.bits, 5⟩).zeroExtend 64)
  | .vdot4 o => some (.v, (joinV ⟨o.sat, o.b.isImm, 0, o.ty, o.b.bits, o.va, o.vd, o.g.bits, 6⟩).zeroExtend 64)
  | .vmin o => some (.v, (joinV ⟨o.sat, o.b.isImm, 0, o.ty, o.b.bits, o.va, o.vd, o.g.bits, 7⟩).zeroExtend 64)
  | .vmax o => some (.v, (joinV ⟨o.sat, o.b.isImm, 0, o.ty, o.b.bits, o.va, o.vd, o.g.bits, 8⟩).zeroExtend 64)
  | .vabs o => some (.v, (joinV ⟨o.sat, o.b.isImm, 0, o.ty, o.b.bits, o.va, o.vd, o.g.bits, 9⟩).zeroExtend 64)
  | .vand o => some (.v, (joinV ⟨o.sat, o.b.isImm, 0, o.ty, o.b.bits, o.va, o.vd, o.g.bits, 10⟩).zeroExtend 64)
  | .vor o => some (.v, (joinV ⟨o.sat, o.b.isImm, 0, o.ty, o.b.bits, o.va, o.vd, o.g.bits, 11⟩).zeroExtend 64)
  | .vxor o => some (.v, (joinV ⟨o.sat, o.b.isImm, 0, o.ty, o.b.bits, o.va, o.vd, o.g.bits, 12⟩).zeroExtend 64)
  | .vandn o => some (.v, (joinV ⟨o.sat, o.b.isImm, 0, o.ty, o.b.bits, o.va, o.vd, o.g.bits, 13⟩).zeroExtend 64)
  | .vshl o => some (.v, (joinV ⟨o.sat, o.b.isImm, 0, o.ty, o.b.bits, o.va, o.vd, o.g.bits, 14⟩).zeroExtend 64)
  | .vshr o => some (.v, (joinV ⟨o.sat, o.b.isImm, 0, o.ty, o.b.bits, o.va, o.vd, o.g.bits, 15⟩).zeroExtend 64)
  | .vclz o => some (.v, (joinV ⟨o.sat, o.b.isImm, 0, o.ty, o.b.bits, o.va, o.vd, o.g.bits, 16⟩).zeroExtend 64)
  | .vpopc o => some (.v, (joinV ⟨o.sat, o.b.isImm, 0, o.ty, o.b.bits, o.va, o.vd, o.g.bits, 17⟩).zeroExtend 64)
  | .vmov o => some (.v, (joinV ⟨o.sat, o.b.isImm, 0, o.ty, o.b.bits, o.va, o.vd, o.g.bits, 18⟩).zeroExtend 64)
  | .vcmpeq o => some (.v, (joinV ⟨false, o.b.isImm, 0, o.ty, o.b.bits, o.va, o.pd.zeroExtend 8, o.g.bits, 19⟩).zeroExtend 64)
  | .vcmpne o => some (.v, (joinV ⟨false, o.b.isImm, 0, o.ty, o.b.bits, o.va, o.pd.zeroExtend 8, o.g.bits, 20⟩).zeroExtend 64)
  | .vcmplt o => some (.v, (joinV ⟨false, o.b.isImm, 0, o.ty, o.b.bits, o.va, o.pd.zeroExtend 8, o.g.bits, 21⟩).zeroExtend 64)
  | .vcmple o => some (.v, (joinV ⟨false, o.b.isImm, 0, o.ty, o.b.bits, o.va, o.pd.zeroExtend 8, o.g.bits, 22⟩).zeroExtend 64)
  | .vsel vd pn sense va vb g => some (.v, (joinV ⟨false, false, BitVec.ofBool sense ++ bitsOf pn 3 1, bitsOf pn 0 3, vb, va, vd, g.bits, 23⟩).zeroExtend 64)
  | .vfadd o => some (.v, (joinV ⟨false, false, o.rnd, 6, o.vb, o.va, o.vd, o.g.bits, 24⟩).zeroExtend 64)
  | .vfsub o => some (.v, (joinV ⟨false, false, o.rnd, 6, o.vb, o.va, o.vd, o.g.bits, 25⟩).zeroExtend 64)
  | .vfmul o => some (.v, (joinV ⟨false, false, o.rnd, 6, o.vb, o.va, o.vd, o.g.bits, 26⟩).zeroExtend 64)
  | .vfma o => some (.v, (joinV ⟨false, false, o.rnd, 6, o.vb, o.va, o.vd, o.g.bits, 27⟩).zeroExtend 64)
  | .vfmin o => some (.v, (joinV ⟨false, false, o.rnd, 6, o.vb, o.va, o.vd, o.g.bits, 28⟩).zeroExtend 64)
  | .vfmax o => some (.v, (joinV ⟨false, false, o.rnd, 6, o.vb, o.va, o.vd, o.g.bits, 29⟩).zeroExtend 64)
  | .vfabs vd va g => some (.v, (joinV ⟨false, false, 0, 6, 0, va, vd, g.bits, 30⟩).zeroExtend 64)
  | .vfneg vd va g => some (.v, (joinV ⟨false, false, 0, 6, 0, va, vd, g.bits, 31⟩).zeroExtend 64)
  | .vhadd o => some (.v, (joinV ⟨false, false, o.rnd, 0, o.vb, o.va, o.vd, o.g.bits, 32⟩).zeroExtend 64)
  | .vhsub o => some (.v, (joinV ⟨false, false, o.rnd, 0, o.vb, o.va, o.vd, o.g.bits, 33⟩).zeroExtend 64)
  | .vhmul o => some (.v, (joinV ⟨false, false, o.rnd, 0, o.vb, o.va, o.vd, o.g.bits, 34⟩).zeroExtend 64)
  | .vhfma o => some (.v, (joinV ⟨false, false, o.rnd, 0, o.vb, o.va, o.vd, o.g.bits, 35⟩).zeroExtend 64)
  | .vbadd o => some (.v, (joinV ⟨false, false, o.rnd, 0, o.vb, o.va, o.vd, o.g.bits, 36⟩).zeroExtend 64)
  | .vbsub o => some (.v, (joinV ⟨false, false, o.rnd, 0, o.vb, o.va, o.vd, o.g.bits, 37⟩).zeroExtend 64)
  | .vbmul o => some (.v, (joinV ⟨false, false, o.rnd, 0, o.vb, o.va, o.vd, o.g.bits, 38⟩).zeroExtend 64)
  | .vbfma o => some (.v, (joinV ⟨false, false, o.rnd, 0, o.vb, o.va, o.vd, o.g.bits, 39⟩).zeroExtend 64)
  | .vcvtf o rnd => some (.v, (joinV ⟨o.sat, o.amx, rnd, 0, o.pos ++ o.fmt, o.va, o.vd, o.g.bits, 40⟩).zeroExtend 64)
  | .vcvts o => some (.v, (joinV ⟨o.sat, o.amx, 0, 0, o.pos ++ o.fmt, o.va, o.vd, o.g.bits, 41⟩).zeroExtend 64)
  | .vcvtx vd va fmt pos g => some (.v, (joinV ⟨false, false, 0, 0, pos ++ fmt, va, vd, g.bits, 42⟩).zeroExtend 64)
  | .vftoi vd va unsig rnd sat g => some (.v, (joinV ⟨sat, false, rnd, BitVec.zeroExtend 3 (BitVec.ofBool unsig), 0, va, vd, g.bits, 43⟩).zeroExtend 64)
  | .vitof vd va unsig rnd g => some (.v, (joinV ⟨false, false, rnd, BitVec.zeroExtend 3 (BitVec.ofBool unsig), 0, va, vd, g.bits, 44⟩).zeroExtend 64)
  | .vcvth vd va vb bf rnd sat g => some (.v, (joinV ⟨sat, false, rnd, BitVec.zeroExtend 3 (BitVec.ofBool bf), vb, va, vd, g.bits, 45⟩).zeroExtend 64)
  | .vnps vd va plane g => some (.v, (joinV ⟨false, true, 0, 0, plane.zeroExtend 8, va, vd, g.bits, 46⟩).zeroExtend 64)
  | .vnpm vd va plane g => some (.v, (joinV ⟨false, true, 0, 0, plane.zeroExtend 8, va, vd, g.bits, 47⟩).zeroExtend 64)
  | .vshfl vd va vb width g => some (.v, (joinV ⟨false, vb.isImm, 0, width, vb.bits, va, vd, g.bits, 0x30⟩).zeroExtend 64)
  | .vperm vd va pat g => some (.v, (joinV ⟨false, true, 0, 0, pat.zeroExtend 8, va, vd, g.bits, 0x31⟩).zeroExtend 64)
  | .vmatch vd va key g => some (.v, (joinV ⟨false, key.isSome, 0, 0, keyBits key, va, vd, g.bits, 0x32⟩).zeroExtend 64)
  | .vballot vd pn inv g => some (.v, (joinV ⟨false, inv, 0, 0, BitVec.zeroExtend 8 (BitVec.ofBool inv), pn.zeroExtend 8, vd, g.bits, 0x33⟩).zeroExtend 64)
  | .vvote pd pn mode quorum g => some (.v, (joinV ⟨false, true, 0, 0, mode ++ quorum, pn.zeroExtend 8, pd.zeroExtend 8, g.bits, 0x34⟩).zeroExtend 64)
  | .vscan vd va op excl ty g => some (.v, (joinV ⟨false, true, 0, ty, (0 : BitVec 5) ++ BitVec.ofBool excl ++ op, va, vd, g.bits, 0x35⟩).zeroExtend 64)
  | .vred vd va op ty g => some (.v, (joinV ⟨false, true, 0, ty, op.zeroExtend 8, va, vd, g.bits, 0x36⟩).zeroExtend 64)
  | .vbcast vd va lane g => some (.v, (joinV ⟨false, true, 0, 0, lane.zeroExtend 8, va, vd, g.bits, 0x37⟩).zeroExtend 64)
  | .vaccrd vd tile half row g => some (.v, (joinV ⟨false, false, BitVec.zeroExtend 2 (BitVec.ofBool half), tile, 0, row, vd, g.bits, 0x38⟩).zeroExtend 64)
  | .vaccwr tile half row data g => some (.v, (joinV ⟨false, false, BitVec.zeroExtend 2 (BitVec.ofBool half), tile, data, row, 0, g.bits, 0x39⟩).zeroExtend 64)
  | .tokv tile g => some (.v, (joinV ⟨false, false, 0, tile, 0, 0, 0, g.bits, 58⟩).zeroExtend 64)
  | .tokm tile g => some (.v, (joinV ⟨false, false, 0, tile, 0, 0, 0, g.bits, 59⟩).zeroExtend 64)
  | .vxtov vd xa hi g => some (.v, (joinV ⟨false, false, 0, BitVec.zeroExtend 3 (BitVec.ofBool hi), 0, xa.zeroExtend 8, vd, g.bits, 0x3C⟩).zeroExtend 64)
  | .vvtox xd va zero g => some (.v, (joinV ⟨false, false, 0, BitVec.zeroExtend 3 (BitVec.ofBool zero), 0, va, xd.zeroExtend 8, g.bits, 0x3D⟩).zeroExtend 64)
  | .fev vd va tb g => some (.f, (joinF ⟨tb, va, vd, g.bits, 1⟩).zeroExtend 64)
  | .fevE2 vd va tb g => some (.f, (joinF ⟨tb, va, vd, g.bits, 2⟩).zeroExtend 64)
  | .fevL2 vd va tb g => some (.f, (joinF ⟨tb, va, vd, g.bits, 3⟩).zeroExtend 64)
  | .fevRc vd va tb g => some (.f, (joinF ⟨tb, va, vd, g.bits, 4⟩).zeroExtend 64)
  | .fevRs vd va tb g => some (.f, (joinF ⟨tb, va, vd, g.bits, 5⟩).zeroExtend 64)
  | .fevPd vd va tb g => some (.f, (joinF ⟨tb, va, vd, g.bits, 6⟩).zeroExtend 64)
  | .fseg vd va tb g => some (.f, (joinF ⟨tb, va, vd, g.bits, 7⟩).zeroExtend 64)
  | .fdom pd va tb g => some (.f, (joinF ⟨tb, va, pd.zeroExtend 8, g.bits, 8⟩).zeroExtend 64)
  | .ldZ8 o => some (.m, (joinM ⟨o.hint, o.off, o.vi, o.xb, o.data, o.g.bits, if o.ix then 8 else 0⟩).zeroExtend 64)
  | .ldS8 o => some (.m, (joinM ⟨o.hint, o.off, o.vi, o.xb, o.data, o.g.bits, if o.ix then 9 else 1⟩).zeroExtend 64)
  | .ldZ16 o => some (.m, (joinM ⟨o.hint, o.off, o.vi, o.xb, o.data, o.g.bits, if o.ix then 10 else 2⟩).zeroExtend 64)
  | .ldS16 o => some (.m, (joinM ⟨o.hint, o.off, o.vi, o.xb, o.data, o.g.bits, if o.ix then 11 else 3⟩).zeroExtend 64)
  | .ld32 o => some (.m, (joinM ⟨o.hint, o.off, o.vi, o.xb, o.data, o.g.bits, if o.ix then 12 else 4⟩).zeroExtend 64)
  | .ld64 o => some (.m, (joinM ⟨o.hint, o.off, o.vi, o.xb, o.data, o.g.bits, if o.ix then 13 else 5⟩).zeroExtend 64)
  | .ld128 o => some (.m, (joinM ⟨o.hint, o.off, o.vi, o.xb, o.data, o.g.bits, if o.ix then 14 else 6⟩).zeroExtend 64)
  | .ldA16 o => some (.m, (joinM ⟨o.hint, o.off, o.vi, o.xb, o.data, o.g.bits, if o.ix then 15 else 7⟩).zeroExtend 64)
  | .ldsZ8 o => some (.m, (joinM ⟨o.hint, o.off, o.vi, o.xb, o.data, o.g.bits, if o.ix then 24 else 16⟩).zeroExtend 64)
  | .ldsS8 o => some (.m, (joinM ⟨o.hint, o.off, o.vi, o.xb, o.data, o.g.bits, if o.ix then 25 else 17⟩).zeroExtend 64)
  | .ldsZ16 o => some (.m, (joinM ⟨o.hint, o.off, o.vi, o.xb, o.data, o.g.bits, if o.ix then 26 else 18⟩).zeroExtend 64)
  | .ldsS16 o => some (.m, (joinM ⟨o.hint, o.off, o.vi, o.xb, o.data, o.g.bits, if o.ix then 27 else 19⟩).zeroExtend 64)
  | .lds32 o => some (.m, (joinM ⟨o.hint, o.off, o.vi, o.xb, o.data, o.g.bits, if o.ix then 28 else 20⟩).zeroExtend 64)
  | .lds64 o => some (.m, (joinM ⟨o.hint, o.off, o.vi, o.xb, o.data, o.g.bits, if o.ix then 29 else 21⟩).zeroExtend 64)
  | .lds128 o => some (.m, (joinM ⟨o.hint, o.off, o.vi, o.xb, o.data, o.g.bits, if o.ix then 30 else 22⟩).zeroExtend 64)
  | .ldsA16 o => some (.m, (joinM ⟨o.hint, o.off, o.vi, o.xb, o.data, o.g.bits, if o.ix then 31 else 23⟩).zeroExtend 64)
  | .st8 o => some (.m, (joinM ⟨o.hint, o.off, o.vi, o.xb, o.data, o.g.bits, if o.ix then 40 else 32⟩).zeroExtend 64)
  | .st16 o => some (.m, (joinM ⟨o.hint, o.off, o.vi, o.xb, o.data, o.g.bits, if o.ix then 42 else 34⟩).zeroExtend 64)
  | .st32 o => some (.m, (joinM ⟨o.hint, o.off, o.vi, o.xb, o.data, o.g.bits, if o.ix then 44 else 36⟩).zeroExtend 64)
  | .st64 o => some (.m, (joinM ⟨o.hint, o.off, o.vi, o.xb, o.data, o.g.bits, if o.ix then 45 else 37⟩).zeroExtend 64)
  | .st128 o => some (.m, (joinM ⟨o.hint, o.off, o.vi, o.xb, o.data, o.g.bits, if o.ix then 46 else 38⟩).zeroExtend 64)
  | .stA16 o => some (.m, (joinM ⟨o.hint, o.off, o.vi, o.xb, o.data, o.g.bits, if o.ix then 47 else 39⟩).zeroExtend 64)
  | .sts8 o => some (.m, (joinM ⟨o.hint, o.off, o.vi, o.xb, o.data, o.g.bits, if o.ix then 56 else 48⟩).zeroExtend 64)
  | .sts16 o => some (.m, (joinM ⟨o.hint, o.off, o.vi, o.xb, o.data, o.g.bits, if o.ix then 58 else 50⟩).zeroExtend 64)
  | .sts32 o => some (.m, (joinM ⟨o.hint, o.off, o.vi, o.xb, o.data, o.g.bits, if o.ix then 60 else 52⟩).zeroExtend 64)
  | .sts64 o => some (.m, (joinM ⟨o.hint, o.off, o.vi, o.xb, o.data, o.g.bits, if o.ix then 61 else 53⟩).zeroExtend 64)
  | .sts128 o => some (.m, (joinM ⟨o.hint, o.off, o.vi, o.xb, o.data, o.g.bits, if o.ix then 62 else 54⟩).zeroExtend 64)
  | .stsA16 o => some (.m, (joinM ⟨o.hint, o.off, o.vi, o.xb, o.data, o.g.bits, if o.ix then 63 else 55⟩).zeroExtend 64)
  | .atomAdd o => some (.m, (joinM ⟨0, o.off, o.vi, o.xb, o.data, o.g.bits, 64⟩).zeroExtend 64)
  | .atomMin o => some (.m, (joinM ⟨0, o.off, o.vi, o.xb, o.data, o.g.bits, 65⟩).zeroExtend 64)
  | .atomMax o => some (.m, (joinM ⟨0, o.off, o.vi, o.xb, o.data, o.g.bits, 66⟩).zeroExtend 64)
  | .atomMinu o => some (.m, (joinM ⟨0, o.off, o.vi, o.xb, o.data, o.g.bits, 67⟩).zeroExtend 64)
  | .atomMaxu o => some (.m, (joinM ⟨0, o.off, o.vi, o.xb, o.data, o.g.bits, 68⟩).zeroExtend 64)
  | .atomAnd o => some (.m, (joinM ⟨0, o.off, o.vi, o.xb, o.data, o.g.bits, 69⟩).zeroExtend 64)
  | .atomOr o => some (.m, (joinM ⟨0, o.off, o.vi, o.xb, o.data, o.g.bits, 70⟩).zeroExtend 64)
  | .atomXor o => some (.m, (joinM ⟨0, o.off, o.vi, o.xb, o.data, o.g.bits, 71⟩).zeroExtend 64)
  | .atomExch o => some (.m, (joinM ⟨0, o.off, o.vi, o.xb, o.data, o.g.bits, 72⟩).zeroExtend 64)
  | .atomCas o => some (.m, (joinM ⟨0, o.off, o.vi, o.xb, o.data, o.g.bits, 73⟩).zeroExtend 64)
  | .atomFaddF32 o => some (.m, (joinM ⟨0, o.off, o.vi, o.xb, o.data, o.g.bits, 74⟩).zeroExtend 64)
  | .atomFaddBf16X2 o => some (.m, (joinM ⟨0, o.off, o.vi, o.xb, o.data, o.g.bits, 75⟩).zeroExtend 64)
  | .atomsAdd o => some (.m, (joinM ⟨0, o.off, o.vi, o.xb, o.data, o.g.bits, 80⟩).zeroExtend 64)
  | .atomsMin o => some (.m, (joinM ⟨0, o.off, o.vi, o.xb, o.data, o.g.bits, 81⟩).zeroExtend 64)
  | .atomsMax o => some (.m, (joinM ⟨0, o.off, o.vi, o.xb, o.data, o.g.bits, 82⟩).zeroExtend 64)
  | .atomsMinu o => some (.m, (joinM ⟨0, o.off, o.vi, o.xb, o.data, o.g.bits, 83⟩).zeroExtend 64)
  | .atomsMaxu o => some (.m, (joinM ⟨0, o.off, o.vi, o.xb, o.data, o.g.bits, 84⟩).zeroExtend 64)
  | .atomsAnd o => some (.m, (joinM ⟨0, o.off, o.vi, o.xb, o.data, o.g.bits, 85⟩).zeroExtend 64)
  | .atomsOr o => some (.m, (joinM ⟨0, o.off, o.vi, o.xb, o.data, o.g.bits, 86⟩).zeroExtend 64)
  | .atomsXor o => some (.m, (joinM ⟨0, o.off, o.vi, o.xb, o.data, o.g.bits, 87⟩).zeroExtend 64)
  | .atomsExch o => some (.m, (joinM ⟨0, o.off, o.vi, o.xb, o.data, o.g.bits, 88⟩).zeroExtend 64)
  | .atomsCas o => some (.m, (joinM ⟨0, o.off, o.vi, o.xb, o.data, o.g.bits, 89⟩).zeroExtend 64)
  | .atomsFaddF32 o => some (.m, (joinM ⟨0, o.off, o.vi, o.xb, o.data, o.g.bits, 90⟩).zeroExtend 64)
  | .atomsFaddBf16X2 o => some (.m, (joinM ⟨0, o.off, o.vi, o.xb, o.data, o.g.bits, 91⟩).zeroExtend 64)
  | .pref xb off hint g => some (.m, (joinM ⟨hint, off, 0, xb, 0, g.bits, 0x60⟩).zeroExtend 64)
  | .clean xb off g => some (.m, (joinM ⟨0, off, 0, xb, 0, g.bits, 97⟩).zeroExtend 64)
  | .inval xb off g => some (.m, (joinM ⟨0, off, 0, xb, 0, g.bits, 98⟩).zeroExtend 64)
  | .icinv xb g => some (.m, (joinM ⟨0, 0, 0, xb, 0, g.bits, 99⟩).zeroExtend 64)
  | .fenceAcq g => some (.m, (joinM ⟨0, 0, 0, 0, 0, g.bits, 100⟩).zeroExtend 64)
  | .fenceRel g => some (.m, (joinM ⟨0, 0, 0, 0, 0, g.bits, 101⟩).zeroExtend 64)
  | .fenceAr g => some (.m, (joinM ⟨0, 0, 0, 0, 0, g.bits, 102⟩).zeroExtend 64)
  | .fenceSc g => some (.m, (joinM ⟨0, 0, 0, 0, 0, g.bits, 103⟩).zeroExtend 64)
  | .fenceCp g => some (.m, (joinM ⟨0, 0, 0, 0, 0, g.bits, 113⟩).zeroExtend 64)
  | .drain g => some (.m, (joinM ⟨0, 0, 0, 0, 0, g.bits, 104⟩).zeroExtend 64)
  | .fst o => some (.m, (joinM ⟨0, o.off, o.vi, o.xb, o.data, o.g.bits, 105⟩).zeroExtend 64)
  | .fsig xb inc g => some (.m, (joinM ⟨0, inc, 0, xb, 0, g.bits, 0x6A⟩).zeroExtend 64)
  | .launch data xb g => some (.m, (joinM ⟨0, 0, 0, xb, data, g.bits, 107⟩).zeroExtend 64)
  | .acqProm xb g => some (.m, (joinM ⟨0, 0, 0, xb, 0, g.bits, 108⟩).zeroExtend 64)
  | .txbegin data xb g => some (.m, (joinM ⟨0, 0, 0, xb, data, g.bits, 109⟩).zeroExtend 64)
  | .txst o => some (.m, (joinM ⟨0, o.off, o.vi, o.xb, o.data, o.g.bits, 110⟩).zeroExtend 64)
  | .txcommit data g => some (.m, (joinM ⟨0, 0, 0, 0, data, g.bits, 0x6F⟩).zeroExtend 64)
  | .txabort g => some (.m, (joinM ⟨0, 0, 0, 0, 0, g.bits, 112⟩).zeroExtend 64)
  | .mma o => some (.x, joinX ⟨o.lb, o.mid, o.zf, o.kb, o.fb, o.fa, o.xb, o.xa, o.tile, o.h, 1⟩)
  | .accz h tile => some (.x, joinX ⟨false, false, false, 0, 0, 0, 0, 0, tile, h, 2⟩)
  | .mst h tile xa xb fmt => some (.x, joinX ⟨false, false, false, 0, 0, fmt, xb, xa, tile, h, 3⟩)
  | .mld h tile xa xb => some (.x, joinX ⟨false, false, false, 0, 0, 0, xb, xa, tile, h, 4⟩)
  | .msync h => some (.x, joinX ⟨false, false, false, 0, 0, 0, 0, 0, 0, h, 5⟩)
  | .mstat h tile xa => some (.x, joinX ⟨false, false, false, 0, 0, 0, 0, xa, tile, h, 6⟩)
  | .scla lb xa => some (.k, (joinK ⟨lb, false, xa, 1⟩).zeroExtend 64)
  | .sclb lb xa => some (.k, (joinK ⟨lb, true, xa, 2⟩).zeroExtend 64)
  | .sclz side lb => some (.k, (joinK ⟨lb, side, 0, 3⟩).zeroExtend 64)
  | .copy o => some (.c, joinC ⟨o.timed, o.xform, o.mask, o.c.ch, o.c.tag, o.c.xd, o.c.xs, o.sh, o.c.h, 1⟩)
  | .copyx o => some (.c, joinC ⟨o.timed, o.xform, o.mask, o.c.ch, o.c.tag, o.c.xd, o.c.xs, o.sh, o.c.h, 2⟩)
  | .tload o => some (.c, joinC ⟨false, 0, 0, o.ch, o.tag, o.xd, o.xs, 0, o.h, 3⟩)
  | .pload o => some (.c, joinC ⟨false, 0, 0, o.ch, o.tag, o.xd, o.xs, 0, o.h, 4⟩)
  | .dload o => some (.c, joinC ⟨false, 0, 0, o.ch, o.tag, o.xd, o.xs, 0, o.h, 5⟩)
  | .intake o => some (.c, joinC ⟨false, 0, 0, o.ch, o.tag, o.xd, o.xs, 0, o.h, 6⟩)
  | .shset sh field xs => some (.h, (joinH ⟨0, xs, field, sh, 1⟩).zeroExtend 64)
  | .shseti sh field imm => some (.h, (joinH ⟨imm, 0, field, sh, 2⟩).zeroExtend 64)
  | .siphonCommandStart _ => none
  | .timedCopyStartTime _ => none
  | .matrixCommandStart _ => none
  | .commandRetire _ => none
  | .frameGrant _ _ => none
  | .spillTimeout _ _ => none
  | .refill _ _ => none
  | .writePerforms _ _ => none
  | .lineEviction _ _ => none
  | .promotionAtVictim _ => none
  | .promotionAck _ => none
  | .launchWindowWrite _ _ _ _ => none
  | .launchWindowRead _ _ _ _ => none
  | .launchBatchAccept _ => none
  | .memoryConditionPoll _ => none
  | .queueAging _ _ => none
  | .placeGang _ => none
  | .preempt _ => none
  | .preemptDeadline _ => none
  | .contextSave _ => none
  | .contextRestore _ _ => none
  | .launchComplete _ => none
  | .launchAbort _ => none
  | .tabownWrite _ _ _ => none
  | .registerWrite _ _ _ => none
  | .serviceEntry _ => none
  | .serviceDeadline _ => none
  | .pfadd _ => none
  | .pfdel _ => none
  | .uncorrectableError _ _ => none
  | .scrub _ _ => none
  | .tlbinvAsid _ => none
  | .tlbinvRange _ _ => none
  | .tlbinvAll => none
  | .tlbInvalidationDone => none
  | .snadd _ _ _ => none
  | .snrem _ _ _ => none
  | .snap _ => none
  | .snout _ => none
  | .snstop _ => none
  | .snpoolWrite _ => none
  | .copyBeforeWrite _ => none
  | .drainPageSend _ => none
  | .drainPageAck _ _ => none
  | .drainTargetFail _ => none
  | .linkRetrain _ _ => none
  | .linkFail _ => none
  | .remoteLoadRequest _ _ _ _ => none
  | .remoteLoadResponse _ _ => none
  | .fstApply _ _ _ _ => none
  | .fstAck _ => none
  | .fsigApply _ _ _ _ => none
  | .fsigForward _ _ _ _ _ => none
  | .targetLost _ => none
  | .txStage _ _ _ _ => none
  | .txStageAck _ _ _ => none
  | .txPrepare _ _ => none
  | .txVote _ _ _ => none
  | .txVoteTimeout _ => none
  | .txDecision _ _ _ => none
  | .txApplyAck _ _ => none
  | .txPartTimeout _ _ => none
  | .txRecovery _ _ _ => none
  | .hostAccess _ _ => none
  | .hostSnoop _ => none
  | .packageReset => none
  | .dieEnumerate _ _ => none
  | .dieIsolate _ => none
  | .dieRejoin _ => none
  | .dieInternalError _ => none
  | .isolationComplete _ _ => none
  | .islandFreqWrite _ _ => none
  | .islandGate _ => none
  | .islandGated _ => none
  | .islandUngate _ => none
  | .throttle _ => none
  | .fatalError _ _ => none
  | .boot _ _ _ => none
  | .firmwareVerify _ => none
  | .claim _ _ _ => none
  | .lease _ _ => none
  | .load _ _ _ _ => none
  | .done _ _ => none
  | .leaseTimeout => none
  | .claimTimeout => none
  | .leasePeriod => none
  | .mgmtDie _ _ => none
  | .mgmtIsland _ _ _ => none
  | .mgmtMonitor _ _ => none
  | .mgmtKeySlot _ _ _ => none
  | .mgmtServiceStore _ => none
  | .mgmtImage _ => none
  | .mgmtDump => none
  | .getVersion => none
  | .getCapabilities => none
  | .negotiateAlgorithms _ _ => none
  | .getDigests => none
  | .getCertificate _ _ _ => none
  | .challenge _ _ => none
  | .getMeasurements _ => none
  | .monitorSample _ _ => none
  | .monitorClear _ => none
  | .linkUp _ _ => none
  | .fsigAck _ _ => none
  | .hartAccess _ _ _ => none
  | .pcieMemoryRequest _ _ _ => none
  | .directoryResponse _ => none
  | .islandChangeComplete _ => none

/-! ### Bundles (R45 to R47) -/

/-- The bits of a bundle from bit `lo` on, 64 of them. -/
def bundleBits (b : BitVec 384) (lo : Nat) : BitVec 64 := b.extractLsb' lo 64

/-- Header fields (R46). -/
structure Header where
  reserved : BitVec 10
  hv : Bool
  hb : BitVec 3
  e : Bool
  y : Bool
  sc : BitVec 3
  pres : BitVec 13
  deriving DecidableEq, Repr, Inhabited

def headerOf (b : BitVec 384) : Header :=
  ⟨b.extractLsb' 22 10, b.getLsbD 21, b.extractLsb' 18 3, b.getLsbD 17, b.getLsbD 16, b.extractLsb' 13 3,
   b.extractLsb' 0 13⟩

def Header.bits (h : Header) : BitVec 32 :=
  h.reserved ++ BitVec.ofBool h.hv ++ h.hb ++ BitVec.ofBool h.e ++ BitVec.ofBool h.y ++ h.sc ++ h.pres

/-- The present PRES bits in ascending order. -/
def presentSlots (pres : BitVec 13) : List Nat := (List.range 13).filter (fun k => pres.getLsbD k)

/-- Total parcels of a list of PRES bits. -/
def parcelsOf (ps : List Nat) : Nat := (ps.map (fun k => (kindOf k).parcels)).sum

/-- The present slots with their bits, packed from parcel `at_` on (R47). -/
def unpack (b : BitVec 384) : List Nat → Nat → List (Nat × BitVec 64)
  | [], _ => []
  | k :: ks, at_ =>
    let n := (kindOf k).parcels
    (k, BitVec.ofNat 64 ((bundleBits b (16 * at_)).toNat % 2 ^ (16 * n))) :: unpack b ks (at_ + n)

/-- The slots of a bundle: PRES bit and bits. -/
def slotsOf (b : BitVec 384) : List (Nat × BitVec 64) := unpack b (presentSlots (headerOf b).pres) 2

/-- The value of the parcels from parcel 2 on of packed slots. -/
def packBits : List (Nat × BitVec 64) → Nat → Nat
  | [], _ => 0
  | (k, w) :: ks, at_ => w.toNat * 2 ^ (16 * at_) + packBits ks (at_ + (kindOf k).parcels)

/-- The bundle of a header and its slots. -/
def packBundle (h : Header) (slots : List (Nat × BitVec 64)) : BitVec 384 :=
  BitVec.ofNat 384 (h.bits.toNat + packBits slots 2)

/-- The properties that DLOAD checks (R43). -/
def packedRight (b : BitVec 384) : Bool :=
  let n := parcelsOf (presentSlots (headerOf b).pres)
  (headerOf b).reserved == 0 && decide (n ≤ 22) && b.toNat / 2 ^ (16 * (n + 2)) == 0

/-! ### Destinations (R66, R123, R292) -/

/-- What a slot or the BR kind names as a destination. -/
inductive DestName where
  | v (r : Nat)
  | x (r : Nat)
  | p (r : Nat)
  | b (r : Nat)
  | sr (n : Nat)
  deriving DecidableEq, Repr, Inhabited

/-- A run of v registers. -/
def vRun (r : BitVec 8) (n : Nat) : List DestName := (List.range n).map (fun k => .v (r.toNat + k))

/-- An x destination; x0 never coincides. -/
def xDest (r : BitVec 4) : List DestName := if r = 0 then [] else [.x r.toNat]

/-- The stage predicates and level-0 loop registers (R123, R139). -/
def loopDests : List DestName :=
  [.p 8, .p 9, .p 10, .p 11, .p 12, .p 13, .p 14, .p 15, .sr 0x020, .sr 0x022]

/-- The implicit writes of CALL, CALLI, RET and UNWIND (R292). -/
def callDests : List DestName := loopDests ++ [.sr 0x021]

/-- Special registers that a conversion updates implicitly (R96). -/
def cvtDests (amx stoch : Bool) : List DestName :=
  (if amx then [.sr 0x052, .sr 0x053] else []) ++ (if stoch then [.sr 0x054] else [])

/-- The destinations an instruction names, apart from those of `cvtDests`, which coincide only with SETSR. -/
def destsOf (i : Instr) : List DestName :=
  match i with
  | .call _ _ _ _ => callDests
  | .calli _ _ _ => callDests
  | .ret c => callDests ++ vRun 0 c.toNat
  | .unwind _ => callDests
  | .unwindMark => callDests
  | .loop _ _ _ => loopDests
  | .loopL1 _ => [.sr 0x021]
  | .lend1 => [.sr 0x021]
  | .add xd _ _ _ => xDest xd
  | .sub xd _ _ _ => xDest xd
  | .mul xd _ _ _ => xDest xd
  | .mulh xd _ _ _ => xDest xd
  | .mulhu xd _ _ _ => xDest xd
  | .min xd _ _ _ => xDest xd
  | .max xd _ _ _ => xDest xd
  | .minu xd _ _ _ => xDest xd
  | .maxu xd _ _ _ => xDest xd
  | .and xd _ _ _ => xDest xd
  | .or xd _ _ _ => xDest xd
  | .xor xd _ _ _ => xDest xd
  | .andn xd _ _ _ => xDest xd
  | .sll xd _ _ _ => xDest xd
  | .srl xd _ _ _ => xDest xd
  | .sra xd _ _ _ => xDest xd
  | .addImm xd _ _ _ => xDest xd
  | .mulImm xd _ _ _ => xDest xd
  | .andImm xd _ _ _ => xDest xd
  | .orImm xd _ _ _ => xDest xd
  | .xorImm xd _ _ _ => xDest xd
  | .sllImm xd _ _ _ => xDest xd
  | .srlImm xd _ _ _ => xDest xd
  | .sraImm xd _ _ _ => xDest xd
  | .sh1add xd _ _ _ => xDest xd
  | .sh2add xd _ _ _ => xDest xd
  | .sh3add xd _ _ _ => xDest xd
  | .clz xd _ _ => xDest xd
  | .ctz xd _ _ => xDest xd
  | .popc xd _ _ => xDest xd
  | .bext xd _ _ _ => xDest xd
  | .bextu xd _ _ _ => xDest xd
  | .bins xd _ _ _ => xDest xd
  | .cmpeq pd _ _ _ => [.p pd.toNat]
  | .cmpne pd _ _ _ => [.p pd.toNat]
  | .cmplt pd _ _ _ => [.p pd.toNat]
  | .cmpltu pd _ _ _ => [.p pd.toNat]
  | .cmple pd _ _ _ => [.p pd.toNat]
  | .cmpleu pd _ _ _ => [.p pd.toNat]
  | .cmpeqImm pd _ _ _ => [.p pd.toNat]
  | .cmpneImm pd _ _ _ => [.p pd.toNat]
  | .cmpltImm pd _ _ _ => [.p pd.toNat]
  | .cmpltuImm pd _ _ _ => [.p pd.toNat]
  | .cmpgtImm pd _ _ _ => [.p pd.toNat]
  | .cmpgtuImm pd _ _ _ => [.p pd.toNat]
  | .sel xd _ _ _ _ _ => xDest xd
  | .adr xd _ _ => xDest xd
  | .tgtLabel bd _ _ => [.b bd.toNat]
  | .tgtReg bd _ _ => [.b bd.toNat]
  | .getsr xd _ _ => xDest xd
  | .tagff xd _ _ => xDest xd
  | .sqrd xd _ _ => xDest xd
  | .setsr n _ _ => [.sr n.toNat]
  | .vadd o => vRun o.vd 1
  | .vsub o => vRun o.vd 1
  | .vmul o => vRun o.vd 1
  | .vmulh o => vRun o.vd 1
  | .vmad o => vRun o.vd 1
  | .vdot4 o => vRun o.vd 1
  | .vmin o => vRun o.vd 1
  | .vmax o => vRun o.vd 1
  | .vabs o => vRun o.vd 1
  | .vand o => vRun o.vd 1
  | .vor o => vRun o.vd 1
  | .vxor o => vRun o.vd 1
  | .vandn o => vRun o.vd 1
  | .vshl o => vRun o.vd 1
  | .vshr o => vRun o.vd 1
  | .vclz o => vRun o.vd 1
  | .vpopc o => vRun o.vd 1
  | .vmov o => vRun o.vd 1
  | .vcmpeq o => [.p o.pd.toNat]
  | .vcmpne o => [.p o.pd.toNat]
  | .vcmplt o => [.p o.pd.toNat]
  | .vcmple o => [.p o.pd.toNat]
  | .vsel vd _ _ _ _ _ => vRun vd 1
  | .vfadd o => vRun o.vd 1
  | .vfsub o => vRun o.vd 1
  | .vfmul o => vRun o.vd 1
  | .vfma o => vRun o.vd 1
  | .vfmin o => vRun o.vd 1
  | .vfmax o => vRun o.vd 1
  | .vfabs vd _ _ => vRun vd 1
  | .vfneg vd _ _ => vRun vd 1
  | .vhadd o => vRun o.vd 1
  | .vhsub o => vRun o.vd 1
  | .vhmul o => vRun o.vd 1
  | .vhfma o => vRun o.vd 1
  | .vbadd o => vRun o.vd 1
  | .vbsub o => vRun o.vd 1
  | .vbmul o => vRun o.vd 1
  | .vbfma o => vRun o.vd 1
  | .vcvtf o _ => vRun o.vd 1
  | .vcvts o => vRun o.vd 1
  | .vcvtx vd _ _ _ _ => vRun vd 1
  | .vftoi vd _ _ _ _ _ => vRun vd 1
  | .vitof vd _ _ _ _ => vRun vd 1
  | .vcvth vd _ _ _ _ _ _ => vRun vd 1
  | .vnps vd _ _ _ => vRun vd 1
  | .vnpm vd _ _ _ => vRun vd 8
  | .vshfl vd _ _ _ _ => vRun vd 1
  | .vperm vd _ _ _ => vRun vd 1
  | .vmatch vd _ _ _ => vRun vd 1
  | .vballot vd _ _ _ => vRun vd 1
  | .vvote pd _ _ _ _ => [.p pd.toNat]
  | .vscan vd _ _ _ _ _ => vRun vd 1
  | .vred vd _ _ _ _ => vRun vd 1
  | .vbcast vd _ _ _ => vRun vd 1
  | .vaccrd vd _ _ _ _ => vRun vd 1
  | .vxtov vd _ _ _ => vRun vd 1
  | .vvtox xd _ _ _ => xDest xd
  | .fev vd _ _ _ => vRun vd 1
  | .fevE2 vd _ _ _ => vRun vd 1
  | .fevL2 vd _ _ _ => vRun vd 1
  | .fevRc vd _ _ _ => vRun vd 1
  | .fevRs vd _ _ _ => vRun vd 1
  | .fevPd vd _ _ _ => vRun vd 1
  | .fseg vd _ _ _ => vRun vd 1
  | .fdom pd _ _ _ => [.p pd.toNat]
  | .ldZ8 o => vRun o.data 1
  | .ldS8 o => vRun o.data 1
  | .ldZ16 o => vRun o.data 1
  | .ldS16 o => vRun o.data 1
  | .ld32 o => vRun o.data 1
  | .ld64 o => vRun o.data 2
  | .ld128 o => vRun o.data 4
  | .ldA16 o => vRun o.data 4
  | .ldsZ8 o => vRun o.data 1
  | .ldsS8 o => vRun o.data 1
  | .ldsZ16 o => vRun o.data 1
  | .ldsS16 o => vRun o.data 1
  | .lds32 o => vRun o.data 1
  | .lds64 o => vRun o.data 2
  | .lds128 o => vRun o.data 4
  | .ldsA16 o => vRun o.data 4
  | .atomAdd o => vRun o.data 1
  | .atomMin o => vRun o.data 1
  | .atomMax o => vRun o.data 1
  | .atomMinu o => vRun o.data 1
  | .atomMaxu o => vRun o.data 1
  | .atomAnd o => vRun o.data 1
  | .atomOr o => vRun o.data 1
  | .atomXor o => vRun o.data 1
  | .atomExch o => vRun o.data 1
  | .atomCas o => vRun o.data 1
  | .atomFaddF32 o => vRun o.data 1
  | .atomFaddBf16X2 o => vRun o.data 1
  | .atomsAdd o => vRun o.data 1
  | .atomsMin o => vRun o.data 1
  | .atomsMax o => vRun o.data 1
  | .atomsMinu o => vRun o.data 1
  | .atomsMaxu o => vRun o.data 1
  | .atomsAnd o => vRun o.data 1
  | .atomsOr o => vRun o.data 1
  | .atomsXor o => vRun o.data 1
  | .atomsExch o => vRun o.data 1
  | .atomsCas o => vRun o.data 1
  | .atomsFaddF32 o => vRun o.data 1
  | .atomsFaddBf16X2 o => vRun o.data 1
  | .launch d _ _ => vRun d 2
  | .txbegin d _ _ => vRun d 1
  | .txcommit d _ => vRun d 1
  | _ => []

/-- Destinations of conversions that coincide with a SETSR of the same register only (R66). -/
def implicitOf (i : Instr) : List DestName :=
  match i with
  | .vcvtf o _ => cvtDests o.amx false
  | .vcvts o => cvtDests o.amx true
  | _ => []

/-- Two destination lists share a name. -/
def clash (a b : List DestName) : Bool := a.any (fun d => b.contains d)

/-- Slots coincide: their destinations meet, or one is a SETSR of a register that the other updates implicitly. -/
def coincide (a b : Instr) : Bool :=
  clash (destsOf a) (destsOf b) || clash (destsOf a) (implicitOf b) || clash (implicitOf a) (destsOf b)

/-- An accumulator tile that a vector access or token opcode names, and whether it is a token opcode (R182). -/
def tileNamed (i : Instr) : Option (Nat × Bool) :=
  match i with
  | .vaccrd _ t _ _ _ => some (t.toNat, false)
  | .vaccwr t _ _ _ _ => some (t.toNat, false)
  | .tokv t _ => some (t.toNat, true)
  | .tokm t _ => some (t.toNat, true)
  | _ => none

/-- A token opcode and another vector access or token opcode name one tile (R182). -/
def tokenClash (a b : Instr) : Bool :=
  match tileNamed a, tileNamed b with
  | some (t, p), some (u, q) => t == u && (p || q)
  | _, _ => false

/-- The S0 opcodes that LIMM may extend (R55, R56). -/
def extendable (i : Instr) : Bool :=
  match i with
  | .addImm _ _ _ _ => true
  | .mulImm _ _ _ _ => true
  | .andImm _ _ _ _ => true
  | .orImm _ _ _ _ => true
  | .xorImm _ _ _ _ => true
  | .cmpeqImm _ _ _ _ => true
  | .cmpneImm _ _ _ _ => true
  | .cmpltImm _ _ _ _ => true
  | .cmpltuImm _ _ _ _ => true
  | .cmpgtImm _ _ _ _ => true
  | .cmpgtuImm _ _ _ _ => true
  | .adr _ _ _ => true
  | .tgtLabel _ _ _ => true
  | _ => false

/-- A BR slot of kind BR, which E = 1 allows (R48). -/
def isTree (i : Instr) : Bool :=
  match i with
  | .br _ _ => true
  | _ => false

/-- A header is illegal (R66): reserved bits, over-packing, trailing parcels, scope, hint, or E against R48. -/
def headerIllegal (b : BitVec 384) : Bool :=
  let h := headerOf b
  !packedRight b || decide (5 < h.sc.toNat) || (h.hb != 0 && !h.hv) ||
    (h.e && h.pres.getLsbD 0 && decide ((bundleBits b 32).toNat % 16 ≠ 0))

/-- The first coinciding slot of a list of decoded slots, against those before it and the implicit writes of E (R67,
R123). The pair found is the first in PRES order of its later slot. -/
def firstClash (e : Bool) : List (Nat × Instr) → List (Nat × Instr) → Option Nat
  | _, [] => none
  | before, (k, i) :: rest =>
    if before.any (fun q => coincide q.2 i || tokenClash q.2 i) || (e && clash loopDests (destsOf i)) then some k
    else firstClash e (before ++ [(k, i)]) rest

/-- Decode every slot, or name the first that is reserved or that `ok` rejects (its window indices and group flags).
LIMM needs an extendable S0 (R56), which is `s0`. -/
def decodeSlots (ok : Instr → Bool) (s0 : Bool) : List (Nat × BitVec 64) → Except Nat (List (Nat × Instr))
  | [] => .ok []
  | (k, w) :: rest =>
    match decodeAt k w with
    | none => .error k
    | some i =>
      let lone := match i with
        | .limm _ => !s0
        | _ => false
      if lone || !ok i then .error k
      else
        match decodeSlots ok s0 rest with
        | .ok is => .ok ((k, i) :: is)
        | .error n => .error n

/-- The slot of a PRES bit in a list of slots. -/
def slotAt (k : Nat) : List (Nat × BitVec 64) → Option (BitVec 64)
  | [] => none
  | (j, w) :: rest => if j = k then some w else slotAt k rest

/-- S0 holds an opcode that LIMM may extend (R55). Of a suppressed S0, which is not checked (R71), the opcode alone
counts. -/
def extendsS0 (skip : BitVec 13) (w : BitVec 64) : Bool :=
  if skip.getLsbD 1 then [0x11, 0x12, 0x13, 0x14, 0x15, 0x28, 0x29, 0x2A, 0x2B, 0x2C, 0x2D, 0x30, 0x31].contains (w.toNat % 128)
  else ((decodeAt 1 w).map extendable).getD false

/-- The legality of a bundle (R66, R67): its decoded slots, or the identifier of the first cause in the order of R67,
13 for the header. Slots of the mask `skip` are not checked (R71); the header is, with its E against the kind of a
suppressed BR slot too (DESIGN CHOICE, log entry 19). -/
def legalBundle (ok : Instr → Bool) (skip : BitVec 13) (b : BitVec 384) : Except Nat (List (Nat × Instr)) :=
  if headerIllegal b then .error 13
  else
    let all := slotsOf b
    match decodeSlots ok (((slotAt 1 all).map (extendsS0 skip)).getD false) (all.filter (fun q => !skip.getLsbD q.1)) with
    | .error n => .error n
    | .ok is =>
      match firstClash (headerOf b).e [] is with
      | some k => .error k
      | none => .ok is

/-- The legality of a bundle as far as its bits alone decide it. -/
def decodeBundle (b : BitVec 384) : Except Nat (List (Nat × Instr)) := legalBundle (fun _ => true) 0 b

/-- A bundle from 48 bytes, lowest address first (R45). -/
def bundleOfBytes (bs : List Byte) : BitVec 384 :=
  BitVec.ofNat 384 (bs.foldr (fun (x : Byte) (acc : Nat) => acc * 256 + x.toNat) 0)

/-- The instruction the decoder reads from a bundle of the given number: its first slot's, when the bundle's static
checks pass (log entry 12). `nbits` only says how many bits the number was given with. -/
def decodeTableWord (nbits w : Nat) : Option Instr :=
  match decodeBundle (BitVec.ofNat 384 (w % 2 ^ nbits)) with
  | .ok ((_, i) :: _) => some i
  | _ => none

end Sys2Proof
end

