-- ==== Sys2Proof/Machine/Flags.lean ====
section
/-! DEFINITION. The sticky status bits of %status (05 R140) as masks, and how they combine. -/

namespace Sys2Proof.Machine

/-- The bits an operation raises, in the positions of R140. -/
abbrev Flags := Byte

def flagNone : Flags := 0x00
/-- [0] NV, invalid. -/
def flagNV : Flags := 0x01
/-- [1] OF, overflow. -/
def flagOF : Flags := 0x02
/-- [2] UF, underflow. -/
def flagUF : Flags := 0x04
/-- [3] NX, inexact. -/
def flagNX : Flags := 0x08
/-- [4] DOM, input outside a table's domain. -/
def flagDOM : Flags := 0x10
/-- [5] GAP, a gap segment. -/
def flagGAP : Flags := 0x20
/-- [6] OWN, a VSHFL or VPERM lane received its own value. -/
def flagOWN : Flags := 0x40
/-- [7] TRL, trailer condition. -/
def flagTRL : Flags := 0x80

/-- The flag when the condition holds. -/
def flagIf (c : Bool) (f : Flags) : Flags := if c then f else flagNone

end Sys2Proof.Machine
end

