-- ==== Sys2Proof/Machine/Formats.lean ====
section
/-! DEFINITION. Number formats, rounding and random bits (03 R78 to R99). Exact reals are dyadic: a sign, a natural
significand and a power of two. -/

namespace Sys2Proof.Machine

/-- An exact value or a special one (R80, R81). `fin neg m e` is (-1)^neg * m * 2^e; a zero keeps its sign. -/
inductive Num where
  | nan (signalling : Bool)
  | inf (neg : Bool)
  | fin (neg : Bool) (m : Nat) (e : Int)
  deriving DecidableEq, Repr, Inhabited

/-- Parameters of a format of R79. -/
structure Fmt where
  width : Nat
  ebits : Nat
  mbits : Nat
  bias : Int
  deriving DecidableEq, Repr, Inhabited

def fmtFp32 : Fmt := ⟨32, 8, 23, 127⟩
def fmtBf16 : Fmt := ⟨16, 8, 7, 127⟩
def fmtFp16 : Fmt := ⟨16, 5, 10, 15⟩
def fmtE4m3 : Fmt := ⟨8, 4, 3, 7⟩
def fmtE5m2 : Fmt := ⟨8, 5, 2, 15⟩
def fmtE3m2 : Fmt := ⟨6, 3, 2, 3⟩
def fmtE2m3 : Fmt := ⟨6, 2, 3, 1⟩
def fmtE2m1 : Fmt := ⟨4, 2, 1, 1⟩
/-- E8M0 (R83): 8 exponent bits, no sign, no fraction. -/
def fmtE8m0 : Fmt := ⟨8, 8, 0, 127⟩

/-- The floating-point format of a code of R65; integer and plane codes have none. -/
def fmtOf : Nat → Option Fmt
  | 0 => some fmtFp32
  | 1 => some fmtBf16
  | 2 => some fmtFp16
  | 3 => some fmtE4m3
  | 4 => some fmtE5m2
  | 5 => some fmtE3m2
  | 6 => some fmtE2m3
  | 7 => some fmtE2m1
  | 18 => some fmtE8m0
  | _ => none

def Fmt.isE8m0 (f : Fmt) : Bool := f.mbits == 0
def Fmt.isE4m3 (f : Fmt) : Bool := f.mbits == 3 && f.ebits == 4
/-- Formats with infinities (R81): FP32, BF16, FP16 and E5M2. -/
def Fmt.hasInf (f : Fmt) : Bool := 5 ≤ f.ebits && f.mbits != 0
/-- Formats with a NaN (R81, R83). -/
def Fmt.hasNan (f : Fmt) : Bool := f.hasInf || f.isE4m3 || f.isE8m0
/-- emin = 1 - bias, and -127 for E8M0 (R79, R87). -/
def Fmt.emin (f : Fmt) : Int := if f.isE8m0 then -127 else 1 - f.bias
/-- P counts the implicit bit (R79). -/
def Fmt.prec (f : Fmt) : Nat := f.mbits + 1

/-- `dec` of R80 and R81. -/
def dec (f : Fmt) (bits : Nat) : Num :=
  let m := bits % 2 ^ f.mbits
  let e := bits / 2 ^ f.mbits % 2 ^ f.ebits
  if f.isE8m0 then
    if e = 255 then .nan false else .fin false 1 ((e : Int) - 127)
  else
    let neg := bits / 2 ^ (f.mbits + f.ebits) % 2 == 1
    if f.hasInf && e == 2 ^ f.ebits - 1 then
      if m = 0 then .inf neg
      else .nan (f.ebits + f.mbits != 7 && m / 2 ^ (f.mbits - 1) == 0)
    else if f.isE4m3 && e == 15 && m == 7 then .nan false
    else if e = 0 then .fin neg m (f.emin - f.mbits)
    else .fin neg (2 ^ f.mbits + m) ((e : Int) - f.bias - f.mbits)

/-- The rounding modes of R86; stochastic rounding carries its draw. -/
inductive Mode where
  | rne | rz | rd | ru
  | sr (draw : Nat)
  deriving DecidableEq, Repr, Inhabited

/-- The mode that a slot's RND field selects (R86). -/
def modeOf (rnd : BitVec 2) : Mode :=
  match rnd.toNat with
  | 0 => .rne
  | 1 => .rz
  | 2 => .rd
  | _ => .ru

/-- Whether the magnitude is rounded away from zero: `lo` is the truncated quotient, `r / den` the fraction dropped. -/
def roundsAway (e8 : Bool) (mode : Mode) (neg : Bool) (lo r den : Nat) : Bool :=
  if r = 0 then false
  else match mode with
    | .rne => decide (den < 2 * r) || (2 * r == den && (e8 || lo % 2 == 1))
    | .rz => false
    | .rd => !e8 && neg
    | .ru => e8 || !neg
    | .sr draw => decide (draw * den < r * 2 ^ 32)

/-- `rnd` of R87 on a magnitude m * 2^e: the significand k and exponent qe of the result k * 2^qe, and whether it is
inexact. A zero m gives zero. -/
def rndMag (f : Fmt) (mode : Mode) (neg : Bool) (m : Nat) (e : Int) : Nat × Int × Bool :=
  if m = 0 then (0, f.emin - f.mbits, false)
  else
    let qe := max ((Nat.log2 m : Int) + e) f.emin - (f.prec : Int) + 1
    if qe ≤ e then (m * 2 ^ (e - qe).toNat, qe, false)
    else
      let den := 2 ^ (qe - e).toNat
      let lo := m / den
      let r := m % den
      (if roundsAway f.isE8m0 mode neg lo r den then lo + 1 else lo, qe, r != 0)

/-- The encoding of the largest finite magnitude (R79). -/
def Fmt.maxBits (f : Fmt) : Nat :=
  if f.isE8m0 then 0xFE
  else if f.isE4m3 then 0x7E
  else if f.hasInf then (2 ^ f.ebits - 1) * 2 ^ f.mbits - 1
  else 2 ^ (f.ebits + f.mbits) - 1

/-- The exponent of the largest finite magnitude's leading bit, and its significand of `prec` bits. -/
def Fmt.maxSig (f : Fmt) : Nat × Int :=
  match dec f f.maxBits with
  | .fin _ m e => (m, e)
  | _ => (0, 0)

/-- k1 * 2^e1 < k2 * 2^e2. -/
def magLt (k1 : Nat) (e1 : Int) (k2 : Nat) (e2 : Int) : Bool :=
  let e := min e1 e2
  decide (k1 * 2 ^ (e1 - e).toNat < k2 * 2 ^ (e2 - e).toNat)

/-- The sign bit of a format. -/
def Fmt.signBit (f : Fmt) (neg : Bool) : Nat := if neg && !f.isE8m0 then 2 ^ (f.width - 1) else 0

/-- Infinity and the canonical NaN of a format (R81). -/
def Fmt.infBits (f : Fmt) (neg : Bool) : Nat := f.signBit neg + (2 ^ f.ebits - 1) * 2 ^ f.mbits
def Fmt.nanBits (f : Fmt) : Nat :=
  if f.isE8m0 then 0xFF
  else if f.isE4m3 then 0x7F
  else if f.hasInf then (2 ^ f.ebits - 1) * 2 ^ f.mbits + 2 ^ (f.mbits - 1)
  else 0

/-- Encode a finite magnitude k * 2^qe that `rndMag` returned and that is at most the max finite (R80, R88). -/
def encMag (f : Fmt) (neg : Bool) (k : Nat) (qe : Int) : Nat :=
  if f.isE8m0 then
    if k = 0 then 0 else ((Nat.log2 k : Int) + qe + 127).toNat
  else if k = 0 then f.signBit neg
  else
    let l := Nat.log2 k
    let ex := (l : Int) + qe
    if ex < f.emin then f.signBit neg + k
    else
      let sig := if l ≤ f.mbits then k * 2 ^ (f.mbits - l) else k / 2 ^ (l - f.mbits)
      f.signBit neg + (ex + f.bias).toNat * 2 ^ f.mbits + (sig - 2 ^ f.mbits)

/-- What a conversion delivers: the encoding, the bits of R90 it raises, and whether it was a range overflow (R88). -/
structure Enc where
  bits : Nat
  flags : Flags
  range : Bool
  deriving DecidableEq, Repr, Inhabited

/-- The range-overflow table of R88: `inf` says that x is infinite. -/
def overflowBits (f : Fmt) (mode : Mode) (sat neg inf : Bool) : Nat :=
  let mx := f.signBit neg + f.maxBits
  if f.isE8m0 then (if sat then 0xFE else 0xFF)
  else if sat then mx
  else if f.isE4m3 then 0x7F
  else if !f.hasInf then mx
  else if inf then f.infBits neg
  else match mode with
    | .rz => mx
    | .rd => if neg then f.infBits neg else mx
    | .ru => if neg then mx else f.infBits neg
    | _ => f.infBits neg

/-- `enc` of R88 to R90. E8M0 ignores the sign of x (R87): the dropped sign of a negative x raises no inexact, which
follows |x| alone (DESIGN CHOICE, log entry 15). -/
def enc (f : Fmt) (x : Num) (mode : Mode) (sat : Bool) : Enc :=
  match x with
  | .nan sig => ⟨f.nanBits, flagIf (sig || !f.hasNan) flagNV, false⟩
  | .inf neg =>
    let b := overflowBits f mode sat neg true
    let toNan := !sat && (f.isE4m3 || f.isE8m0)
    let toInf := !sat && f.hasInf
    ⟨b, flagIf toNan flagNV ||| flagIf (!toNan && !toInf) flagNX, true⟩
  | .fin neg m e =>
    let (k, qe, inexact) := rndMag f mode neg m e
    let (mk, me) := f.maxSig
    if magLt mk me k qe then ⟨overflowBits f mode sat neg false, flagOF ||| flagNX, true⟩
    else if f.isE8m0 then
      let b := encMag f neg k qe
      ⟨b, flagIf (m != 0 && b == 0) flagUF ||| flagIf (inexact || m == 0) flagNX, false⟩
    else
      let sub := k != 0 && decide ((Nat.log2 k : Int) + qe < f.emin)
      ⟨encMag f neg k qe, flagIf (sub && inexact) flagUF ||| flagIf inexact flagNX, false⟩

/-- Exact product. -/
def numMul (a b : Num) : Num × Flags :=
  match a, b with
  | .nan s, .nan t => (.nan false, flagIf (s || t) flagNV)
  | .nan s, _ => (.nan false, flagIf s flagNV)
  | _, .nan t => (.nan false, flagIf t flagNV)
  | .inf n, .inf k => (.inf (n != k), flagNone)
  | .inf n, .fin k m _ => if m = 0 then (.nan false, flagNV) else (.inf (n != k), flagNone)
  | .fin n m _, .inf k => if m = 0 then (.nan false, flagNV) else (.inf (n != k), flagNone)
  | .fin n m e, .fin k p g => (.fin (n != k) (m * p) (e + g), flagNone)

/-- The signed integer of a significand. -/
def signedOf (neg : Bool) (m : Nat) : Int := if neg then -(m : Int) else m

/-- Exact sum. An exact zero takes the common sign of its addends, else +0, or -0 under RD (IEEE 754-2019, R92). -/
def numAdd (a b : Num) (mode : Mode) : Num × Flags :=
  match a, b with
  | .nan s, .nan t => (.nan false, flagIf (s || t) flagNV)
  | .nan s, _ => (.nan false, flagIf s flagNV)
  | _, .nan t => (.nan false, flagIf t flagNV)
  | .inf n, .inf k => if n = k then (.inf n, flagNone) else (.nan false, flagNV)
  | .inf n, .fin _ _ _ => (.inf n, flagNone)
  | .fin _ _ _, .inf k => (.inf k, flagNone)
  | .fin n m e, .fin k p g =>
    let q := min e g
    let t := signedOf n m * 2 ^ (e - q).toNat + signedOf k p * 2 ^ (g - q).toNat
    if t = 0 then (.fin (if n = k then n else mode == .rd) 0 q, flagNone)
    else (.fin (decide (t < 0)) t.natAbs q, flagNone)

/-- Negate the sign. -/
def numNeg : Num → Num
  | .nan s => .nan s
  | .inf n => .inf !n
  | .fin n m e => .fin (!n) m e

/-- Round an exact result into a format without saturation. -/
def numEnc (f : Fmt) (r : Num × Flags) (mode : Mode) : Nat × Flags :=
  let z := enc f r.1 mode false
  (z.bits, r.2 ||| z.flags)

def fpAdd (f : Fmt) (mode : Mode) (a b : Nat) : Nat × Flags := numEnc f (numAdd (dec f a) (dec f b) mode) mode

/-- Subtraction negates b; a NaN keeps its kind. -/
def fpSub (f : Fmt) (mode : Mode) (a b : Nat) : Nat × Flags :=
  numEnc f (numAdd (dec f a) (numNeg (dec f b)) mode) mode

def fpMul (f : Fmt) (mode : Mode) (a b : Nat) : Nat × Flags := numEnc f (numMul (dec f a) (dec f b)) mode

/-- `fma32` of R92 in any format: a * b + c exactly, then one rounding. -/
def fpFma (f : Fmt) (mode : Mode) (a b c : Nat) : Nat × Flags :=
  let (p, fl) := numMul (dec f a) (dec f b)
  let cc := dec f c
  let sum := numAdd p cc mode
  let inv := flagIf (fl != flagNone) flagNV
  numEnc f (sum.1, inv ||| sum.2) mode

/-- Exact order of two values that are not NaN; -0 equals +0. -/
def numLt (a b : Num) : Bool :=
  match a, b with
  | .nan _, _ => false
  | _, .nan _ => false
  | .inf n, .inf k => n && !k
  | .inf n, .fin _ _ _ => n
  | .fin _ _ _, .inf k => !k
  | .fin n m e, .fin k p g =>
    let q := min e g
    decide (signedOf n m * 2 ^ (e - q).toNat < signedOf k p * 2 ^ (g - q).toNat)

def Num.isNan : Num → Bool
  | .nan _ => true
  | _ => false

def Num.isSnan : Num → Bool
  | .nan s => s
  | _ => false

def numEq (a b : Num) : Bool := !a.isNan && !b.isNan && !numLt a b && !numLt b a

def Num.neg : Num → Bool
  | .nan _ => false
  | .inf n => n
  | .fin n _ _ => n

/-- minimumNumber and maximumNumber (R92): -0 is below +0; one NaN gives the other operand, two give the canonical NaN. -/
def fpMin (f : Fmt) (a b : Nat) : Nat × Flags :=
  let x := dec f a
  let y := dec f b
  let fl := flagIf (x.isSnan || y.isSnan) flagNV
  if x.isNan && y.isNan then (f.nanBits, fl)
  else if x.isNan then (b, fl)
  else if y.isNan then (a, fl)
  else if numLt x y then (a, fl)
  else if numLt y x then (b, fl)
  else (if x.neg then a else b, fl)

def fpMax (f : Fmt) (a b : Nat) : Nat × Flags :=
  let x := dec f a
  let y := dec f b
  let fl := flagIf (x.isSnan || y.isSnan) flagNV
  if x.isNan && y.isNan then (f.nanBits, fl)
  else if x.isNan then (b, fl)
  else if y.isNan then (a, fl)
  else if numLt x y then (b, fl)
  else if numLt y x then (a, fl)
  else (if x.neg then b else a, fl)

/-- `cvt_int` of R91: the 32-bit result and the bits raised. `unsig` selects .z32. -/
def cvtInt (x : Num) (unsig : Bool) (mode : Mode) (sat : Bool) : Word × Flags :=
  let hi : Int := if unsig then 2 ^ 32 - 1 else 2 ^ 31 - 1
  let lo : Int := if unsig then 0 else -(2 ^ 31)
  let above : Word := if sat then BitVec.ofInt 32 hi else if unsig then 0xFFFFFFFF else 0x80000000
  let below : Word := if sat then BitVec.ofInt 32 lo else if unsig then 0 else 0x80000000
  match x with
  | .nan _ => (if sat then 0 else if unsig then 0 else 0x80000000, flagNV)
  | .inf n => (if n then below else above, flagNV)
  | .fin n m e =>
    let lowPart := if 0 ≤ e then (m * 2 ^ e.toNat, 0, 1) else
      (m / 2 ^ (-e).toNat, m % 2 ^ (-e).toNat, 2 ^ (-e).toNat)
    let k := if roundsAway false mode n lowPart.1 lowPart.2.1 lowPart.2.2 then lowPart.1 + 1 else lowPart.1
    let y := signedOf n k
    if hi < y then (above, flagNV)
    else if y < lo then (below, flagNV)
    else (BitVec.ofInt 32 y, flagIf (lowPart.2.1 != 0) flagNX)

/-- An integer as an exact value. -/
def numOfInt (t : Int) : Num := .fin (decide (t < 0)) t.natAbs 0

/-! ### Random bits (R93, R94) -/

def rotl32 (a : Word) (n : Nat) : Word := a.rotateLeft n

/-- One round of R94 with its key constant. -/
def mixRound (k0 k1 c : Word) (w : Word × Word × Word × Word) : Word × Word × Word × Word :=
  let w0 := w.1 + (k0 ^^^ c)
  let w2 := w.2.2.1 + (k1 ^^^ c)
  let w1 := rotl32 w.2.1 13 ^^^ (w0 + w.2.2.2)
  let w3 := rotl32 w.2.2.2 21 ^^^ (w2 + w1)
  let w0' := rotl32 w0 7 ^^^ w3
  let w2' := rotl32 w2 17 ^^^ w1
  (w1, w2', w3, w0')

/-- `random128` of R94. -/
def random128 (seed gti ctr : DWord) : QWord :=
  let k0 := seed.truncate 32
  let k1 := (seed >>> 32).truncate 32
  let w := (ctr.truncate 32, (ctr >>> 32).truncate 32, gti.truncate 32, (gti >>> 32).truncate 32)
  let w := mixRound k0 k1 0xA57D3C19 w
  let w := mixRound k0 k1 0x6B21F0D3 w
  let w := mixRound k0 k1 0xD94E0A87 w
  let w := mixRound k0 k1 0x3C8B6E25 w
  w.2.2.2 ++ w.2.2.1 ++ w.2.1 ++ w.1

/-! ### AMAX (R97) -/

/-- The update of AMAX with a source of the given FP32 encoding: [32] NAN, [30:0] MAG. A MAG that encodes a NaN, which
SETSR can write and R97 reserves, is kept and compared by its bits (DESIGN CHOICE, log entry 15). -/
def amaxUpdate (amax : BitVec 33) (x : Word) : BitVec 33 :=
  let mag := x &&& 0x7FFFFFFF
  if (dec fmtFp32 x.toNat).isNan then amax ||| 0x100000000
  else if (amax.truncate 31).toNat < mag.toNat then (amax &&& 0x100000000) ||| mag.zeroExtend 33
  else amax

/-! ### Element layout in v registers (R78) -/

/-- Replace element `pos` of width `w` bits. -/
def insertElem (old : Word) (w pos val : Nat) : Word :=
  let mask := BitVec.ofNat 32 ((2 ^ w - 1) * 2 ^ (w * pos))
  (old &&& ~~~mask) ||| BitVec.ofNat 32 (val % 2 ^ w * 2 ^ (w * pos))

/-- Read element `pos` of width `w` bits. -/
def elemAt (v : Word) (w pos : Nat) : Nat := v.toNat / 2 ^ (w * pos) % 2 ^ w

/-! ### CRC-32C (10 R246) -/

/-- One bit of the reflected CRC-32C register. -/
def crcBit (c : Word) : Word := if c.getLsbD 0 then (c >>> 1) ^^^ 0x82F63B78 else c >>> 1

def crcByte (c : Word) (b : Byte) : Word :=
  crcBit (crcBit (crcBit (crcBit (crcBit (crcBit (crcBit (crcBit (c ^^^ b.zeroExtend 32))))))))

/-- CRC-32C of bytes in ascending address order. -/
def crc32c (bs : List Byte) : Word := (bs.foldl crcByte 0xFFFFFFFF) ^^^ 0xFFFFFFFF

end Sys2Proof.Machine
end

