-- ==== Sys2Proof/Machine/Sparse.lean ====
section
/-! DEFINITION. Sparse maps: a list of (key, value) pairs whose unlisted keys read as a default. The canonical form has
strictly rising keys and lists no value equal to the default of its key, so that equal maps are equal lists. -/

namespace Sys2Proof.Machine

/-- A sparse map from natural numbers; what an unlisted key reads as is an argument of `spGet` and `spSet`. -/
abbrev Sparse (α : Type) := List (Nat × α)

/-- The first entry of a key, if the list has one. -/
def spFind {α : Type} : Sparse α → Nat → Option α
  | [], _ => none
  | (j, v) :: m, k => if j = k then some v else spFind m k

/-- Read a key. -/
def spGet {α : Type} (d : Nat → α) (m : Sparse α) (k : Nat) : α := (spFind m k).getD (d k)

/-- Insert or replace a key, keeping rising keys rising. -/
def spPut {α : Type} : Sparse α → Nat → α → Sparse α
  | [], k, v => [(k, v)]
  | (j, w) :: m, k, v =>
    if k < j then (k, v) :: (j, w) :: m
    else if k = j then (k, v) :: m
    else (j, w) :: spPut m k v

/-- Remove a key. -/
def spErase {α : Type} : Sparse α → Nat → Sparse α
  | [], _ => []
  | (j, w) :: m, k => if j = k then spErase m k else (j, w) :: spErase m k

/-- Write a key; writing the default removes the entry. -/
def spSet {α : Type} [DecidableEq α] (d : Nat → α) (m : Sparse α) (k : Nat) (v : α) : Sparse α :=
  if v = d k then spErase m k else spPut m k v

/-- Every key of the list lies above the bound. -/
def spAbove {α : Type} : Nat → Sparse α → Bool
  | _, [] => true
  | b, (k, _) :: m => decide (b < k) && spAbove b m

/-- The canonical form. -/
def spWf {α : Type} [DecidableEq α] (d : Nat → α) : Sparse α → Bool
  | [] => true
  | (k, v) :: m => decide (v ≠ d k) && spAbove k m && spWf d m

/-- Read `n` consecutive keys. -/
def spGetN {α : Type} (d : Nat → α) (m : Sparse α) (a : Nat) : Nat → List α
  | 0 => []
  | n + 1 => spGet d m a :: spGetN d m (a + 1) n

/-- Write consecutive keys. -/
def spSetN {α : Type} [DecidableEq α] (d : Nat → α) (m : Sparse α) (a : Nat) : List α → Sparse α
  | [] => m
  | v :: vs => spSetN d (spSet d m a v) (a + 1) vs

end Sys2Proof.Machine
end

