-- ==== Sys2Proof/Machine/State.lean ====
section
/-! DEFINITION. The state of one LZ1 package as plain data, the reasons a step can stop, and the state after reset.
Threads, groups, cores, runs, commands and launches stand in maps or lists of their own, keyed by number, so that each
has one home. INVENTORY.md names the rule of the manual behind every field. -/

namespace Sys2Proof.Machine

/-- A named stop of the machine. -/
inductive Fault where
  /-- A slot operation was executed while no bundle is being issued. Raised by every slot meaning; no run of `step`
  reaches it, since `step` decodes slots only from the issue latch. Safe. -/
  | noIssue
  deriving DecidableEq, Repr, Inhabited

/-- No meaning for the instruction. -/
inductive Refusal where
  /-- An instruction that has no meaning yet, rejected by name in Dispatch. Safe. -/
  | notModelled (mnemonic : String)
  deriving DecidableEq, Repr, Inhabited

/-! ### Threads -/

/-- The loop state of R119. `rot` is the rotation code of R53 for rsz. -/
structure LoopState where
  lc0 : Word
  lc1 : Word
  ec : Byte
  rrb : BitVec 6
  rot : BitVec 3
  ls0 : DWord
  ls1 : DWord
  deriving DecidableEq, Repr, Inhabited

def LoopState.zero : LoopState := ⟨0, 0, 0, 0, 0, 0, 0⟩

/-- A frame (R275): its size in blocks, its registers by physical index, and whether it is held in the spill area. -/
structure Frame where
  size : Nat
  regs : Sparse Word
  spilled : Bool
  deriving DecidableEq, Repr, Inhabited

/-- A frame-stack entry (R278) and whether it is held on chip (R277). -/
structure Entry where
  ret : DWord
  loop : LoopState
  stage : Byte
  mark : Bool
  size : Nat
  onChip : Bool
  deriving DecidableEq, Repr, Inhabited

/-- What a thread is blocked on, with the codes of R349. -/
inductive Blocked where
  | no | bar | svc | frame | refill | page | swap
  deriving DecidableEq, Repr, Inhabited

/-- The five fences of R219. -/
inductive FenceKind where
  | acq | rel | ar | sc | cp
  deriving DecidableEq, Repr, Inhabited

/-- A fence whose earlier accesses have not all completed: its scope code (R35) and its place in the core's order. -/
structure PendFence where
  kind : FenceKind
  scope : Nat
  seq : Nat
  /-- The promotion whose acknowledgement this fence awaits (R225), if any. -/
  prom : Option Nat
  deriving DecidableEq, Repr, Inhabited

/-- Places in the core's order of a thread's last releases at cluster scope, at die scope, at package or pod scope and at
system scope (R307). -/
structure Rels where
  cluster : Nat
  die : Nat
  wide : Nat
  system : Nat
  deriving DecidableEq, Repr, Inhabited

def Rels.zero : Rels := ⟨0, 0, 0, 0⟩

/-- A thread. `frames` is innermost first and has one more element than `entries`. -/
structure Thread where
  group : Nat
  tid : Nat
  x : Sparse DWord
  p : BitVec 16
  b : Sparse DWord
  loop : LoopState
  frames : List Frame
  entries : List Entry
  pc : DWord
  status : Byte
  amax : BitVec 33
  satcnt : Word
  rctr : DWord
  blocked : Blocked
  live : Bool
  /-- The trap this thread belongs to while it runs the handler (R342, R345). -/
  trap : Option Nat
  fences : List PendFence
  /-- A DRAIN that has not completed: the remote operations issued before this identifier (R221). -/
  drain : Option Nat
  /-- The releases wider than core scope that the thread's later writes follow (R307). -/
  rel : Rels
  /-- PC of the yield bundle after which the thread entered swap wait (R424). -/
  yieldPc : DWord
  /-- The item after a yield bundle in which the thread blocked: it enters swap wait once released (R424). -/
  swapDue : Option DWord
  /-- Reference cycle at which the thread last blocked (R29). -/
  blockedAt : Nat
  deriving DecidableEq, Repr, Inhabited

def Thread.none : Thread :=
  { group := 0, tid := 0, x := [], p := 0, b := [], loop := LoopState.zero, frames := [], entries := [], pc := 0,
    status := 0, amax := 0, satcnt := 0, rctr := 0, blocked := .no, live := false, trap := Option.none, fences := [],
    drain := Option.none, rel := Rels.zero, yieldPc := 0, swapDue := Option.none, blockedAt := 0 }

/-! ### Issue groups, results in flight and bins -/

/-- The destination of a result (R111, R351). A v register is named by its frame depth and physical index. -/
inductive Dest where
  | v (depth reg : Nat)
  | x (r : Nat)
  | p (r : Nat)
  | b (r : Nat)
  | loop0
  | loop1
  | sr (n : Nat)
  | shape (set field : Nat)
  | status
  deriving DecidableEq, Repr, Inhabited

/-- A result in flight: it lands at count `land` in the thread of each pair, with the lane value in the layout of R351.
`wait` names the access whose value has still to arrive, of which this result takes word `part`. -/
structure Flight where
  dest : Dest
  land : Nat
  vals : List (Nat × QWord)
  wait : Option Nat
  part : Nat
  deriving DecidableEq, Repr, Inhabited

/-- What an access to device memory waits for: the copy of a snapshot page (R383), or the directory's answer for a line
that a host may hold, invalidated or only written back (R400). -/
inductive WaitOn where
  | copy (page : Nat)
  | host (inval : Bool) (line : Nat)
  deriving DecidableEq, Repr, Inhabited

/-- Why a run does not issue: the stalls and freezes of R339. -/
inductive Hold where
  | semwait (sem thr : Nat)
  /-- TAGWA, or TAGWL, with the mask within the window. -/
  | tag (all : Bool) (mask : DWord)
  | tagCount
  | startBuffer
  | siphonFull
  | commandFull
  | serviceQueue
  | value (wait : Nat)
  | token (tile : Nat)
  | table (slot : Nat)
  | fence
  | drain
  | copySource (cmd : Nat)
  | page (req : Nat)
  | requestFull
  | snapshotCopy (page : Nat)
  | hostLine (inval : Bool) (line : Nat)
  | entryRead
  | engineLine (cmd : Nat)
  /-- An earlier write of the core on bytes that the bundle reads itself has still to perform (R302). -/
  | ordered
  | service
  deriving DecidableEq, Repr, Inhabited

/-- A lane's way on after the bundle (R115 and the branch-slot kinds). -/
inductive Way where
  /-- Continues at a PC. -/
  | go (pc : DWord)
  /-- Blocks, and continues at the PC once released. -/
  | block (why : Blocked) (pc : DWord)
  /-- Has exited. -/
  | gone
  deriving DecidableEq, Repr, Inhabited

/-- An unfiled run (R100): its threads by home lane, its next PC and its bundle count. `since` is the first core cycle at
which it is a candidate (R104). -/
structure Run where
  id : Nat
  core : Nat
  group : Nat
  lanes : List (Nat × Nat)
  pc : DWord
  count : Nat
  flights : List Flight
  since : Nat
  held : Option (Hold × Nat)
  /-- The bundle that the run has fetched and waits with (R114). -/
  onBundle : Option (BitVec 384)
  /-- The lanes' ways after a filing point whose values and fences are still awaited (R113, R219). -/
  ways : Option (List (Nat × Way))
  /-- Slots that a RESUME.SLOTS suppresses in the next bundle, and the next PC it names (R71). -/
  resume : Option (BitVec 13 × Option DWord)
  deriving DecidableEq, Repr, Inhabited

/-- A bin (R102): threads by lane that share (group, next PC). `ready` is the first core cycle from which it is ready
(R103). -/
structure Bin where
  group : Nat
  pc : DWord
  lanes : List (Nat × Nat)
  opened : Nat
  oldest : Nat
  ready : Option Nat
  /-- The run that holds its threads while its first bundle stalls or freezes: the bin is free when that issues. -/
  run : Option Nat
  deriving DecidableEq, Repr, Inhabited

/-- One present slot of the bundle being issued: its PRES bit and its bits. -/
structure SlotWord where
  pos : Nat
  bits : BitVec 64
  deriving DecidableEq, Repr, Inhabited

/-- The bundle being issued. Its slots that have not acted stand in `slots`, in acting order; `cleared` says that every
precise condition of R339 has been found absent. -/
structure Issue where
  core : Nat
  run : Nat
  group : Nat
  lanes : List (Nat × Nat)
  pc : DWord
  seqPc : DWord
  count : Nat
  scope : Nat
  /-- Place of the bundle in the core's order: writes below it were issued by earlier bundles. -/
  seq0 : Nat
  loopEnd : Bool
  yieldB : Bool
  bundle : BitVec 384
  slots : List SlotWord
  cur : Nat
  ext : Option (BitVec 25)
  leaf : List (Nat × Nat)
  ways : List (Nat × Way)
  /-- The bundle is a filing point whatever its lanes do (R101). -/
  file : Bool
  cleared : Bool
  /-- Kinds that a RESUME.SLOTS suppressed (R71). -/
  suppress : BitVec 13
  /-- Place in the core's order of a fence of this bundle, which its writes follow (R220). -/
  fenceSeq : Option Nat
  /-- Next PC that an emulation result block names (R71). -/
  nextPc : Option DWord
  /-- Call descriptors read in the load phase (R282), by lane. -/
  descs : List (Nat × List Byte)
  deriving DecidableEq, Repr, Inhabited

/-! ### Groups -/

/-- What the kernel header of the kernel in force gives (R415), with absolute addresses. -/
structure Kernel where
  base : DWord
  entry : DWord
  handler : Option DWord
  lload : Nat
  gsize : Nat
  gang : Nat
  demand : Nat
  sems : Nat
  tags : Nat
  tiles : Nat
  fuse : Bool
  scales : Bool
  pattern : Bool
  scratch : Nat
  dictLen : Nat
  dictOff : Nat
  codeOff : Nat
  codeSize : Nat
  fmt : List (BitVec 5 × BitVec 5)
  tmap : List Byte
  deriving DecidableEq, Repr, Inhabited

def Kernel.none : Kernel :=
  { base := 0, entry := 0, handler := Option.none, lload := 4, gsize := 0, gang := 1, demand := 1, sems := 0, tags := 0,
    tiles := 0, fuse := false, scales := false, pattern := false, scratch := 0, dictLen := 0, dictOff := 0,
    codeOff := 0, codeSize := 0, fmt := [], tmap := [] }

/-- Where a group stands (R332, R333). -/
inductive Place where
  | resident | parked | saved | ended
  deriving DecidableEq, Repr, Inhabited

/-- The token of an accumulator tile (R33). -/
inductive Token where
  | m | mv | v
  deriving DecidableEq, Repr, Inhabited

/-- An accumulator tile: element (row, column) at key 64 * row + column, and its token. -/
structure Tile where
  elems : Sparse Word
  token : Token
  deriving DecidableEq, Repr, Inhabited

def Tile.zero : Tile := ⟨[], .m⟩

/-- The mapping of a logical table (R151, R191). -/
structure TableMap where
  byte : Byte
  unusable : Bool
  armed : Option Word
  deriving DecidableEq, Repr, Inhabited

def TableMap.unmapped : TableMap := ⟨0xFF, false, Option.none⟩

/-- A channel (R31): the identifier last assigned, and %cdone with the identifiers retired beyond it. -/
structure Channel where
  cid : Nat
  cdone : Nat
  ahead : List Nat
  deriving DecidableEq, Repr, Inhabited

def Channel.zero : Channel := ⟨0, 0, []⟩

/-- A yield map (R423): base and header of the replacement, and its (old PC, new PC) pairs. -/
structure YieldMap where
  base : DWord
  header : List Byte
  pairs : List (DWord × DWord)
  deriving DecidableEq, Repr, Inhabited

/-- An update of a semaphore: its place among the updates of one cycle (R27), the semaphore, whether it sets it, and the
value. -/
structure SemOp where
  rank : Nat
  sem : Nat
  set : Bool
  v : Int
  deriving DecidableEq, Repr, Inhabited

/-- A record of the statistics queue (R253, R270): eight 64-bit words. -/
abbrev Rec := List DWord

/-- A group. -/
structure Group where
  launch : Nat
  gid : Nat
  core : Nat
  member : Nat
  tenant : Nat
  prio : Nat
  kernel : Kernel
  place : Place
  sems : Sparse (BitVec 16)
  semSat : Bool
  /-- The counts, the saturation condition, %tags and the channels at the start of the core's cycle, and the semaphore updates
  since, in R27's order. -/
  semBase : Sparse (BitVec 16)
  satBase : Bool
  tagBase : DWord
  chanBase : Sparse Channel
  semOps : List SemOp
  tags : DWord
  tagCount : Sparse Nat
  chans : Sparse Channel
  tiles : Sparse Tile
  fmt : Sparse (BitVec 5 × BitVec 5)
  shapes : Sparse DWord
  tmap : Sparse TableMap
  pbank : Bool
  dbank : Bool
  swap : Option DWord
  /-- What was read when the swap was armed (R424). -/
  ymap : Option YieldMap
  smask : Byte
  stats : List Rec
  stageA : List Byte
  stageB : List Byte
  latches : Sparse Byte
  /-- Bases of the gang's scratchpad region in the two halves of the cluster window (R202). -/
  scrBase0 : Nat
  scrBase1 : Nat
  scrHalf : Nat
  /-- The cluster that holds that region; none when the gang has none, or it stands in a context part (R202, R355). -/
  region : Option Nat
  /-- Reference cycle at which the wait that makes the group a parking candidate began (R29). -/
  waitSince : Option Nat
  candidate : Bool
  yieldReq : Option Nat
  /-- No run of the group issues any more: it is to be saved (R353). -/
  stopped : Bool
  fixedPart : Option Nat
  contextPart : Option (Nat × Nat)
  /-- Page request on which the save or restore of the group waits, and the address it is for (R346). -/
  poolReq : Option (Nat × DWord)
  /-- Threads whose service results are still to be written to their shadows (R353). -/
  shadowDue : List Nat
  /-- Windows' start in the core's files, for the contiguous allocation of R20: semaphores, tags, tiles, formats. -/
  semAt : Nat
  tagAt : Nat
  tileAt : Nat
  fmtAt : Nat
  /-- Why the group was parked (R332). -/
  parkedOn : List Hold
  deriving DecidableEq, Repr, Inhabited

def Group.none : Group :=
  { launch := 0, gid := 0, core := 0, member := 0, tenant := 0, prio := 0, kernel := Kernel.none, place := .ended,
    sems := [], semSat := false, semBase := [], satBase := false, tagBase := 0, chanBase := [], semOps := [], tags := 0, tagCount := [], chans := [], tiles := [], fmt := [], shapes := [],
    tmap := [], pbank := false, dbank := false, swap := Option.none, ymap := Option.none, smask := 0, stats := [],
    stageA := [], stageB := [], latches := [], scrBase0 := 0, scrBase1 := 0, scrHalf := 0, region := Option.none, waitSince := Option.none,
    candidate := false, yieldReq := Option.none, stopped := false, fixedPart := Option.none, contextPart := Option.none,
    poolReq := Option.none, shadowDue := [],
    semAt := 0, tagAt := 0, tileAt := 0, fmtAt := 0, parkedOn := [] }

/-! ### Cores -/

/-- The state of a physical table slot (R186). -/
inductive SlotState where
  | empty | loading | ready | failed
  deriving DecidableEq, Repr, Inhabited

/-- A physical table slot (R184 to R188): its owner and its image as loaded, header then segments. -/
structure TableSlot where
  state : SlotState
  owner : Option Nat
  image : List Byte
  deriving DecidableEq, Repr, Inhabited

def TableSlot.reset : TableSlot := ⟨.empty, Option.none, []⟩

/-- A dictionary bank (R40): its length, the kernel it holds, and its bundles by index. -/
structure DictBank where
  len : Nat
  kernel : Option DWord
  bundles : Sparse (BitVec 384)
  loading : Bool
  deriving DecidableEq, Repr, Inhabited

def DictBank.reset : DictBank := ⟨0, Option.none, [], false⟩

/-- A call waiting for a frame (R284): the thread, its captured entry, carried values, demand and target. -/
structure Waiter where
  thread : Nat
  lane : Nat
  since : Nat
  entry : Entry
  carried : List Word
  dem : Nat
  target : DWord
  /-- The page request that its grant waits on, the address it is for and the thread whose record that is (R279). -/
  req : Option (Nat × DWord × Nat)
  deriving DecidableEq, Repr, Inhabited

/-- A refill request (R288): the thread, the depth of the frame it needs, and where it goes on. `entryAt` is the record
of an entry held in memory that is read back first, before the `pops` frames above go (R277, R289, R291); `carried` are
the values that RET carries into the frame. -/
structure RefillReq where
  thread : Nat
  lane : Nat
  since : Nat
  depth : Nat
  pc : DWord
  entryAt : Option Nat
  pops : Nat
  carried : List Word
  /-- Registers that a result lands in later than the restored values (R289). -/
  late : List Dest
  req : Option (Nat × DWord × Nat)
  deriving DecidableEq, Repr, Inhabited

/-- How an access reaches device memory (R372): cacheable, through the local attribute of R206, or at the home without
allocating (PBMT 1 and 2). -/
inductive Attr where
  | wb | lcl | nc
  deriving DecidableEq, Repr, Inhabited

/-- The operations of R212 on a word. -/
inductive AtomOp where
  | add | minS | maxS | minU | maxU | and | or | xor | exch | cas | faddF32 | faddBf16
  deriving DecidableEq, Repr, Inhabited

/-- What an entry of the core's order does when it performs: a write of bytes (R305), an ICINV at a scope (R218), one
lane's atomic with its two data words and the access that takes the old word (R213), a semaphore write of a fence's bundle
(R310), or what is left of a write that stands at the home while hosts still hold copies of its line (R301). -/
inductive WriteAct where
  | bytes (bs : List Byte)
  | code (scope : Nat)
  | atom (op : AtomOp) (d e : Word) (access : Nat)
  | sem (op : SemOp) (group : Nat)
  | told
  deriving DecidableEq, Repr, Inhabited

/-- A write in the core's order (R302) that has not performed at every scope: a single-copy atomic piece of a store
(R305), an atomic, an ICINV or a semaphore write. `level` is the scope it has performed at: 0 core, 1 cluster, 2 die, 3 pod.
`after` are the releases that it follows (R307); `attr` says how it reaches memory (R372). -/
structure PendWrite where
  id : Nat
  seq : Nat
  thread : Nat
  addr : Nat
  act : WriteAct
  after : Rels
  attr : Attr
  level : Nat
  deriving DecidableEq, Repr, Inhabited

/-- A request of the service queue (R357). -/
structure SvcReq where
  num : BitVec 16
  group : Nat
  lanes : List (Nat × Nat)
  pc : DWord
  arrived : Nat
  /-- Place of its bundle in the core's order. -/
  place : Nat
  slot : Nat
  /-- Its record has been written (R357). -/
  recorded : Bool
  /-- A yield bundle, or after the deadline any bundle, has issued since it arrived: it is entered next (R358). -/
  yielded : Bool
  deriving DecidableEq, Repr, Inhabited

/-- A core. -/
structure Core where
  bins : List Bin
  binovf : DWord
  slots : Sparse TableSlot
  latches : Sparse Byte
  patterns : Sparse Byte
  dict0 : DictBank
  dict1 : DictBank
  waiters : List Waiter
  refills : List RefillReq
  /-- Per lane the core cycle at which blocks were last freed, and how many in that cycle (R285, R286). -/
  lastFreed : Sparse (Nat × Nat)
  /-- Per lane the waiter for which the Windlass spills, and the victim whose page it waits for: thread and depth (R286). -/
  spilling : Sparse (Option (Nat × Option (Nat × Nat)))
  /-- The last core cycle in which threads exited, and how many: their slots are free from the next (R130). -/
  exits : Nat × Nat
  writes : List PendWrite
  /-- Bytes of local lines held in L1 (R206), by physical address, and whether each is dirty; unlisted is not held.
  With fused L1 a line stands in the member that R205 chooses. -/
  lines : Sparse (Byte × Bool)
  /-- Placement hints of lines of L1 (R207), by line number: 1 first for eviction, 2 kept in preference. -/
  hints : Sparse Nat
  /-- Fetch blocks of which the core keeps a copy (R427), by physical address / 64. -/
  code : Sparse (List Byte)
  svcQueue : List SvcReq
  service : Option SvcReq
  seq : Nat
  /-- First core cycle at which the core may issue its next bundle (R104), and its Siphon and its matrix engine may start
  their next command (R235, R255). -/
  issueFrom : Nat
  siphonFrom : Nat
  matrixFrom : Nat
  deriving DecidableEq, Repr, Inhabited

def Core.reset : Core :=
  { bins := [], binovf := 0, slots := [], latches := [], patterns := [], dict0 := DictBank.reset,
    dict1 := DictBank.reset, waiters := [], refills := [], lastFreed := [], spilling := [], exits := (0, 0), writes := [], lines := [], hints := [], code := [],
    svcQueue := [], service := Option.none, seq := 1, issueFrom := 0, siphonFrom := 0, matrixFrom := 0 }

/-! ### Accesses and engine commands -/

/-- How a value read from memory becomes a register value (R208). -/
inductive Ext where
  | zero (bytes : Nat)
  | sign (bytes : Nat)
  | words
  deriving DecidableEq, Repr, Inhabited

/-- One piece of a load (R305): where its bytes lie in the value, its physical address and attribute, and its bytes once
fixed. A remote piece is fixed by its response. -/
structure ReadPiece where
  at_ : Nat
  addr : Nat
  len : Nat
  attr : Attr
  fixed : Option (List Byte)
  remote : Option Nat
  deriving DecidableEq, Repr, Inhabited

/-- An access whose value has still to arrive (R112): the pieces it reads for each thread, or the answer of the hub. -/
structure Access where
  id : Nat
  core : Nat
  run : Nat
  group : Nat
  seq : Nat
  ext : Ext
  reads : List (Nat × List ReadPiece)
  /-- Values the hub has answered (LAUNCH, TXBEGIN, TXCOMMIT); an access of that kind has no reads. -/
  answer : Option (List (Nat × QWord))
  hub : Bool
  deriving DecidableEq, Repr, Inhabited

/-- What an engine command does, with the fields its engine needs. -/
inductive CmdOp where
  | copy | copyx | tload | pload (bank : Bool) | dload | intake
  | mma (tile : Nat) (fa fb kb : Nat) (zf mid lb : Bool)
  | accz (tile : Nat)
  | mst (tile fmt : Nat)
  | mld (tile : Nat)
  | msync
  | mstat (tile : Nat)
  | scale (side lb : Bool) (data : Option (List Byte))
  deriving DecidableEq, Repr, Inhabited

/-- An engine command from issue to retirement (R23 to R38, R234, R255). -/
structure Cmd where
  id : Nat
  group : Nat
  core : Nat
  /-- Core cycle and reference cycle of its issue. -/
  issued : Nat
  since : Nat
  op : CmdOp
  wsem : Nat
  wth : Nat
  ssem : Nat
  inc : Nat
  ch : Nat
  ident : Nat
  tag : Nat
  xs : DWord
  xd : DWord
  shape : List DWord
  mask : BitVec 5
  xform : Nat
  timed : Bool
  inBuffer : Bool
  scope : Nat
  leader : Nat
  /-- Place of its bundle in the core's order (R219, R312). -/
  place : Nat
  /-- Its place in the order of starts (R311): an earlier start owns its lines first. -/
  startSeq : Nat
  started : Bool
  /-- Linear index reached by a copy or load, and the request it is held on (R245). -/
  progress : Nat
  held : Option Nat
  finished : Bool
  status : Nat
  failAddr : DWord
  detail : DWord
  /-- Tile elements, computed at start and written at retirement. -/
  result : Sparse Word
  /-- Trailer mismatch of MLD: computed CRC and trailer read (R268, R270). -/
  mismatch : Option (Word × DWord)
  /-- First row of a verify copy that did not match its trailer (R247). -/
  rowBad : Option Nat
  /-- Bytes read so far of the row or image in hand. -/
  row : List Byte
  /-- The 8-byte units that a copy has read, by location / 8: each is read once (R312). -/
  units : Sparse (List Byte)
  /-- The elements that a copy has read and that some consumer has still to take, from index `base` on; the elements that
  destination and mirror have taken, and the bytes that each staging buffer has (R258). -/
  buf : List (List Byte)
  base : Nat
  dstAt : Nat
  aAt : Nat
  bAt : Nat
  /-- TLOAD and DLOAD: the store is Loading for this command. INTAKE: its chain has run, and `out` remains to write. -/
  planned : Bool
  out : List (DWord × Byte)
  /-- INTAKE: the key slots as they stood at its start (R447). -/
  keys : Sparse (Option (Nat × List Byte))
  deriving DecidableEq, Repr, Inhabited

/-! ### The hub -/

/-- A launch (R322 to R337). -/
structure Launch where
  id : Nat
  words : List DWord
  accepted : Nat
  firstPlaced : Option Nat
  kernel : Kernel
  waits : List Nat
  cond : Bool
  /-- Page requests that its memory condition and its completion record wait on. -/
  condReq : Option Nat
  recReq : Option Nat
  ready : Option Nat
  nextGroup : Nat
  ended : Nat
  status : Option Nat
  badGid : Nat
  detail : DWord
  voids : Nat
  live : Bool
  done : Option Nat
  deriving DecidableEq, Repr, Inhabited

/-- A cell of a launch window (R323). -/
structure Cell where
  packet : Sparse Byte
  result : Sparse Byte
  taken : Bool
  deriving DecidableEq, Repr, Inhabited

def Cell.reset : Cell := ⟨[], [], false⟩

/-- A (tenant, level) queue of R328: effective level and the start of its wait. -/
structure Queue where
  eff : Nat
  since : Nat
  deriving DecidableEq, Repr, Inhabited

/-- A LAUNCH batch on its way to the hub (R224): in batch order, the access that takes the answer, the thread and its
packet's address. Its bundle stands at place `upTo` of the core's order. -/
structure Batch where
  id : Nat
  group : Nat
  core : Nat
  upTo : Nat
  scope : Nat
  lanes : List (Nat × Nat × Nat)
  deriving DecidableEq, Repr, Inhabited

/-- Access kind of a page request (R340). -/
inductive AccKind where
  | read | write | exec
  deriving DecidableEq, Repr, Inhabited

/-- An outstanding page request (R340, R377). -/
structure PageReq where
  id : Nat
  tenant : Nat
  vpn : Nat
  kind : AccKind
  posted : Bool
  /-- The identifier that the request carries, and the reference cycle at which it arose. -/
  num : Nat
  at_ : Nat
  deriving DecidableEq, Repr, Inhabited

/-- A refused request, whose waiters take reason 2 when they next try (R340). -/
structure Refused where
  tenant : Nat
  vpn : Nat
  kind : AccKind
  runs : List Nat
  cmds : List Nat
  deriving DecidableEq, Repr, Inhabited

/-- A cached page-table entry (R374): a leaf of a TLB, or an entry of the hub's walk caches. -/
structure TlbEntry where
  leaf : Bool
  /-- The cluster whose TLBs hold it, or 192 for the hub. -/
  agent : Nat
  asid : BitVec 16
  glob : Bool
  vpn : Nat
  level : Nat
  pte : DWord
  /-- The physical address of the entry itself. -/
  at_ : Nat
  deriving DecidableEq, Repr, Inhabited

/-- A TLB invalidation in progress (R375): its OP, ASID, first page and pages. -/
structure Inval where
  op : Nat
  asid : BitVec 16
  first : Nat
  count : Nat
  deriving DecidableEq, Repr, Inhabited

/-- A directory copy state (R363). -/
inductive Copy where
  | m | s | i
  deriving DecidableEq, Repr, Inhabited

/-- A trap of an issue group (R342 to R345) and what its handler's end restores. -/
structure TrapRec where
  id : Nat
  group : Nat
  core : Nat
  lanes : List (Nat × Nat)
  pc : DWord
  count : Nat
  flights : List Flight
  header : DWord
  /-- The trapped bundle, zero when it was not fetched, and the item after it. -/
  bundle : BitVec 384
  seqPc : DWord
  deriving DecidableEq, Repr, Inhabited

/-- A promotion on its way (R225). -/
structure Promotion where
  id : Nat
  core : Nat
  victim : Nat
  scope : Nat
  threads : List Nat
  reached : Bool
  /-- Place in the victim's order below which its writes were accepted before the promotion reached it. -/
  upTo : Nat
  deriving DecidableEq, Repr, Inhabited

/-- A remote operation that has not completed (R221, R396). -/
inductive OutKind where
  | fst (addr : Nat) (data : QWord)
  | fsig (handle : DWord) (inc : Nat)
  | load (addr len : Nat) (access : Nat)
  deriving DecidableEq, Repr, Inhabited

structure OutOp where
  id : Nat
  launch : Nat
  group : Nat
  thread : Nat
  core : Nat
  target : Nat
  kind : OutKind
  /-- Reference cycle at which its message was sent. -/
  sent : Option Nat
  /-- An FSIG is sent only after the writes of the core below this place have performed (R316). -/
  after : Nat
  /-- Place of its bundle in the core's order (R302). -/
  place : Nat
  deriving DecidableEq, Repr, Inhabited

/-- Where an open transaction stands (R405). -/
inductive TxPhase where
  | open_
  | staging (access : Nat)
  | voting (access : Nat) (since : Nat)
  | decided (commit : Bool)
  deriving DecidableEq, Repr, Inhabited

/-- A transaction of this package as coordinator (R401 to R408). -/
structure Tx where
  handle : Word
  thread : Nat
  launch : Nat
  tenant : Nat
  statusAddr : DWord
  sig : DWord
  vote : Nat
  user : DWord
  targets : List Nat
  stores : Nat
  /-- Messages that a target has still to acknowledge: identifier, target and the reference cycle of sending. -/
  out : List (Nat × Nat × Nat)
  doomed : Option Word
  phase : TxPhase
  votes : List Nat
  outcome : Word
  /-- Log entry that holds the decision (R408). -/
  logged : Option Nat
  /-- Page request that the outcome record waits on, and whether the record has been written or given up (R405, step
  6). -/
  req : Option Nat
  recorded : Bool
  /-- A target was declared lost before the decision (R405, step 3). -/
  lost : Bool
  /-- Its TXSTs to this package: number, core and place in the core's order (R303, R314). -/
  own : List (Nat × Nat × Nat)
  deriving DecidableEq, Repr, Inhabited

/-- A part that this package holds as a target (R404): its writes with their places in program order and addresses. -/
structure Part where
  coord : Nat
  handle : Word
  writes : List (Nat × Nat × QWord)
  prepared : Bool
  last : Nat
  /-- Discarded under R407; its vote will be no. -/
  gone : Bool
  deriving DecidableEq, Repr, Inhabited

/-- An FSIG of another package that this hub forwards while no route-mode port toward its pod is up (R395). -/
structure Forward where
  src : Nat
  id : Nat
  handle : DWord
  inc : Nat
  hops : Nat
  since : Nat
  deriving DecidableEq, Repr, Inhabited

/-- Messages and results handed to outside parties. -/
inductive Msg where
  | fst (target id addr : Nat) (data : QWord)
  | fsig (target id : Nat) (handle : DWord) (inc hops : Nat)
  | load (target id addr len : Nat)
  | loadReply (target id : Nat) (bytes : List Byte)
  | fstAck (target id : Nat)
  | fsigAck (target id : Nat) (void : Bool)
  | txStage (target id : Nat) (handle : Word) (seq addr : Nat) (data : QWord)
  | txStageAck (coord id : Nat) (handle : Word) (doom : Option Word)
  | txPrepare (target id : Nat) (handle : Word)
  | txVote (coord id : Nat) (handle : Word) (no : Option Word)
  | txDecision (target id : Nat) (handle : Word) (commit : Bool)
  | txApplyAck (coord id : Nat) (handle : Word)
  | interrupt (source : Nat)
  | readReply (agent : Nat) (bytes : List Byte)
  | windowReply (bytes : List Byte)
  | snoopReply (line : Nat) (bytes : List Byte)
  | dirAsk (dir line : Nat) (inval : Bool)
  | hostCas (endpoint off : Nat) (old new : DWord)
  /-- A page of a drain: to a PCIe port, or over the fabric (R380). -/
  | drainPage (port : Option Nat) (dom page : Nat) (addr : Nat) (bytes : List Byte)
  /-- The read of a page's last address that serves a PCIe port's acknowledgement (R384). -/
  | drainRead (port addr : Nat)
  | claim (term : Nat) (key : BootKey)
  | lease (term : Nat)
  | bootLoad (term off : Nat) (bytes : List Byte)
  | bootDone (term : Nat)
  | spdm (code : Nat) (bytes : List Byte)
  | mgmt (bytes : List Byte)
  | serviceFault (core : Nat)
  | stray (handle : DWord)
  deriving DecidableEq, Repr, Inhabited

/-- Snapshot state that no register holds (R379, R383). -/
structure Snap where
  /-- The domain of a page. -/
  member : Sparse (Option Nat)
  /-- Pages whose copy bit is set. -/
  copyBit : Sparse Bool
  /-- Preserved copies: page, pool page, domain. -/
  copies : List (Nat × Nat × Nat)
  /-- Pages sent and not acknowledged, with the domain. -/
  sent : List (Nat × Nat)
  /-- The first page index not yet sent of a draining domain. -/
  next : Sparse Nat
  /-- Pages whose copy some write waits for (R383). -/
  asked : List Nat
  deriving DecidableEq, Repr, Inhabited

/-- Fabric state that no register holds. -/
structure Fabric where
  ops : List OutOp
  lost : List Nat
  /-- Packages declared lost from which nothing has come since (R407). -/
  unheard : List Nat
  /-- Operations that went with their lost target, whose acknowledgements may still come: identifier and target (R397). -/
  late : List (Nat × Nat)
  txs : List Tx
  /-- Threads whose stray flag is set (R401). -/
  stray : List Nat
  parts : List Part
  /-- Transactions whose part was closed: coordinator, handle and the message that closed it; older messages of that
  handle name the closed part (R404). -/
  closed : List (Nat × Word × Nat)
  /-- Handles of aborted transactions that a lost target has not acknowledged, with the target: they are not used again. -/
  stale : List (Word × Nat)
  /-- Blocks locked by prepared parts, with the coordinator and handle. -/
  locks : List (Nat × Nat × Word)
  proms : List Promotion
  /-- Lines of host-shared ranges that their directory has been asked for, and whether every host copy is to be
  invalidated rather than a modified one written back (R400). -/
  hostAsked : List (Nat × Bool)
  /-- What a host may hold of a line of a host-shared range: 2 a modified copy, 1 a shared one, 0 none (R400). -/
  hostLines : Sparse Nat
  /-- Next place of the decision log's ring (R408). -/
  logNext : Nat
  /-- Reference cycle of the last acknowledgement of a target (R397). -/
  lastAck : Sparse Nat
  forwards : List Forward
  /-- Messages that wait for a port toward their pod (R394, R395), with the pod. -/
  queue : List (Nat × Msg)
  /-- Messages that have been taken: source, identifier, and for a forwarded FSIG its hop (R396). -/
  seen : List (Nat × Nat × Nat)
  /-- Reference cycle of the last message of a package (R407). -/
  heard : Sparse Nat
  deriving DecidableEq, Repr, Inhabited

/-- What the hub assigns a die at enumeration (R11): its address ranges, the first of its hub message queue identifiers
and how many, and its coherence class: 0 peer, 1 I/O-coherent, 2 non-coherent. -/
structure DieGrant where
  ranges : List (Nat × Nat)
  queue : Nat
  queues : Nat
  cls : Nat
  deriving DecidableEq, Repr, Inhabited

/-- The role of a package in the pod leader election (R445). -/
inductive Role where
  | follower | claimant | leader
  deriving DecidableEq, Repr, Inhabited

/-- Management state that no register holds. -/
structure Mgmt where
  fatal : Option Nat
  dump : List Byte
  /-- Firmware has still to write the dump to device memory (R450). -/
  dumpDue : Bool
  /-- Capability table of a die as read (R433). -/
  caps : Sparse (List Byte)
  /-- What the hub has assigned to a die (R11). -/
  grants : Sparse (Option DieGrant)
  /-- Reservations of LZ1-P harts (R318): hart, address and length. -/
  reserved : List (Nat × Nat × Nat)
  keys : Sparse (Option (Nat × List Byte))
  serviceStore : Option (List Byte)
  serviceLoads : Bool
  flash : Option (List Byte)
  hubImage : Option (List Byte)
  hartImage : Option (List Byte)
  hartsRunning : Bool
  throttle : Nat
  role : Role
  term : Nat
  leader : Option Nat
  partTerm : Nat
  part : Sparse (Option Byte)
  partLen : Nat
  lastLease : Nat
  claimAt : Nat
  /-- Lost reference cycles of an island, in 1/70 cycles (R439). -/
  lostTicks : Sparse Nat
  /-- Core cycle count at the last core reset (R440), by core. -/
  coreReset : Sparse Nat
  /-- Islands that are being ungated, whose cores do not accept placement yet (R440). -/
  waking : List Nat
  /-- The term that this package claimed or leads (R445). -/
  ownTerm : Nat
  deriving DecidableEq, Repr, Inhabited

/-- Scheduler state that no register holds (R325, R328, R329). -/
structure Sched where
  nextId : Nat
  queues : Sparse Queue
  credits : Sparse (Option Nat)
  lastTenant : Sparse Nat
  cells : Sparse Cell
  batches : List Batch
  /-- Save-pool allocations: tenant, address, size (R347, R353). -/
  pool : List (Nat × Nat × Nat)
  fused : Sparse Bool
  /-- Semaphore images of groups not yet placed, by group key (R223). -/
  images : Sparse (Sparse (BitVec 16))
  /-- The images that have clamped at 0xFFFF (R27). -/
  imageSat : List Nat
  deriving DecidableEq, Repr, Inhabited

/-! ### The package -/

/-- The whole machine. -/
structure State where
  agenda : List Instr
  turn : Nat
  issue : Option Issue
  outbox : List Msg
  now : Nat
  ids : Nat
  mem : Sparse Byte
  scr : Sparse Byte
  hub : Sparse DWord
  threads : Sparse Thread
  groups : Sparse Group
  cores : Sparse Core
  runs : List Run
  accesses : List Access
  cmds : List Cmd
  launches : List Launch
  sched : Sched
  reqs : List PageReq
  refused : List Refused
  pageFail : List Nat
  tlb : List TlbEntry
  inval : Option Inval
  /-- Copy of a line (key line / 128 + 2^33 * agent): agents 0 to 767 are L1s, 768 the caches of LZ1-P. -/
  dir : Sparse Copy
  hmap : Sparse Nat
  traps : List TrapRec
  snap : Snap
  fab : Fabric
  mgmt : Mgmt
  deriving DecidableEq, Repr, Inhabited

/-! ### Memory's canonical form and reset -/

/-- What a byte of memory that nothing has written reads as (log entry 1). -/
def memDefault (_ : Nat) : Byte := 0

/-- The canonical form of memory. -/
abbrev Memory.wf (m : List Host.Cell) : Bool := spWf memDefault m

/-- The machine right after package reset (R432): no thread exists, every register holds its reset value, memory lists
nothing. Values that the manual does not give are those of log entry 5. -/
def State.reset : State where
  agenda := []
  turn := 0
  issue := none
  outbox := []
  now := 0
  ids := 1
  mem := []
  scr := []
  hub := []
  threads := []
  groups := []
  cores := []
  runs := []
  accesses := []
  cmds := []
  launches := []
  sched := { nextId := 1, queues := [], credits := [], lastTenant := [], cells := [], batches := [], pool := [],
             fused := [], images := [], imageSat := [] }
  reqs := []
  refused := []
  pageFail := []
  tlb := []
  inval := none
  dir := []
  hmap := []
  traps := []
  snap := { member := [], copyBit := [], copies := [], sent := [], next := [], asked := [] }
  fab := { ops := [], lost := [], unheard := [], late := [], txs := [], stray := [], parts := [], closed := [], stale := [], locks := [], proms := [], hostAsked := [],
           hostLines := [],
           logNext := 0, lastAck := [], forwards := [], queue := [], seen := [], heard := [] }
  mgmt := { fatal := none, dump := [], dumpDue := false, caps := [], grants := [], reserved := [], keys := [], serviceStore := none, serviceLoads := false,
            flash := none, hubImage := none, hartImage := none, hartsRunning := false, throttle := 70,
            role := .follower, term := 0, leader := none, partTerm := 0, part := [], partLen := 0, lastLease := 0,
            claimAt := 0, lostTicks := [], coreReset := [], waking := [], ownTerm := 0 }

end Sys2Proof.Machine
end

