-- ==== Sys2Proof/Machine/Ops.lean ====
section
/-! DEFINITION. The named operations over threads, groups, cores and runs: register accessors (R119, R122, R134), the
guards of a slot (R50), results in flight and their landing (R108 to R113), and the outcomes of a slot. -/

namespace Sys2Proof.Machine

/-- What a step answers. -/
abbrev Out := Host.Outcome State Fault Refusal

/-! ### Numbers, bytes and lists -/

/-- The bytes of a number, least significant first. -/
def leBytes : Nat → Nat → List Byte
  | 0, _ => []
  | n + 1, v => BitVec.ofNat 8 v :: leBytes n (v / 256)

/-- The number of bytes, least significant first. -/
def leNat (bs : List Byte) : Nat := bs.foldr (fun (x : Byte) (acc : Nat) => x.toNat + 256 * acc) 0

/-- `n` bytes from an offset, zero beyond the end. -/
def bytesAt (bs : List Byte) (off n : Nat) : List Byte :=
  (List.range n).map (fun k => bs.getD (off + k) 0)

/-- The little-endian number of `n` bytes at an offset. -/
def natAt (bs : List Byte) (off n : Nat) : Nat := leNat (bytesAt bs off n)

/-- Insert before the first element with a larger key, so that equal keys keep their order. -/
def insertByKey {α : Type} (key : α → Nat) (x : α) : List α → List α
  | [] => [x]
  | y :: ys => if key x < key y then x :: y :: ys else y :: insertByKey key x ys

/-- A stable sort by key. -/
def sortByKey {α : Type} (key : α → Nat) (l : List α) : List α :=
  l.foldl (fun acc x => insertByKey key x acc) []

/-- The element with the smallest key, the first among equals. -/
def leastBy {α : Type} (key : α → Nat) : List α → Option α
  | [] => none
  | x :: xs =>
    match leastBy key xs with
    | none => some x
    | some y => if key y < key x then some y else some x

/-- Look a number up in a list of pairs. -/
def assoc {α : Type} (l : List (Nat × α)) (k : Nat) : Option α := spFind l k

/-- Round up to a multiple. -/
def roundUp (n m : Nat) : Nat := (n + m - 1) / m * m

/-- A bit mask of numbers below 32. -/
def maskOf (l : List Nat) : LaneMask := l.foldl (fun m k => m ||| BitVec.ofNat 32 (2 ^ k)) 0

/-! ### The parts of the state -/

def State.thread (s : State) (k : Nat) : Thread := spGet (fun _ => Thread.none) s.threads k
def State.setThread (s : State) (k : Nat) (t : Thread) : State := { s with threads := spPut s.threads k t }
def State.modThread (s : State) (k : Nat) (f : Thread → Thread) : State := s.setThread k (f (s.thread k))

def State.group (s : State) (k : Nat) : Group := spGet (fun _ => Group.none) s.groups k
def State.setGroup (s : State) (k : Nat) (g : Group) : State := { s with groups := spPut s.groups k g }
def State.modGroup (s : State) (k : Nat) (f : Group → Group) : State := s.setGroup k (f (s.group k))

def State.core (s : State) (k : Nat) : Core := spGet (fun _ => Core.reset) s.cores k
def State.setCore (s : State) (k : Nat) (c : Core) : State := { s with cores := spPut s.cores k c }
def State.modCore (s : State) (k : Nat) (f : Core → Core) : State := s.setCore k (f (s.core k))

def State.findRun (s : State) (id : Nat) : Option Run := s.runs.find? (fun r => r.id == id)
def State.modRun (s : State) (id : Nat) (f : Run → Run) : State :=
  { s with runs := s.runs.map (fun r => if r.id = id then f r else r) }
def State.dropRun (s : State) (id : Nat) : State := { s with runs := s.runs.filter (fun r => r.id != id) }

def State.findCmd (s : State) (id : Nat) : Option Cmd := s.cmds.find? (fun c => c.id == id)
def State.modCmd (s : State) (id : Nat) (f : Cmd → Cmd) : State :=
  { s with cmds := s.cmds.map (fun c => if c.id = id then f c else c) }
def State.dropCmd (s : State) (id : Nat) : State := { s with cmds := s.cmds.filter (fun c => c.id != id) }

def State.findLaunch (s : State) (id : Nat) : Option Launch := s.launches.find? (fun l => l.id == id)
def State.modLaunch (s : State) (id : Nat) (f : Launch → Launch) : State :=
  { s with launches := s.launches.map (fun l => if l.id = id then f l else l) }

def State.send (s : State) (m : Msg) : State := { s with outbox := s.outbox ++ [m] }

/-- No bundle is being issued any more. -/
def State.leaveIssue (s : State) : State := { s with issue := none }

/-- A fresh identifier. -/
def State.nextId (s : State) : State := { s with ids := s.ids + 1 }

/-- The key of a group: group index below 2^22 (R223). -/
def groupKey (launch gid : Nat) : Nat := launch * 2 ^ 22 + gid

/-- The key of a thread: thread index below 1,024 (R15). -/
def threadKey (group tid : Nat) : Nat := group * 1024 + tid

/-- The group of a thread's key. -/
def groupOfThread (k : Nat) : Nat := k / 1024

/-- The key that stands for the service context of a core (R356). -/
def serviceKey (core : Nat) : Nat := 2 ^ 60 + core

/-- Whether a group key is a service context. -/
def isService (g : Nat) : Bool := decide (2 ^ 60 ≤ g)

/-- Threads of a group that exist (R130). -/
def State.liveThreads (s : State) (g : Nat) : List Nat :=
  (s.threads.filter (fun q => decide (groupOfThread q.1 = g) && q.2.live)).map (fun q => q.1)

/-- The cluster and die of a core (R10, R138). -/
def clusterOf (core : Nat) : Nat := core / 4
def dieOf (core : Nat) : Nat := core / 96

/-! ### Registers -/

/-- x0 reads 0 (R134). -/
def Thread.readX (t : Thread) (r : Nat) : DWord := if r = 0 then 0 else spGet (fun _ => 0) t.x r
/-- Writes to x0 are discarded (R134). -/
def Thread.writeX (t : Thread) (r : Nat) (v : DWord) : Thread :=
  if r = 0 then t else { t with x := spSet (fun _ => 0) t.x r v }

/-- p0 reads 1 (R134). -/
def Thread.readP (t : Thread) (r : Nat) : Bool := r == 0 || t.p.getLsbD r
def Thread.writeP (t : Thread) (r : Nat) (v : Bool) : Thread :=
  if r = 0 then t
  else { t with p := (t.p &&& ~~~(BitVec.ofNat 16 (2 ^ r))) ||| (if v then BitVec.ofNat 16 (2 ^ r) else 0) }

def Thread.readB (t : Thread) (r : Nat) : DWord := spGet (fun _ => 0) t.b r
def Thread.writeB (t : Thread) (r : Nat) (v : DWord) : Thread := { t with b := spSet (fun _ => 0) t.b r v }

/-- rsz of a rotation code (R53). -/
def rotSize (code : Nat) : Nat :=
  if code = 1 then 8 else if code = 2 then 16 else if code = 3 then 32 else if code = 4 then 64 else 0

/-- The physical register of a logical v register (R122). -/
def LoopState.phys (l : LoopState) (r : Nat) : Nat :=
  if r < rotSize l.rot.toNat then (r + l.rrb.toNat) % rotSize l.rot.toNat else r

/-- %depth (R277). -/
def Thread.depth (t : Thread) : Nat := t.entries.length

/-- The current frame; a thread that was never placed has one of one block. -/
def Thread.frame (t : Thread) : Frame := t.frames.headD ⟨1, [], false⟩

/-- v registers of the current frame. -/
def Thread.vCount (t : Thread) : Nat := 16 * t.frame.size

/-- Read a logical v register of the current frame. -/
def Thread.readV (t : Thread) (r : Nat) : Word := spGet (fun _ => 0) t.frame.regs (t.loop.phys r)

/-- Change an element of a list. -/
def modAt {α : Type} (f : α → α) : List α → Nat → List α
  | [], _ => []
  | x :: xs, 0 => f x :: xs
  | x :: xs, n + 1 => x :: modAt f xs n

/-- Write a physical register of the frame at a depth; a frame that no longer exists takes nothing. -/
def Thread.writeV (t : Thread) (depth reg : Nat) (v : Word) : Thread :=
  if t.depth < depth then t
  else
    { t with frames := modAt (fun fr => { fr with regs := spSet (fun _ => 0) fr.regs reg v }) t.frames
                        (t.depth - depth) }

/-- The destination of a write to a logical v register, as it stands now (R111). -/
def Thread.destV (t : Thread) (r : Nat) : Dest := .v t.depth (t.loop.phys r)

/-! ### Loop state as a lane value (R351) -/

def loop0Val (l : LoopState) (stage : Byte) : QWord :=
  l.ls0 ++ (0 : BitVec 5) ++ l.rot ++ stage ++ (0 : BitVec 2) ++ l.rrb ++ l.ec ++ l.lc0

def loop1Val (l : LoopState) : QWord := l.ls1 ++ (0 : BitVec 32) ++ l.lc1

/-- p8 to p15. -/
def Thread.stage (t : Thread) : Byte := (t.p >>> 8).truncate 8
def Thread.setStage (t : Thread) (b : Byte) : Thread := { t with p := b ++ t.p.truncate 8 }

def Thread.setLoop0 (t : Thread) (v : QWord) : Thread :=
  { t with loop := { t.loop with lc0 := v.truncate 32, ec := bitsOf v 32 8, rrb := bitsOf v 40 6,
                                 rot := bitsOf v 56 3, ls0 := bitsOf v 64 64 },
           p := bitsOf v 48 8 ++ t.p.truncate 8 }

def Thread.setLoop1 (t : Thread) (v : QWord) : Thread :=
  { t with loop := { t.loop with lc1 := v.truncate 32, ls1 := bitsOf v 64 64 } }

/-! ### Special registers that SETSR writes (R138) -/

/-- Write a special register held per thread. -/
def Thread.writeSr (t : Thread) (n : Nat) (v : DWord) : Thread :=
  match n with
  | 0x020 => { t with loop := { t.loop with lc0 := v.truncate 32 } }
  | 0x021 => { t with loop := { t.loop with lc1 := v.truncate 32 } }
  | 0x022 => { t with loop := { t.loop with ec := v.truncate 8 } }
  | 0x050 => { t with status := v.truncate 8 }
  | 0x052 => { t with amax := v.truncate 33 &&& 0x17FFFFFFF }
  | 0x053 => { t with satcnt := v.truncate 32 }
  | 0x054 => { t with rctr := v }
  | _ => t

/-! ### Landing (R108 to R113, R140) -/

/-- Write a landed lane value into a thread. -/
def Thread.land (t : Thread) (d : Dest) (v : QWord) : Thread :=
  match d with
  | .v depth r => t.writeV depth r (v.truncate 32)
  | .x r => t.writeX r (v.truncate 64)
  | .p r => t.writeP r (v.getLsbD 0)
  | .b r => t.writeB r (v.truncate 64)
  | .loop0 => t.setLoop0 v
  | .loop1 => t.setLoop1 v
  | .sr n => t.writeSr n (v.truncate 64)
  | .shape _ _ => t
  | .status => { t with status := t.status ||| v.truncate 8 }

/-- A shape field (R239): CNT0 to CNT3 are 1 at creation. -/
def shapeDefault (k : Nat) : DWord := if 1 ≤ k % 32 ∧ k % 32 ≤ 4 then 1 else 0

/-- Land one lane value; %smask and shape fields are the group's. -/
def State.landOne (s : State) (group : Nat) (d : Dest) (q : Nat × QWord) : State :=
  match d with
  | .shape set field =>
    s.modGroup group (fun g => { g with shapes := spSet shapeDefault g.shapes (set * 32 + field) (q.2.truncate 64) })
  | .sr 0x051 => s.modGroup group (fun g => { g with smask := q.2.truncate 8 })
  | _ => s.modThread q.1 (fun t => t.land d q.2)

def State.landFlight (s : State) (group : Nat) (f : Flight) : State :=
  f.vals.foldl (fun s q => s.landOne group f.dest q) s

/-- Landing order: by count; at one count a SETSR of %status first (R140), then in issue order. -/
def Flight.order (f : Flight) : Nat := 2 * f.land + (if f.dest = .sr 0x050 then 0 else 1)

/-- Land the results of a list in order. -/
def State.landAll (s : State) (group : Nat) (fs : List Flight) : State :=
  (sortByKey Flight.order fs).foldl (fun s f => s.landFlight group f) s

/-- Land every result of a run due by a count. -/
def State.landDue (s : State) (r : Run) (count : Nat) : State :=
  (s.landAll r.group (r.flights.filter (fun f => decide (f.land ≤ count)))).modRun r.id
    (fun r => { r with flights := r.flights.filter (fun f => decide (count < f.land)) })

/-- A result due by a count whose value has not arrived (R112). -/
def Run.awaits (r : Run) (count : Nat) : Option Nat :=
  (r.flights.find? (fun f => decide (f.land ≤ count) && f.wait.isSome)).bind (fun f => f.wait)

/-- Any result whose value has not arrived (R113, R350). -/
def Run.awaitsAny (r : Run) : Option Nat := (r.flights.find? (fun f => f.wait.isSome)).bind (fun f => f.wait)

/-! ### Issuing a slot -/

/-- The leaf a lane chose; 4 when the bundle has no tree (R50). -/
def Issue.leafOf (q : Issue) (lane : Nat) : Nat := (assoc q.leaf lane).getD 4

/-- Both guards pass for a lane (R50). -/
def passes (s : State) (q : Issue) (g : Guard) (l : Nat × Nat) : Bool :=
  ((s.thread l.2).readP g.pred.toNat != g.sense) && (g.leaf == 7 || g.leaf.toNat == q.leafOf l.1)

/-- The participants of a slot, ascending by lane (R157). -/
def participants (s : State) (q : Issue) (g : Guard) : List (Nat × Nat) := q.lanes.filter (passes s q g)

/-- The leader lane's thread (R36), for a slot with a guard. -/
def leader (s : State) (q : Issue) (g : Guard) : Option Nat := ((participants s q g).head?).map (fun l => l.2)

/-- The guard that always passes, for slots without one (R49). -/
def Guard.always : Guard := ⟨false, 0, 7⟩

/-- Add a value to the list of results, joining one of equal destination. -/
def addResult (land : Nat) (wait : Option Nat) (part : Nat) (d : Dest) (q : Nat × QWord) : List Flight → List Flight
  | [] => [⟨d, land, [q], wait, part⟩]
  | f :: fs => if f.dest = d then { f with vals := f.vals ++ [q] } :: fs else f :: addResult land wait part d q fs

/-- The results of one destination operand, grouped by physical destination (R111). -/
def resultsOf (land : Nat) (wait : Option Nat) (part : Nat) (vals : List (Nat × Dest × QWord)) : List Flight :=
  vals.foldl (fun acc v => addResult land wait part v.2.1 (v.1, v.2.2) acc) []

/-- Put results of latency `lat` in flight in the run of the bundle. -/
def State.fly (s : State) (q : Issue) (lat : Nat) (vals : List (Nat × Dest × QWord)) : State :=
  s.modRun q.run (fun r => { r with flights := r.flights ++ resultsOf (q.count + lat) none 0 vals })

/-- Results that wait for an access (R112). -/
def State.flyWait (s : State) (q : Issue) (lat access part : Nat) (vals : List (Nat × Dest × QWord)) : State :=
  s.modRun q.run (fun r => { r with flights := r.flights ++ resultsOf (q.count + lat) (some access) part vals })

/-- Write an x register in every participant; x0 takes nothing. -/
def State.flyX (s : State) (q : Issue) (g : Guard) (lat : Nat) (xd : BitVec 4) (f : Nat × Nat → DWord) : State :=
  if xd = 0 then s
  else s.fly q lat ((participants s q g).map (fun l => (l.2, .x xd.toNat, (f l).zeroExtend 128)))

/-- Write a predicate in every participant. -/
def State.flyP (s : State) (q : Issue) (g : Guard) (lat : Nat) (pd : BitVec 4) (f : Nat × Nat → Bool) : State :=
  s.fly q lat ((participants s q g).map (fun l => (l.2, .p pd.toNat, if f l then 1 else 0)))

/-- Write a b register in every participant. -/
def State.flyB (s : State) (q : Issue) (g : Guard) (lat : Nat) (bd : BitVec 3) (f : Nat × Nat → DWord) : State :=
  s.fly q lat ((participants s q g).map (fun l => (l.2, .b bd.toNat, (f l).zeroExtend 128)))

/-- Write a v register, named logically, in every participant. -/
def State.flyV (s : State) (q : Issue) (g : Guard) (lat : Nat) (vd : Nat) (f : Nat × Nat → Word) : State :=
  s.fly q lat ((participants s q g).map (fun l => (l.2, (s.thread l.2).destV vd, (f l).zeroExtend 128)))

/-- Raise status bits in the participants that have some (R140). -/
def State.flyStatus (s : State) (q : Issue) (g : Guard) (lat : Nat) (f : Nat × Nat → Flags) : State :=
  s.fly q lat (((participants s q g).filter (fun l => f l != 0)).map (fun l => (l.2, .status, (f l).zeroExtend 128)))

/-- A v result with the status bits that come with it. -/
def State.flyVF (s : State) (q : Issue) (g : Guard) (lat : Nat) (vd : Nat) (f : Nat × Nat → Word × Flags) : State :=
  (s.flyV q g lat vd (fun l => (f l).1)).flyStatus q g lat (fun l => (f l).2)

/-! ### The latency classes of R109 -/

def latScalar : Nat := 1
def latScalarMul : Nat := 3
def latVector : Nat := 2
def latVectorLong : Nat := 4
def latExchange : Nat := 5
def latTile : Nat := 5
def latFunction : Nat := 8
def latScratch : Nat := 5

/-- L_LD (R110). -/
def latLoad (s : State) (q : Issue) : Nat := (s.group q.group).kernel.lload

/-! ### Elements of a word (R78) -/

/-- Build a word from its elements. -/
def fromElems (w : Nat) (f : Nat → Nat) : Word :=
  BitVec.ofNat 32 (((List.range (32 / w)).map (fun j => f j % 2 ^ w * 2 ^ (w * j))).sum)

/-! ### Slot meanings -/

/-- A slot acts only on the bundle being issued. -/
def withIssue (s : State) (k : Issue → Out) : Out :=
  match s.issue with
  | none => .fault .noIssue
  | some q => k q

/-- A slot with no condition of its own. -/
def slotNext (s : State) (f : Issue → State) : Out := withIssue s (fun q => .next (f q))

end Sys2Proof.Machine
end

