-- ==== Sys2Proof/Machine/Hash.lean ====
section
/-! DEFINITION. The hash functions that R387 and R442 name: SHA-256 and SHA-384 of FIPS 180-4, XXH32 and XXH64. The
manual names these standards and does not restate them; their text is from outside it (log entry 10, PRESUMED). -/

namespace Sys2Proof.Machine

/-- The number of bytes, most significant first. -/
def beNat (bs : List Byte) : Nat := leNat bs.reverse

/-- `n` bytes of a number, most significant first. -/
def beBytes (n v : Nat) : List Byte := (leBytes n v).reverse

/-- A list cut into pieces of `n`, at most `fuel` of them. -/
def pieces {α : Type} (n : Nat) : Nat → List α → List (List α)
  | 0, _ => []
  | fuel + 1, xs => if xs.isEmpty then [] else xs.take n :: pieces n fuel (xs.drop n)

/-! ### SHA-2 -/

/-- Round constants of SHA-512 and SHA-384; those of SHA-256 are the upper halves of the first 64. -/
def sha512Consts : List DWord :=
  [0x428A2F98D728AE22, 0x7137449123EF65CD, 0xB5C0FBCFEC4D3B2F, 0xE9B5DBA58189DBBC,
   0x3956C25BF348B538, 0x59F111F1B605D019, 0x923F82A4AF194F9B, 0xAB1C5ED5DA6D8118,
   0xD807AA98A3030242, 0x12835B0145706FBE, 0x243185BE4EE4B28C, 0x550C7DC3D5FFB4E2,
   0x72BE5D74F27B896F, 0x80DEB1FE3B1696B1, 0x9BDC06A725C71235, 0xC19BF174CF692694,
   0xE49B69C19EF14AD2, 0xEFBE4786384F25E3, 0xFC19DC68B8CD5B5, 0x240CA1CC77AC9C65,
   0x2DE92C6F592B0275, 0x4A7484AA6EA6E483, 0x5CB0A9DCBD41FBD4, 0x76F988DA831153B5,
   0x983E5152EE66DFAB, 0xA831C66D2DB43210, 0xB00327C898FB213F, 0xBF597FC7BEEF0EE4,
   0xC6E00BF33DA88FC2, 0xD5A79147930AA725, 0x6CA6351E003826F, 0x142929670A0E6E70,
   0x27B70A8546D22FFC, 0x2E1B21385C26C926, 0x4D2C6DFC5AC42AED, 0x53380D139D95B3DF,
   0x650A73548BAF63DE, 0x766A0ABB3C77B2A8, 0x81C2C92E47EDAEE6, 0x92722C851482353B] ++
  [0xA2BFE8A14CF10364, 0xA81A664BBC423001, 0xC24B8B70D0F89791, 0xC76C51A30654BE30,
   0xD192E819D6EF5218, 0xD69906245565A910, 0xF40E35855771202A, 0x106AA07032BBD1B8,
   0x19A4C116B8D2D0C8, 0x1E376C085141AB53, 0x2748774CDF8EEB99, 0x34B0BCB5E19B48A8,
   0x391C0CB3C5C95A63, 0x4ED8AA4AE3418ACB, 0x5B9CCA4F7763E373, 0x682E6FF3D6B2B8A3,
   0x748F82EE5DEFB2FC, 0x78A5636F43172F60, 0x84C87814A1F0AB72, 0x8CC702081A6439EC,
   0x90BEFFFA23631E28, 0xA4506CEBDE82BDE9, 0xBEF9A3F7B2C67915, 0xC67178F2E372532B,
   0xCA273ECEEA26619C, 0xD186B8C721C0C207, 0xEADA7DD6CDE0EB1E, 0xF57D4F7FEE6ED178,
   0x6F067AA72176FBA, 0xA637DC5A2C898A6, 0x113F9804BEF90DAE, 0x1B710B35131C471B,
   0x28DB77F523047D84, 0x32CAAB7B40C72493, 0x3C9EBE0A15C9BEBC, 0x431D67C49C100D4C,
   0x4CC5D4BECB3E42B6, 0x597F299CFC657E2A, 0x5FCB6FAB3AD6FAEC, 0x6C44198C4A475817]

/-- Initial hash value of SHA-384. -/
def sha384Init : List DWord :=
  [0xCBBB9D5DC1059ED8, 0x629A292A367CD507, 0x9159015A3070DD17, 0x152FECD8F70E5939,
   0x67332667FFC00B31, 0x8EB44A8768581511, 0xDB0C2E0D64F98FA7, 0x47B5481DBEFA4FA4]

/-- Initial hash value of SHA-256. -/
def sha256Init : List Word :=
  [0x6A09E667, 0xBB67AE85, 0x3C6EF372, 0xA54FF53A,
   0x510E527F, 0x9B05688C, 0x1F83D9AB, 0x5BE0CD19]

/-- Rotation counts of one width of SHA-2: of the two functions on the working variables, and of the two on the message
schedule, whose third count is a shift. -/
structure ShaCounts where
  big0 : Nat × Nat × Nat
  big1 : Nat × Nat × Nat
  small0 : Nat × Nat × Nat
  small1 : Nat × Nat × Nat
  deriving DecidableEq, Repr

def sha512Counts : ShaCounts := ⟨(28, 34, 39), (14, 18, 41), (1, 8, 7), (19, 61, 6)⟩
def sha256Counts : ShaCounts := ⟨(2, 13, 22), (6, 11, 25), (7, 18, 3), (17, 19, 10)⟩

def shaBig {w : Nat} (c : Nat × Nat × Nat) (x : BitVec w) : BitVec w :=
  x.rotateRight c.1 ^^^ x.rotateRight c.2.1 ^^^ x.rotateRight c.2.2

def shaSmall {w : Nat} (c : Nat × Nat × Nat) (x : BitVec w) : BitVec w :=
  x.rotateRight c.1 ^^^ x.rotateRight c.2.1 ^^^ x >>> c.2.2

/-- The message schedule, latest word first. -/
def shaExtend {w : Nat} (c : ShaCounts) : Nat → List (BitVec w) → List (BitVec w)
  | 0, ws => ws
  | n + 1, ws =>
    shaExtend c n ((shaSmall c.small1 (ws.getD 1 0) + ws.getD 6 0 + shaSmall c.small0 (ws.getD 14 0) + ws.getD 15 0) :: ws)

/-- One round on the eight working variables. -/
def shaRound {w : Nat} (c : ShaCounts) (kw : BitVec w) : List (BitVec w) → List (BitVec w)
  | [x0, x1, x2, x3, x4, x5, x6, x7] =>
    let t1 := x7 + shaBig c.big1 x4 + (x4 &&& x5 ^^^ ~~~x4 &&& x6) + kw
    let t2 := shaBig c.big0 x0 + (x0 &&& x1 ^^^ x0 &&& x2 ^^^ x1 &&& x2)
    [t1 + t2, x0, x1, x2, x3 + t1, x4, x5, x6]
  | xs => xs

/-- One block, as its sixteen words. -/
def shaBlock {w : Nat} (c : ShaCounts) (ks : List (BitVec w)) (h ws : List (BitVec w)) : List (BitVec w) :=
  let sched := (shaExtend c (ks.length - 16) ws.reverse).reverse
  List.zipWith (· + ·) h ((List.zipWith (· + ·) ks sched).foldl (fun st kw => shaRound c kw st) h)

/-- The padded message: a 1 bit, zeros, and the bit length in two words. -/
def shaPad (word : Nat) (msg : List Byte) : List Byte :=
  let block := 16 * word
  let used := (msg.length + 1 + 2 * word) % block
  msg ++ 0x80 :: List.replicate ((block - used) % block) 0 ++ beBytes (2 * word) (8 * msg.length)

/-- SHA-2 with words of `word` bytes. -/
def sha2 {w : Nat} (c : ShaCounts) (word : Nat) (ks h : List (BitVec w)) (msg : List Byte) : List (BitVec w) :=
  let bs := shaPad word msg
  (pieces (16 * word) bs.length bs).foldl
    (fun st blk => shaBlock c ks st ((pieces word blk.length blk).map (fun ws => BitVec.ofNat w (beNat ws)))) h

/-- SHA-384. -/
def sha384 (msg : List Byte) : List Byte :=
  ((sha2 sha512Counts 8 sha512Consts sha384Init msg).take 6).flatMap (fun w => beBytes 8 w.toNat)

/-- SHA-256. -/
def sha256 (msg : List Byte) : List Byte :=
  (sha2 sha256Counts 4 ((sha512Consts.take 64).map (fun (k : DWord) => (k >>> 32).setWidth 32)) sha256Init msg).flatMap
    (fun w => beBytes 4 w.toNat)

/-! ### XXH32 and XXH64, with seed 0 -/

/-- The five primes of a width. -/
def xxPrimes (w : Nat) : List (BitVec w) :=
  (if w = 32 then [2654435761, 2246822519, 3266489917, 668265263, 374761393]
   else [11400714785074694791, 14029467366897019727, 1609587929392839161, 9650029242287828579, 2870177450012600261]).map
    (BitVec.ofNat w)

/-- Prime `n`, from 1. -/
def xxP (w n : Nat) : BitVec w := (xxPrimes w).getD (n - 1) 0

/-- An accumulator takes a word. -/
def xxRound {w : Nat} (acc word : BitVec w) : BitVec w :=
  (acc + word * xxP w 2).rotateLeft (if w = 32 then 13 else 31) * xxP w 1

/-- The four accumulators take a stripe of four words. -/
def xxStripe {w : Nat} (acc : List (BitVec w)) (stripe : List Byte) : List (BitVec w) :=
  List.zipWith xxRound acc ((pieces (w / 8) stripe.length stripe).map (fun b => BitVec.ofNat w (leNat b)))

/-- The accumulators after the whole stripes, and the bytes left. -/
def xxStripes {w : Nat} : Nat → List (BitVec w) → List Byte → List (BitVec w) × List Byte
  | 0, acc, bs => (acc, bs)
  | n + 1, acc, bs => if bs.length < w / 2 then (acc, bs) else xxStripes n (xxStripe acc (bs.take (w / 2))) (bs.drop (w / 2))

/-- The four accumulators joined; XXH64 folds each in once more. -/
def xxMerge {w : Nat} (acc : List (BitVec w)) : BitVec w :=
  let sum := (List.zipWith (fun (a : BitVec w) r => a.rotateLeft r) acc [1, 7, 12, 18]).foldl (· + ·) 0
  if w = 32 then sum else acc.foldl (fun h a => (h ^^^ xxRound 0 a) * xxP w 1 + xxP w 4) sum

/-- The bytes that fill no stripe. -/
def xxTail {w : Nat} : Nat → BitVec w → List Byte → BitVec w
  | 0, h, _ => h
  | n + 1, h, bs =>
    if w = 64 ∧ 8 ≤ bs.length then
      xxTail n ((h ^^^ xxRound 0 (BitVec.ofNat w (natAt bs 0 8))).rotateLeft 27 * xxP w 1 + xxP w 4) (bs.drop 8)
    else if 4 ≤ bs.length then
      let v := BitVec.ofNat w (natAt bs 0 4)
      xxTail n (if w = 32 then (h + v * xxP w 3).rotateLeft 17 * xxP w 4
                else (h ^^^ v * xxP w 1).rotateLeft 23 * xxP w 2 + xxP w 3) (bs.drop 4)
    else match bs with
      | [] => h
      | b :: rest =>
        let v := BitVec.ofNat w b.toNat
        xxTail n (if w = 32 then (h + v * xxP w 5).rotateLeft 11 * xxP w 1
                  else (h ^^^ v * xxP w 5).rotateLeft 11 * xxP w 1) rest

/-- The closing mix: shifts and multiplications. -/
def xxFinish {w : Nat} (h : BitVec w) : BitVec w :=
  let s := if w = 32 then (15, 13, 16) else (33, 29, 32)
  let h := (h ^^^ h >>> s.1) * xxP w 2
  let h := (h ^^^ h >>> s.2.1) * xxP w 3
  h ^^^ h >>> s.2.2

/-- XXH32 (width 32) or XXH64 (width 64) of some bytes. -/
def xxHash (w : Nat) (bs : List Byte) : BitVec w :=
  let start := if bs.length < w / 2 then (xxP w 5, bs)
    else
      let r := xxStripes bs.length [xxP w 1 + xxP w 2, xxP w 2, 0, 0 - xxP w 1] bs
      (xxMerge r.1, r.2)
  xxFinish (xxTail start.2.length (start.1 + BitVec.ofNat w bs.length) start.2)

end Sys2Proof.Machine
end

