-- ==== Sys2Proof/Machine/Cipher.lean ====
section
/-! DEFINITION. The ciphers that R387 and R447 name: AES (FIPS 197), GCM (SP 800-38D), XTS (IEEE 1619) and AES key wrap
(RFC 3394). The manual names these standards and does not restate them (log entry 10, PRESUMED). -/

namespace Sys2Proof.Machine

/-! ### AES -/

/-- Multiplication by x in AES's field. -/
def aesDouble (x : Byte) : Byte := if x.getLsbD 7 then x <<< 1 ^^^ 0x1B else x <<< 1

/-- Multiplication in AES's field, over `n` bits of the second factor. -/
def aesMul : Nat → Byte → Byte → Byte
  | 0, _, _ => 0
  | n + 1, x, y => (if y.getLsbD 0 then x else 0) ^^^ aesMul n (aesDouble x) (y >>> 1)

/-- Power in AES's field. -/
def aesPow (x : Byte) : Nat → Byte
  | 0 => 1
  | n + 1 => aesMul 8 x (aesPow x n)

/-- The substitution box: inverse, then the affine map. -/
def aesSubOf (x : Byte) : Byte :=
  let y := aesPow x 254
  y ^^^ y.rotateLeft 1 ^^^ y.rotateLeft 2 ^^^ y.rotateLeft 3 ^^^ y.rotateLeft 4 ^^^ 0x63

def aesSubTable : List Byte := (List.range 256).map (fun k => aesSubOf (BitVec.ofNat 8 k))
def aesSub (x : Byte) : Byte := aesSubTable.getD x.toNat 0
def aesUnsubTable : List Byte := (List.range 256).map (fun k => BitVec.ofNat 8 (aesSubTable.findIdx (fun y => y.toNat == k)))
def aesUnsub (x : Byte) : Byte := aesUnsubTable.getD x.toNat 0

def xorBytes (xs ys : List Byte) : List Byte := List.zipWith (· ^^^ ·) xs ys

/-- Key expansion, latest word first: `i` words stand in the list, of a key of `nk` words. -/
def aesExpand (nk : Nat) : Nat → Nat → List (List Byte) → List (List Byte)
  | 0, _, ws => ws
  | n + 1, i, ws =>
    let t := ws.headD []
    let t :=
      if i % nk = 0 then
        xorBytes ((t.drop 1 ++ t.take 1).map aesSub) [aesPow 2 (i / nk - 1), 0, 0, 0]
      else if 6 < nk ∧ i % nk = 4 then t.map aesSub else t
    aesExpand nk n (i + 1) (xorBytes (ws.getD (nk - 1) []) t :: ws)

/-- The round keys of a key of 16, 24 or 32 bytes, in order. -/
def aesRoundKeys (key : List Byte) : List (List Byte) :=
  let nk := key.length / 4
  let ws := (aesExpand nk (4 * (nk + 7) - nk) nk (pieces 4 nk key).reverse).reverse
  (pieces 4 (nk + 7) ws).map List.flatten

/-- ShiftRows by a step: byte (row, column) comes from column + step * row. -/
def aesShift (step : Nat) (st : List Byte) : List Byte :=
  (List.range 16).map (fun k => st.getD (4 * ((k / 4 + step * (k % 4)) % 4) + k % 4) 0)

/-- MixColumns with a row of factors. -/
def aesMix (f : List Byte) (st : List Byte) : List Byte :=
  (List.range 16).map (fun k =>
    ((List.range 4).map (fun j => aesMul 8 (st.getD (4 * (k / 4) + j) 0) (f.getD ((j + 4 - k % 4) % 4) 0))).foldl (· ^^^ ·) 0)

/-- Rounds after the first key; the last mixes no columns. -/
def aesRounds : List (List Byte) → List Byte → List Byte
  | [], st => st
  | [k], st => xorBytes (aesShift 1 (st.map aesSub)) k
  | k :: ks, st => aesRounds ks (xorBytes (aesMix [2, 3, 1, 1] (aesShift 1 (st.map aesSub))) k)

/-- Encryption of one block. -/
def aesEnc (keys : List (List Byte)) (block : List Byte) : List Byte :=
  aesRounds (keys.drop 1) (xorBytes block (keys.headD []))

/-- Inverse rounds, with the keys from the last but one down; the last unmixes no columns. -/
def aesUnrounds : List (List Byte) → List Byte → List Byte
  | [], st => st
  | [k], st => xorBytes ((aesShift 3 st).map aesUnsub) k
  | k :: ks, st => aesUnrounds ks (aesMix [14, 11, 13, 9] (xorBytes ((aesShift 3 st).map aesUnsub) k))

/-- Decryption of one block. -/
def aesDec (keys : List (List Byte)) (block : List Byte) : List Byte :=
  let ks := keys.reverse
  aesUnrounds (ks.drop 1) (xorBytes block (ks.headD []))

/-! ### GCM -/

/-- A step of GHASH's multiplication: the product so far and the factor, over the bits of `x` from the top. -/
def ghashMul (x : QWord) : Nat → QWord → QWord → QWord
  | 0, _, z => z
  | n + 1, v, z =>
    ghashMul x n (if v.getLsbD 0 then v >>> 1 ^^^ (0xE1 : QWord) <<< 120 else v >>> 1) (if x.getLsbD n then z ^^^ v else z)

/-- GHASH of whole blocks. -/
def ghash (h : QWord) (blocks : List (List Byte)) : QWord :=
  blocks.foldl (fun y b => ghashMul (y ^^^ BitVec.ofNat 128 (beNat b)) 128 h 0) 0

/-- Blocks under the key stream, with the counter of the first. -/
def gcmStream (keys : List (List Byte)) (iv : List Byte) : Nat → List (List Byte) → List Byte
  | _, [] => []
  | ctr, b :: bs => xorBytes b (aesEnc keys (iv ++ beBytes 4 ctr)) ++ gcmStream keys iv (ctr + 1) bs

/-- AES-256-GCM decryption with a 96-bit IV and no associated data: the plaintext and the tag computed. -/
def aesGcm (key iv src : List Byte) : List Byte × List Byte :=
  let keys := aesRoundKeys key
  let h := BitVec.ofNat 128 (beNat (aesEnc keys (List.replicate 16 0)))
  let blocks := pieces 16 src.length src
  let padded := blocks.map (fun b => b ++ List.replicate (16 - b.length) 0)
  let y := ghash h (padded ++ [beBytes 16 (8 * src.length)])
  (gcmStream keys iv 2 blocks, xorBytes (beBytes 16 y.toNat) (aesEnc keys (iv ++ beBytes 4 1)))

/-! ### XTS -/

/-- The next block's tweak: multiplication by x, least significant byte first. -/
def xtsNext (t : QWord) : QWord := if t.getLsbD 127 then t <<< 1 ^^^ 0x87 else t <<< 1

/-- The blocks of a data unit. -/
def xtsBlocks (keys : List (List Byte)) : QWord → List (List Byte) → List Byte
  | _, [] => []
  | t, b :: bs =>
    let m := leBytes 16 t.toNat
    xorBytes (aesDec keys (xorBytes b m)) m ++ xtsBlocks keys (xtsNext t) bs

/-- AES-256-XTS decryption of a data unit of whole blocks: the key is the data key, then the tweak key. -/
def aesXts (key : List Byte) (tweak : QWord) (src : List Byte) : List Byte :=
  let t := aesEnc (aesRoundKeys (key.drop 32)) (leBytes 16 tweak.toNat)
  xtsBlocks (aesRoundKeys (key.take 32)) (BitVec.ofNat 128 (leNat t)) (pieces 16 src.length src)

/-! ### Key wrap -/

/-- One pass over the registers, from the last: `t` is the counter of the last step, and `rs` the registers in reverse. -/
def unwrapPass (keys : List (List Byte)) : Nat → List Byte → List (List Byte) → List Byte × List (List Byte)
  | _, a, [] => (a, [])
  | t, a, r :: rs =>
    let b := aesDec keys (xorBytes a (beBytes 8 t) ++ r)
    let rest := unwrapPass keys (t - 1) (b.take 8) rs
    (rest.1, b.drop 8 :: rest.2)

/-- The six passes. -/
def unwrapPasses (keys : List (List Byte)) (n : Nat) : Nat → List Byte → List (List Byte) → List Byte × List (List Byte)
  | 0, a, rs => (a, rs)
  | j + 1, a, rs =>
    let r := unwrapPass keys (n * (j + 1)) a rs
    unwrapPasses keys n j r.1 r.2

/-- AES key unwrap of RFC 3394: `none` when the wrap fails to unwrap. -/
def unwrapKey (kek wrapped : List Byte) : Option (List Byte) :=
  let n := wrapped.length / 8 - 1
  if wrapped.length % 8 ≠ 0 ∨ n < 2 then none
  else
    let r := unwrapPasses (aesRoundKeys kek) n 6 (wrapped.take 8) (pieces 8 n (wrapped.drop 8)).reverse
    if r.1 = List.replicate 8 0xA6 then some r.2.reverse.flatten else none

end Sys2Proof.Machine
end

