-- ==== Sys2Proof/Machine/Inflate.lean ====
section
/-! DEFINITION. The decompressors that R387 names: the LZ4 frame format and Zstandard (RFC 8878). The manual names these
standards and does not restate them (log entry 10, PRESUMED). -/

namespace Sys2Proof.Machine

/-- What a decompressor makes of a stream. `malformed` is a stream that the standard or R387 rejects (reason 0x04),
`badSum` a checksum mismatch (reason 0x05); both carry the bytes produced before the failure. -/
inductive Inflated where
  | whole (out : List Byte)
  | malformed (out : List Byte)
  | badSum (out : List Byte)
  deriving DecidableEq, Repr, Inhabited

/-- Why a stream stops. -/
inductive BadStream where
  | malformed | badSum
  deriving DecidableEq, Repr, Inhabited

/-- The output so far and, of a stream that stops, why. -/
abbrev Inflating := Array Byte × Option BadStream

/-- What is left of the input after a frame or a block, with the output; `none` is a stop. -/
abbrev Taken := Array Byte × (List Byte ⊕ BadStream)

/-- Copy `n` bytes from `dist` bytes back in the output; the copy may read what it writes. -/
def copyBack (dist : Nat) : Nat → Array Byte → Array Byte
  | 0, out => out
  | n + 1, out => copyBack dist n (out.push (out.getD (out.size - dist) 0))

/-- A skippable frame, which both formats share: its content has no meaning here. -/
def skipFrame (out : Array Byte) (bs : List Byte) : Taken :=
  if bs.length < 8 + natAt bs 4 4 then (out, .inr .malformed) else (out, .inl (bs.drop (8 + natAt bs 4 4)))

/-- Frames one after another: `frame` takes one that is not skippable from the input. -/
def allFrames (frame : Array Byte → List Byte → Taken) : Nat → Array Byte → List Byte → Inflating
  | 0, out, _ => (out, some .malformed)
  | n + 1, out, bs =>
    match (if 8 ≤ bs.length ∧ natAt bs 0 4 / 16 = 0x184D2A5 then skipFrame out bs else frame out bs) with
    | (out, .inr why) => (out, some why)
    | (out, .inl rest) => if rest.isEmpty then (out, none) else allFrames frame n out rest

/-- A stream's result. -/
def inflated (r : Inflating) : Inflated :=
  match r.2 with
  | none => .whole r.1.toList
  | some .malformed => .malformed r.1.toList
  | some .badSum => .badSum r.1.toList

/-! ### LZ4 -/

/-- A length of a sequence: a nibble of 15 goes on in bytes until one below 255. -/
def lz4Len : Nat → List Byte → Option (Nat × List Byte)
  | _, [] => none
  | acc, b :: bs => if b = 255 then lz4Len (acc + 255) bs else some (acc + b.toNat, bs)

/-- A nibble and what follows it. -/
def lz4Nibble (v : Nat) (bs : List Byte) : Option (Nat × List Byte) := if v = 15 then lz4Len 15 bs else some (v, bs)

/-- The sequences of a compressed block. `first` is where the window begins in the output. -/
def lz4Seqs (first : Nat) : Nat → Array Byte → List Byte → Option (Array Byte)
  | 0, _, _ => none
  | _ + 1, _, [] => none
  | n + 1, out, tok :: bs =>
    match lz4Nibble (tok.toNat / 16) bs with
    | none => none
    | some (lits, bs) =>
      if bs.length < lits then none
      else
        let out := out ++ (bs.take lits).toArray
        let bs := bs.drop lits
        if bs.isEmpty then some out
        else if bs.length < 2 then none
        else
          let dist := natAt bs 0 2
          match lz4Nibble (tok.toNat % 16) (bs.drop 2) with
          | none => none
          | some (len, rest) =>
            if dist = 0 ∨ out.size < first + dist then none else lz4Seqs first n (copyBack dist (len + 4) out) rest

/-- What a frame's descriptor says: independent blocks, checksums of blocks and content, content size, and the most bytes
of a block. -/
structure Lz4Head where
  indep : Bool
  blockSum : Bool
  contentSum : Bool
  size : Option Nat
  blockMax : Nat
  deriving DecidableEq, Repr

/-- The end of a frame: its content checksum and size. -/
def lz4End (h : Lz4Head) (start : Nat) (out : Array Byte) (bs : List Byte) : Taken :=
  let content := (out.extract start out.size).toList
  if h.size.any (fun n => n != content.length) then (out, .inr .malformed)
  else if h.contentSum then
    if bs.length < 4 then (out, .inr .malformed)
    else if (xxHash 32 content).toNat ≠ natAt bs 0 4 then (out, .inr .badSum)
    else (out, .inl (bs.drop 4))
  else (out, .inl bs)

/-- The blocks of a frame whose content begins at `start`. -/
def lz4Blocks (h : Lz4Head) (start : Nat) : Nat → Array Byte → List Byte → Taken
  | 0, out, _ => (out, .inr .malformed)
  | n + 1, out, bs =>
    let word := natAt bs 0 4
    let len := word % 2 ^ 31
    let after := 4 + len + (if h.blockSum then 4 else 0)
    if bs.length < 4 then (out, .inr .malformed)
    else if word = 0 then lz4End h start out (bs.drop 4)
    else if h.blockMax < len ∨ bs.length < after then (out, .inr .malformed)
    else
      let data := (bs.drop 4).take len
      if h.blockSum && (xxHash 32 data).toNat != natAt bs (4 + len) 4 then (out, .inr .badSum)
      else
        match (if 2 ^ 31 ≤ word then some (out ++ data.toArray)
               else lz4Seqs (if h.indep then out.size else start) (len + 1) out data) with
        | none => (out, .inr .malformed)
        | some out' =>
          if out.size + h.blockMax < out'.size then (out, .inr .malformed) else lz4Blocks h start n out' (bs.drop after)

/-- One frame. A frame with a dictionary ID is rejected (R387). -/
def lz4Frame (out : Array Byte) (bs : List Byte) : Taken :=
  if bs.length < 7 then (out, .inr .malformed)
  else
    let flg := natAt bs 4 1
    let bd := natAt bs 5 1
    let sized := flg / 8 % 2 = 1
    let len := if sized then 10 else 2
    if natAt bs 0 4 ≠ 0x184D2204 ∨ flg / 64 ≠ 1 ∨ flg / 2 % 2 = 1 ∨ flg % 2 = 1 ∨ bd / 128 = 1 ∨ bd % 16 ≠ 0
       ∨ bd / 16 % 8 < 4 ∨ bs.length < 5 + len then (out, .inr .malformed)
    else if (xxHash 32 (bytesAt bs 4 len)).toNat / 256 % 256 ≠ natAt bs (4 + len) 1 then (out, .inr .badSum)
    else
      lz4Blocks ⟨flg / 32 % 2 == 1, flg / 16 % 2 == 1, flg / 4 % 2 == 1, if sized then some (natAt bs 6 8) else none,
        2 ^ (8 + 2 * (bd / 16))⟩ out.size bs.length out (bs.drop (5 + len))

/-- LZ4 frame decompression (R387). -/
def lz4 (src : List Byte) : Inflated :=
  inflated (allFrames lz4Frame src.length #[] src)

/-! ### Zstandard: bit streams -/

/-- The bits of a stream read forward: least significant first. -/
def bitsForward (bs : List Byte) : List Bool := bs.flatMap (fun b => (List.range 8).map (fun k => b.getLsbD k))

/-- The bits of a stream read backward: from the bit below the highest 1 of its last byte; `none` if that byte is 0. -/
def bitsBackward (bs : List Byte) : Option (List Bool) :=
  if (bs.getLastD 0) = 0 then none else some (((bitsForward bs).reverse.dropWhile (fun x => !x)).drop 1)

/-- `n` bits with the first as the least significant. -/
def bitsLow (n : Nat) (bits : List Bool) : Nat := (bits.take n).foldr (fun b acc => b.toNat + 2 * acc) 0

/-- `n` bits with the first as the most significant; bits beyond the end read 0. -/
def bitsHigh : Nat → List Bool → Nat
  | 0, _ => 0
  | n + 1, bits => (bits.headD false).toNat * 2 ^ n + bitsHigh n bits.tail

/-! ### Zstandard: FSE tables (RFC 8878, 4.1) -/

/-- A row of an FSE decoding table: its symbol, and the bits to read and the base to add for the next state. -/
structure FseRow where
  sym : Nat
  bits : Nat
  base : Nat
  deriving DecidableEq, Repr, Inhabited

structure FseTable where
  log : Nat
  rows : Array FseRow
  deriving DecidableEq, Repr, Inhabited

/-- The counts of zero-probability symbols that follow one, two bits at a time. -/
def fseZeros : Nat → Nat → List Bool → Nat × List Bool
  | 0, acc, bits => (acc, bits)
  | n + 1, acc, bits =>
    let r := bitsLow 2 bits
    if r = 3 then fseZeros n (acc + 3) (bits.drop 2) else (acc + r, bits.drop 2)

/-- The probabilities of a table description, latest first: -1 stands for "less than 1". `left` is what is still to give
out. -/
def fseProbs : Nat → Nat → List Int → List Bool → Option (List Int × List Bool)
  | 0, _, _, _ => none
  | n + 1, left, acc, bits =>
    if left = 0 then some (acc, bits)
    else
      let width := Nat.log2 (left + 1) + 1
      let low := 2 ^ (width - 1)
      let val := bitsLow width bits
      let cut := 2 ^ width - 1 - (left + 1)
      let short := decide (val % low < cut)
      let v := if short then val % low else if low ≤ val then val - cut else val
      let bits' := bits.drop (if short then width - 1 else width)
      let used := if v = 0 then 1 else v - 1
      if bits.length < (if short then width - 1 else width) ∨ left < used then none
      else if v = 1 then
        let z := fseZeros bits'.length 0 bits'
        fseProbs n left (List.replicate z.1 0 ++ 0 :: acc) z.2
      else fseProbs n (left - used) (((v : Int) - 1) :: acc) bits'

/-- The table description of a compressed FSE table: its accuracy, its probabilities in order, and the bytes it takes. -/
def fseDescription (maxLog maxSyms : Nat) (bs : List Byte) : Option (Nat × List Int × Nat) :=
  let bits := bitsForward bs
  let log := bitsLow 4 bits + 5
  if bits.length < 4 ∨ maxLog < log then none
  else match fseProbs 512 (2 ^ log) [] (bits.drop 4) with
    | none => none
    | some (ps, rest) =>
      if maxSyms < ps.length then none else some (log, ps.reverse, (bits.length - rest.length + 7) / 8)

/-- The next position of the spread in a table of a size. -/
def fseStep (size p : Nat) : Nat := (p + size / 2 + size / 8 + 3) % size

/-- Step on from a position at or above `high`, which belongs to a low-probability symbol. -/
def fseSkip (size high : Nat) : Nat → Nat → Nat
  | 0, p => p
  | n + 1, p => if p < high then p else fseSkip size high n (fseStep size p)

/-- Spread a symbol over `n` cells, stepping over those of low-probability symbols: the cells, and the next position. -/
def fseSpread (size high sym : Nat) : Nat → Nat → Array Nat → Array Nat × Nat
  | 0, pos, cells => (cells, pos)
  | n + 1, pos, cells =>
    fseSpread size high sym n (fseSkip size high size (fseStep size pos)) (cells.set! pos sym)

/-- The rows from the cells: each symbol's states count up from its probability. -/
def fseRows (log : Nat) : List Nat → Array Nat → List FseRow
  | [], _ => []
  | sym :: rest, counts =>
    let x := counts.getD sym 1
    let bits := log - Nat.log2 x
    ⟨sym, bits, x * 2 ^ bits - 2 ^ log⟩ :: fseRows log rest (counts.set! sym (x + 1))

/-- The decoding table of some probabilities. -/
def fseTable (log : Nat) (ps : List Int) : FseTable :=
  let size := 2 ^ log
  let syms := (List.range ps.length).zip ps
  let rare := (syms.filter (fun q => q.2 == -1)).map Prod.fst
  let high := size - rare.length
  let cells := Array.replicate high 0 ++ rare.reverse.toArray
  let spread := syms.foldl (fun (st : Array Nat × Nat) q => fseSpread size high q.1 q.2.toNat st.2 st.1) (cells, 0)
  ⟨log, (fseRows log spread.1.toList (ps.map (fun q => if q = -1 then 1 else q.toNat)).toArray).toArray⟩

/-- The table of one symbol, which reads no bits. -/
def fseSingle (sym : Nat) : FseTable := ⟨0, #[⟨sym, 0, 0⟩]⟩

def FseTable.row (t : FseTable) (state : Nat) : FseRow := t.rows.getD state ⟨0, 0, 0⟩

/-! ### Zstandard: Huffman tables (RFC 8878, 4.2) -/

/-- A Huffman decoding table: its width, and the symbol and length of every code of that width. -/
structure HufTable where
  log : Nat
  rows : Array (Nat × Nat)
  deriving DecidableEq, Repr, Inhabited

/-- Weights from two interleaved FSE states, until the bits run out. -/
def hufWeights (t : FseTable) : Nat → Nat → Nat → List Bool → List Nat
  | 0, _, _, _ => []
  | n + 1, st, other, bits =>
    let r := t.row st
    r.sym :: (if bits.length < r.bits then [(t.row other).sym]
      else hufWeights t n other (r.base + bitsHigh r.bits bits) (bits.drop r.bits))

/-- The table of some weights, whose last is implied. -/
def hufTable (ws : List Nat) : Option HufTable :=
  let sum := (ws.map (fun w => if w = 0 then 0 else 2 ^ (w - 1))).sum
  let log := Nat.log2 sum + 1
  let left := 2 ^ log - sum
  if sum = 0 ∨ 11 < log ∨ ws.any (fun w => decide (11 < w)) ∨ 255 < ws.length ∨ 2 ^ Nat.log2 left ≠ left then none
  else
    let all := ws ++ [Nat.log2 left + 1]
    some ⟨log, ((List.range 12).flatMap (fun w =>
      if w = 0 then []
      else (((List.range all.length).zip all).filter (fun q => q.2 == w)).flatMap (fun q =>
        List.replicate (2 ^ (w - 1)) (q.1, log + 1 - w)))).toArray⟩

/-- The tree description at the head of a literals section: the table and the bytes it takes. -/
def hufDescription (bs : List Byte) : Option (HufTable × Nat) :=
  match bs with
  | [] => none
  | hb :: rest =>
    let n := hb.toNat
    if 128 ≤ n then
      let len := (n - 127 + 1) / 2
      if rest.length < len then none
      else (hufTable ((digitsOf (rest.take len)).take (n - 127))).map (fun t => (t, 1 + len))
    else if rest.length < n then none
    else match fseDescription 6 256 (rest.take n) with
      | none => none
      | some (log, ps, used) =>
        match bitsBackward ((rest.take n).drop used) with
        | none => none
        | some bits =>
          if bits.length < 2 * log then none
          else
            let ws := hufWeights (fseTable log ps) 256 (bitsHigh log bits) (bitsHigh log (bits.drop log)) (bits.drop (2 * log))
            (hufTable ws).map (fun t => (t, 1 + n))
where
  /-- Four-bit numbers, upper first. -/
  digitsOf (bs : List Byte) : List Nat := bs.flatMap (fun b => [b.toNat / 16, b.toNat % 16])

/-- `n` symbols of one stream, which must use up its bits. -/
def hufSymbols (t : HufTable) : Nat → List Bool → Option (List Byte)
  | 0, bits => if bits.isEmpty then some [] else none
  | n + 1, bits =>
    let r := t.rows.getD (bitsHigh t.log bits) (0, 0)
    if bits.length < r.2 then none else (hufSymbols t n (bits.drop r.2)).map (fun rest => BitVec.ofNat 8 r.1 :: rest)

/-- One Huffman stream of `n` symbols. -/
def hufStream (t : HufTable) (n : Nat) (bs : List Byte) : Option (List Byte) := (bitsBackward bs).bind (hufSymbols t n)

/-- Four streams behind their jump table. -/
def hufFour (t : HufTable) (n : Nat) (bs : List Byte) : Option (List Byte) :=
  let s1 := natAt bs 0 2
  let s2 := natAt bs 2 2
  let s3 := natAt bs 4 2
  let each := (n + 3) / 4
  let body := bs.drop 6
  if bs.length < 6 + s1 + s2 + s3 ∨ n < 3 * each then none
  else (hufStream t each (body.take s1)).bind (fun o1 =>
    (hufStream t each ((body.drop s1).take s2)).bind (fun o2 =>
      (hufStream t each ((body.drop (s1 + s2)).take s3)).bind (fun o3 =>
        (hufStream t (n - 3 * each) (body.drop (s1 + s2 + s3))).map (fun o4 => o1 ++ o2 ++ o3 ++ o4))))

/-! ### Zstandard: blocks (RFC 8878, 3.1.1.3) -/

/-- What a block leaves for the next: the Huffman table, the three FSE tables, and the three repeat offsets. -/
structure ZstdKept where
  huf : Option HufTable
  lit : Option FseTable
  off : Option FseTable
  mat : Option FseTable
  rep : Nat × Nat × Nat
  deriving DecidableEq, Repr

def ZstdKept.start : ZstdKept := ⟨none, none, none, none, (1, 4, 8)⟩

/-- The literals section: the literals, the tables kept, and the bytes left. -/
def zstdLiterals (k : ZstdKept) (bs : List Byte) : Option (List Byte × ZstdKept × List Byte) :=
  let b0 := natAt bs 0 1
  let type := b0 % 4
  let form := b0 / 4 % 4
  if bs.isEmpty then none
  else if type < 2 then
    let head := if form % 2 = 0 then 1 else if form = 1 then 2 else 3
    let n := natAt bs 0 head / (if form % 2 = 0 then 8 else 16)
    let body := bs.drop head
    if bs.length < head ∨ 2 ^ 17 < n then none
    else if type = 0 then (if body.length < n then none else some (body.take n, k, body.drop n))
    else match body with
      | [] => none
      | b :: rest => some (List.replicate n b, k, rest)
  else
    let head := if form < 2 then 3 else if form = 2 then 4 else 5
    let width := if form < 2 then 10 else if form = 2 then 14 else 18
    let word := natAt bs 0 head / 16
    let n := word % 2 ^ width
    let size := word / 2 ^ width
    let body := (bs.drop head).take size
    if bs.length < head + size ∨ 2 ^ 17 < n then none
    else
      let tree := if type = 2 then hufDescription body else k.huf.map (fun t => (t, 0))
      match tree with
      | none => none
      | some (t, used) =>
        match (if form = 0 then hufStream t n (body.drop used) else hufFour t n (body.drop used)) with
        | none => none
        | some lits => some (lits, { k with huf := some t }, bs.drop (head + size))

/-- The default table of a kind of code. -/
def fseDefault (log : Nat) (ps : List (Nat × Int)) : FseTable := fseTable log (ps.flatMap (fun q => List.replicate q.1 q.2))

def zstdLitDefault : FseTable :=
  fseDefault 6 [(1, 4), (1, 3), (11, 2), (3, 1), (9, 2), (1, 3), (1, 2), (5, 1), (4, -1)]
def zstdMatDefault : FseTable := fseDefault 6 [(1, 1), (1, 4), (1, 3), (6, 2), (37, 1), (7, -1)]
def zstdOffDefault : FseTable := fseDefault 5 [(6, 1), (3, 2), (15, 1), (5, -1)]

/-- A table of the sequences section, by its mode: the table and the bytes left. -/
def zstdTable (mode : Nat) (default : FseTable) (kept : Option FseTable) (maxLog maxSyms : Nat) (bs : List Byte) :
    Option (FseTable × List Byte) :=
  if mode = 0 then some (default, bs)
  else if mode = 1 then
    match bs with
    | [] => none
    | b :: rest => if b.toNat < maxSyms then some (fseSingle b.toNat, rest) else none
  else if mode = 2 then
    (fseDescription maxLog maxSyms bs).map (fun d => (fseTable d.1 d.2.1, bs.drop d.2.2))
  else kept.map (fun t => (t, bs))

/-- Baseline and extra bits of a literals-length code. -/
def litCode (c : Nat) : Nat × Nat :=
  if c < 16 then (c, 0)
  else if c < 24 then ([(16, 1), (18, 1), (20, 1), (22, 1), (24, 2), (28, 2), (32, 3), (40, 3)].getD (c - 16) (0, 0))
  else if c = 24 then (48, 4) else (2 ^ (c - 19), c - 19)

/-- Baseline and extra bits of a match-length code. -/
def matCode (c : Nat) : Nat × Nat :=
  if c < 32 then (c + 3, 0)
  else if c < 43 then
    ([(35, 1), (37, 1), (39, 1), (41, 1), (43, 2), (47, 2), (51, 3), (59, 3), (67, 4), (83, 4), (99, 5)].getD (c - 32) (0, 0))
  else (2 ^ (c - 36) + 3, c - 36)

/-- The distance of an offset value, and the repeat offsets after it. -/
def zstdOffset (v lits : Nat) (rep : Nat × Nat × Nat) : Nat × (Nat × Nat × Nat) :=
  let (r1, r2, r3) := rep
  if 3 < v then (v - 3, (v - 3, r1, r2))
  else
    let k := if lits = 0 then v + 1 else v
    if k = 1 then (r1, (r1, r2, r3))
    else if k = 2 then (r2, (r2, r1, r3))
    else if k = 3 then (r3, (r3, r1, r2))
    else (r1 - 1, (r1 - 1, r1, r2))

/-- The three states of the sequences and the bits that are left. -/
structure ZstdSeq where
  lit : Nat
  off : Nat
  mat : Nat
  bits : List Bool
  deriving DecidableEq, Repr

/-- A state's next value. -/
def fseNext (t : FseTable) (state : Nat) (bits : List Bool) : Nat × List Bool :=
  let r := t.row state
  (r.base + bitsHigh r.bits bits, bits.drop r.bits)

/-- `n` sequences on the output, with the literals still to place. `first` is where the frame's content begins. -/
def zstdSeqs (lit off mat : FseTable) (window first : Nat) :
    Nat → ZstdSeq → (Nat × Nat × Nat) → Array Byte → List Byte → Option (Array Byte × List Byte × (Nat × Nat × Nat))
  | 0, q, rep, out, lits => if q.bits.isEmpty then some (out, lits, rep) else none
  | n + 1, q, rep, out, lits =>
    let ofc := (off.row q.off).sym
    let mc := matCode (mat.row q.mat).sym
    let lc := litCode (lit.row q.lit).sym
    let value := 2 ^ ofc + bitsHigh ofc q.bits
    let b1 := q.bits.drop ofc
    let mlen := mc.1 + bitsHigh mc.2 b1
    let b2 := b1.drop mc.2
    let llen := lc.1 + bitsHigh lc.2 b2
    let b3 := b2.drop lc.2
    let d := zstdOffset value llen rep
    let out := out ++ (lits.take llen).toArray
    if q.bits.length < ofc + mc.2 + lc.2 ∨ 31 < ofc ∨ lits.length < llen ∨ d.1 = 0 ∨ window < d.1 ∨ out.size < first + d.1 then none
    else
      let out := copyBack d.1 mlen out
      if n = 0 then (if b3.isEmpty then some (out, lits.drop llen, d.2) else none)
      else
        let nl := fseNext lit q.lit b3
        let nm := fseNext mat q.mat nl.2
        let no := fseNext off q.off nm.2
        if b3.length < (lit.row q.lit).bits + (mat.row q.mat).bits + (off.row q.off).bits then none
        else zstdSeqs lit off mat window first n ⟨nl.1, no.1, nm.1, no.2⟩ d.2 out (lits.drop llen)

/-- The number of sequences at the head of their section, and the bytes it takes. -/
def zstdCount (bs : List Byte) : Nat × Nat :=
  let b0 := natAt bs 0 1
  if b0 < 128 then (b0, 1)
  else if b0 < 255 then ((b0 - 128) * 256 + natAt bs 1 1, 2) else (natAt bs 1 2 + 0x7F00, 3)

/-- A compressed block's content. -/
def zstdCompressed (window first : Nat) (k : ZstdKept) (out : Array Byte) (bs : List Byte) : Option (Array Byte × ZstdKept) :=
  match zstdLiterals k bs with
  | none => none
  | some (lits, k, bs) =>
    let (n, head) := zstdCount bs
    if bs.length < head then none
    else if n = 0 then (if bs.length = 1 then some (out ++ lits.toArray, k) else none)
    else
      let modes := natAt bs head 1
      if bs.length < head + 1 ∨ modes % 4 ≠ 0 then none
      else
        (zstdTable (modes / 64) zstdLitDefault k.lit 9 36 (bs.drop (head + 1))).bind (fun l =>
          (zstdTable (modes / 16 % 4) zstdOffDefault k.off 8 32 l.2).bind (fun o =>
            (zstdTable (modes / 4 % 4) zstdMatDefault k.mat 9 53 o.2).bind (fun m =>
              (bitsBackward m.2).bind (fun bits =>
                let b1 := bits.drop l.1.log
                let b2 := b1.drop o.1.log
                if bits.length < l.1.log + o.1.log + m.1.log then none
                else
                  (zstdSeqs l.1 o.1 m.1 window first n
                    ⟨bitsHigh l.1.log bits, bitsHigh o.1.log b1, bitsHigh m.1.log b2, b2.drop m.1.log⟩ k.rep out lits).map
                    (fun r => (r.1 ++ r.2.1.toArray, ⟨k.huf, some l.1, some o.1, some m.1, r.2.2⟩))))))

/-- What a frame's header says. -/
structure ZstdHead where
  window : Nat
  size : Option Nat
  sum : Bool
  deriving DecidableEq, Repr

/-- The end of a frame. -/
def zstdEnd (h : ZstdHead) (first : Nat) (out : Array Byte) (bs : List Byte) : Taken :=
  let content := (out.extract first out.size).toList
  if h.size.any (fun n => n != content.length) then (out, .inr .malformed)
  else if h.sum then
    if bs.length < 4 then (out, .inr .malformed)
    else if (xxHash 64 content).toNat % 2 ^ 32 ≠ natAt bs 0 4 then (out, .inr .badSum)
    else (out, .inl (bs.drop 4))
  else (out, .inl bs)

/-- The blocks of a frame. -/
def zstdBlocks (h : ZstdHead) (first : Nat) : Nat → ZstdKept → Array Byte → List Byte → Taken
  | 0, _, out, _ => (out, .inr .malformed)
  | n + 1, k, out, bs =>
    let head := natAt bs 0 3
    let len := head / 8
    let type := head / 2 % 4
    let stored := if type = 1 then 1 else len
    let most := min h.window (2 ^ 17)
    let body := (bs.drop 3).take stored
    if bs.length < 3 + stored ∨ most < len ∨ type = 3 then (out, .inr .malformed)
    else
      match (if type = 0 then some (out ++ body.toArray, k)
             else if type = 1 then some (out ++ Array.replicate len (body.headD 0), k)
             else zstdCompressed h.window first k out body) with
      | none => (out, .inr .malformed)
      | some (out', k) =>
        if out.size + most < out'.size then (out, .inr .malformed)
        else if head % 2 = 1 then zstdEnd h first out' (bs.drop (3 + stored))
        else zstdBlocks h first n k out' (bs.drop (3 + stored))

/-- One frame. A Dictionary_ID other than 0 and a window above 8 MiB are rejected (R387). -/
def zstdFrame (out : Array Byte) (bs : List Byte) : Taken :=
  let d := natAt bs 4 1
  let single := d / 32 % 2 = 1
  let wlen := if single then 0 else 1
  let dlen := [0, 1, 2, 4].getD (d % 4) 0
  let flen := if d / 64 = 0 then (if single then 1 else 0) else 2 ^ (d / 64)
  let wd := natAt bs 5 1
  let size := natAt bs (5 + wlen + dlen) flen + (if flen = 2 then 256 else 0)
  let window := if single then size else 2 ^ (10 + wd / 8) + 2 ^ (7 + wd / 8) * (wd % 8)
  if bs.length < 5 + wlen + dlen + flen ∨ natAt bs 0 4 ≠ 0xFD2FB528 ∨ d / 8 % 2 = 1 ∨ natAt bs (5 + wlen) dlen ≠ 0 ∨ 2 ^ 23 < window then
    (out, .inr .malformed)
  else
    zstdBlocks ⟨window, if flen = 0 then none else some size, d / 4 % 2 == 1⟩ out.size bs.length ZstdKept.start out
      (bs.drop (5 + wlen + dlen + flen))

/-- Zstandard decompression (R387). -/
def zstd (src : List Byte) : Inflated :=
  inflated (allFrames zstdFrame src.length #[] src)

end Sys2Proof.Machine
end

