-- ==== Sys2Proof/Machine/Hub.lean ====
section
/-! DEFINITION. The hub register file (19 R430): offsets, reset values, writable bits and plain reads. Registers whose
value is derived from other state (PFCNT, PFENT, SNPFREE, HELD and PEND of SNSTAT, TXLSTAT, TXDOUBT) are computed here
from it and have no storage. Effects of writes stand beside the instructions that carry them. -/

namespace Sys2Proof.Machine

/-! ### Offsets -/

def hubBase : Nat := 0x7F000000000000
def mgBase : Nat := 0
def schBase : Nat := 0x100000
def lwBase : Nat := 0x200000
def pfBase : Nat := 0x300000
def trBase : Nat := 0x310000
def snBase : Nat := 0x320000
def fbBase : Nat := 0x400000
def islBase : Nat := 0x800000
def monBase : Nat := 0x900000

def regDumpaddr : Nat := mgBase + 0x080
def regDiecmd : Nat := mgBase + 0x0F0
def regDiest (i : Nat) : Nat := mgBase + 0x100 + 8 * i
def regTencfg (t : Nat) : Nat := schBase + 8 * t
def regAgel (l : Nat) : Nat := schBase + 0x200 + 8 * l
def regPredl : Nat := schBase + 0x240
def regSvbase (t : Nat) : Nat := schBase + 0x2000 + 16 * t
def regSvsize (t : Nat) : Nat := schBase + 0x2008 + 16 * t
def regSrvbase : Nat := schBase + 0x3000
def regSrvdl : Nat := schBase + 0x3008
def regTabown (c : Nat) (hi : Bool) : Nat := schBase + 0x8000 + 16 * c + (if hi then 8 else 0)
def regPfcnt : Nat := pfBase
def regPfidx : Nat := pfBase + 0x08
def regPfent : Nat := pfBase + 0x10
def regPfadd : Nat := pfBase + 0x18
def regPfdel : Nat := pfBase + 0x20
def regTctx (t : Nat) : Nat := trBase + 8 * t
def regTlbva : Nat := trBase + 0x200
def regTlbinv : Nat := trBase + 0x208
def regTlbstat : Nat := trBase + 0x210
def regPrqbase : Nat := trBase + 0x300
def regPrqhead : Nat := trBase + 0x308
def regPrqtail : Nat := trBase + 0x310
def regPrresp : Nat := trBase + 0x318
def regSncmd : Nat := snBase
def regSnres : Nat := snBase + 0x008
def regSnpool : Nat := snBase + 0x010
def regSnpfree : Nat := snBase + 0x018
def regSntgt : Nat := snBase + 0x020
def regSntkind : Nat := snBase + 0x028
def regSnstat (d : Nat) : Nat := snBase + 0x100 + 8 * d
def regSncut (d : Nat) : Nat := snBase + 0x180 + 8 * d
def regFbid : Nat := fbBase
def regFbloss : Nat := fbBase + 0x008
def regFbstray : Nat := fbBase + 0x010
def regFbstrayh : Nat := fbBase + 0x018
def regFbport (p : Nat) : Nat := fbBase + 0x100 + 8 * p
def regFbroute (q : Nat) : Nat := fbBase + 0x200 + 8 * q
def regHsbase (r : Nat) : Nat := fbBase + 0x400 + 16 * r
def regHscfg (r : Nat) : Nat := fbBase + 0x408 + 16 * r
def regTxlbase : Nat := fbBase + 0x500
def regTxlstat : Nat := fbBase + 0x508
def regTxdoubt : Nat := fbBase + 0x510
def regFbep (e : Nat) : Nat := fbBase + 0x10000 + 8 * e
def regIslctl (n : Nat) : Nat := islBase + 8 * n
def regMon (m off : Nat) : Nat := monBase + 0x100 * m + off

/-- Whether an offset is one of `n` registers from `base`, `stride` apart. -/
def inBank (off base stride n : Nat) : Bool :=
  decide (base ≤ off) && decide (off < base + stride * n) && decide ((off - base) % stride = 0)

/-! ### Reset values -/

/-- The reset value of a register (R327, R358, R397, R439, R448; every other register resets to 0). -/
def hubReset (off : Nat) : DWord :=
  if inBank off (regTencfg 0) 8 64 then 1
  else if inBank off (regAgel 0) 8 8 then 0xF4240
  else if off = regPredl ∨ off = regSrvdl then 0x4E20
  else if off = regFbloss then 0x1AB3F0
  else if inBank off islBase 8 128 then BitVec.ofNat 64 (70 * 2 ^ 16 + 70)
  else if inBank off (monBase + 0x08) 0x100 32 then 0xFFFFFFFFFFFFFFFF
  else 0

/-- The bits that a plain write stores. Registers that are read-only, or whose write is an event of its own, store
nothing here. -/
def hubMask (off : Nat) : DWord :=
  if off = regDumpaddr then 0xFFFFFFFFFFFF0000
  else if inBank off (regTencfg 0) 8 64 then 0x107FF
  else if inBank off (regAgel 0) 8 8 ∨ off = regPredl ∨ off = regSrvdl ∨ off = regFbloss then 0xFFFFFFFF
  else if inBank off (regSvbase 0) 16 64 then 0xFFFFFFFFFFFF0001
  else if inBank off (regSvsize 0) 16 64 then 0xFFFFFFFF
  else if off = regSrvbase then 0xFFFFFFFFFFFE0000
  else if off = regPfidx then 0xFFFF
  else if inBank off (regTctx 0) 8 64 then 0xFFFFFFFFFFFFFFFF
  else if off = regTlbva then 0x1FFFFFFFFFFF
  else if off = regPrqbase then 0xFFFFFFFFFFFFF00F
  else if off = regPrqhead then 0xFFFFFFFF
  else if off = regSntgt then 0xFFFFFFFFFFFF0000
  else if off = regSntkind then 3
  else if inBank off (regFbport 0) 8 16 then 0xC0
  else if inBank off (regFbroute 0) 8 64 then 0xFFFF
  else if inBank off (regHsbase 0) 16 16 then 0xFFFFFFFFFFFF0000
  else if inBank off (regHscfg 0) 16 16 then 0xFFFFFFFFFFF
  else if off = regTxlbase then 0xFFFFFFFFFFFFF00F
  else if inBank off (regFbep 0) 8 4096 then 3
  else if inBank off monBase 0x100 32 then 0xFFFFFFFFFF01
  else 0

/-! ### Raw storage -/

def State.reg (s : State) (off : Nat) : DWord := spGet hubReset s.hub off
def State.setReg (s : State) (off : Nat) (v : DWord) : State := { s with hub := spSet hubReset s.hub off v }

/-- A plain write: the writable bits change, the others keep their value. -/
def State.writeReg (s : State) (off : Nat) (v : DWord) : State :=
  s.setReg off ((s.reg off &&& ~~~(hubMask off)) ||| (v &&& hubMask off))

/-- A field of a register: `n` bits from `lo`. -/
def State.field (s : State) (off lo n : Nat) : Nat := (s.reg off).toNat / 2 ^ lo % 2 ^ n

/-- Replace a field of a register. -/
def State.setField (s : State) (off lo n v : Nat) : State :=
  let old := s.field off lo n
  s.setReg off (BitVec.ofNat 64 ((s.reg off).toNat - old * 2 ^ lo + v % 2 ^ n * 2 ^ lo))

/-! ### Values that the rest of the machine reads -/

/-- This package's endpoint number and pod (R392). -/
def State.pkg (s : State) : Nat := s.field regFbid 0 12
def State.pod (s : State) : Nat := s.field regFbid 12 6
def State.globalNumber (s : State) : Nat := s.pod * 4096 + s.pkg

/-- The kind of an endpoint number (R393): the own entry reads 1; 3 acts as 0. -/
def State.endpointKind (s : State) (e : Nat) : Nat :=
  if e = s.pkg then 1
  else if s.field (regFbep e) 0 2 = 3 then 0 else s.field (regFbep e) 0 2

/-- The tenant's window and LAUNCH lanes are accepted (R327). -/
def State.tenantOn (s : State) (t : Nat) : Bool := (s.reg (regTencfg t)).getLsbD 16

/-- WEIGHT; 0 acts as 1. -/
def State.weight (s : State) (t : Nat) : Nat := max 1 (s.field (regTencfg t) 0 8)

/-- The tenant's save pool is enabled (R346). -/
def State.poolOn (s : State) (t : Nat) : Bool := (s.reg (regSvbase t)).getLsbD 0

/-- The state of a die (R435). -/
def State.dieState (s : State) (d : Nat) : Nat := s.field (regDiest d) 0 3
def State.setDieState (s : State) (d v : Nat) : State := s.setField (regDiest d) 0 3 v

/-- A port in pod mode is up (R394), or for another pod a route-mode port toward it (R395). -/
def State.podUp (s : State) (pod : Nat) : Bool :=
  (List.range 16).any (fun p => s.field (regFbport p) 0 2 == 2 &&
    (if pod = s.pod then s.field (regFbport p) 6 2 == 1
     else s.field (regFbport p) 6 2 == 2 && s.field (regFbroute pod) p 1 == 1))

/-- One of the LZ1-N dies works, so that messages can arrive (R434, R437). -/
def State.fabricOn (s : State) : Bool := s.dieState 9 == 2 || s.dieState 10 == 2

/-- Send a message to a pod; it waits for a port. -/
def State.fabSend (s : State) (pod : Nat) (m : Msg) : State :=
  if s.podUp pod then s.send m else { s with fab := { s.fab with queue := s.fab.queue ++ [(pod, m)] } }

/-- The messages whose pod can be reached again leave. -/
def State.flushQueue (s : State) : State :=
  (s.fab.queue.filter (fun q => s.podUp q.1)).foldl (fun s q => s.send q.2)
    { s with fab := { s.fab with queue := s.fab.queue.filter (fun q => !s.podUp q.1) } }

/-- The state of a snapshot domain (R380). -/
def State.domState (s : State) (d : Nat) : Nat := s.field (regSnstat d) 48 4
def State.setDomState (s : State) (d v : Nat) : State := s.setField (regSnstat d) 48 4 v

/-- Pages of the pool and of its preserved copies (R379, R380). -/
def State.poolFirst (s : State) : Nat := s.field regSnpool 0 24
def State.poolCount (s : State) : Nat := s.field regSnpool 24 24
def State.poolFree (s : State) : Nat := s.poolCount - s.snap.copies.length

/-- Pages of a domain whose copy bit is set, and pool pages that hold its copies. -/
def State.pending (s : State) (d : Nat) : Nat :=
  (s.snap.member.filter (fun q => q.2 == some d && spGet (fun _ => false) s.snap.copyBit q.1)).length
def State.heldCopies (s : State) (d : Nat) : Nat := (s.snap.copies.filter (fun c => c.2.2 == d)).length

/-- Decision-log entries in use and parts in doubt (R408). -/
def State.logUsed (s : State) : Nat := (s.fab.txs.filter (fun t => t.logged.isSome)).length
def State.doubtful (s : State) : Nat :=
  (s.fab.parts.filter (fun p => p.prepared && s.fab.unheard.contains p.coord)).length

/-- The value of a register as an access reads it (R430): derived registers, write-only registers as 0, the entry of
the own endpoint as 1, and storage for the rest. -/
def State.readReg (s : State) (off : Nat) : DWord :=
  if off = regPfcnt then BitVec.ofNat 64 s.pageFail.length
  else if off = regPfent then
    BitVec.ofNat 64 (s.pageFail.getD (s.field regPfidx 0 16) 0)
  else if off = regSnpfree then BitVec.ofNat 64 s.poolFree
  else if inBank off (regSnstat 0) 8 16 then
    let d := (off - regSnstat 0) / 8
    BitVec.ofNat 64 (s.field off 52 4 * 2 ^ 52 + s.domState d * 2 ^ 48 + s.heldCopies d % 2 ^ 24 * 2 ^ 24
      + s.pending d % 2 ^ 24)
  else if off = regTxlstat then BitVec.ofNat 64 s.logUsed
  else if off = regTxdoubt then BitVec.ofNat 64 s.doubtful
  else if off = regFbep s.pkg then 1
  else s.reg off

/-! ### Core cycles (R5, R138, R439) -/

/-- The island of a core (R438): two clusters of a die. -/
def islandOf (core : Nat) : Nat := 12 * dieOf core + core % 96 / 8

/-- The clock now running of an island, in 25 MHz units. -/
def State.islandClock (s : State) (n : Nat) : Nat := s.field (regIslctl n) 16 7

/-- %ctime: core cycles since core reset. Reference cycles are 70 units; an island at a slower clock loses the
difference in each. -/
def State.coreCycles (s : State) (core : Nat) : Nat :=
  (s.now * 70 - spGet (fun _ => 0) s.mgmt.lostTicks (islandOf core)) / 70
    - spGet (fun _ => 0) s.mgmt.coreReset core

/-- Time passes: the reference count rises and every slower island loses ticks. -/
def loseTicks (s : State) (n : Nat) : Nat → Sparse Nat
  | 0 => s.mgmt.lostTicks
  | k + 1 =>
    let rest := loseTicks s n k
    spSet (fun _ => 0) rest k (spGet (fun _ => 0) rest k + n * (70 - s.islandClock k))

def State.advance (s : State) (n : Nat) : State :=
  { s with now := s.now + n, mgmt := { s.mgmt with lostTicks := loseTicks s n 96 } }

end Sys2Proof.Machine
end

