-- ==== Sys2Proof/Machine/Memory.lean ====
section
/-! DEFINITION. Memory: locations, single-copy atomic pieces (R305), Sv57 translation (R370 to R374), local lines (R206),
and the bytes that each agent reads (R301 to R304). A location below 2^60 is a physical address of device memory; the
scratchpad windows stand above it. -/

namespace Sys2Proof.Machine

/-! ### Locations -/

/-- Bytes of device memory (R361). -/
def devSize : Nat := 0xC000000000

/-- The location of a physical offset of a cluster's scratchpad window (R203). -/
def scrLoc (cluster p : Nat) : Nat := 2 ^ 60 + cluster * 2 ^ 21 + p

def isScr (loc : Nat) : Bool := decide (2 ^ 60 ≤ loc)

/-- What a scratchpad byte reads as before anything writes it (R202; before placement log entry 5). -/
def scrDefault (_ : Nat) : Byte := 0

/-- The byte that every agent outside a writing core reads. -/
def State.byte (s : State) (loc : Nat) : Byte :=
  if isScr loc then spGet scrDefault s.scr (loc - 2 ^ 60) else spGet memDefault s.mem loc

def State.setByte (s : State) (loc : Nat) (b : Byte) : State :=
  if isScr loc then { s with scr := spSet scrDefault s.scr (loc - 2 ^ 60) b }
  else { s with mem := spSet memDefault s.mem loc b }

def State.bytes (s : State) (loc : Nat) : Nat → List Byte
  | 0 => []
  | n + 1 => s.byte loc :: s.bytes (loc + 1) n

def State.setBytes (s : State) (loc : Nat) : List Byte → State
  | [] => s
  | b :: bs => (s.setByte loc b).setBytes (loc + 1) bs

/-! ### Host-shared ranges (R400) -/

/-- Start and size of range r. -/
def State.hostRange (s : State) (r : Nat) : Nat × Nat :=
  (s.field (regHsbase r) 16 48 * 2 ^ 16, s.field (regHscfg r) 0 32 * 2 ^ 16)

/-- Range r overlaps another enabled range. -/
def State.hostOverlaps (s : State) (r : Nat) : Bool :=
  (List.range 16).any (fun k => k != r && decide ((s.hostRange k).2 ≠ 0) &&
    decide ((s.hostRange r).1 < (s.hostRange k).1 + (s.hostRange k).2) &&
    decide ((s.hostRange k).1 < (s.hostRange r).1 + (s.hostRange r).2))

/-- A byte of device memory lies in an enabled range that overlaps no other. -/
def State.hostShared (s : State) (loc : Nat) : Bool :=
  (List.range 16).any (fun r => decide ((s.hostRange r).1 ≤ loc) && decide (loc < (s.hostRange r).1 + (s.hostRange r).2)
    && !s.hostOverlaps r)

/-- The directory of the range that holds a byte. -/
def State.hostDir (s : State) (loc : Nat) : Nat :=
  (((List.range 16).find? (fun r => decide ((s.hostRange r).1 ≤ loc) && decide (loc < (s.hostRange r).1 + (s.hostRange r).2))).map
    (fun r => s.field (regHscfg r) 32 12)).getD 0

def lineOf (pa : Nat) : Nat := pa / 128 * 128

/-- What hosts may hold of a line: nothing outside the ranges. -/
def State.hostLevel (s : State) (line : Nat) : Nat :=
  if s.hostShared line then spGet (fun _ => 2) s.fab.hostLines line else 0

/-- The lines that a run of bytes touches. -/
def linesOf (loc len : Nat) : List Nat :=
  if len = 0 then [] else (List.range ((loc + len - 1) / 128 - loc / 128 + 1)).map (fun k => lineOf loc + 128 * k)

/-- The first line of a run of bytes of which a host may hold more than a level. -/
def State.hostHolds (s : State) (level loc len : Nat) : Option Nat :=
  if isScr loc then none else (linesOf loc len).find? (fun l => decide (level < s.hostLevel l))

/-- Ask the directory for a line, once. -/
def State.askLine (s : State) (inval : Bool) (line : Nat) : State :=
  if s.fab.hostAsked.contains (line, inval) then s
  else { s with fab := { s.fab with hostAsked := s.fab.hostAsked ++ [(line, inval)] } }.fabSend s.pod
    (.dirAsk (s.hostDir line) line inval)

/-- Home-agent index of a line (R362): the exclusive or of four fields of its address. -/
def homeIndex (pa : Nat) : Nat :=
  (pa / 2 ^ 7 % 512) ^^^ (pa / 2 ^ 16 % 512) ^^^ (pa / 2 ^ 25 % 512) ^^^ (pa / 2 ^ 34 % 64)

/-! ### The directory (R363, R364) -/

/-- The key of an agent's copy of a line. -/
def dirKey (agent loc : Nat) : Nat := 2 ^ 33 * agent + loc / 128

/-- The copy of an agent. -/
def State.copyOf (s : State) (agent loc : Nat) : Copy := spGet (fun _ => Copy.i) s.dir (dirKey agent loc)

/-- Another agent writes a line: no copy of it stays. -/
def State.dirDrop (s : State) (loc : Nat) : State :=
  if isScr loc then s else { s with dir := s.dir.filter (fun q => q.1 % 2 ^ 33 != loc / 128) }

/-- A copy changes state. -/
def State.dirSet (s : State) (agent loc : Nat) (c : Copy) : State :=
  if isScr loc then s else { s with dir := spSet (fun _ => Copy.i) s.dir (dirKey agent loc) c }

/-- An agent reads a line: a copy in M elsewhere goes to S. -/
def State.dirRead (s : State) (agent loc : Nat) : State :=
  if isScr loc || s.copyOf agent loc != .i then s
  else
    { s with dir := s.dir.map (fun (q : Nat × Copy) => if q.1 % 2 ^ 33 = loc / 128 then (q.1, Copy.s) else q) }.dirSet agent
      loc .s

/-- A read at the home for an agent that holds no copy: a copy in M is written back and goes to S (R364). -/
def State.homeRead (s : State) (loc : Nat) : State :=
  { s with dir := s.dir.map (fun (q : Nat × Copy) => if q.1 % 2 ^ 33 = loc / 128 then (q.1, Copy.s) else q) }

/-- The home is read at a run of bytes. -/
def State.homeReads (s : State) (loc len : Nat) : State :=
  if isScr loc then s else (linesOf loc len).foldl (fun s l => s.homeRead l) s

/-- A device agent's write. -/
def State.put (s : State) (loc : Nat) (bs : List Byte) : State :=
  ((s.setBytes loc bs).dirDrop loc).dirDrop (loc + bs.length - 1)

/-- Two runs of bytes meet; an empty run meets nothing. -/
def overlaps (a n b m : Nat) : Bool := decide (a < b + m) && decide (b < a + n) && n != 0 && m != 0

/-! ### Pieces (R305) -/

/-- The length of the piece that begins at an address with `rem` bytes to go. -/
def pieceLen (a rem : Nat) : Nat :=
  let r := min rem (8 - a % 8)
  if 8 ≤ r ∧ a % 8 = 0 then 8
  else if 4 ≤ r ∧ a % 4 = 0 then 4
  else if 2 ≤ r ∧ a % 2 = 0 then 2
  else 1

/-- The pieces of an access: offset and length. -/
def piecesFrom (a : Nat) : Nat → Nat → Nat → List (Nat × Nat)
  | 0, _, _ => []
  | fuel + 1, off, rem =>
    if rem = 0 then []
    else (off, pieceLen (a + off) rem) :: piecesFrom a fuel (off + pieceLen (a + off) rem) (rem - pieceLen (a + off) rem)

def piecesOf (a len : Nat) (whole : Bool) : List (Nat × Nat) :=
  if whole then [(0, len)] else piecesFrom a len 0 len

/-! ### Translation -/

/-- Bits [63:57] equal bit 56 (R201). -/
def canonical (va : DWord) : Bool := va.toNat / 2 ^ 56 == 0 || va.toNat / 2 ^ 56 == 255

/-- What an access needs of a leaf (R372) and the access of its page request (R340). -/
structure Need where
  r : Bool
  w : Bool
  x : Bool
  kind : AccKind
  deriving DecidableEq, Repr, Inhabited

def needR : Need := ⟨true, false, false, .read⟩
def needW : Need := ⟨false, true, false, .write⟩
def needRW : Need := ⟨true, true, false, .write⟩
def needX : Need := ⟨false, false, true, .exec⟩
/-- CLEAN and INVAL translate like a load (R217) and need both permissions (R372). -/
def needLine : Need := ⟨true, true, false, .read⟩

/-- Where a translated byte lies (R361, R393), with its attribute in this package. -/
inductive Site where
  | here (pa : Nat) (attr : Attr)
  | pkg (e off : Nat)
  | host (e off : Nat)
  deriving DecidableEq, Repr, Inhabited

/-- A translation: a site, or the cause and reason of R338. -/
inductive Xl where
  | ok (at_ : Site)
  | bad (cause reason : Nat)
  deriving DecidableEq, Repr, Inhabited

/-- A 56-bit physical address as this package decodes it (R361): device memory at an offset, a register, an endpoint, or
the unpopulated range. -/
inductive PaKind where
  | dev (off : Nat)
  | reg (off : Nat)
  | far (e off : Nat)
  | empty
  deriving DecidableEq, Repr, Inhabited

/-- DESIGN CHOICE (log entry 17): an offset of 768 GiB or more at this package's own endpoint number is unpopulated. -/
def State.paKind (s : State) (pa : Nat) : PaKind :=
  if 0x80000000000000 ≤ pa then
    let e := pa / 2 ^ 43 % 4096
    let off := pa % 2 ^ 43
    if e = s.pkg then (if off < devSize then .dev off else .empty) else .far e off
  else if hubBase ≤ pa then .reg (pa - hubBase)
  else if pa < devSize then .dev pa
  else .empty

/-- A page-table entry as the walker reads it. Host tables are read through Config (log entry 9). DESIGN CHOICE (log entry
17): an entry at another package, in register space or in the unpopulated range reads as 0, and so is invalid. -/
def State.readPte (s : State) (pa : Nat) : DWord :=
  match s.paKind pa with
  | .dev off => BitVec.ofNat 64 (leNat (s.bytes off 8))
  | .far e _ =>
    if s.endpointKind e = 2 then
      BitVec.ofNat 64 (leNat ((List.range 8).map (fun k => Config.hostByte s.turn (pa + k))))
    else 0
  | _ => 0

def pteBit (p : DWord) (i : Nat) : Bool := p.getLsbD i
def ptePpn (p : DWord) : Nat := p.toNat / 2 ^ 10 % 2 ^ 44

/-- The physical address that a leaf at a level gives. -/
def leafPa (p : DWord) (level va : Nat) : Nat :=
  (ptePpn p / 2 ^ (9 * level)) * 2 ^ (12 + 9 * level) + va % 2 ^ (12 + 9 * level)

/-- An invalid PTE (R371), before the checks on a leaf's address. -/
def pteInvalid (p : DWord) : Bool :=
  !pteBit p 0 || (pteBit p 2 && !pteBit p 1) || p.toNat / 2 ^ 54 % 128 != 0 || pteBit p 63
    || p.toNat / 2 ^ 61 % 4 == 3

def pteLeaf (p : DWord) : Bool := pteBit p 1 || pteBit p 3

/-- A leaf that R371 makes invalid. -/
def leafInvalid (s : State) (p : DWord) (level va : Nat) : Bool :=
  level == 4 || ptePpn p % 2 ^ (9 * level) != 0 || s.paKind (leafPa p level va) == .empty

/-- MODE, ASID and root of a tenant (R370). -/
def State.xlMode (s : State) (t : Nat) : Nat := s.field (regTctx t) 60 4
def State.asid (s : State) (t : Nat) : Nat := s.field (regTctx t) 44 16
def State.rootPpn (s : State) (t : Nat) : Nat := s.field (regTctx t) 0 44

/-- The non-leaf entry that a walk takes from the hub's walk caches, if they keep one and the free value takes it (R374). -/
def State.nodeKept (s : State) (t va level a : Nat) : Option TlbEntry :=
  s.tlb.find? (fun e => !e.leaf && !pteLeaf e.pte && e.level == level && (e.glob || e.asid.toNat == s.asid t) &&
    e.vpn / 2 ^ (9 * level) == va / 2 ^ 12 % 2 ^ 45 / 2 ^ (9 * level) && Config.useCachedWalk s.turn a e.pte)

/-- A page-table entry read in a walk. -/
def State.nodePte (s : State) (t va level a : Nat) : DWord :=
  match s.nodeKept t va level a with
  | some e => e.pte
  | none => s.readPte a

/-- The walk: the leaf, its level and its own address; `none` is an invalid PTE. -/
def State.walkFrom (s : State) (t va : Nat) : Nat → Nat → Option (DWord × Nat × Nat)
  | 0, ppn =>
    let a := ppn * 4096 + va / 2 ^ 12 % 512 * 8
    let p := s.readPte a
    if pteInvalid p || !pteLeaf p || leafInvalid s p 0 va then none else some (p, 0, a)
  | level + 1, ppn =>
    let a := ppn * 4096 + va / 2 ^ (12 + 9 * (level + 1)) % 512 * 8
    let p := s.nodePte t va (level + 1) a
    if pteInvalid p then none
    else if pteLeaf p then
      if leafInvalid s p (level + 1) va then none else some (p, level + 1, a)
    else s.walkFrom t va level (ptePpn p)

/-- What reading an entry waits for: the write-back of a copy that a host has modified (R400). -/
def State.pteWait (s : State) (a : Nat) : Option WaitOn :=
  match s.paKind a with
  | .dev off => (s.hostHolds 1 off 8).map (WaitOn.host false)
  | _ => none

/-- What a walk waits for at its first entry that has to be waited for. -/
def State.walkWait (s : State) (t va : Nat) : Nat → Nat → Option WaitOn
  | 0, ppn => s.pteWait (ppn * 4096 + va / 2 ^ 12 % 512 * 8)
  | level + 1, ppn =>
    let a := ppn * 4096 + va / 2 ^ (12 + 9 * (level + 1)) % 512 * 8
    match (if (s.nodeKept t va (level + 1) a).isSome then none else s.pteWait a) with
    | some w => some w
    | none =>
      let p := s.nodePte t va (level + 1) a
      if pteInvalid p || pteLeaf p then none else s.walkWait t va level (ptePpn p)

/-- The walk of a tenant's tables (R370, R371). -/
def State.walk (s : State) (t va : Nat) : Option (DWord × Nat × Nat) := s.walkFrom t va 4 (s.rootPpn t)

/-- The non-leaf entries on the way of a walk, with their levels and addresses. -/
def State.walkNodes (s : State) (t va : Nat) : Nat → Nat → List (Nat × DWord × Nat)
  | 0, _ => []
  | level + 1, ppn =>
    let a := ppn * 4096 + va / 2 ^ (12 + 9 * (level + 1)) % 512 * 8
    let p := s.nodePte t va (level + 1) a
    if pteInvalid p || pteLeaf p then [] else (level + 1, p, a) :: s.walkNodes t va level (ptePpn p)

/-- The hub's translations, in the numbering of `TlbEntry.agent`. -/
def hubTlb : Nat := 192

/-- The cached translation of a page that an access takes, if the free value, which does not look at A and D, has it take
one (R374). -/
def State.cached (s : State) (agent t va : Nat) : Option TlbEntry :=
  s.tlb.find? (fun e => e.leaf && e.agent == agent && (e.glob || e.asid.toNat == s.asid t) &&
    e.vpn / 2 ^ (9 * e.level) == va / 2 ^ 12 % 2 ^ 45 / 2 ^ (9 * e.level) &&
    Config.useCachedPte s.turn (va / 4096) (e.pte &&& ~~~0xC0))

/-- The entry of an access with A set, and D for a write (R373). -/
def markedPte (write : Bool) (p : DWord) : DWord := p ||| 0x40 ||| (if write && pteBit p 2 then 0x80 else 0)

/-- The leaf that an access uses, its level and its own address: a cached one, or that of a walk. A cached one that needs A
or D set takes the walker's compare-and-swap; where that fails the walker walks again (R373). -/
def State.leafUsed (s : State) (agent t : Nat) (write : Bool) (va : Nat) : Option (DWord × Nat × Nat) :=
  match s.cached agent t va with
  | none => s.walk t va
  | some e =>
    if markedPte write e.pte ≠ e.pte ∧ s.readPte e.at_ ≠ e.pte then s.walk t va else some (e.pte, e.level, e.at_)

/-- What the translation of an access waits for (R400). -/
def State.leafWait (s : State) (agent t : Nat) (write : Bool) (va : Nat) : Option WaitOn :=
  match s.cached agent t va with
  | none => s.walkWait t va 4 (s.rootPpn t)
  | some e =>
    if markedPte write e.pte = e.pte then none
    else (s.pteWait e.at_).orElse (fun _ => if s.readPte e.at_ = e.pte then none else s.walkWait t va 4 (s.rootPpn t))

/-- The leaf of a hub access. -/
def State.leafFor (s : State) (t va : Nat) : Option (DWord × Nat) :=
  (s.leafUsed hubTlb t false va).map (fun w => (w.1, w.2.1))

/-- A frame of the page-fail table (R366). -/
def State.frameFailed (s : State) (off : Nat) : Bool := s.pageFail.contains (off / 4096)

/-- The permission check of R372: reason 0 read, 1 write, 4 execute. -/
def permits (p : DWord) (n : Need) : Option Nat :=
  if !pteBit p 4 then some (if n.x then 4 else if n.w then 1 else 0)
  else if n.r && !pteBit p 1 then some 0
  else if n.w && !pteBit p 2 then some 1
  else if n.x && !pteBit p 3 then some 4
  else none

/-- The attribute that a leaf gives (R372). -/
def leafAttr (p : DWord) : Attr :=
  if p.toNat / 2 ^ 61 % 4 != 0 then .nc else if pteBit p 8 then .lcl else .wb

/-- What an access has for its location while its translation waits: it is held until then, and nothing is read or written
there. -/
def nowhere : Nat := 2 ^ 61

/-- Translate one byte of a tenant through the TLBs of an agent (R201, R366, R370 to R374, R393). -/
def State.xlateBy (s : State) (agent t : Nat) (n : Need) (va : DWord) : Xl :=
  if !canonical va then .bad 0x0C 1
  else if s.xlMode t != 10 then .bad 0x0C 2
  else if (s.leafWait agent t n.w va.toNat).isSome then .ok (.here nowhere .nc)
  else
    match s.leafUsed agent t n.w va.toNat with
    | none => .bad 0x0C 0
    | some (p, level, _) =>
      let k := s.paKind (leafPa p level va.toNat)
      let gone := match k with
        | .far e _ => s.endpointKind e == 0
        | _ => false
      let failed := match k with
        | .dev off => s.frameFailed off
        | _ => false
      if failed then .bad 0x0C 3
      else if gone then .bad 0x0C 2
      else
        match permits p n with
        | some r => .bad 0x08 r
        | none =>
          match k with
          | .dev off => .ok (.here off (leafAttr p))
          | .far e off => if s.endpointKind e = 2 then .ok (.host e off) else .ok (.pkg e off)
          | _ => .bad 0x08 (if n.x then 5 else if n.w then 1 else 0)

/-- Translate for the hub. -/
def State.xlate (s : State) (t : Nat) (n : Need) (va : DWord) : Xl := s.xlateBy hubTlb t n va

/-- The TLBs of a group's core. -/
def State.tlbOf (s : State) (g : Nat) : Nat := clusterOf (s.group g).core

/-- Translate for a group; service code translates through the firmware's mapping (R356). -/
def State.xlateFor (s : State) (g : Nat) (n : Need) (va : DWord) : Xl :=
  if isService g then
    match Config.servicePage (va.toNat / 4096) with
    | some p => if p * 4096 < devSize then .ok (.here (p * 4096 + va.toNat % 4096) .wb) else .bad 0x0C 0
    | none => .bad 0x0C 0
  else s.xlateBy (s.tlbOf g) (s.group g).tenant n va

/-- The walker's compare-and-swap of a leaf that still stands as it was read: in device memory, or sent to the host whose
tables hold it. What a host's memory reads as is free, and stands for the read whose compare-and-swap succeeds (log entry
9). -/
def State.setPte (s : State) (a : Nat) (p p' : DWord) : State :=
  if p' = p then s
  else match s.paKind a with
    | .dev off => s.put off (leBytes 8 p'.toNat)
    | .far e off => if s.endpointKind e = 2 then s.fabSend s.pod (.hostCas e off p p') else s
    | _ => s

/-- The hub has read bytes at a physical address (R363). -/
def State.hubSeen (s : State) (pa len : Nat) : State :=
  match s.paKind pa with
  | .dev off => s.homeReads off len
  | _ => s

/-- What an access leaves in an agent's TLBs and in the hub's walk caches (R374); the walker has read the entries. -/
def State.keepWalk (s : State) (agent t va : Nat) (leaf : DWord × Nat × Nat) : State :=
  let asid := BitVec.ofNat 16 (s.asid t)
  let vpn := va / 2 ^ 12 % 2 ^ 45
  let nodes := (s.walkNodes t va 4 (s.rootPpn t)).map (fun n =>
    (⟨false, hubTlb, asid, pteBit n.2.1 5, vpn / 2 ^ (9 * n.1) * 2 ^ (9 * n.1), n.1, n.2.1, n.2.2⟩ : TlbEntry))
  let e : TlbEntry := ⟨true, agent, asid, pteBit leaf.1 5, vpn / 2 ^ (9 * leaf.2.1) * 2 ^ (9 * leaf.2.1), leaf.2.1, leaf.1,
    leaf.2.2⟩
  (nodes ++ [e]).foldl (fun s n => s.hubSeen n.at_ 8)
    { s with tlb := (nodes ++ [e]).foldl (fun l n => if l.contains n then l else l ++ [n]) s.tlb }

/-- An agent's cached leaf takes the marks that the walker has set. -/
def TlbEntry.marked (agent a : Nat) (p p' : DWord) (e : TlbEntry) : TlbEntry :=
  if e.leaf && e.agent == agent && e.at_ == a && e.pte == p then { e with pte := p' } else e

/-- Before an access performs, the walker sets A, and D for a write (R373), and the translation is cached. -/
def State.markUsedBy (s : State) (agent t : Nat) (write : Bool) (va : DWord) : State :=
  match s.leafUsed agent t write va.toNat with
  | none => s
  | some (p, level, a) =>
    let p' := markedPte write p
    let s := s.setPte a p p'
    { s with tlb := s.tlb.map (TlbEntry.marked agent a p p') }.keepWalk agent t va.toNat (p', level, a)

/-- The same for a hub access. -/
def State.markUsed (s : State) (t : Nat) (write : Bool) (va : DWord) : State := s.markUsedBy hubTlb t write va

/-- Mark every page that a run of bytes touches. -/
def State.markRange (s : State) (g : Nat) (write : Bool) (va : DWord) (len : Nat) : State :=
  if isService g then s
  else
    let s := s.markUsedBy (s.tlbOf g) (s.group g).tenant write va
    let last := va + BitVec.ofNat 64 (len - 1)
    if va.toNat / 4096 = last.toNat / 4096 then s else s.markUsedBy (s.tlbOf g) (s.group g).tenant write last

/-! ### Snapshot copy bits (R379, R383) -/

def State.copyBit (s : State) (page : Nat) : Bool := spGet (fun _ => false) s.snap.copyBit page

/-- What a write of device memory must wait for, if anything: the copy of a snapshot page (R383), or the answer of a
host-shared range's directory (R400). -/
def State.writeWaits (s : State) (loc len : Nat) : Option WaitOn :=
  if isScr loc then none
  else if s.copyBit (loc / 2 ^ 16) then some (.copy (loc / 2 ^ 16))
  else if s.copyBit ((loc + len - 1) / 2 ^ 16) then some (.copy ((loc + len - 1) / 2 ^ 16))
  else (s.hostHolds 0 loc len).map (WaitOn.host true)

/-- What a read of device memory must wait for, if anything (R400). -/
def State.readWaits (s : State) (loc len : Nat) : Option WaitOn := (s.hostHolds 1 loc len).map (WaitOn.host false)

/-- Hub accesses to a physical address that system software names (R357, R377, R408): outside device memory a write
stores nothing and a byte read is free (log entry 17). -/
def State.hubPut (s : State) (pa : Nat) (bs : List Byte) : State :=
  match s.paKind pa with
  | .dev off => if off + bs.length ≤ devSize then s.put off bs else s
  | _ => s
def State.hubByte (s : State) (pa : Nat) : Byte :=
  match s.paKind pa with
  | .dev off => s.byte off
  | _ => Config.voidByte s.turn pa
def State.hubBytes (s : State) (pa n : Nat) : List Byte := (List.range n).map (fun k => s.hubByte (pa + k))

/-- What such a write waits for (R383, R400). -/
def State.hubWaits (s : State) (pa len : Nat) : Option WaitOn :=
  match s.paKind pa with
  | .dev off => s.writeWaits off len
  | _ => none

/-- What such a read waits for (R400). -/
def State.hubReadWaits (s : State) (pa len : Nat) : Option WaitOn :=
  match s.paKind pa with
  | .dev off => s.readWaits off len
  | _ => none

/-- A write waits for the copy of a page (R383). -/
def State.askCopy (s : State) (page : Nat) : State :=
  if s.snap.asked.contains page then s else { s with snap := { s.snap with asked := s.snap.asked ++ [page] } }

/-- Ask for what an access waits for. -/
def State.askFor (s : State) : Option WaitOn → State
  | some (.host inval line) => s.askLine inval line
  | some (.copy page) => s.askCopy page
  | none => s

/-- The hold of a run that waits so. -/
def WaitOn.hold : WaitOn → Hold
  | .copy page => .snapshotCopy page
  | .host inval line => .hostLine inval line

/-- What the translation of an access of a tenant and the setting of A and D wait for (R373, R383, R400). -/
def State.markWaitsBy (s : State) (agent t : Nat) (write : Bool) (va : DWord) : Option WaitOn :=
  if !canonical va || s.xlMode t != 10 then none
  else (s.leafWait agent t write va.toNat).orElse (fun _ => match s.leafUsed agent t write va.toNat with
    | none => none
    | some (p, _, a) => if markedPte write p = p then none else s.hubWaits a 8)

/-- The same for the hub and for a group. -/
def State.tenantMarkWaits (s : State) (t : Nat) (write : Bool) (va : DWord) : Option WaitOn := s.markWaitsBy hubTlb t write va

def State.markWaits (s : State) (g : Nat) (write : Bool) (va : DWord) : Option WaitOn :=
  if isService g then none else s.markWaitsBy (s.tlbOf g) (s.group g).tenant write va

/-! ### L1 and local lines (R205, R206) -/

/-- The L1 of a core's cluster is fused (R205). -/
def State.isFused (s : State) (core : Nat) : Bool := spGet (fun _ => false) s.sched.fused (clusterOf core)

/-- The directory's number for a core's L1, or for its cluster's fused L1 (R364). -/
def State.l1Agent (s : State) (core : Nat) : Nat := if s.isFused core then clusterOf core * 4 else core

/-- The core whose L1 holds a line for a core: with fused L1 the member that PA[8:7] chooses (R205). -/
def State.l1Owner (s : State) (core pa : Nat) : Nat := if s.isFused core then clusterOf core * 4 + pa / 128 % 4 else core

/-- The members of a core's L1. -/
def State.l1s (s : State) (core : Nat) : List Nat :=
  if s.isFused core then (List.range 4).map (fun k => clusterOf core * 4 + k) else [core]

/-- Dirty bytes of the local lines of an L1 that a predicate selects. -/
def State.dirtyBytes (s : State) (o : Nat) (f : Nat → Bool) : List (Nat × Byte) :=
  ((s.core o).lines.filter (fun q => q.2.2 && f q.1)).map (fun q => (q.1, q.2.1))

/-- What writing back waits for, if anything. -/
def State.writebackWaits (s : State) (o : Nat) (f : Nat → Bool) : Option WaitOn :=
  (s.dirtyBytes o f).findSome? (fun q => s.writeWaits q.1 1)

/-- Write back the selected dirty bytes; the lines are kept clean. -/
def State.writeback (s : State) (o : Nat) (f : Nat → Bool) : State :=
  let s' := (s.dirtyBytes o f).foldl (fun s q => s.put q.1 [q.2]) s
  s'.modCore o (fun c => { c with lines := c.lines.map (fun q => if f q.1 then (q.1, (q.2.1, false)) else q) })

/-- Discard the selected local lines. -/
def State.discardLines (s : State) (o : Nat) (f : Nat → Bool) : State :=
  s.modCore o (fun c => { c with lines := c.lines.filter (fun q => !f q.1) })

/-- The same for the whole L1 of a core, its fused members included. -/
def State.l1Waits (s : State) (core : Nat) (f : Nat → Bool) : Option WaitOn :=
  (s.l1s core).findSome? (fun o => s.writebackWaits o f)

def State.writebackL1 (s : State) (core : Nat) (f : Nat → Bool) : State :=
  (s.l1s core).foldl (fun s o => s.writeback o f) s

def State.discardL1 (s : State) (core : Nat) (f : Nat → Bool) : State :=
  (s.l1s core).foldl (fun s o => s.discardLines o f) s

/-- A location lies in a line, given by its number. -/
def inLine (line loc : Nat) : Bool := !isScr loc && loc / 128 == line

/-! ### The core's order (R301 to R304) -/

/-- Two cores within a scope of each other (R35). -/
def inScope (scope a b : Nat) : Bool :=
  if scope = 0 then a == b else if scope = 1 then clusterOf a == clusterOf b
  else if scope = 2 then dieOf a == dieOf b else true

/-- Bytes that an entry of the core's order writes. -/
def PendWrite.len (w : PendWrite) : Nat :=
  match w.act with
  | .bytes bs => bs.length
  | .atom _ _ _ _ => 4
  | _ => 0

/-- The bytes of a store's piece; none of an atomic. -/
def PendWrite.bytes (w : PendWrite) : List Byte :=
  match w.act with
  | .bytes bs => bs
  | _ => []

/-- It writes some byte of a run. -/
def PendWrite.meets (w : PendWrite) (loc len : Nat) : Bool := overlaps w.addr w.len loc len

/-- The byte of a pending store at a location, if it covers it. -/
def PendWrite.byteAt (w : PendWrite) (loc : Nat) : Option Byte :=
  if w.addr ≤ loc then w.bytes[loc - w.addr]? else none

/-- The member scratchpad of a window location (R203). -/
def scrMember (loc : Nat) : Nat := loc / 128 % 4

/-- The scratchpad of a core's own member (R302). -/
def ownScr (core loc : Nat) : Bool := isScr loc && scrMember loc == core % 4

/-- Writes to a location take part in the core's order (R302). -/
def inOrder (core loc : Nat) : Bool := !isScr loc || scrMember loc == core % 4

/-- A fence of its own thread stands before a write (R307). -/
def State.behindFence (s : State) (w : PendWrite) : Bool :=
  (s.thread w.thread).fences.any (fun f => f.kind != .cp && decide (f.seq ≤ w.seq))

/-- Both reach one location through the same mapping: a local line, or the home (R378). -/
def sameWay (loc : Nat) (a b : Attr) : Bool := isScr loc || (a == .lcl) == (b == .lcl)

/-- A pending write that a thread's read of a location at a place may return: its own, and others' of its core in the
core's order (R302, R303). -/
def State.sees (core tk before loc : Nat) (attr : Attr) (w : PendWrite) : Bool :=
  decide (w.seq < before) && sameWay loc w.attr attr && (w.thread == tk || inOrder core loc)

/-- A write issued before a read of its core that has not performed at core scope, so that the read waits for it (R301,
R302): an atomic, a write to the core's own member scratchpad, and of other threads a write into a local line or one that a
fence stands before. -/
def State.blocksRead (s : State) (core tk before loc len : Nat) (attr : Attr) (w : PendWrite) : Bool :=
  decide (w.seq < before) && w.meets loc len && sameWay loc w.attr attr &&
  (match w.act with
   | .atom _ _ _ _ => w.thread == tk || inOrder core loc
   | _ => ownScr core loc || (w.thread != tk && inOrder core loc && (w.attr == .lcl || s.behindFence w)))

/-- The byte of a write of another core that has performed at a scope that holds this core, and not yet wider (R304). -/
def State.outerByte (s : State) (core loc : Nat) : Option Byte :=
  s.cores.findSome? (fun c => if c.1 = core then none else c.2.writes.findSome? (fun w =>
    if w.level ≠ 0 ∧ inScope w.level c.1 core = true then w.byteAt loc else none))

/-- The byte that an agent of a core reads at the home: what every agent reads, or such a write. -/
def State.viewByte (s : State) (core loc : Nat) : Byte := (s.outerByte core loc).getD (s.byte loc)

/-- A byte of a local line. -/
def State.localByte (s : State) (core pa : Nat) : Byte :=
  match spFind (s.core (s.l1Owner core pa)).lines pa with
  | some (b, _) => b
  | none => s.viewByte core pa

/-- The byte that a thread of a core reads through an attribute: the last write of the core's order issued before place
`before`, else the local line for the local attribute (R378), else what stands at the home. -/
def State.readByte (s : State) (attr : Attr) (core tk before : Nat) (loc : Nat) : Byte :=
  let hit := (s.core core).writes.foldl
    (fun acc w => if State.sees core tk before loc attr w then (w.byteAt loc).orElse (fun _ => acc) else acc) none
  match hit with
  | some b => b
  | none => if !isScr loc && attr == .lcl then s.localByte core loc else s.viewByte core loc

/-- Bytes that a thread's access reads in its issue step, after everything issued before it. -/
def State.readRun (s : State) (attr : Attr) (core tk loc len : Nat) : List Byte :=
  (List.range len).map (fun k => s.readByte attr core tk (s.core core).seq (loc + k))

/-- The byte that a core fetches (R427): the last write of the core's order, a dirty byte of a local line, or the home. -/
def State.fetchedByte (s : State) (core loc : Nat) : Byte :=
  let hit := (s.core core).writes.foldl (fun acc w => (w.byteAt loc).orElse (fun _ => acc)) none
  match hit with
  | some b => b
  | none =>
    match spFind (s.core (s.l1Owner core loc)).lines loc with
    | some (b, true) => b
    | _ => s.viewByte core loc

/-! ### Virtual accesses of the hub and the Windlass -/

/-- Read bytes through a tenant's translation, each byte where it translates; `none` when some byte fails or lies
outside this package. -/
def State.readVa (s : State) (t : Nat) (n : Need) (va : DWord) : Nat → Except (Nat × DWord) (List Byte)
  | 0 => .ok []
  | len + 1 =>
    match s.xlate t n va with
    | .ok (.here pa _) =>
      match s.readVa t n (va + 1) len with
      | .ok bs => .ok (s.byte pa :: bs)
      | .error e => .error e
    | .ok _ => .error (0x0B, va)
    | .bad c r => .error (c * 256 + r, va)

/-- The locations of a run of virtual bytes. -/
def State.locsVa (s : State) (t : Nat) (n : Need) (va : DWord) : Nat → Except (Nat × DWord) (List Nat)
  | 0 => .ok []
  | len + 1 =>
    match s.xlate t n va with
    | .ok (.here pa _) =>
      match s.locsVa t n (va + 1) len with
      | .ok ls => .ok (pa :: ls)
      | .error e => .error e
    | .ok _ => .error (0x0B, va)
    | .bad c r => .error (c * 256 + r, va)

/-- The hub has read the bytes of a virtual run (R363). -/
def State.sawVa (s : State) (t : Nat) (n : Need) (va : DWord) (len : Nat) : State :=
  match s.locsVa t n va len with
  | .ok ls => ((ls.map lineOf).eraseDups).foldl (fun s l => s.homeRead l) s
  | .error _ => s

/-- The code of a not-present failure in the answers above. -/
def notPresent : Nat := 0x0C * 256

/-- Write bytes at locations. -/
def State.pokeAll (s : State) (ls : List Nat) (bs : List Byte) : State :=
  (ls.zip bs).foldl (fun s q => s.setByte q.1 q.2) s

end Sys2Proof.Machine
end

