-- ==== Sys2Proof/Machine/Owner.lean ====
section
/-! DEFINITION. The accesses of engine commands and the lines that Siphon commands own: what a captured copy touches (10 R239
to R245), the bytes that a command reads (R312), and ownership (R311). -/

namespace Sys2Proof.Machine

/-! ### Scratchpad and page portions (R202, R306) -/

/-- The location of a scratchpad offset of a group's gang; `none` outside the valid offsets. -/
def Group.scrAt (g : Group) (cluster a : Nat) : Option Nat :=
  if a < g.scrHalf then some (scrLoc cluster (a + g.scrBase0))
  else if 2 ^ 20 ≤ a ∧ a < 2 ^ 20 + g.scrHalf then some (scrLoc cluster (a + g.scrBase1))
  else Option.none

/-- The parts of an access on each side of a 4 KiB boundary: offset and length. -/
def portions (ea : DWord) (len : Nat) : List (Nat × Nat) :=
  let room := 4096 - ea.toNat % 4096
  if len ≤ room then [(0, len)] else [(0, room), (room, len - room)]

/-! ### Engine accesses (R245) -/

/-- Where the bytes of an access lie, or why it cannot proceed. -/
inductive Eng where
  /-- Offset within the access, length, location, attribute. -/
  | ok (segs : List (Nat × Nat × Nat × Attr))
  | stop (status : Nat) (addr : DWord)
  /-- A page that is not present. -/
  | miss (addr : DWord)
  deriving DecidableEq, Repr, Inhabited

/-- One part of a global access. -/
def State.engPart (s : State) (c : Cmd) (n : Need) (va : DWord) (p : Nat × Nat) : Eng :=
  match s.xlateBy (s.tlbOf c.group) (s.group c.group).tenant n (va + BitVec.ofNat 64 p.1) with
  | .ok (.here pa attr) => .ok [(p.1, p.2, pa, attr)]
  | .ok _ => .stop 0x0B (va + BitVec.ofNat 64 p.1)
  | .bad k r =>
    if k = 0x08 then .stop 0x03 (va + BitVec.ofNat 64 p.1)
    else if r = 0 then .miss (va + BitVec.ofNat 64 p.1)
    else .stop 0x02 (va + BitVec.ofNat 64 p.1)

/-- Join two parts: the first that fails decides. -/
def Eng.join (a b : Eng) : Eng :=
  match a, b with
  | .ok x, .ok y => .ok (x ++ y)
  | .ok _, e => e
  | e, _ => e

/-- An access of an engine command. -/
def State.engAccess (s : State) (c : Cmd) (scr : Bool) (n : Need) (va : DWord) (len : Nat) : Eng :=
  if len = 0 then .ok []
  else if scr then
    let ls := (List.range len).map (fun k =>
      (s.group c.group).scrAt (clusterOf c.core) (va + BitVec.ofNat 64 k).toNat)
    match ls.findIdx? (fun l => l.isNone) with
    | some k => .stop 0x04 (va + BitVec.ofNat 64 k)
    | none => .ok ((((List.range len).zip ls).filterMap (fun q => q.2.map (fun loc => (q.1, 1, loc, .nc)))))
  else ((portions va len).map (s.engPart c n va)).foldl Eng.join (.ok [])

/-- A byte as a command reads it (R312): what stands at the scope of its bundle, or a later write of its own group that was
issued before its bundle. The free value chooses for each unit. -/
def State.copyByte (s : State) (c : Cmd) (attr : Attr) (loc : Nat) : Byte :=
  let free := Config.copySees s.turn (loc / 8)
  let stands := fun (w : PendWrite) =>
    (c.scope == 0 && inOrder c.core loc && !s.behindFence w) || (w.level != 0 && decide (c.scope ≤ w.level))
  let hit := (s.core c.core).writes.foldl (fun acc w =>
    if sameWay loc w.attr attr ∧ (stands w ∨ (free ∧ w.seq < c.place ∧ groupOfThread w.thread = c.group)) then
      (w.byteAt loc).orElse (fun _ => acc) else acc) none
  match hit with
  | some b => b
  | none => if !isScr loc && attr == .lcl && (c.scope == 0 || free) then s.localByte c.core loc else s.viewByte c.core loc

/-- A byte of a command's source: of the unit as it was read, or as it is read now. -/
def State.unitByte (s : State) (c : Cmd) (attr : Attr) (loc : Nat) : Byte :=
  match spFind c.units (loc / 8) with
  | some bs => bs.getD (loc % 8) 0
  | none => s.copyByte c attr loc

/-- The bytes of an access that can proceed, in address order. -/
def State.engRead (s : State) (c : Cmd) : Eng → List Byte
  | .ok segs => segs.flatMap (fun g => (List.range g.2.1).map (fun k => s.unitByte c g.2.2.2 (g.2.2.1 + k)))
  | _ => []

/-! ### The captured shape (R239, R243) -/

def Cmd.fieldAt (c : Cmd) (f : Nat) : DWord := c.shape.getD f 0
/-- A signed 48-bit field. -/
def Cmd.signed (c : Cmd) (f : Nat) : DWord := ((c.fieldAt f).truncate 48).signExtend 64
def Cmd.cnt (c : Cmd) (k : Nat) : Nat := (c.fieldAt (1 + k)).toNat
def Cmd.esz (c : Cmd) : Nat := (c.fieldAt 0).toNat / 4 % 8
def Cmd.esize (c : Cmd) : Nat := 2 ^ c.esz
def Cmd.dsp (c : Cmd) : Bool := (c.fieldAt 0).getLsbD 1
def Cmd.ssp (c : Cmd) : Bool := (c.fieldAt 0).getLsbD 0
def Cmd.total (c : Cmd) : Nat := c.cnt 0 * c.cnt 1 * c.cnt 2 * c.cnt 3
/-- Bytes of a row (R246). -/
def Cmd.rowBytes (c : Cmd) : Nat := c.cnt 0 * c.esize
def Cmd.scatter (c : Cmd) : Bool := (c.fieldAt 17).getLsbD 0
/-- A gather copy under XFORM 3 reads no index word. -/
def Cmd.usesIndex (c : Cmd) : Bool := c.op == .copyx && (c.xform != 3 || c.scatter)

/-- Indices of element L, innermost first. -/
def Cmd.idx (c : Cmd) (l : Nat) : Nat × Nat × Nat × Nat :=
  (l % c.cnt 0, l / c.cnt 0 % c.cnt 1, l / (c.cnt 0 * c.cnt 1) % c.cnt 2, l / (c.cnt 0 * c.cnt 1 * c.cnt 2))

/-- n times a stride. -/
def times (n : Nat) (v : DWord) : DWord := BitVec.ofNat 64 n * v

/-- Source and destination addresses of an element; `ix` is its index word. -/
def Cmd.srcAddr (c : Cmd) (l ix : Nat) : DWord :=
  let i := c.idx l
  let d1 := if c.op == .copyx && !c.scatter then ix else i.2.1
  c.xs + times i.1 (c.signed 5) + times d1 (c.signed 6) + times i.2.2.1 (c.signed 7) + times i.2.2.2 (c.signed 8)
def Cmd.dstAddr (c : Cmd) (l ix : Nat) : DWord :=
  let i := c.idx l
  let d1 := if c.op == .copyx && c.scatter then ix else i.2.1
  c.xd + times i.1 (c.signed 9) + times d1 (c.signed 10) + times i.2.2.1 (c.signed 11) + times i.2.2.2 (c.signed 12)

/-- Bytes of element L that the copy reads from its source: none under XFORM 3, none of a sealed trailer. -/
def Cmd.readLen (c : Cmd) (l : Nat) : Nat :=
  if c.xform = 3 then 0
  else if c.xform = 2 then min c.esize (c.rowBytes - 8 - (c.idx l).1 * c.esize)
  else c.esize

/-- The checks of R244: the status of the first that fails. -/
def Cmd.shapeFault (c : Cmd) : Option Nat :=
  let a := min c.esize 8
  let src := c.xs :: (((List.range 4).filter (fun k => decide (1 < c.cnt k))).map (fun k => c.signed (5 + k)))
  let dst := c.xd :: (((List.range 4).filter (fun k => decide (1 < c.cnt k))).map (fun k => c.signed (9 + k)))
  let terms := (if c.xform = 3 then [] else src) ++ dst ++ (if c.mask.getLsbD 4 then [c.signed 13] else [])
  if 4 < c.esz then some 0x01
  else if 2 ^ 32 < c.total * c.esize then some 0x01
  else if c.mask.getLsbD 3 && !(c.mask.getLsbD 0 && !c.dsp) then some 0x01
  else if c.mask.getLsbD 4 && c.dsp then some 0x01
  else if (c.xform = 1 ∧ c.signed 5 ≠ BitVec.ofNat 64 c.esize) ∨ (c.xform = 2 ∧ c.signed 9 ≠ BitVec.ofNat 64 c.esize) ∨
      ((c.xform = 1 ∨ c.xform = 2) ∧ (c.rowBytes < 16 ∨ c.rowBytes % 8 ≠ 0)) then some 0x01
  else if c.op = .copyx ∧ (c.fieldAt 16).toNat % 4 ≠ 0 then some 0x05
  else if terms.any (fun v => decide (v.toNat % a ≠ 0)) then some 0x05
  else none

/-! ### The elements of a copy (R243) -/

/-- What one element of a copy touches. -/
structure Elem where
  index : Eng
  src : Eng
  dst : Eng
  mirror : Eng
  from_ : DWord
  to_ : DWord
  deriving DecidableEq, Repr, Inhabited

/-- The index word of a row. -/
def State.indexAccess (s : State) (c : Cmd) (l : Nat) : Eng :=
  if c.usesIndex then s.engAccess c false needR (c.fieldAt 16 + BitVec.ofNat 64 (4 * (c.idx l).2.1)) 4 else .ok []

def State.elem (s : State) (c : Cmd) (l : Nat) : Elem :=
  let ia := s.indexAccess c l
  let ix := leNat (s.engRead c ia)
  let a := c.srcAddr l ix
  let d := c.dstAddr l ix
  { index := ia, src := s.engAccess c c.ssp needR a (c.readLen l),
    dst := if c.mask.getLsbD 0 then s.engAccess c c.dsp needW d c.esize else .ok [],
    mirror := if c.mask.getLsbD 4 then s.engAccess c false needW (d + c.signed 13) c.esize else .ok [],
    from_ := a, to_ := d }

/-! ### Owned lines (R311) -/

/-- A started command has still to write bytes of a line (R311): the rest of a copy, or what an intake's plan still holds,
and before it is planned the output that its descriptor allows (LIMIT bytes, and its scale bytes). -/
def State.willWrite (s : State) (c : Cmd) (line : Nat) : Bool :=
  let here := fun (a : Eng) => match a with
    | .ok segs => segs.any (fun g => !isScr g.2.2.1 && (lineOf g.2.2.1 == line || lineOf (g.2.2.1 + g.2.1 - 1) == line))
    | _ => false
  let reaches := fun (va : DWord) (n : Nat) => (List.range ((n + 127) / 128)).any (fun k =>
    here (s.engAccess c false needW (va + BitVec.ofNat 64 (128 * k)) (min 128 (n - 128 * k))))
  c.started && !c.finished &&
  (((c.op == .copy || c.op == .copyx) && c.shapeFault.isNone && (List.range (c.total - c.dstAt)).any (fun k =>
      let e := s.elem c (c.dstAt + k)
      here e.dst || here e.mirror))
   || (c.op == .intake && (if c.planned then c.out.any (fun w => here (s.engAccess c false needW w.1 1))
       else
         let desc := if c.row.length < 64 then s.engRead c (s.engAccess c false needR c.xs 64) else c.row
         reaches c.xd (natAt desc 12 4) ||
           reaches (BitVec.ofNat 64 (natAt desc 0x18 8)) (if natAt desc 0x18 8 = 0 then 0 else natAt desc 12 4 / 16 + 1))))

/-- The accesses that a started command makes next. -/
def State.nextAccess (s : State) (c : Cmd) : List Eng :=
  match c.op with
  | .intake =>
    if c.planned then (c.out.take 1).map (fun w => s.engAccess c false needW w.1 1)
    else if c.row.length < 64 then [s.engAccess c false needR c.xs 64]
    else [s.engAccess c false needR (BitVec.ofNat 64 (natAt c.row 0 8 + c.row.length - 64)) (natAt c.row 8 4 - (c.row.length - 64))]
  | _ =>
    let e := s.elem c c.progress
    let d := s.elem c c.dstAt
    (if c.progress < c.total then [e.index, e.src] else []) ++ (if c.dstAt < c.progress then [d.dst, d.mirror] else [])

/-- A run of bytes meets a line that a command has still to write. -/
def State.ownsRun (s : State) (c : Cmd) (loc len : Nat) : Bool :=
  !isScr loc && (s.willWrite c (lineOf loc) || s.willWrite c (lineOf (loc + len - 1)))

/-- A line of a run of bytes is owned by a command (R311). -/
def State.owned (s : State) (loc len : Nat) : Bool := s.cmds.any (fun c => s.ownsRun c loc len)

/-- A command's next access meets a line that some other command has still to write. -/
def State.ownerHeld (s : State) (c : Cmd) : Bool :=
  (s.nextAccess c).any (fun e => match e with
    | .ok segs => segs.any (fun g => s.cmds.any (fun d => d.id != c.id && s.ownsRun d g.2.2.1 g.2.1))
    | _ => false)

/-- An access of a command waits for an owner of its line (R311): one that started earlier, or a later one that waits for no
other command itself, so that of two commands that own one line the earlier goes first (R248; log entry 8). -/
def State.engOwned (s : State) (c : Cmd) : Eng → Bool
  | .ok segs => segs.any (fun g => s.cmds.any (fun d => d.id != c.id && s.ownsRun d g.2.2.1 g.2.1 &&
      (!c.started || decide (d.startSeq < c.startSeq) || !s.ownerHeld d)))
  | _ => false

/-- The same for a hub access to a physical address. -/
def State.hubOwned (s : State) (pa len : Nat) : Bool :=
  match s.paKind pa with
  | .dev off => s.owned off len
  | _ => false

/-- Dirty bytes of a core's L1 that would be written back to an owned line. -/
def State.ownedDirty (s : State) (core : Nat) (f : Nat → Bool) : Bool :=
  (s.l1s core).any (fun o => (s.dirtyBytes o f).any (fun q => s.owned q.1 1))

/-- A command that owns a line (R311). -/
def State.lineOwner (s : State) (loc : Nat) : Option Nat :=
  if isScr loc then none else (s.cmds.find? (fun c => s.willWrite c (lineOf loc))).map (fun c => c.id)

/-- A command that owns a line to which dirty bytes of a core's L1 would be written back. -/
def State.dirtyOwner (s : State) (core : Nat) (f : Nat → Bool) : Option Nat :=
  (s.l1s core).findSome? (fun o => (s.dirtyBytes o f).findSome? (fun q => s.lineOwner q.1))

/-- What an access of a bundle or of the Windlass waits for at a location (R311, R383, R400). -/
def State.locHold (s : State) (write : Bool) (loc : Nat) : Option Hold :=
  ((if write then s.writeWaits loc 1 else s.readWaits loc 1).map WaitOn.hold).orElse (fun _ =>
    (s.lineOwner loc).map Hold.engineLine)

end Sys2Proof.Machine
end

