-- ==== Sys2Proof/Machine/Order.lean ====
section
/-! DEFINITION. A core's L1 (08 R205 to R207) and its order (13 R301 to R314): the entries that have not performed at every
scope, what each waits for, and what its performing does; open pieces of loads; atomics (08 R212, R213). -/

namespace Sys2Proof.Machine

/-! ### L1 (R205 to R207) -/

/-- Lines of an L1 (R205): 640 KiB of 128 bytes. -/
def l1Lines : Nat := 5120

/-- The local lines that a member holds, by number, and the lines that the directory records for it. -/
def State.l1Locals (s : State) (o : Nat) : List Nat :=
  ((s.core o).lines.filter (fun q => q.1 % 128 == 0)).map (fun q => q.1 / 128)
def State.l1Copies (s : State) (o : Nat) : List Nat :=
  (s.dir.filter (fun q => q.1 / 2 ^ 33 == s.l1Agent o && s.l1Owner o (q.1 % 2 ^ 33 * 128) == o)).map (fun q => q.1 % 2 ^ 33)

def State.l1Count (s : State) (o : Nat) : Nat := (s.l1Locals o).length + (s.l1Copies o).length

/-- An access notes its hint on the line (R207). -/
def State.noteHint (s : State) (core loc hint : Nat) : State :=
  if hint = 1 ∨ hint = 2 then
    s.modCore (s.l1Owner core loc) (fun c => { c with hints := spSet (fun _ => 0) c.hints (loc / 128) hint })
  else s

/-- The place of a tracked line among the victims: marked first, default, kept (R207). -/
def State.hintRank (s : State) (o line : Nat) : Nat :=
  let h := spGet (fun _ => 0) (s.core o).hints line
  if h = 1 then 0 else if h = 2 then 2 else 1

/-- The lines that a member may evict now, with their rank and whether they are tracked: local lines act as default
ones, and wait where their write-back waits. -/
def State.l1Evictable (s : State) (o : Nat) : List (Nat × Nat × Bool) :=
  ((s.l1Locals o).filter (fun l => (s.writebackWaits o (inLine l)).isNone && !s.ownedDirty o (inLine l))).map
    (fun l => (1, l, false))
  ++ (s.l1Copies o).map (fun l => (s.hintRank o l, l, true))

/-- Those of the least rank. -/
def State.l1Victims (s : State) (o : Nat) : List (Nat × Nat × Bool) :=
  let es := s.l1Evictable o
  es.filter (fun e => es.all (fun f => decide (e.1 ≤ f.1)))

/-- A member has room for one more line, or a line to evict. -/
def State.l1Room (s : State) (o : Nat) : Bool := decide (s.l1Count o < l1Lines) || !(s.l1Evictable o).isEmpty

/-- A full member evicts a line (R205, R363): written back first if dirty. -/
def State.makeRoom (s : State) (o : Nat) : State :=
  if s.l1Count o < l1Lines then s
  else
    let vs := s.l1Victims o
    match vs[Config.l1Victim s.turn % vs.length]? with
    | some (_, l, false) => (s.writeback o (inLine l)).discardLines o (inLine l)
    | some (_, l, true) => (s.dirSet (s.l1Agent o) (128 * l) .i).modCore o (fun c =>
        { c with hints := spSet (fun _ => 0) c.hints l 0 })
    | none => s

/-- A member holds a line as a local line. -/
def State.holdsLine (s : State) (o pa : Nat) : Bool := (spFind (s.core o).lines (lineOf pa)).isSome

/-- Bring a line into L1 as a local line, keeping bytes already held; without room it is not brought in. -/
def State.fillLine (s : State) (core pa : Nat) : State :=
  let o := s.l1Owner core pa
  let a := lineOf pa
  if s.holdsLine o pa || !s.l1Room o then s
  else
    let s := s.makeRoom o
    s.modCore o (fun c =>
      { c with lines := (List.range 128).foldl (fun m k => spPut m (a + k) (s.viewByte core (a + k), false)) c.lines })

/-- What bringing local lines into L1 waits for (R400). -/
def State.fillWaits (s : State) (core loc len : Nat) : Option WaitOn :=
  (linesOf loc len).findSome? (fun l => if s.holdsLine (s.l1Owner core l) l then none else s.readWaits l 128)

/-- Every line of a run stands in L1 as a local line, or can be brought in now. -/
def State.localRoom (s : State) (core pa len : Nat) : Bool :=
  (linesOf pa len).all (fun l => s.holdsLine (s.l1Owner core l) l ||
    (s.l1Room (s.l1Owner core l) && (s.readWaits l 128).isNone && !s.owned l 128))

/-- Write bytes into local lines. -/
def State.setLocal (s : State) (core pa : Nat) (bs : List Byte) : State :=
  ((List.range bs.length).zip bs).foldl (fun s q =>
    (s.fillLine core (pa + q.1)).modCore (s.l1Owner core (pa + q.1)) (fun c =>
      { c with lines := spPut c.lines (pa + q.1) (q.2, true) })) s

/-- A core reads a tracked line (R363): its L1 takes a copy in S if it has room, and a copy in M elsewhere is written
back. -/
def State.l1Read (s : State) (core loc : Nat) : State :=
  if isScr loc || s.copyOf (s.l1Agent core) loc != .i then s
  else if s.l1Room (s.l1Owner core loc) then (s.makeRoom (s.l1Owner core loc)).dirRead (s.l1Agent core) loc
  else s.homeRead loc

/-- A core has written a tracked line: its L1 holds it in M if it has room. -/
def State.l1Write (s : State) (core loc : Nat) : State :=
  if isScr loc || !s.l1Room (s.l1Owner core loc) then s
  else (s.makeRoom (s.l1Owner core loc)).dirSet (s.l1Agent core) loc .m

/-- What a read through an attribute leaves in L1: a local line, a copy of a tracked one, or nothing but the write-back of
a copy in M (R206, R363, R372). -/
def State.readCopy (s : State) (core loc : Nat) : Attr → State
  | .lcl => if s.localRoom core loc 1 then s.fillLine core loc else s
  | .wb => s.l1Read core loc
  | .nc => if isScr loc then s else s.homeRead loc

/-! ### Semaphore writes (R27, R147) -/

/-- Clamp to 0 to 0xFFFF. -/
def satSem (v : Int) : BitVec 16 := if v < 0 then 0 else if 0xFFFF < v then 0xFFFF else BitVec.ofInt 16 v

def Group.sem (g : Group) (n : Nat) : BitVec 16 := spGet (fun _ => 0) g.sems n
/-- The count at the start of the core's cycle. -/
def Group.semStart (g : Group) (n : Nat) : BitVec 16 := spGet (fun _ => 0) g.semBase n
def Group.setSem (g : Group) (n : Nat) (v : BitVec 16) : Group := { g with sems := spSet (fun _ => 0) g.sems n v }

/-- Add and clamp; a clamp at 0xFFFF sets the saturation condition (R27). -/
def Group.addSem (g : Group) (n : Nat) (v : Int) : Group :=
  let t := ((g.sem n).toNat : Int) + v
  { g.setSem n (satSem t) with semSat := g.semSat || decide (0xFFFF < t) }

/-- One update. -/
def Group.semOp (g : Group) (o : SemOp) : Group := if o.set then g.setSem o.sem (satSem o.v) else g.addSem o.sem o.v

/-- An update reaches a semaphore: the updates of a cycle apply in R27's order, each to the result of the previous. -/
def Group.semWrite (g : Group) (o : SemOp) : Group :=
  let ops := insertByKey (fun p => p.rank) o g.semOps
  ops.foldl Group.semOp { g with sems := g.semBase, semSat := g.satBase, semOps := ops }

/-- A cycle of the core begins (R27). -/
def Group.semCycle (g : Group) : Group :=
  { g with semBase := g.sems, satBase := g.semSat, tagBase := g.tags, chanBase := g.chans, semOps := [] }

/-- The saturation condition has been reported: the updates of the cycle so far stand, and do not raise it again (R129). -/
def Group.clearSat (g : Group) : Group :=
  { g with semSat := false, satBase := false,
           semOps := ((g.semOps.map (fun o => o.sem)).eraseDups).map (fun n => ⟨0, n, true, (g.sem n).toNat⟩) }

/-! ### Atomics (R212) -/

def atomMinS (a b : Word) : Word := if b.toInt < a.toInt then b else a
def atomMaxS (a b : Word) : Word := if a.toInt < b.toInt then b else a
def atomMinU (a b : Word) : Word := if b.toNat < a.toNat then b else a
def atomMaxU (a b : Word) : Word := if a.toNat < b.toNat then b else a
def atomFadd (a b : Word) : Word := BitVec.ofNat 32 (fpAdd fmtFp32 .rne a.toNat b.toNat).1
def atomBf16 (a b : Word) : Word := fromElems 16 (fun j => (fpAdd fmtBf16 .rne (elemAt a 16 j) (elemAt b 16 j)).1)

/-- The new word of an atomic: the old word, DATA and DATA+1 give it; `none` writes nothing. -/
def AtomOp.new (op : AtomOp) (a d e : Word) : Option Word :=
  match op with
  | .add => some (a + d)
  | .minS => some (atomMinS a d)
  | .maxS => some (atomMaxS a d)
  | .minU => some (atomMinU a d)
  | .maxU => some (atomMaxU a d)
  | .and => some (a &&& d)
  | .or => some (a ||| d)
  | .xor => some (a ^^^ d)
  | .exch => some d
  | .cas => if a = d then some e else none
  | .faddF32 => some (atomFadd a d)
  | .faddBf16 => some (atomBf16 a d)

/-! ### Open pieces of loads (R302, R303, R305) -/

/-- The piece waits for its value from memory of this package. -/
def ReadPiece.isOpen (p : ReadPiece) : Bool := p.fixed.isNone && p.remote.isNone

/-- The piece with the value that stands now. -/
def ReadPiece.fix (s : State) (a : Access) (tk : Nat) (p : ReadPiece) : ReadPiece :=
  if p.isOpen then { p with fixed := some ((List.range p.len).map (fun k => s.readByte p.attr a.core tk a.seq (p.addr + k))) }
  else p

/-- An open piece may be read now, the earlier loads of its thread apart: no command owns its line (R311), no host holds it
modified (R400), and no earlier write of the core has still to perform at core scope first (R302). -/
def State.pieceFree (s : State) (a : Access) (tk : Nat) (p : ReadPiece) : Bool :=
  p.isOpen && !s.owned p.addr p.len && (s.readWaits p.addr p.len).isNone
  && (s.core a.core).writes.all (fun w => !s.blocksRead a.core tk a.seq p.addr p.len p.attr w)

/-- An access stands before another in its core. -/
def Access.before (b a : Access) : Bool :=
  b.core == a.core && (decide (b.seq < a.seq) || (b.seq == a.seq && decide (b.id < a.id)))

/-- The same, and no earlier load of its thread has an open piece on one of its bytes (R303). -/
def State.pieceReady (s : State) (a : Access) (tk : Nat) (p : ReadPiece) : Bool :=
  s.pieceFree a tk p && s.accesses.all (fun b => !b.before a ||
    ((assoc b.reads tk).getD []).all (fun o => !(o.isOpen && overlaps o.addr o.len p.addr p.len)))

/-- The open pieces that have to be read before a run of bytes changes: those on these bytes of the core's loads up to a
place and of the selected threads, and each thread's earlier pieces that meet one of them (R302, R303). -/
def State.toFix (s : State) (core : Nat) (sel : Nat → Bool) (before loc len : Nat) : List (Access × Nat × ReadPiece) :=
  s.accesses.foldr (fun a acc =>
    if a.core ≠ core then acc
    else (a.reads.flatMap (fun q => (q.2.filter (fun p => p.isOpen &&
      ((decide (a.seq ≤ before) && sel q.1 && overlaps p.addr p.len loc len) ||
       acc.any (fun z => z.2.1 == q.1 && overlaps p.addr p.len z.2.2.addr z.2.2.len)))).map (fun p => (a, q.1, p)))) ++ acc) []

/-- They can all be read now. -/
def State.canFix (s : State) (core : Nat) (sel : Nat → Bool) (before loc len : Nat) : Bool :=
  (s.toFix core sel before loc len).all (fun z => s.pieceFree z.1 z.2.1 z.2.2)

/-- They are read. -/
def State.fixReads (s : State) (core : Nat) (sel : Nat → Bool) (before loc len : Nat) : State :=
  let zs := s.toFix core sel before loc len
  { s with accesses := s.accesses.map (fun (a : Access) =>
      { a with reads := a.reads.map (fun (q : Nat × List ReadPiece) => (q.1, q.2.map (fun p =>
          if zs.any (fun z => z.1.id == a.id && z.2.1 == q.1 && z.2.2 == p) then p.fix s a q.1 else p))) }) }

/-- A load of a thread before a place has a piece of this package without a value. -/
def State.readsOpen (s : State) (core tk seq : Nat) : Bool :=
  s.accesses.any (fun a => a.core == core && decide (a.seq < seq) &&
    ((assoc a.reads tk).getD []).any (fun p => p.isOpen))

/-- A piece takes its bytes from the answer of an operation: a remote load or an atomic. -/
def ReadPiece.answer (p : ReadPiece) (op : Nat) (bs : List Byte) : ReadPiece :=
  if p.remote = some op then { p with fixed := some bs } else p

/-- Give an access the bytes of an answer. -/
def State.fillAnswer (s : State) (access op : Nat) (bs : List Byte) : State :=
  { s with accesses := s.accesses.map (fun (a : Access) =>
      if a.id = access then
        { a with reads := a.reads.map (fun r => (r.1, r.2.map (fun p => p.answer op bs))) }
      else a) }

/-! ### Entries of the core's order (R301, R302) -/

/-- Advance the core's order by one place. -/
def State.bumpSeq (s : State) (core : Nat) : State := s.modCore core (fun c => { c with seq := c.seq + 1 })

/-- A fence of the bundle being issued stands before its writes (R220). -/
def State.fenceHere (s : State) : Bool := (s.issue.bind (fun q => q.fenceSeq)).isSome

/-- The later of two threads' releases, scope by scope. -/
def Rels.join (a b : Rels) : Rels := ⟨max a.cluster b.cluster, max a.die b.die, max a.wide b.wide, max a.system b.system⟩

/-- A new entry of the core's order. -/
def State.push (s : State) (core tk loc : Nat) (attr : Attr) (after : Rels) (act : WriteAct) : State :=
  let w : PendWrite := { id := s.ids, seq := (s.core core).seq, thread := tk, addr := loc, act := act,
                         after := after, attr := attr, level := 0 }
  (s.nextId.modCore core (fun c => { c with writes := c.writes ++ [w] })).bumpSeq core

/-- The entries of a store, one per piece. -/
def State.pend (s : State) (core tk loc : Nat) (attr : Attr) (whole : Bool) (bs : List Byte) : State :=
  (piecesOf loc bs.length whole).foldl (fun s p =>
    s.push core tk (loc + p.1) attr (s.thread tk).rel (.bytes ((bs.drop p.1).take p.2))) s

/-- What an entry waits for besides the core's order: a snapshot copy, or hosts' copies of its line. A write into a local
line waits for neither until it is written back; a write at the home waits for a host's modified copy only, and then, at
system scope, for the rest (R301, R400). -/
def State.pendWaits (s : State) (core : Nat) (w : PendWrite) : Option WaitOn :=
  if w.act = .told then (s.hostHolds 0 w.addr 1).map (WaitOn.host true)
  else if w.len = 0 ∨ isScr w.addr then none
  else if w.attr = .lcl then s.fillWaits core w.addr w.len
  else if s.copyBit (w.addr / 2 ^ 16) then some (.copy (w.addr / 2 ^ 16))
  else (s.hostHolds 1 w.addr w.len).map (WaitOn.host true)

/-- Two semaphore writes of one group. -/
def PendWrite.sameSems (v w : PendWrite) : Bool :=
  match v.act, w.act with
  | .sem _ g, .sem _ h => g == h
  | _, _ => false

/-- No earlier entry of the core meets it. -/
def State.firstInOrder (s : State) (core : Nat) (w : PendWrite) : Bool :=
  (s.core core).writes.all (fun v => !(decide (v.seq < w.seq) && (w.meets v.addr v.len || v.sameSems w)))

/-- An entry is none that another entry's releases put before it, or has performed as wide as they ask (R307). -/
def PendWrite.doneFor (v w : PendWrite) : Bool :=
  (v.len == 0 && v.act != .told) ||
    ((decide (w.after.cluster ≤ v.seq) || decide (1 ≤ v.level)) && (decide (w.after.die ≤ v.seq) || decide (2 ≤ v.level))
      && (decide (w.after.wide ≤ v.seq) || decide (3 ≤ v.level)) && decide (w.after.system ≤ v.seq))

/-- What its thread's releases put before it has performed as wide as they ask (R307). -/
def State.followsReleases (s : State) (core : Nat) (w : PendWrite) : Bool :=
  (s.core core).writes.all (fun v => v.doneFor w)

/-- No fence of its thread stands before it (R219, R220); a semaphore write follows those of every lane of its bundle. -/
def State.pastFences (s : State) (w : PendWrite) : Bool :=
  let clear := fun (t : Thread) => t.fences.all (fun f => f.kind == .cp || decide (w.seq < f.seq))
  match w.act with
  | .sem _ g => s.threads.all (fun t => groupOfThread t.1 != g || clear t.2)
  | _ => clear (s.thread w.thread)

/-- A write of another core that has performed at a scope of both, and not yet everywhere, meets a run of bytes; `level`
widens the scopes looked at. -/
def State.foreignAt (s : State) (core level loc len : Nat) : Bool :=
  !isScr loc && s.cores.any (fun c => c.1 != core && c.2.writes.any (fun v =>
    v.level != 0 && v.meets loc len && inScope (max level v.level) c.1 core))

/-- An entry may perform as far as orders go: no earlier entry meets it, releases and fences before it are satisfied, no
command owns its line (R311), and no other core's write that its core sees has still to perform. -/
def State.orderReady (s : State) (core level : Nat) (w : PendWrite) : Bool :=
  s.firstInOrder core w && s.followsReleases core w && s.pastFences w && (w.len == 0 || !s.owned w.addr w.len)
  && !s.foreignAt core level w.addr w.len

/-- An entry may perform at every scope: what it waits for has come, a local line has room, and the loads that must not
return it can be read first (R302). -/
def State.writeReady (s : State) (core : Nat) (w : PendWrite) : Bool :=
  s.orderReady core 0 w && (s.pendWaits core w).isNone
  && (w.attr != .lcl || s.localRoom core w.addr w.len) && s.canFix core (fun _ => true) w.seq w.addr w.len

/-- A store to a tracked line may perform at cluster or die scope before it does at wider ones. -/
def State.levelReady (s : State) (core level : Nat) (w : PendWrite) : Bool :=
  !w.bytes.isEmpty && !isScr w.addr && w.attr != .lcl && decide (w.level < level) && !s.copyBit (w.addr / 2 ^ 16)
  && s.orderReady core level w

/-- Drop the copies of a fetch block in the cores that a test selects. -/
def State.dropCode (s : State) (sel : Nat → Bool) (f : Nat → Bool) : State :=
  { s with cores := s.cores.map (fun c =>
      if sel c.1 then (c.1, { c.2 with code := c.2.code.filter (fun b => !f b.1) }) else c) }

/-- A write of a core takes effect through an attribute (R206, R372): in a local line, at the home with a copy in M unless
a host still holds the line (R400), or at the home alone. -/
def State.putAttr (s : State) (core : Nat) (attr : Attr) (loc : Nat) (bs : List Byte) : State :=
  match attr with
  | .lcl => s.setLocal core loc bs
  | .wb => if (s.hostHolds 0 loc bs.length).isSome then s.put loc bs else (s.put loc bs).l1Write core loc
  | .nc => s.put loc bs

/-- One lane's atomic acts in one step (R213): in the local line, or at the home or in the member scratchpad. -/
def State.atomStep (s : State) (core : Nat) (w : PendWrite) (op : AtomOp) (d e : Word) (access : Nat) : State :=
  let s := if w.attr = .lcl then s.fillLine core w.addr else s
  let old := BitVec.ofNat 32 (leNat ((List.range 4).map (fun k =>
    if w.attr = Attr.lcl then s.localByte core (w.addr + k) else s.byte (w.addr + k))))
  let s := match op.new old d e with
    | none => if isScr w.addr then s else s.homeRead w.addr
    | some v => s.putAttr core (if w.attr = Attr.lcl then Attr.lcl else .nc) w.addr (leBytes 4 v.toNat)
  s.fillAnswer access w.id (leBytes 4 old.toNat)

/-- What an entry does when it performs. -/
def State.actWrite (s : State) (core : Nat) (w : PendWrite) : State :=
  match w.act with
  | .bytes bs => s.putAttr core w.attr w.addr bs
  | .code scope => s.dropCode (inScope scope core) (fun b => b == w.addr / 64)
  | .atom op d e access => s.atomStep core w op d e access
  | .sem o g => s.modGroup g (fun gr => gr.semWrite o)
  | .told => s

/-- A write at the home has still to be told to hosts. -/
def State.toTell (s : State) (w : PendWrite) : Bool :=
  w.len != 0 && w.attr != .lcl && (s.hostHolds 0 w.addr w.len).isSome

/-- An entry performs: open loads of its core issued before it are read first, since they do not return it (R302). A write to
a line that hosts still hold has then to perform at system scope (R301). -/
def State.performWrite (s : State) (core : Nat) (w : PendWrite) : State :=
  let s := s.fixReads core (fun _ => true) w.seq w.addr w.len
  let tell := s.toTell w
  (s.actWrite core w).modCore core (fun c =>
    { c with writes := if tell then c.writes.map (fun v => if v.id = w.id then { v with act := .told, level := 3 } else v)
                       else c.writes.filter (fun v => v.id != w.id) })

/-- An entry that acts at its place in the core's order does so, if it can (R301): a store to the core's own member
scratchpad or to a local line, an ICINV, a semaphore write. -/
def State.actNow (s : State) (core : Nat) (w : PendWrite) : State :=
  let now := match w.act with
    | .bytes _ => ownScr core w.addr || w.attr == .lcl
    | .atom _ _ _ _ => false
    | _ => true
  if now && s.writeReady core w then s.performWrite core w else s

/-- Of the entries that a step has added to a core's order since a state, those that can act at once do. -/
def State.actNew (t : State) (core : Nat) (s : State) : State :=
  ((t.core core).writes.drop (s.core core).writes.length).foldl (fun t w => t.actNow core w) t

/-- A write of a thread to a location of this package. -/
def State.store (s : State) (core tk : Nat) (loc : Nat) (attr : Attr) (whole : Bool) (bs : List Byte) : State :=
  (s.pend core tk loc attr whole bs).actNew core s

/-- An ICINV (R218), a semaphore write (R310). -/
def State.storeCode (s : State) (core tk scope loc : Nat) : State :=
  (s.push core tk loc .nc (s.thread tk).rel (.code scope)).actNew core s
def State.storeSem (s : State) (core g : Nat) (tks : List Nat) (o : SemOp) : State :=
  (s.push core (tks.head?.getD 0) 0 .nc (tks.foldl (fun r tk => r.join (s.thread tk).rel) Rels.zero) (.sem o g)).actNew core s

end Sys2Proof.Machine
end

