-- ==== Sys2Proof/Machine/TxRecords.lean ====
section
/-! DEFINITION. The records of transactions (17 R401 to R405): those that this package coordinates, the parts that it
holds as a target, and the end of a transaction that does not commit. -/

namespace Sys2Proof.Machine

/-! ### The coordinator's records -/

def TxPhase.isDecided : TxPhase → Bool
  | .decided _ => true
  | _ => false

def TxPhase.isOpen : TxPhase → Bool
  | .open_ => true
  | _ => false

/-- The open transaction of a thread (R401). -/
def State.openTx (s : State) (tk : Nat) : Option Tx :=
  s.fab.txs.find? (fun t => t.thread == tk && t.phase.isOpen)

def State.findTx (s : State) (h : Word) : Option Tx := s.fab.txs.find? (fun t => t.handle == h)

def State.modTx (s : State) (h : Word) (f : Tx → Tx) : State :=
  { s with fab := { s.fab with txs := s.fab.txs.map (fun t => if t.handle = h then f t else t) } }

def State.dropTx (s : State) (h : Word) : State :=
  { s with fab := { s.fab with txs := s.fab.txs.filter (fun t => t.handle != h) } }

/-- A target has messages to acknowledge. -/
def Tx.awaits (t : Tx) (target : Nat) : Bool := t.out.any (fun o => o.2.1 == target)

/-- A message goes to a target. -/
def Tx.sendTo (t : Tx) (id target now : Nat) : Tx := { t with out := t.out ++ [(id, target, now)] }

/-- A target still has to acknowledge a message. -/
def Tx.sent (t : Tx) (id target : Nat) : Bool := t.out.any (fun o => o.1 == id && o.2.1 == target)

/-- A target acknowledges a message. -/
def Tx.ackFrom (t : Tx) (id target : Nat) : Tx :=
  { t with out := t.out.filter (fun o => !(o.1 == id && o.2.1 == target)) }

/-- Nothing is to be had of a target any more. -/
def Tx.quit (t : Tx) (target : Nat) : Tx := { t with out := t.out.filter (fun o => o.2.1 != target) }

/-- The first reason to abort stands. -/
def Tx.doom (t : Tx) (why : Word) : Tx := { t with doomed := t.doomed.orElse (fun _ => some why) }

/-- Send a message to a target, under an identifier of its own. -/
def State.txSend (s : State) (h : Word) (target : Nat) (m : Nat → Msg) : State :=
  ({ s.nextId with fab := (s.modTx h (fun t => t.sendTo s.ids target s.now)).fab }).fabSend s.pod (m s.ids)

/-- The targets of a transaction in other packages. -/
def State.farTargets (s : State) (t : Tx) : List Nat := t.targets.filter (fun g => g != s.globalNumber)

/-! ### Parts held here as a target (R404 to R406) -/

def State.findPart (s : State) (coord : Nat) (h : Word) : Option Part :=
  s.fab.parts.find? (fun p => p.coord == coord && p.handle == h)

/-- Replace or remove a part. -/
def State.setPart (s : State) (coord : Nat) (h : Word) (p : Option Part) : State :=
  let rest := s.fab.parts.filter (fun r => !(r.coord == coord && r.handle == h))
  { s with fab := { s.fab with parts := rest ++ p.toList } }

/-- Remove a part and release its locks. -/
def State.closePart (s : State) (coord : Nat) (h : Word) : State :=
  let s := s.setPart coord h none
  { s with fab := { s.fab with locks := s.fab.locks.filter (fun l => !(l.2.1 == coord && l.2.2 == h)) } }

/-! ### The end without a commit (R401, R403, R409) -/

/-- A transaction goes; its handle is not used again while a lost target has not acknowledged the abort. -/
def State.endRecord (s : State) (t : Tx) : State :=
  { s with fab := { s.fab with stale := s.fab.stale ++ (t.out.map (fun (o : Nat × Nat × Nat) => (t.handle, o.2.1))).eraseDups } }.dropTx t.handle

/-- Discard a transaction: it is closed, and its targets discard their parts. Its record stays until they have acknowledged. -/
def State.discardTx (s : State) (t : Tx) : State :=
  let s := s.closePart s.globalNumber t.handle
  if (s.farTargets t).isEmpty then s.dropTx t.handle
  else
    (s.farTargets t).foldl (fun s g => s.txSend t.handle g (fun id => .txDecision g id t.handle false))
      (s.modTx t.handle (fun t => { t with phase := .decided false, recorded := true, sig := 0, out := [] }))

/-- Discard the open transaction of a thread, as TXABORT does. -/
def State.abortTx (s : State) (tk : Nat) : State :=
  match s.openTx tk with
  | none => s
  | some t => s.discardTx t

/-- A thread ends: a transaction of it that is not decided aborts, and its stray flag goes. -/
def State.endTx (s : State) (tk : Nat) : State :=
  let s := (s.fab.txs.filter (fun t => t.thread == tk && !t.phase.isDecided)).foldl (fun s t => s.discardTx t) s
  { s with fab := { s.fab with stray := s.fab.stray.filter (fun k => k != tk) } }

end Sys2Proof.Machine
end

