-- ==== Sys2Proof/Machine/Traps.lean ====
section
/-! DEFINITION. Filing threads into bins (R101 to R107), blocking and release, page requests (R340, R377), ending a
launch (R337), and taking a precise condition: the per-context handler's entry (R342) with its header (R348) and
shadows (R349). -/

namespace Sys2Proof.Machine

/-! ### Bins and runs -/

/-- Add an unfiled run. -/
def State.startRun (s : State) (core group : Nat) (lanes : List (Nat × Nat)) (pc : DWord) (count : Nat)
    (flights : List Flight) : State :=
  { s.nextId with runs := s.runs ++ [⟨s.ids, core, group, lanes, pc, count, flights, s.coreCycles core + 1, none, none, none, none⟩] }

/-- Insert a lane, ascending. -/
def insertLane (l : Nat × Nat) (ls : List (Nat × Nat)) : List (Nat × Nat) := insertByKey (fun q => q.1) l ls

/-- Put a thread into the first bin of its key whose lane is free; a bin of 32 lanes is ready from cycle `from_` (R102,
R103). -/
def binInsert (from_ group : Nat) (pc : DWord) (l : Nat × Nat) : List Bin → Option (List Bin)
  | [] => none
  | b :: bs =>
    if b.group = group ∧ b.pc = pc ∧ (assoc b.lanes l.1).isNone then
      let lanes := insertLane l b.lanes
      some ({ b with lanes := lanes, ready := if lanes.length = 32 then b.ready.orElse (fun _ => some from_) else b.ready }
            :: bs)
    else (binInsert from_ group pc l bs).map (fun r => b :: r)

/-- The run that a bin's threads wait in takes a thread filed into the bin. -/
def State.joinHeld (s : State) (group : Nat) (pc : DWord) (l : Nat × Nat) (bins : List Bin) : State :=
  match bins.find? (fun b => b.group == group && b.pc == pc && (assoc b.lanes l.1).isNone) with
  | some b => match b.run with
    | some id => s.modRun id (fun r => { r with lanes := insertLane l r.lanes })
    | none => s
  | none => s

/-- File one thread (R102): the oldest bin with room, else a new bin, else `none`. Bins stand oldest first. -/
def State.fileInBin (s : State) (core group : Nat) (l : Nat × Nat) (pc : DWord) : Option State :=
  let c := s.core core
  match binInsert (s.coreCycles core + 1) group pc l c.bins with
  | some bs => some ((s.joinHeld group pc l c.bins).setCore core { c with bins := bs })
  | none =>
    if c.bins.length < 64 then
      some (s.setCore core { c with bins := c.bins ++ [⟨group, pc, [l], s.now, s.coreCycles core, none, none⟩] })
    else none

/-- Form issue groups of threads that go to one PC, at most one for each home lane (R100, R106). -/
def byPc : List (Nat × Nat × DWord) → List (DWord × List (Nat × Nat)) → List (DWord × List (Nat × Nat))
  | [], acc => acc
  | (lane, tk, pc) :: rest, acc =>
    let rec add : List (DWord × List (Nat × Nat)) → List (DWord × List (Nat × Nat))
      | [] => [(pc, [(lane, tk)])]
      | (p, ls) :: qs => if p = pc ∧ (assoc ls lane).isNone then (p, insertLane (lane, tk) ls) :: qs else (p, ls) :: add qs
    byPc rest (add acc)

/-- Place threads one by one; the rest are returned. DESIGN CHOICE (log entry 37): the threads of one filing point are
placed in the order of their lanes, and the threads of a new group and of a release in the order of their %tid. -/
def State.fileSome (s : State) (core group : Nat) :
    List (Nat × Nat × DWord) → State × List (Nat × Nat × DWord)
  | [] => (s, [])
  | (lane, tk, pc) :: rest =>
    let s := s.modThread tk (fun t => { t with pc := pc })
    match s.fileInBin core group (lane, tk) pc with
    | some s' => s'.fileSome core group rest
    | none =>
      let r := s.fileSome core group rest
      (r.1, (lane, tk, pc) :: r.2)

/-- File threads; those that R102 cannot place go on unfiled, in issue groups of one next PC, each counted in %binovf (R106). -/
def State.fileAll (s : State) (core group : Nat) (ls : List (Nat × Nat × DWord)) : State :=
  let r := s.fileSome core group ls
  (byPc r.2 []).foldl (fun s q =>
    (s.startRun core group q.2 q.1 0 []).modCore core (fun c => { c with binovf := c.binovf + 1 })) r.1

/-- The home lane of a thread (R16). -/
def State.laneOf (s : State) (tk : Nat) : Nat := (s.thread tk).tid % 32

/-- Release a blocked thread at its PC (R107). One that blocked in a yield bundle of an armed swap enters swap wait instead
(R424); one whose current frame is spilled is refilled first (R287); one whose group is parked or saved is filed when the
group is resident again. -/
def State.release (s : State) (tk : Nat) : State :=
  let t := s.thread tk
  let core := (s.group t.group).core
  if t.swapDue.isSome && (s.group t.group).ymap.isSome then
    s.modThread tk (fun t => { t with blocked := .swap, pc := t.swapDue.getD t.pc, swapDue := none, blockedAt := s.now })
  else if (s.group t.group).place ≠ .resident then s.modThread tk (fun t => { t with blocked := .no })
  else if t.frame.spilled then
    (s.modThread tk (fun t => { t with blocked := .refill })).modCore core (fun c =>
      { c with refills := c.refills ++ [⟨tk, t.tid % 32, s.coreCycles core, t.depth, t.pc, none, 0, [], [], none⟩] })
  else (s.modThread tk (fun t => { t with blocked := .no })).fileAll core t.group [(t.tid % 32, tk, t.pc)]

/-- When every live thread of a group waits at BAR, all are released together (R128). -/
def State.barCheck (s : State) (g : Nat) : State :=
  let live := s.liveThreads g
  if live.isEmpty || !live.all (fun tk => (s.thread tk).blocked == .bar) then s
  else live.foldl (fun s tk => s.release tk) s

/-! ### Swap wait (R424, R425) -/

/-- Threads of a group in swap wait. -/
def State.swapWaiters (s : State) (g : Nat) : List Nat :=
  (s.liveThreads g).filter (fun tk => (s.thread tk).blocked == .swap)

/-- A run's lanes are on their way into swap wait: their yield bundle has acted and values are still awaited (R424). -/
def Run.swapping (r : Run) : Bool := (r.ways.getD []).any (fun w => match w.2 with
  | .block .swap _ => true
  | _ => false)

/-- Some thread of the group is in swap wait or on its way into it. -/
def State.inSwap (s : State) (g : Nat) : Bool :=
  !(s.swapWaiters g).isEmpty || s.runs.any (fun r => r.group == g && r.swapping)

/-- A way into swap wait goes on after its yield bundle instead. -/
def Way.unswap : Way → Way
  | .block .swap pc => .go pc
  | w => w

/-- Withdraw an armed swap (R425): every thread in swap wait goes on at the item after its yield bundle. -/
def State.withdrawSwap (s : State) (g : Nat) : State :=
  let s := s.modGroup g (fun g => { g with swap := none, ymap := none })
  let s := { s with runs := s.runs.map (fun (r : Run) =>
    if r.group = g then { r with ways := r.ways.map (fun (ws : List (Nat × Way)) => ws.map (fun (w : Nat × Way) => (w.1, w.2.unswap))) } else r) }
  let s := (s.liveThreads g).foldl (fun s tk => s.modThread tk (fun t => { t with swapDue := none })) s
  (s.swapWaiters g).foldl (fun s tk => s.release tk) s

/-- Some lane arrives at a barrier. -/
def arrives (ways : List (Nat × Way)) : Bool :=
  ways.any (fun w => match w.2 with
    | .block .bar _ => true
    | _ => false)

/-- Destinations of a thread's results that land later than the run's last bundle's of latency 1 (R289). -/
def Run.lateDests (r : Run) (tk : Nat) : List Dest :=
  (r.flights.filter (fun f => decide (r.count < f.land) && f.vals.any (fun v => v.1 == tk))).map (fun f => f.dest)

/-- The refill requests of a run's last bundle note them. -/
def State.noteLate (s : State) (r : Run) (ways : List (Nat × Way)) : State :=
  let waits := fun (tk : Nat) => r.lanes.any (fun l => l.2 == tk && (match assoc ways l.1 with
    | some (.block .refill _) => true
    | _ => false))
  if r.lanes.any (fun l => waits l.2) then
    s.modCore r.core (fun c => { c with refills := c.refills.map (fun (q : RefillReq) =>
      if waits q.thread then { q with late := r.lateDests q.thread } else q) })
  else s

/-- Dissolve a run whose values have arrived: land everything, then file or block each lane (R101, R113). An arrival at a
barrier withdraws a swap in which another thread waits (R425). Threads of a group that is not resident are filed when it is
again. -/
def State.dissolve (s : State) (r : Run) (ways : List (Nat × Way)) : State :=
  let s := ((s.landAll r.group r.flights).noteLate r ways).dropRun r.id
  let goes := r.lanes.filterMap (fun l => match assoc ways l.1 with
    | some (.go pc) => some (l.1, l.2, pc)
    | _ => none)
  let s := r.lanes.foldl (fun s l => match assoc ways l.1 with
    | some (.block why pc) => s.modThread l.2 (fun t => { t with blocked := why, pc := pc, blockedAt := s.now })
    | _ => s) s
  let s := if arrives ways && s.inSwap r.group then s.withdrawSwap r.group else s
  if (s.group r.group).place = .resident then (s.fileAll r.core r.group goes).barCheck r.group
  else (goes.foldl (fun s g => s.modThread g.2.1 (fun t => { t with pc := g.2.2 })) s).barCheck r.group

/-! ### Fences (R219) -/

/-- Every load of a thread from this package issued before a place has its value. -/
def State.loadsBack (s : State) (tk seq : Nat) : Bool :=
  !s.readsOpen (s.group (s.thread tk).group).core tk seq

/-- An entry of the core's order has still to perform at a scope (R301): at core scope a tracked store has at its place,
unless a fence stands before it. -/
def State.awaited (s : State) (scope : Nat) (w : PendWrite) : Bool :=
  match w.act with
  | .told => scope == 5
  | .bytes _ =>
    if isScr w.addr || w.attr == .lcl then true
    else if scope = 0 then s.behindFence w
    else decide (w.level < min scope 3)
  | _ => true

/-- The entries that a fence waits for: atomics for an acquire, and for the others every entry of the thread, or for
FENCE.SC of the core, since the thread may have read it (R308). -/
def State.fenceWrites (s : State) (core tk : Nat) (f : PendFence) : List PendWrite :=
  (s.core core).writes.filter (fun w =>
    decide (w.seq < f.seq) && (f.kind == .sc || w.thread == tk) &&
    (match f.kind, w.act with
     | .acq, .atom _ _ _ _ => true
     | .acq, _ => false
     | .cp, .code _ => false
     | .cp, .sem _ _ => false
     | _, _ => s.awaited f.scope w))

/-- Writes of other cores that this core sees have performed at a scope (R307). -/
def State.foreignClear (s : State) (core scope : Nat) : Bool :=
  s.cores.all (fun c => c.1 == core || c.2.writes.all (fun w =>
    w.level == 0 || !inScope w.level c.1 core || decide (min scope 3 ≤ w.level)))

/-- The fence writes dirty local lines back (R219). -/
def PendFence.cleans (f : PendFence) : Bool := f.scope != 0 || f.kind == .cp

/-- The fence is a release (R307). -/
def FenceKind.isRelease : FenceKind → Bool
  | .rel => true
  | .ar => true
  | .sc => true
  | _ => false

/-- The accesses a fence waits for have completed. -/
def State.fenceDone (s : State) (core tk : Nat) (f : PendFence) : Bool :=
  (f.kind == .cp || s.loadsBack tk f.seq)
  && (s.fenceWrites core tk f).isEmpty
  && (!f.kind.isRelease || s.foreignClear core f.scope)
  && (match f.prom with
      | none => true
      | some p => !s.fab.proms.any (fun q => q.id == p))
  && (!f.cleans || ((s.l1Waits core (fun _ => true)).isNone && !s.ownedDirty core (fun _ => true)))

/-- What a satisfied fence does to local lines (R219): dirty ones are written back, and an acquire invalidates. -/
def State.fenceEffect (s : State) (core : Nat) (f : PendFence) : State :=
  if !f.cleans then s
  else
    let s := s.writebackL1 core (fun _ => true)
    if f.kind = .rel ∨ f.kind = .cp then s else s.discardL1 core (fun _ => true)

/-- Complete the satisfied fences of a thread; the directory is asked for the dirty lines that one is to write back. -/
def State.settleFences (s : State) (core tk : Nat) : State :=
  let s := if (s.thread tk).fences.any (fun f => f.cleans) then s.askFor (s.l1Waits core (fun _ => true)) else s
  let t := s.thread tk
  let done := t.fences.filter (s.fenceDone core tk)
  if done.isEmpty then s
  else (done.foldl (fun s f => s.fenceEffect core f) s).modThread tk
    (fun t => { t with fences := t.fences.filter (fun f => !done.contains f) })

/-- Remote operations of a thread sent before an identifier have completed (R221). -/
def State.drained (s : State) (tk upTo : Nat) : Bool :=
  s.fab.ops.all (fun o => !(o.thread == tk && decide (o.id < upTo)))

/-- Complete a satisfied DRAIN. -/
def State.settleDrain (s : State) (tk : Nat) : State :=
  match (s.thread tk).drain with
  | none => s
  | some n => if s.drained tk n then s.modThread tk (fun t => { t with drain := none }) else s

/-- Complete what can be completed for the threads of a run. -/
def State.settleThreads (s : State) (r : Run) : State :=
  r.lanes.foldl (fun s l => (s.settleFences r.core l.2).settleDrain l.2) s

/-- Complete a filing point once its values, fences and drains are in (R113, R219, R221). -/
def State.settleRun (s : State) (r : Run) : State :=
  let s := s.settleThreads r
  match r.ways with
  | none => s
  | some ways =>
    if r.awaitsAny.isNone && r.lanes.all (fun l => (s.thread l.2).fences.isEmpty && (s.thread l.2).drain.isNone)
    then s.dissolve r ways else s

/-- Threads of a core that have exited with fences still pending (R219, R130). -/
def State.fencedDead (s : State) (core : Nat) : List Nat :=
  (s.threads.filter (fun q => !q.2.live && !q.2.fences.isEmpty && (s.group q.2.group).core == core)).map (fun q => q.1)

/-- Settle every run of a core. -/
def State.settleCore (s : State) (core : Nat) : State :=
  let s := (s.fencedDead core).foldl (fun s tk => s.settleFences core tk) s
  (s.runs.filter (fun r => r.core == core)).foldl (fun s r => match s.findRun r.id with
    | some r' => s.settleRun r'
    | none => s) s

/-! ### Page requests (R340, R377) -/

/-- The outstanding request of a (tenant, granule, access) triple. -/
def State.findReq (s : State) (t vpn : Nat) (k : AccKind) : Option PageReq :=
  s.reqs.find? (fun q => q.tenant == t && q.vpn == vpn && q.kind == k)

/-- An identifier that no outstanding request has: the free choice, or else the least. -/
def State.freshRequest (s : State) : Nat :=
  let free := fun (n : Nat) => s.reqs.all (fun q => q.num != n)
  if free (Config.requestId s.turn % 2 ^ 16) then Config.requestId s.turn % 2 ^ 16
  else ((List.range (s.reqs.length + 1)).find? free).getD 0

/-- Join or raise a request; `none` when the hub already holds 4,096. -/
def State.raise (s : State) (t : Nat) (va : DWord) (k : AccKind) : State × Option Nat :=
  match s.findReq t (va.toNat / 4096) k with
  | some q => (s, some q.id)
  | none =>
    if s.reqs.length < 4096 then
      ({ s.nextId with reqs := s.reqs ++ [⟨s.ids, t, va.toNat / 4096, k, false, s.freshRequest, s.now⟩] }, some s.ids)
    else (s, none)

/-- The reason a run is held for, and since when: a reason that goes on keeps its start. -/
def keepHold (h : Hold) (now : Nat) : Option (Hold × Nat) → Option (Hold × Nat)
  | some (h', t) => if h' = h then some (h, t) else some (h, now)
  | none => some (h, now)

/-- Freeze or stall a run (R112, R114, R340): it is no candidate until the hold has ended. -/
def State.hold (s : State) (run : Nat) (h : Hold) : State :=
  let s := match h with
    | .hostLine inval line => s.askLine inval line
    | .snapshotCopy page => s.askCopy page
    | _ => s
  (s.modRun run (fun r => { r with held := keepHold h s.now r.held })).leaveIssue

/-- Freeze a run on a page request. -/
def State.holdPage (s : State) (run t : Nat) (va : DWord) (k : AccKind) : State :=
  let r := s.raise t va k
  match r.2 with
  | some id => r.1.hold run (.page id)
  | none => r.1.hold run .requestFull

/-- A refused request that the waiting bundle of a run has waited on (R340). It stands until that bundle issues or
traps. -/
def State.refusedRun (s : State) (run t vpn : Nat) (k : AccKind) : Bool :=
  s.refused.any (fun q => q.tenant == t && q.vpn == vpn && q.kind == k && q.runs.contains run)

/-- The waiting bundle of a run has issued or trapped: no refused request names it any more, and its bin is free. -/
def State.endWait (s : State) (core run : Nat) : State :=
  let rs := s.refused.map (fun (q : Refused) => ({ q with runs := q.runs.filter (fun x => x != run) } : Refused))
  { s with refused := rs.filter (fun q => !q.runs.isEmpty || !q.cmds.isEmpty) }.modCore core (fun c => { c with bins := c.bins.filter (fun b => b.run != some run) })

/-! ### Ending a launch (R337) -/

/-- Record the status that ends a launch; the first status stands (R336). Its groups end in LAUNCH_ABORT. -/
def State.endLaunch (s : State) (launch status gid : Nat) (detail : DWord) : State :=
  s.modLaunch launch (fun l => match l.status with
    | some _ => l
    | none => { l with status := some status, badGid := gid, detail := detail })

/-- End the launch of a group. -/
def State.endGroupLaunch (s : State) (g status : Nat) (detail : DWord) : State :=
  s.endLaunch (s.group g).launch status (s.group g).gid detail

/-! ### Precise conditions -/

/-- A precise condition of a bundle (R338, R348). `kind` and `page` name the page request of a page-path condition. -/
structure Cond where
  cause : Nat
  reason : Nat
  ident : Nat
  lanes : List Nat
  write : Bool
  addr : DWord
  info : DWord
  kind : AccKind
  deriving DecidableEq, Repr, Inhabited

/-- A condition with a cause, an identifier and the active lanes. -/
def Cond.plain (q : Issue) (cause reason ident : Nat) : Cond :=
  ⟨cause, reason, ident, q.lanes.map (fun l => l.1), false, 0, 0, .read⟩

/-- A group's threads are in handler mode (R342). -/
def inHandler (s : State) (lanes : List (Nat × Nat)) : Bool := lanes.any (fun l => (s.thread l.2).trap.isSome)

/-- The detail word of status 0x07 (R341). -/
def trapDetail (c : Cond) (pc : DWord) : DWord :=
  BitVec.ofNat 64 (c.cause + c.ident * 2 ^ 8 + c.reason * 2 ^ 16 + pc.toNat % 2 ^ 32 * 2 ^ 32)

/-- A launch that a condition ends. -/
def State.fatalCond (s : State) (q : Issue) (c : Cond) : State :=
  ((s.endGroupLaunch q.group 0x07 (trapDetail c q.pc)).endWait q.core q.run).leaveIssue

/-- The 256 bytes of a trap header (R348). -/
def headerBytes (s : State) (q : Issue) (c : Cond) : List Byte :=
  let b := if c.cause = 1 ∨ c.cause = 2 then List.replicate 48 0 else leBytes 48 q.bundle.toNat
  leBytes 8 q.pc.toNat ++ b ++
  [BitVec.ofNat 8 c.cause, BitVec.ofNat 8 c.ident, BitVec.ofNat 8 c.reason, if c.write then 1 else 0] ++
  leBytes 4 (maskOf (q.lanes.map (fun l => l.1))).toNat ++ leBytes 4 (maskOf c.lanes).toNat ++ leBytes 4 0 ++
  leBytes 8 c.addr.toNat ++ leBytes 8 c.info.toNat ++ leBytes 8 0 ++
  ((List.range 32).flatMap (fun i => match assoc q.lanes i with
    | some tk => leBytes 2 (s.thread tk).tid
    | none => leBytes 2 0xFFFF)) ++
  List.replicate 96 0

/-- The codes of R349 for a blocked thread. -/
def Blocked.code : Blocked → Nat
  | .no => 0
  | .bar => 1
  | .svc => 2
  | .frame => 3
  | .refill => 4
  | .page => 5
  | .swap => 6

/-- The 256 bytes of a thread shadow (R349). -/
def shadowBytes (t : Thread) (pc : DWord) (handler : Bool) (blocked : Blocked) : List Byte :=
  leBytes 8 pc.toNat ++
  ((List.range 15).flatMap (fun k => leBytes 8 (t.readX (k + 1)).toNat)) ++
  ((List.range 8).flatMap (fun k => leBytes 8 (t.readB k).toNat)) ++
  leBytes 8 t.loop.ls0.toNat ++ leBytes 8 t.loop.ls1.toNat ++ leBytes 4 t.loop.lc0.toNat ++
  leBytes 4 t.loop.lc1.toNat ++
  [t.loop.ec, t.loop.rrb.zeroExtend 8, t.loop.rot.zeroExtend 8,
   BitVec.ofNat 8 ((if handler then 1 else 0) + 2 * blocked.code)] ++
  leBytes 2 (t.p ||| 1).toNat ++ leBytes 2 t.depth ++ leBytes 8 t.status.toNat ++ leBytes 8 t.amax.toNat ++
  leBytes 8 t.rctr.toNat ++ leBytes 4 t.satcnt.toNat ++ leBytes 4 0

/-- Reload what RESUME.SLOTS and restore read from a shadow (R344). -/
def Thread.reload (t : Thread) (bs : List Byte) : Thread :=
  let t := (List.range 15).foldl (fun t k => t.writeX (k + 1) (BitVec.ofNat 64 (natAt bs (8 + 8 * k) 8))) t
  let t := (List.range 8).foldl (fun t k => t.writeB k (BitVec.ofNat 64 (natAt bs (0x80 + 8 * k) 8))) t
  { t with
    loop := ⟨BitVec.ofNat 32 (natAt bs 0xD0 4), BitVec.ofNat 32 (natAt bs 0xD4 4), bs.getD 0xD8 0,
             (bs.getD 0xD9 0).truncate 6, (bs.getD 0xDA 0).truncate 3, BitVec.ofNat 64 (natAt bs 0xC0 8),
             BitVec.ofNat 64 (natAt bs 0xC8 8)⟩
    p := BitVec.ofNat 16 (natAt bs 0xDC 2 / 2 * 2)
    status := bs.getD 0xE0 0
    amax := BitVec.ofNat 33 (natAt bs 0xE8 8) &&& 0x17FFFFFFF
    rctr := BitVec.ofNat 64 (natAt bs 0xF0 8)
    satcnt := BitVec.ofNat 32 (natAt bs 0xF8 4) }

/-- The address of a trap header in the fixed part (R347). -/
def headerAddr (g : Group) (tid : Nat) : DWord := BitVec.ofNat 64 (g.fixedPart.getD 0 + 256 * tid)
/-- The address of a thread's shadow in the fixed part (R347). DESIGN CHOICE (log entry 38): a group that was placed while
its tenant's pool was disabled has no fixed part; the pool may be enabled later, when its handler-bound conditions still
end the launch with status 0x07, and a save puts its shadows at a fixed part at 0. -/
def shadowAddr (g : Group) (tid : Nat) : DWord := BitVec.ofNat 64 (g.fixedPart.getD 0 + 256 * (g.kernel.gsize + tid))

/-- Translate a list of save-pool writes: all their locations, or the first failure. -/
def State.poolLocs (s : State) (t : Nat) : List (DWord × List Byte) → Except (Nat × DWord) (List (Nat × Byte))
  | [] => .ok []
  | (va, bs) :: rest =>
    match s.locsVa t needW va bs.length with
    | .error e => .error e
    | .ok ls =>
      match s.poolLocs t rest with
      | .error e => .error e
      | .ok more => .ok (ls.zip bs ++ more)

/-- The writes of a handler's entry. -/
def entryWrites (s : State) (q : Issue) (c : Cond) : List (DWord × List Byte) :=
  let g := s.group q.group
  let low := (leastBy (fun l => (s.thread l.2).tid) q.lanes).map (fun l => (s.thread l.2).tid)
  (headerAddr g (low.getD 0), headerBytes s q c) ::
    q.lanes.map (fun l => (shadowAddr g (s.thread l.2).tid, shadowBytes (s.thread l.2) q.pc false .no))

/-- The register changes of a handler's entry (R342). -/
def Thread.enterHandler (t : Thread) (trap : Nat) (header shadow : DWord) : Thread :=
  { ((t.writeX 1 header).writeX 2 shadow) with
    loop := LoopState.zero, p := (0 : BitVec 8) ++ t.p.truncate 8, trap := some trap }

/-- Take threads out of a run, with their results; a run left without threads ends. -/
def State.leaveRun (s : State) (run : Nat) (lanes : List (Nat × Nat)) : State :=
  let s := s.modRun run (fun r =>
    { r with lanes := r.lanes.filter (fun l => !lanes.contains l),
             flights := r.flights.map (fun f =>
               { f with vals := f.vals.filter (fun v => !lanes.any (fun l => l.2 == v.1)) }) })
  match s.findRun run with
  | some r => if r.lanes.isEmpty then s.dropRun run else s
  | none => s

/-- Handler entry once its writes have their locations (R342). -/
def State.enterHandler (s : State) (q : Issue) (c : Cond) (r : Run) (handler : DWord) (bundle : BitVec 384)
    (ws : List (Nat × Byte)) : State :=
  let g := s.group q.group
  let low := ((leastBy (fun l => (s.thread l.2).tid) q.lanes).map (fun l => (s.thread l.2).tid)).getD 0
  let header := headerAddr g low
  let pages := entryWrites s q c
  let s := ws.foldl (fun s w => s.put w.1 [w.2]) s
  let s := pages.foldl (fun s w => s.markRange q.group true w.1 w.2.length) s
  let id := s.ids
  let rec' : TrapRec := ⟨id, q.group, q.core, q.lanes, q.pc, q.count,
    r.flights.filterMap (fun f =>
      let vs := f.vals.filter (fun v => q.lanes.any (fun l => l.2 == v.1))
      if vs.isEmpty then none else some { f with vals := vs }), header, bundle, q.seqPc⟩
  let s := { s.nextId with traps := s.traps ++ [rec'] }
  let s := q.lanes.foldl (fun s l =>
    s.modThread l.2 (fun t => t.enterHandler id header (shadowAddr g t.tid))) s
  (((s.leaveRun q.run q.lanes).endWait q.core q.run).startRun q.core q.group q.lanes handler 0 []).leaveIssue

/-- The service context of a core goes, and its queue entry with it. -/
def State.clearService (s : State) (core : Nat) : State :=
  let s := (s.threads.filter (fun t => groupOfThread t.1 == serviceKey core)).foldl (fun s t => s.endTx t.1) s
  { s with runs := s.runs.filter (fun r => r.group != serviceKey core),
           threads := s.threads.filter (fun t => groupOfThread t.1 != serviceKey core),
           groups := spErase s.groups (serviceKey core) }.modCore core
    (fun c => { c with service := none, bins := c.bins.filter (fun b => b.group != serviceKey core) })

/-- Requesting threads of a service request that still wait for it. -/
def State.svcWaiters (s : State) (q : SvcReq) : List (Nat × Nat) :=
  q.lanes.filter (fun l => (s.thread l.2).live && (s.thread l.2).blocked == .svc)

/-- A released requester of a group that is saved takes its results in its shadow (R353). -/
def State.noteShadow (s : State) (tk : Nat) : State :=
  if (s.group (s.thread tk).group).place = .saved then
    s.modGroup (s.thread tk).group (fun g => { g with shadowDue := g.shadowDue ++ [tk] })
  else s

/-- A precise condition in service code ends it (R358): the requesters go on with x1 all ones. -/
def State.serviceFault (s : State) (core : Nat) : State :=
  let c := s.core core
  match c.service with
  | none => s.leaveIssue
  | some q =>
    let s := (s.leaveIssue.clearService core).send (.serviceFault core)
    (s.svcWaiters q).foldl (fun s l =>
      ((s.setThread l.2 ((s.thread l.2).writeX 1 0xFFFFFFFFFFFFFFFF)).release l.2).noteShadow l.2) s

/-- The handler path of R341 to R343. -/
def State.handlerBound (s : State) (q : Issue) (c : Cond) : State :=
  if isService q.group then s.serviceFault q.core
  else if inHandler s q.lanes then s.fatalCond q c
  else
    let g := s.group q.group
    match g.kernel.handler, g.fixedPart, s.findRun q.run with
    | some h, some _, some r =>
      if !s.poolOn g.tenant then s.fatalCond q c
      else
        match r.awaitsAny with
        | some a => s.hold q.run (.value a)
        | none =>
          match s.poolLocs g.tenant (entryWrites s q c) with
          | .ok ws =>
            match (ws.findSome? (fun w => s.locHold true w.1)).orElse (fun _ =>
                ((entryWrites s q c).findSome? (fun w => s.markWaits q.group true w.1)).map WaitOn.hold) with
            | some h => s.hold q.run h
            | none =>
              (if c.cause = 0x11 then s.modGroup q.group Group.clearSat else s).enterHandler q c r
                h (if c.cause = 1 ∨ c.cause = 2 then 0 else q.bundle) ws
          | .error (code, va) =>
            if code = notPresent then
              if s.refusedRun q.run g.tenant (va.toNat / 4096) .write then
                (s.endGroupLaunch q.group 0x02 va).leaveIssue
              else s.holdPage q.run g.tenant va .write
            else (s.endGroupLaunch q.group 0x02 va).leaveIssue
    | _, _, _ => s.fatalCond q c

/-- Take a precise condition (R339 to R343): the page path for a reason 0 of causes 0x01 and 0x0C unless its request
was refused, else the handler path. The bundle has no effect (R68). -/
def State.takeCond (s : State) (q : Issue) (c : Cond) : State :=
  if (c.cause = 0x01 ∨ c.cause = 0x0C) ∧ c.reason = 0 ∧ isService q.group = false then
    let t := (s.group q.group).tenant
    if s.refusedRun q.run t (c.addr.toNat / 4096) c.kind then s.handlerBound q { c with reason := 2 }
    else s.holdPage q.run t c.addr c.kind
  else s.handlerBound q c

/-- A slot that may take a condition: when BUNDLE_ISSUE has found every condition absent the effect follows. -/
def slotCond (s : State) (cond : Issue → Option Cond) (effect : Issue → Out) : Out :=
  withIssue s (fun q =>
    if q.cleared then effect q
    else match cond q with
      | some c => .next (s.takeCond q c)
      | none => effect q)

end Sys2Proof.Machine
end

