-- ==== Sys2Proof/Machine/Operands.lean ====
section
/-! DEFINITION. Operand forms: the v registers that a slot names with its guard, which the frame-bound checks of R159,
R195 and R200 read, the guard of every slot, and the values of packed elements (R58, R162). -/

namespace Sys2Proof.Machine

/-- Registers `r` to `r + n - 1`. -/
def regRun (r n : Nat) : List Nat := (List.range n).map (fun k => r + k)

/-- The register of source b. -/
def srcRegs : VSrc → List Nat
  | .reg r => [r.toNat]
  | .imm _ => []

/-- The index register of an indexed form (R60). -/
def indexReg (o : MOp) : List Nat := if o.ix then [o.vi.toNat] else []

/-- The guard of a slot that has one (R49). -/
def guardIn (i : Instr) : Option Guard :=
  match i with
  | .add _ _ _ g => some g
  | .sub _ _ _ g => some g
  | .mul _ _ _ g => some g
  | .mulh _ _ _ g => some g
  | .mulhu _ _ _ g => some g
  | .min _ _ _ g => some g
  | .max _ _ _ g => some g
  | .minu _ _ _ g => some g
  | .maxu _ _ _ g => some g
  | .and _ _ _ g => some g
  | .or _ _ _ g => some g
  | .xor _ _ _ g => some g
  | .andn _ _ _ g => some g
  | .sll _ _ _ g => some g
  | .srl _ _ _ g => some g
  | .sra _ _ _ g => some g
  | .addImm _ _ _ g => some g
  | .mulImm _ _ _ g => some g
  | .andImm _ _ _ g => some g
  | .orImm _ _ _ g => some g
  | .xorImm _ _ _ g => some g
  | .sllImm _ _ _ g => some g
  | .srlImm _ _ _ g => some g
  | .sraImm _ _ _ g => some g
  | .sh1add _ _ _ g => some g
  | .sh2add _ _ _ g => some g
  | .sh3add _ _ _ g => some g
  | .clz _ _ g => some g
  | .ctz _ _ g => some g
  | .popc _ _ g => some g
  | .bext _ _ _ g => some g
  | .bextu _ _ _ g => some g
  | .bins _ _ _ g => some g
  | .cmpeq _ _ _ g => some g
  | .cmpne _ _ _ g => some g
  | .cmplt _ _ _ g => some g
  | .cmpltu _ _ _ g => some g
  | .cmple _ _ _ g => some g
  | .cmpleu _ _ _ g => some g
  | .cmpeqImm _ _ _ g => some g
  | .cmpneImm _ _ _ g => some g
  | .cmpltImm _ _ _ g => some g
  | .cmpltuImm _ _ _ g => some g
  | .cmpgtImm _ _ _ g => some g
  | .cmpgtuImm _ _ _ g => some g
  | .sel _ _ _ _ _ g => some g
  | .adr _ _ g => some g
  | .tgtLabel _ _ g => some g
  | .tgtReg _ _ g => some g
  | .getsr _ _ g => some g
  | .setsr _ _ g => some g
  | .semset _ _ g => some g
  | .semadd _ _ g => some g
  | .semwait _ _ g => some g
  | .tagwa _ g => some g
  | .tagwl _ g => some g
  | .tagff _ _ g => some g
  | .tsel _ _ g => some g
  | .pswap g => some g
  | .ftset _ _ g => some g
  | .sqrd _ _ g => some g
  | .resumeSlots _ _ g => some g
  | .dswap _ g => some g
  | .vadd o => some o.g
  | .vsub o => some o.g
  | .vmul o => some o.g
  | .vmulh o => some o.g
  | .vmad o => some o.g
  | .vdot4 o => some o.g
  | .vmin o => some o.g
  | .vmax o => some o.g
  | .vabs o => some o.g
  | .vand o => some o.g
  | .vor o => some o.g
  | .vxor o => some o.g
  | .vandn o => some o.g
  | .vshl o => some o.g
  | .vshr o => some o.g
  | .vclz o => some o.g
  | .vpopc o => some o.g
  | .vmov o => some o.g
  | .vcmpeq o => some o.g
  | .vcmpne o => some o.g
  | .vcmplt o => some o.g
  | .vcmple o => some o.g
  | .vsel _ _ _ _ _ g => some g
  | .vfadd o => some o.g
  | .vfsub o => some o.g
  | .vfmul o => some o.g
  | .vfma o => some o.g
  | .vfmin o => some o.g
  | .vfmax o => some o.g
  | .vfabs _ _ g => some g
  | .vfneg _ _ g => some g
  | .vhadd o => some o.g
  | .vhsub o => some o.g
  | .vhmul o => some o.g
  | .vhfma o => some o.g
  | .vbadd o => some o.g
  | .vbsub o => some o.g
  | .vbmul o => some o.g
  | .vbfma o => some o.g
  | .vcvtf o _ => some o.g
  | .vcvts o => some o.g
  | .vcvtx _ _ _ _ g => some g
  | .vftoi _ _ _ _ _ g => some g
  | .vitof _ _ _ _ g => some g
  | .vcvth _ _ _ _ _ _ g => some g
  | .vnps _ _ _ g => some g
  | .vnpm _ _ _ g => some g
  | .vshfl _ _ _ _ g => some g
  | .vperm _ _ _ g => some g
  | .vmatch _ _ _ g => some g
  | .vballot _ _ _ g => some g
  | .vvote _ _ _ _ g => some g
  | .vscan _ _ _ _ _ g => some g
  | .vred _ _ _ _ g => some g
  | .vbcast _ _ _ g => some g
  | .vaccrd _ _ _ _ g => some g
  | .vaccwr _ _ _ _ g => some g
  | .tokv _ g => some g
  | .tokm _ g => some g
  | .vxtov _ _ _ g => some g
  | .vvtox _ _ _ g => some g
  | .fev _ _ _ g => some g
  | .fevE2 _ _ _ g => some g
  | .fevL2 _ _ _ g => some g
  | .fevRc _ _ _ g => some g
  | .fevRs _ _ _ g => some g
  | .fevPd _ _ _ g => some g
  | .fseg _ _ _ g => some g
  | .fdom _ _ _ g => some g
  | .ldZ8 o => some o.g
  | .ldS8 o => some o.g
  | .ldZ16 o => some o.g
  | .ldS16 o => some o.g
  | .ld32 o => some o.g
  | .ld64 o => some o.g
  | .ld128 o => some o.g
  | .ldA16 o => some o.g
  | .ldsZ8 o => some o.g
  | .ldsS8 o => some o.g
  | .ldsZ16 o => some o.g
  | .ldsS16 o => some o.g
  | .lds32 o => some o.g
  | .lds64 o => some o.g
  | .lds128 o => some o.g
  | .ldsA16 o => some o.g
  | .st8 o => some o.g
  | .st16 o => some o.g
  | .st32 o => some o.g
  | .st64 o => some o.g
  | .st128 o => some o.g
  | .stA16 o => some o.g
  | .sts8 o => some o.g
  | .sts16 o => some o.g
  | .sts32 o => some o.g
  | .sts64 o => some o.g
  | .sts128 o => some o.g
  | .stsA16 o => some o.g
  | .atomAdd o => some o.g
  | .atomMin o => some o.g
  | .atomMax o => some o.g
  | .atomMinu o => some o.g
  | .atomMaxu o => some o.g
  | .atomAnd o => some o.g
  | .atomOr o => some o.g
  | .atomXor o => some o.g
  | .atomExch o => some o.g
  | .atomCas o => some o.g
  | .atomFaddF32 o => some o.g
  | .atomFaddBf16X2 o => some o.g
  | .atomsAdd o => some o.g
  | .atomsMin o => some o.g
  | .atomsMax o => some o.g
  | .atomsMinu o => some o.g
  | .atomsMaxu o => some o.g
  | .atomsAnd o => some o.g
  | .atomsOr o => some o.g
  | .atomsXor o => some o.g
  | .atomsExch o => some o.g
  | .atomsCas o => some o.g
  | .atomsFaddF32 o => some o.g
  | .atomsFaddBf16X2 o => some o.g
  | .pref _ _ _ g => some g
  | .clean _ _ g => some g
  | .inval _ _ g => some g
  | .icinv _ g => some g
  | .fenceAcq g => some g
  | .fenceRel g => some g
  | .fenceAr g => some g
  | .fenceSc g => some g
  | .fenceCp g => some g
  | .drain g => some g
  | .fst o => some o.g
  | .fsig _ _ g => some g
  | .launch _ _ g => some g
  | .acqProm _ g => some g
  | .txbegin _ _ g => some g
  | .txst o => some o.g
  | .txcommit _ g => some g
  | .txabort g => some g
  | _ => none

/-- The v registers that a slot names, each register of a multi-register operand counted. -/
def namedV (i : Instr) : List Nat :=
  match i with
  | .vadd o => srcRegs o.b ++ [o.va.toNat, o.vd.toNat]
  | .vsub o => srcRegs o.b ++ [o.va.toNat, o.vd.toNat]
  | .vmul o => srcRegs o.b ++ [o.va.toNat, o.vd.toNat]
  | .vmulh o => srcRegs o.b ++ [o.va.toNat, o.vd.toNat]
  | .vmad o => srcRegs o.b ++ [o.va.toNat, o.vd.toNat]
  | .vdot4 o => srcRegs o.b ++ [o.va.toNat, o.vd.toNat]
  | .vmin o => srcRegs o.b ++ [o.va.toNat, o.vd.toNat]
  | .vmax o => srcRegs o.b ++ [o.va.toNat, o.vd.toNat]
  | .vabs o => srcRegs o.b ++ [o.va.toNat, o.vd.toNat]
  | .vand o => srcRegs o.b ++ [o.va.toNat, o.vd.toNat]
  | .vor o => srcRegs o.b ++ [o.va.toNat, o.vd.toNat]
  | .vxor o => srcRegs o.b ++ [o.va.toNat, o.vd.toNat]
  | .vandn o => srcRegs o.b ++ [o.va.toNat, o.vd.toNat]
  | .vshl o => srcRegs o.b ++ [o.va.toNat, o.vd.toNat]
  | .vshr o => srcRegs o.b ++ [o.va.toNat, o.vd.toNat]
  | .vclz o => srcRegs o.b ++ [o.va.toNat, o.vd.toNat]
  | .vpopc o => srcRegs o.b ++ [o.va.toNat, o.vd.toNat]
  | .vmov o => srcRegs o.b ++ [o.va.toNat, o.vd.toNat]
  | .vcmpeq o => srcRegs o.b ++ [o.va.toNat]
  | .vcmpne o => srcRegs o.b ++ [o.va.toNat]
  | .vcmplt o => srcRegs o.b ++ [o.va.toNat]
  | .vcmple o => srcRegs o.b ++ [o.va.toNat]
  | .vsel vd _ _ va vb _ => [vd.toNat, va.toNat, vb.toNat]
  | .vfadd o => [o.vd.toNat, o.va.toNat, o.vb.toNat]
  | .vfsub o => [o.vd.toNat, o.va.toNat, o.vb.toNat]
  | .vfmul o => [o.vd.toNat, o.va.toNat, o.vb.toNat]
  | .vfma o => [o.vd.toNat, o.va.toNat, o.vb.toNat]
  | .vfmin o => [o.vd.toNat, o.va.toNat, o.vb.toNat]
  | .vfmax o => [o.vd.toNat, o.va.toNat, o.vb.toNat]
  | .vfabs vd va _ => [vd.toNat, va.toNat]
  | .vfneg vd va _ => [vd.toNat, va.toNat]
  | .vhadd o => [o.vd.toNat, o.va.toNat, o.vb.toNat]
  | .vhsub o => [o.vd.toNat, o.va.toNat, o.vb.toNat]
  | .vhmul o => [o.vd.toNat, o.va.toNat, o.vb.toNat]
  | .vhfma o => [o.vd.toNat, o.va.toNat, o.vb.toNat]
  | .vbadd o => [o.vd.toNat, o.va.toNat, o.vb.toNat]
  | .vbsub o => [o.vd.toNat, o.va.toNat, o.vb.toNat]
  | .vbmul o => [o.vd.toNat, o.va.toNat, o.vb.toNat]
  | .vbfma o => [o.vd.toNat, o.va.toNat, o.vb.toNat]
  | .vcvtf o _ => [o.vd.toNat, o.va.toNat]
  | .vcvts o => [o.vd.toNat, o.va.toNat]
  | .vcvtx vd va _ _ _ => [vd.toNat, va.toNat]
  | .vftoi vd va _ _ _ _ => [vd.toNat, va.toNat]
  | .vitof vd va _ _ _ => [vd.toNat, va.toNat]
  | .vcvth vd va vb _ _ _ _ => [vd.toNat, va.toNat, vb.toNat]
  | .vnps vd va _ _ => vd.toNat :: regRun va.toNat 8
  | .vnpm vd va _ _ => va.toNat :: regRun vd.toNat 8
  | .vshfl vd va vb _ _ => srcRegs vb ++ [vd.toNat, va.toNat]
  | .vperm vd va _ _ => [vd.toNat, va.toNat]
  | .vmatch vd va _ _ => [vd.toNat, va.toNat]
  | .vballot vd _ _ _ => [vd.toNat]
  | .vvote _ _ _ _ _ => []
  | .vscan vd va _ _ _ _ => [vd.toNat, va.toNat]
  | .vred vd va _ _ _ => [vd.toNat, va.toNat]
  | .vbcast vd va _ _ => [vd.toNat, va.toNat]
  | .vaccrd vd _ _ row _ => [vd.toNat, row.toNat]
  | .vaccwr _ _ row data _ => [row.toNat, data.toNat]
  | .vxtov vd _ _ _ => [vd.toNat]
  | .vvtox _ va _ _ => [va.toNat]
  | .fev vd va _ _ => [vd.toNat, va.toNat]
  | .fevE2 vd va _ _ => [vd.toNat, va.toNat]
  | .fevL2 vd va _ _ => [vd.toNat, va.toNat]
  | .fevRc vd va _ _ => [vd.toNat, va.toNat]
  | .fevRs vd va _ _ => [vd.toNat, va.toNat]
  | .fevPd vd va _ _ => [vd.toNat, va.toNat]
  | .fseg vd va _ _ => [vd.toNat, va.toNat]
  | .fdom _ va _ _ => [va.toNat]
  | .ldZ8 o => indexReg o ++ regRun o.data.toNat 1
  | .ldS8 o => indexReg o ++ regRun o.data.toNat 1
  | .ldZ16 o => indexReg o ++ regRun o.data.toNat 1
  | .ldS16 o => indexReg o ++ regRun o.data.toNat 1
  | .ld32 o => indexReg o ++ regRun o.data.toNat 1
  | .ld64 o => indexReg o ++ regRun o.data.toNat 2
  | .ld128 o => indexReg o ++ regRun o.data.toNat 4
  | .ldA16 o => indexReg o ++ regRun o.data.toNat 4
  | .ldsZ8 o => indexReg o ++ regRun o.data.toNat 1
  | .ldsS8 o => indexReg o ++ regRun o.data.toNat 1
  | .ldsZ16 o => indexReg o ++ regRun o.data.toNat 1
  | .ldsS16 o => indexReg o ++ regRun o.data.toNat 1
  | .lds32 o => indexReg o ++ regRun o.data.toNat 1
  | .lds64 o => indexReg o ++ regRun o.data.toNat 2
  | .lds128 o => indexReg o ++ regRun o.data.toNat 4
  | .ldsA16 o => indexReg o ++ regRun o.data.toNat 4
  | .st8 o => indexReg o ++ regRun o.data.toNat 1
  | .st16 o => indexReg o ++ regRun o.data.toNat 1
  | .st32 o => indexReg o ++ regRun o.data.toNat 1
  | .st64 o => indexReg o ++ regRun o.data.toNat 2
  | .st128 o => indexReg o ++ regRun o.data.toNat 4
  | .stA16 o => indexReg o ++ regRun o.data.toNat 4
  | .sts8 o => indexReg o ++ regRun o.data.toNat 1
  | .sts16 o => indexReg o ++ regRun o.data.toNat 1
  | .sts32 o => indexReg o ++ regRun o.data.toNat 1
  | .sts64 o => indexReg o ++ regRun o.data.toNat 2
  | .sts128 o => indexReg o ++ regRun o.data.toNat 4
  | .stsA16 o => indexReg o ++ regRun o.data.toNat 4
  | .atomAdd o => o.vi.toNat :: regRun o.data.toNat 1
  | .atomMin o => o.vi.toNat :: regRun o.data.toNat 1
  | .atomMax o => o.vi.toNat :: regRun o.data.toNat 1
  | .atomMinu o => o.vi.toNat :: regRun o.data.toNat 1
  | .atomMaxu o => o.vi.toNat :: regRun o.data.toNat 1
  | .atomAnd o => o.vi.toNat :: regRun o.data.toNat 1
  | .atomOr o => o.vi.toNat :: regRun o.data.toNat 1
  | .atomXor o => o.vi.toNat :: regRun o.data.toNat 1
  | .atomExch o => o.vi.toNat :: regRun o.data.toNat 1
  | .atomCas o => o.vi.toNat :: regRun o.data.toNat 2
  | .atomFaddF32 o => o.vi.toNat :: regRun o.data.toNat 1
  | .atomFaddBf16X2 o => o.vi.toNat :: regRun o.data.toNat 1
  | .atomsAdd o => o.vi.toNat :: regRun o.data.toNat 1
  | .atomsMin o => o.vi.toNat :: regRun o.data.toNat 1
  | .atomsMax o => o.vi.toNat :: regRun o.data.toNat 1
  | .atomsMinu o => o.vi.toNat :: regRun o.data.toNat 1
  | .atomsMaxu o => o.vi.toNat :: regRun o.data.toNat 1
  | .atomsAnd o => o.vi.toNat :: regRun o.data.toNat 1
  | .atomsOr o => o.vi.toNat :: regRun o.data.toNat 1
  | .atomsXor o => o.vi.toNat :: regRun o.data.toNat 1
  | .atomsExch o => o.vi.toNat :: regRun o.data.toNat 1
  | .atomsCas o => o.vi.toNat :: regRun o.data.toNat 2
  | .atomsFaddF32 o => o.vi.toNat :: regRun o.data.toNat 1
  | .atomsFaddBf16X2 o => o.vi.toNat :: regRun o.data.toNat 1
  | .fst o => o.vi.toNat :: regRun o.data.toNat 4
  | .launch data _ _ => regRun data.toNat 2
  | .txbegin data _ _ => [data.toNat]
  | .txst o => o.vi.toNat :: regRun o.data.toNat 4
  | .txcommit data _ => [data.toNat]
  | _ => []

/-- The frame-bound condition of a slot (R159, R200): a participant names a register beyond its frame. -/
def frameCond (s : State) (q : Issue) (i : Instr) : Option Cond :=
  let ps := participants s q ((guardIn i).getD Guard.always)
  if ps.any (fun l => (namedV i).any (fun r => decide ((s.thread l.2).vCount ≤ r))) then
    some (Cond.plain q 0x05 0 q.cur)
  else none

/-- A slot whose only condition is the frame bound. -/
def framed (s : State) (i : Instr) (effect : Issue → State) : Out :=
  slotCond s (fun q => frameCond s q i) (fun q => .next (effect q))

/-! ### Packed elements -/

/-- Source register of a lane. -/
def vOf (s : State) (l : Nat × Nat) (r : BitVec 8) : Word := (s.thread l.2).readV r.toNat

/-- Signedness of a TYPE code (R58). -/
def typeSigned (ty : Nat) : Bool := ty == 0 || ty == 2 || ty == 4

/-- The value of a raw element. -/
def elemVal (signed : Bool) (w raw : Nat) : Int :=
  if signed ∧ 2 ^ (w - 1) ≤ raw then (raw : Int) - 2 ^ w else raw

/-- The raw bits of an exact value: wrapped, or saturated to the element type. -/
def narrow (sat signed : Bool) (w : Nat) (t : Int) : Nat :=
  let hi : Int := if signed then 2 ^ (w - 1) - 1 else 2 ^ w - 1
  let lo : Int := if signed then -(2 ^ (w - 1)) else 0
  let v := if sat then max lo (min hi t) else t
  (v % 2 ^ w).toNat

/-- Source b as a word: the register, or the sign-extended and replicated immediate. -/
def srcWord (s : State) (l : Nat × Nat) (w : Nat) (b : VSrc) : Word :=
  match b with
  | .reg r => vOf s l r
  | .imm i => fromElems w (fun _ => (i.signExtend 32).toNat)

end Sys2Proof.Machine
end

