-- ==== Sys2Proof/Machine/Scalar.lean ====
section
/-! DEFINITION. The scalar engine's slots (05 R134 to R154): arithmetic, bit fields, compares, selection, special
registers, semaphores, copy tags, format-table entries and the statistics queue. -/

namespace Sys2Proof.Machine

/-! ### Operands -/

/-- Source register of a lane. -/
def xOf (s : State) (l : Nat × Nat) (r : BitVec 4) : DWord := (s.thread l.2).readX r.toNat

/-- The signed immediate of an extendable opcode: IMM9, or {IMM25, IMM9} under LIMM (R56). -/
def immOf (q : Issue) (imm : BitVec 9) : DWord :=
  match q.ext with
  | none => imm.signExtend 64
  | some e => (e ++ imm).signExtend 64

/-- A register form: xd := f(xa, xb) in each passing lane. -/
def aluRR (lat : Nat) (f : DWord → DWord → DWord) (xd xa xb : BitVec 4) (g : Guard) (s : State) : Out :=
  slotNext s (fun q => s.flyX q g lat xd (fun l => f (xOf s l xa) (xOf s l xb)))

/-- An immediate form. -/
def aluRI (lat : Nat) (f : DWord → DWord → DWord) (xd xa : BitVec 4) (imm : BitVec 9) (g : Guard) (s : State) : Out :=
  slotNext s (fun q => s.flyX q g lat xd (fun l => f (xOf s l xa) (immOf q imm)))

/-- A shift by an immediate, which LIMM does not extend. -/
def aluSh (f : DWord → DWord → DWord) (xd xa : BitVec 4) (imm : BitVec 6) (g : Guard) (s : State) : Out :=
  slotNext s (fun q => s.flyX q g latScalar xd (fun l => f (xOf s l xa) (imm.zeroExtend 64)))

/-- A form of one source. -/
def aluR (f : DWord → DWord) (xd xa : BitVec 4) (g : Guard) (s : State) : Out :=
  slotNext s (fun q => s.flyX q g latScalar xd (fun l => f (xOf s l xa)))

/-- A compare of two registers (R145). -/
def cmpRR (f : DWord → DWord → Bool) (pd xa xb : BitVec 4) (g : Guard) (s : State) : Out :=
  slotNext s (fun q => s.flyP q g latScalar pd (fun l => f (xOf s l xa) (xOf s l xb)))

/-- A compare with an immediate. -/
def cmpRI (f : DWord → DWord → Bool) (pd xa : BitVec 4) (imm : BitVec 9) (g : Guard) (s : State) : Out :=
  slotNext s (fun q => s.flyP q g latScalar pd (fun l => f (xOf s l xa) (immOf q imm)))

/-! ### The operations of R142 and R143 -/

/-- Bits [127:64] of the signed product. -/
def mulHigh (a b : DWord) : DWord := BitVec.ofInt 64 (a.toInt * b.toInt / 2 ^ 64)
/-- Bits [127:64] of the unsigned product. -/
def mulHighU (a b : DWord) : DWord := BitVec.ofNat 64 (a.toNat * b.toNat / 2 ^ 64)
def minS (a b : DWord) : DWord := if b.toInt < a.toInt then b else a
def maxS (a b : DWord) : DWord := if a.toInt < b.toInt then b else a
def minU (a b : DWord) : DWord := if b.toNat < a.toNat then b else a
def maxU (a b : DWord) : DWord := if a.toNat < b.toNat then b else a
/-- The amount of a shift is b[5:0]. -/
def shl64 (a b : DWord) : DWord := a <<< (b.toNat % 64)
def shr64 (a b : DWord) : DWord := a >>> (b.toNat % 64)
def sar64 (a b : DWord) : DWord := a.sshiftRight (b.toNat % 64)
/-- Leading zeros of the low `n` bits. -/
def leadingZeros {w : Nat} (a : BitVec w) : Nat → Nat
  | 0 => 0
  | n + 1 => if a.getLsbD n then 0 else 1 + leadingZeros a n
/-- Trailing zeros, counted from bit `i`, with `n` bits to go. -/
def trailingZeros {w : Nat} (a : BitVec w) (i : Nat) : Nat → Nat
  | 0 => 0
  | n + 1 => if a.getLsbD i then 0 else 1 + trailingZeros a (i + 1) n
/-- Ones among the low `n` bits. -/
def countOnes {w : Nat} (a : BitVec w) : Nat → Nat
  | 0 => 0
  | n + 1 => (if a.getLsbD n then 1 else 0) + countOnes a n
def clz64 (a : DWord) : DWord := BitVec.ofNat 64 (leadingZeros a 64)
def ctz64 (a : DWord) : DWord := BitVec.ofNat 64 (trailingZeros a 0 64)
def popc64 (a : DWord) : DWord := BitVec.ofNat 64 (countOnes a 64)

/-- Start and width of the bit field that xb names (R143). -/
def fieldPos (b : DWord) : Nat := b.toNat % 64
def fieldWidth (b : DWord) : Nat := min (b.toNat / 2 ^ 8 % 128) (64 - fieldPos b)

def bextu64 (a b : DWord) : DWord := BitVec.ofNat 64 (a.toNat / 2 ^ fieldPos b % 2 ^ fieldWidth b)
def bext64 (a b : DWord) : DWord :=
  let v := a.toNat / 2 ^ fieldPos b % 2 ^ fieldWidth b
  if fieldWidth b ≠ 0 ∧ 2 ^ (fieldWidth b - 1) ≤ v then BitVec.ofInt 64 ((v : Int) - 2 ^ fieldWidth b)
  else BitVec.ofNat 64 v
/-- BINS: the low bits of a replace the field of d. -/
def bins64 (d a b : DWord) : DWord :=
  let mask : DWord := BitVec.ofNat 64 ((2 ^ fieldWidth b - 1) * 2 ^ fieldPos b)
  (d &&& ~~~mask) ||| ((a <<< fieldPos b) &&& mask)

def ltS (a b : DWord) : Bool := decide (a.toInt < b.toInt)
def ltU (a b : DWord) : Bool := decide (a.toNat < b.toNat)
def leS (a b : DWord) : Bool := decide (a.toInt ≤ b.toInt)
def leU (a b : DWord) : Bool := decide (a.toNat ≤ b.toNat)

/-! ### Arithmetic, logic and bit fields (R142, R143) -/

/-- ADD (R142). -/
def execAdd (xd xa xb : BitVec 4) (g : Guard) (s : State) : Out := aluRR latScalar (fun a b => a + b) xd xa xb g s
/-- SUB (R142). -/
def execSub (xd xa xb : BitVec 4) (g : Guard) (s : State) : Out := aluRR latScalar (fun a b => a - b) xd xa xb g s
/-- MUL (R142). -/
def execMul (xd xa xb : BitVec 4) (g : Guard) (s : State) : Out := aluRR latScalarMul (fun a b => a * b) xd xa xb g s
/-- MULH (R142). -/
def execMulh (xd xa xb : BitVec 4) (g : Guard) (s : State) : Out := aluRR latScalarMul (fun a b => mulHigh a b) xd xa xb g s
/-- MULHU (R142). -/
def execMulhu (xd xa xb : BitVec 4) (g : Guard) (s : State) : Out := aluRR latScalarMul (fun a b => mulHighU a b) xd xa xb g s
/-- MIN (R142). -/
def execMin (xd xa xb : BitVec 4) (g : Guard) (s : State) : Out := aluRR latScalar (fun a b => minS a b) xd xa xb g s
/-- MAX (R142). -/
def execMax (xd xa xb : BitVec 4) (g : Guard) (s : State) : Out := aluRR latScalar (fun a b => maxS a b) xd xa xb g s
/-- MINU (R142). -/
def execMinu (xd xa xb : BitVec 4) (g : Guard) (s : State) : Out := aluRR latScalar (fun a b => minU a b) xd xa xb g s
/-- MAXU (R142). -/
def execMaxu (xd xa xb : BitVec 4) (g : Guard) (s : State) : Out := aluRR latScalar (fun a b => maxU a b) xd xa xb g s
/-- AND (R142). -/
def execAnd (xd xa xb : BitVec 4) (g : Guard) (s : State) : Out := aluRR latScalar (fun a b => a &&& b) xd xa xb g s
/-- OR (R142). -/
def execOr (xd xa xb : BitVec 4) (g : Guard) (s : State) : Out := aluRR latScalar (fun a b => a ||| b) xd xa xb g s
/-- XOR (R142). -/
def execXor (xd xa xb : BitVec 4) (g : Guard) (s : State) : Out := aluRR latScalar (fun a b => a ^^^ b) xd xa xb g s
/-- ANDN (R142). -/
def execAndn (xd xa xb : BitVec 4) (g : Guard) (s : State) : Out := aluRR latScalar (fun a b => a &&& ~~~b) xd xa xb g s
/-- SLL (R142). -/
def execSll (xd xa xb : BitVec 4) (g : Guard) (s : State) : Out := aluRR latScalar (fun a b => shl64 a b) xd xa xb g s
/-- SRL (R142). -/
def execSrl (xd xa xb : BitVec 4) (g : Guard) (s : State) : Out := aluRR latScalar (fun a b => shr64 a b) xd xa xb g s
/-- SRA (R142). -/
def execSra (xd xa xb : BitVec 4) (g : Guard) (s : State) : Out := aluRR latScalar (fun a b => sar64 a b) xd xa xb g s
/-- SH1ADD (R142). -/
def execSh1add (xd xa xb : BitVec 4) (g : Guard) (s : State) : Out := aluRR latScalar (fun a b => (a <<< 1) + b) xd xa xb g s
/-- SH2ADD (R142). -/
def execSh2add (xd xa xb : BitVec 4) (g : Guard) (s : State) : Out := aluRR latScalar (fun a b => (a <<< 2) + b) xd xa xb g s
/-- SH3ADD (R142). -/
def execSh3add (xd xa xb : BitVec 4) (g : Guard) (s : State) : Out := aluRR latScalar (fun a b => (a <<< 3) + b) xd xa xb g s
/-- BEXT (R143). -/
def execBext (xd xa xb : BitVec 4) (g : Guard) (s : State) : Out := aluRR latScalar (fun a b => bext64 a b) xd xa xb g s
/-- BEXTU (R143). -/
def execBextu (xd xa xb : BitVec 4) (g : Guard) (s : State) : Out := aluRR latScalar (fun a b => bextu64 a b) xd xa xb g s
/-- ADD with an immediate (R142). -/
def execAddImm (xd xa : BitVec 4) (imm : BitVec 9) (g : Guard) (s : State) : Out := aluRI latScalar (fun a b => a + b) xd xa imm g s
/-- MUL with an immediate (R142). -/
def execMulImm (xd xa : BitVec 4) (imm : BitVec 9) (g : Guard) (s : State) : Out := aluRI latScalarMul (fun a b => a * b) xd xa imm g s
/-- AND with an immediate (R142). -/
def execAndImm (xd xa : BitVec 4) (imm : BitVec 9) (g : Guard) (s : State) : Out := aluRI latScalar (fun a b => a &&& b) xd xa imm g s
/-- OR with an immediate (R142). -/
def execOrImm (xd xa : BitVec 4) (imm : BitVec 9) (g : Guard) (s : State) : Out := aluRI latScalar (fun a b => a ||| b) xd xa imm g s
/-- XOR with an immediate (R142). -/
def execXorImm (xd xa : BitVec 4) (imm : BitVec 9) (g : Guard) (s : State) : Out := aluRI latScalar (fun a b => a ^^^ b) xd xa imm g s
/-- SLL by an immediate (R142). -/
def execSllImm (xd xa : BitVec 4) (imm : BitVec 6) (g : Guard) (s : State) : Out := aluSh shl64 xd xa imm g s
/-- SRL by an immediate (R142). -/
def execSrlImm (xd xa : BitVec 4) (imm : BitVec 6) (g : Guard) (s : State) : Out := aluSh shr64 xd xa imm g s
/-- SRA by an immediate (R142). -/
def execSraImm (xd xa : BitVec 4) (imm : BitVec 6) (g : Guard) (s : State) : Out := aluSh sar64 xd xa imm g s
/-- CLZ (R142). -/
def execClz (xd xa : BitVec 4) (g : Guard) (s : State) : Out := aluR clz64 xd xa g s
/-- CTZ (R142). -/
def execCtz (xd xa : BitVec 4) (g : Guard) (s : State) : Out := aluR ctz64 xd xa g s
/-- POPC (R142). -/
def execPopc (xd xa : BitVec 4) (g : Guard) (s : State) : Out := aluR popc64 xd xa g s
/-- BINS (R143): xd is both a source and the destination. -/
def execBins (xd xa xb : BitVec 4) (g : Guard) (s : State) : Out :=
  slotNext s (fun q => s.flyX q g latScalar xd (fun l => bins64 (xOf s l xd) (xOf s l xa) (xOf s l xb)))

/-! ### Compares and selection (R145, R146) -/

/-- CMPEQ (R145). -/
def execCmpeq (pd xa xb : BitVec 4) (g : Guard) (s : State) : Out := cmpRR (fun a b => a == b) pd xa xb g s
/-- CMPNE (R145). -/
def execCmpne (pd xa xb : BitVec 4) (g : Guard) (s : State) : Out := cmpRR (fun a b => a != b) pd xa xb g s
/-- CMPLT (R145). -/
def execCmplt (pd xa xb : BitVec 4) (g : Guard) (s : State) : Out := cmpRR (fun a b => ltS a b) pd xa xb g s
/-- CMPLTU (R145). -/
def execCmpltu (pd xa xb : BitVec 4) (g : Guard) (s : State) : Out := cmpRR (fun a b => ltU a b) pd xa xb g s
/-- CMPLE (R145). -/
def execCmple (pd xa xb : BitVec 4) (g : Guard) (s : State) : Out := cmpRR (fun a b => leS a b) pd xa xb g s
/-- CMPLEU (R145). -/
def execCmpleu (pd xa xb : BitVec 4) (g : Guard) (s : State) : Out := cmpRR (fun a b => leU a b) pd xa xb g s
/-- CMPEQ with an immediate (R145). -/
def execCmpeqImm (pd xa : BitVec 4) (imm : BitVec 9) (g : Guard) (s : State) : Out := cmpRI (fun a b => a == b) pd xa imm g s
/-- CMPNE with an immediate (R145). -/
def execCmpneImm (pd xa : BitVec 4) (imm : BitVec 9) (g : Guard) (s : State) : Out := cmpRI (fun a b => a != b) pd xa imm g s
/-- CMPLT with an immediate (R145). -/
def execCmpltImm (pd xa : BitVec 4) (imm : BitVec 9) (g : Guard) (s : State) : Out := cmpRI (fun a b => ltS a b) pd xa imm g s
/-- CMPLTU with an immediate (R145). -/
def execCmpltuImm (pd xa : BitVec 4) (imm : BitVec 9) (g : Guard) (s : State) : Out := cmpRI (fun a b => ltU a b) pd xa imm g s
/-- CMPGT with an immediate (R145). -/
def execCmpgtImm (pd xa : BitVec 4) (imm : BitVec 9) (g : Guard) (s : State) : Out := cmpRI (fun a b => ltS b a) pd xa imm g s
/-- CMPGTU with an immediate (R145). -/
def execCmpgtuImm (pd xa : BitVec 4) (imm : BitVec 9) (g : Guard) (s : State) : Out := cmpRI (fun a b => ltU b a) pd xa imm g s
/-- SEL (R146). -/
def execSel (xd pn : BitVec 4) (sense : Bool) (xa xb : BitVec 4) (g : Guard) (s : State) : Out :=
  slotNext s (fun q => s.flyX q g latScalar xd (fun l =>
    if (s.thread l.2).readP pn.toNat != sense then xOf s l xa else xOf s l xb))

/-! ### Immediates and branch targets (R56, R144) -/

/-- LIMM (R56): the upper immediate bits of S0, which acts after it. -/
def execLimm (imm : BitVec 25) (s : State) : Out :=
  slotNext s (fun q => { s with issue := some { q with ext := some imm } })

/-- PC + 2 x imm. -/
def labelOf (q : Issue) (imm : BitVec 9) : DWord := q.pc + 2 * immOf q imm

/-- ADR (R144). -/
def execAdr (xd : BitVec 4) (imm : BitVec 9) (g : Guard) (s : State) : Out :=
  slotNext s (fun q => s.flyX q g latScalar xd (fun _ => labelOf q imm))
/-- TGT with a label (R144). -/
def execTgtLabel (bd : BitVec 3) (imm : BitVec 9) (g : Guard) (s : State) : Out :=
  slotNext s (fun q => s.flyB q g latScalar bd (fun _ => labelOf q imm))
/-- TGT with a register (R144). -/
def execTgtReg (bd : BitVec 3) (xa : BitVec 4) (g : Guard) (s : State) : Out :=
  slotNext s (fun q => s.flyB q g latScalar bd (fun l => xOf s l xa))

/-! ### Special registers (R138, R139) -/

/-- The window sizes that a group was granted (R20). -/
def Kernel.semWindow (k : Kernel) : Nat := roundUp k.sems 8
def Kernel.tagWindow (k : Kernel) : Nat := roundUp k.tags 8
def Kernel.fmtWindow (k : Kernel) : Nat := if k.tiles = 0 then 0 else 16

/-- Bits [n-1:0]. -/
def lowMask (n : Nat) : DWord := BitVec.ofNat 64 (2 ^ n - 1)

/-- %tags at the start of the core's cycle (R139, R149): bits at or above the window read 0. -/
def Group.tagBits (g : Group) : DWord := g.tagBase &&& lowMask g.kernel.tagWindow

/-- A bit field of a launch's packet word (R322). -/
def Launch.bits (l : Launch) (w lo n : Nat) : Nat := (l.words.getD w 0).toNat / 2 ^ lo % 2 ^ n
def Launch.grid (l : Launch) : Nat := l.bits 1 0 22 + 1
def Launch.gsize (l : Launch) : Nat := l.bits 1 22 10 + 1
def Launch.gang (l : Launch) : Nat := 2 ^ l.bits 1 32 2
def Launch.fuse (l : Launch) : Bool := l.bits 1 34 1 == 1
def Launch.coop (l : Launch) : Bool := l.bits 1 35 1 == 1
def Launch.prio (l : Launch) : Nat := l.bits 1 36 3
def Launch.tenant (l : Launch) : Nat := l.bits 1 39 6
def Launch.age (l : Launch) : Nat := if l.bits 1 45 10 = 0 then 64 else l.bits 1 45 10
def Launch.psucc (l : Launch) : Bool := l.bits 1 55 1 == 1
def Launch.args (l : Launch) : DWord := l.words.getD 5 0
def Launch.seed (l : Launch) : DWord := l.words.getD 6 0
def Launch.stride (l : Launch) : Nat := l.bits 4 52 12 * 1024
def Launch.spill (l : Launch) : DWord := l.args + BitVec.ofNat 64 (l.bits 4 32 20 * 4096)

/-- The launch of a group; a group without one reads packet words of 0. -/
def State.launchOf (s : State) (g : Nat) : Launch := (s.findLaunch (s.group g).launch).getD default

/-- Blocks of the frames that a lane bank holds (R275): frames of resident groups of the core, not spilled. -/
def State.blocksHeld (s : State) (core lane : Nat) : Nat :=
  (s.threads.map (fun q =>
    let g := s.group q.2.group
    if q.2.live && g.core == core && g.place == .resident && q.2.tid % 32 == lane && !isService q.2.group
    then (q.2.frames.map (fun f => if f.spilled then 0 else f.size)).sum else 0)).sum

def State.blocksFree (s : State) (core lane : Nat) : Nat := 256 - s.blocksHeld core lane

/-- Bytes of a list as one number. -/
def packBytes (bs : List Byte) : DWord := BitVec.ofNat 64 (leNat bs)

/-- What GETSR reads (R138). Registers with no number read 0, and the decoder rejects them. -/
def srRead (s : State) (q : Issue) (l : Nat × Nat) (n : Nat) : DWord :=
  let t := s.thread l.2
  let g := s.group q.group
  let la := s.launchOf q.group
  match n with
  | 0x000 => BitVec.ofNat 64 t.tid
  | 0x001 => BitVec.ofNat 64 (t.tid % 32)
  | 0x002 => BitVec.ofNat 64 g.gid
  | 0x003 => BitVec.ofNat 64 g.kernel.gsize
  | 0x004 => BitVec.ofNat 64 la.grid
  | 0x005 => BitVec.ofNat 64 (g.member * 256 + g.kernel.gang)
  | 0x006 => BitVec.ofNat 64 q.core
  | 0x007 => BitVec.ofNat 64 g.launch
  | 0x008 => la.seed
  | 0x009 => la.args
  | 0x00A => BitVec.ofNat 64 (g.prio * 256 + g.tenant)
  | 0x010 => BitVec.ofNat 64 s.now
  | 0x011 => BitVec.ofNat 64 (s.coreCycles q.core)
  | 0x020 => t.loop.lc0.zeroExtend 64
  | 0x021 => t.loop.lc1.zeroExtend 64
  | 0x022 => t.loop.ec.zeroExtend 64
  | 0x023 => t.loop.rrb.zeroExtend 64
  | 0x030 => g.tagBits
  | 0x040 => BitVec.ofNat 64 (spGet (fun _ => Channel.zero) g.chanBase 0).cid
  | 0x041 => BitVec.ofNat 64 (spGet (fun _ => Channel.zero) g.chanBase 1).cid
  | 0x042 => BitVec.ofNat 64 (spGet (fun _ => Channel.zero) g.chanBase 2).cid
  | 0x043 => BitVec.ofNat 64 (spGet (fun _ => Channel.zero) g.chanBase 3).cid
  | 0x044 => BitVec.ofNat 64 (spGet (fun _ => Channel.zero) g.chanBase 0).cdone
  | 0x045 => BitVec.ofNat 64 (spGet (fun _ => Channel.zero) g.chanBase 1).cdone
  | 0x046 => BitVec.ofNat 64 (spGet (fun _ => Channel.zero) g.chanBase 2).cdone
  | 0x047 => BitVec.ofNat 64 (spGet (fun _ => Channel.zero) g.chanBase 3).cdone
  | 0x050 => t.status.zeroExtend 64
  | 0x051 => g.smask.zeroExtend 64
  | 0x052 => t.amax.zeroExtend 64
  | 0x053 => t.satcnt.zeroExtend 64
  | 0x054 => t.rctr
  | 0x060 => BitVec.ofNat 64 t.depth
  | 0x061 => BitVec.ofNat 64 t.frame.size
  | 0x062 => BitVec.ofNat 64 (s.blocksFree q.core l.1)
  | 0x070 => (s.core q.core).binovf
  | 0x071 => BitVec.ofNat 64 ((if g.swap.isSome then 2 else 0) + (if g.dbank then 1 else 0))
  | 0x072 => if g.pbank then 1 else 0
  | 0x073 => BitVec.ofNat 64 g.stats.length
  | 0x080 => packBytes ((List.range 8).map (fun k => (spGet (fun _ => TableMap.unmapped) g.tmap k).byte))
  | _ => 0

/-- GETSR (R139): it reads at the start of its issue cycle, so it acts before every other slot of its bundle. -/
def execGetsr (xd : BitVec 4) (sr : BitVec 9) (g : Guard) (s : State) : Out :=
  slotNext s (fun q => s.flyX q g latScalar xd (fun l => srRead s q l sr.toNat))

/-- SETSR (R139): each passing lane writes its own register; %smask takes the leader lane's value. -/
def execSetsr (sr : BitVec 9) (xa : BitVec 4) (g : Guard) (s : State) : Out :=
  slotNext s (fun q =>
    let ps := participants s q g
    let ls := if sr = 0x051 then ps.take 1 else ps
    s.fly q latScalar (ls.map (fun l => (l.2, .sr sr.toNat, (xOf s l xa).zeroExtend 128))))

/-! ### Semaphores (R27, R147, R148) -/

/-- The place of an update of the acting slot in R27's order: 1 and 2 SEMSET from S0 and S1, 3 and 4 SEMADD. -/
def semRank (q : Issue) (set : Bool) : Nat := (if set then 1 else 3) + (if q.cur = 1 then 0 else 1)

/-- SEMSET (R147). A fence of the bundle precedes its semaphore writes (R310). -/
def execSemset (sem : BitVec 8) (xa : BitVec 4) (g : Guard) (s : State) : Out :=
  slotNext s (fun q => match leader s q g with
    | none => s
    | some tk => s.storeSem q.core q.group ((participants s q g).map (fun l => l.2))
        ⟨semRank q true, sem.toNat, true, ((s.thread tk).readX xa.toNat).toInt⟩)

/-- SEMADD (R147): the exact sum over the passing lanes. -/
def execSemadd (sem : BitVec 8) (xa : BitVec 4) (g : Guard) (s : State) : Out :=
  slotNext s (fun q =>
    let ps := participants s q g
    if ps.isEmpty then s
    else s.storeSem q.core q.group (ps.map (fun l => l.2))
      ⟨semRank q false, sem.toNat, false, (ps.map (fun l => (xOf s l xa).toInt)).sum⟩)

/-- A slot that may hold its bundle: when BUNDLE_ISSUE has found every hold absent the effect follows (R114). -/
def slotHeld (s : State) (h : Issue → Option Hold) (effect : Issue → State) : Out :=
  withIssue s (fun q =>
    if q.cleared then .next (effect q)
    else match h q with
      | some r => .next (s.hold q.run r)
      | none => .next (effect q))

/-- The stall of SEMWAIT: the count at the start of the cycle is below the threshold of the leader lane (R148). -/
def semwaitHold (s : State) (q : Issue) (sem : BitVec 8) (xa : BitVec 4) (g : Guard) : Option Hold :=
  (leader s q g).bind (fun tk =>
    let thr := (satSem ((s.thread tk).readX xa.toNat).toInt).toNat
    if ((s.group q.group).semStart sem.toNat).toNat < thr then some (.semwait sem.toNat thr) else none)

/-- SEMWAIT (R148): it leaves the count unchanged. -/
def execSemwait (sem : BitVec 8) (xa : BitVec 4) (g : Guard) (s : State) : Out :=
  slotHeld s (fun q => semwaitHold s q sem xa g) (fun _ => s)

/-! ### Copy tags (R149, R150) -/

/-- The stall of TAGWA: some tag of the mask within the window is clear. -/
def tagwaHold (s : State) (q : Issue) (xa : BitVec 4) (g : Guard) : Option Hold :=
  (leader s q g).bind (fun tk =>
    let gr := s.group q.group
    let m := (s.thread tk).readX xa.toNat &&& lowMask gr.kernel.tagWindow
    if m &&& ~~~gr.tagBase = 0 then none else some (.tag true m))

/-- The stall of TAGWL: the mask names tags within the window and all of them are clear. -/
def tagwlHold (s : State) (q : Issue) (xa : BitVec 4) (g : Guard) : Option Hold :=
  (leader s q g).bind (fun tk =>
    let gr := s.group q.group
    let m := (s.thread tk).readX xa.toNat &&& lowMask gr.kernel.tagWindow
    if m = 0 ∨ m &&& gr.tagBase ≠ 0 then none else some (.tag false m))

/-- TAGWA (R149). -/
def execTagwa (xa : BitVec 4) (g : Guard) (s : State) : Out := slotHeld s (fun q => tagwaHold s q xa g) (fun _ => s)
/-- TAGWL (R149). -/
def execTagwl (xa : BitVec 4) (g : Guard) (s : State) : Out := slotHeld s (fun q => tagwlHold s q xa g) (fun _ => s)

/-- TAGFF (R150): the lowest set tag of each lane's mask, or 64. -/
def execTagff (xd xa : BitVec 4) (g : Guard) (s : State) : Out :=
  slotNext s (fun q => s.flyX q g latScalar xd (fun l =>
    BitVec.ofNat 64 (trailingZeros (xOf s l xa &&& (s.group q.group).tagBits) 0 64)))

/-! ### Pattern bank, format table, statistics queue (R152 to R154) -/

/-- PSWAP (R152). -/
def execPswap (g : Guard) (s : State) : Out :=
  slotNext s (fun q => match leader s q g with
    | none => s
    | some _ => s.modGroup q.group (fun gr => { gr with pbank := !gr.pbank }))

/-- FTSET (R153). -/
def execFtset (ft xa : BitVec 4) (g : Guard) (s : State) : Out :=
  slotNext s (fun q => match leader s q g with
    | none => s
    | some tk =>
      let v := (s.thread tk).readX xa.toNat
      s.modGroup q.group (fun gr =>
        { gr with fmt := spSet (fun _ => (0, 0)) gr.fmt ft.toNat (bitsOf v 0 5, bitsOf v 8 5) }))

/-- A word of the group's oldest record; every word reads 0 when there is none (R154). -/
def Group.statWord (g : Group) (w : Nat) : DWord := (g.stats.headD []).getD w 0

/-- SQRD (R154): word 7 removes the record after the read. -/
def execSqrd (xd : BitVec 4) (w : BitVec 3) (g : Guard) (s : State) : Out :=
  slotNext s (fun q =>
    let v := (s.group q.group).statWord w.toNat
    let s' := s.flyX q g latScalar xd (fun _ => v)
    if w = 7 ∧ (leader s q g).isSome then s'.modGroup q.group (fun gr => { gr with stats := gr.stats.drop 1 }) else s')

end Sys2Proof.Machine
end

