-- ==== Sys2Proof/Machine/Vector.lean ====
section
/-! DEFINITION. The vector engine's slots (06 R157 to R183). -/

namespace Sys2Proof.Machine

/-! ### Class A (R162, R163) -/

/-- One lane of a class A operation on exact element values. -/
def aLane (s : State) (o : AOp) (f : Int → Int → Int → Int) (l : Nat × Nat) : Word :=
  let w := typeWidth o.ty.toNat
  let sg := typeSigned o.ty.toNat
  let a := vOf s l o.va
  let b := srcWord s l w o.b
  let c := vOf s l o.vd
  fromElems w (fun j => narrow o.sat sg w
    (f (elemVal sg w (elemAt a w j)) (elemVal sg w (elemAt b w j)) (elemVal sg w (elemAt c w j))))

/-- A class A slot on exact element values. -/
def aSlot (lat : Nat) (i : Instr) (o : AOp) (f : Int → Int → Int → Int) (s : State) : Out :=
  framed s i (fun q => s.flyV q o.g lat o.vd.toNat (aLane s o f))

/-- A class A slot on the raw words. -/
def aRaw (i : Instr) (o : AOp) (f : Word → Word → Word) (s : State) : Out :=
  framed s i (fun q => s.flyV q o.g latVector o.vd.toNat (fun l =>
    f (vOf s l o.va) (srcWord s l (typeWidth o.ty.toNat) o.b)))

/-- The shift amount of an element: raw(b) mod w, or IMM8. -/
def shiftAmount (s : State) (l : Nat × Nat) (w j : Nat) (b : VSrc) : Nat :=
  match b with
  | .reg r => elemAt (vOf s l r) w j % w
  | .imm i => i.toNat

/-- A class A shift. -/
def aShift (i : Instr) (o : AOp) (f : Bool → Nat → Nat → Nat → Nat) (s : State) : Out :=
  framed s i (fun q => s.flyV q o.g latVector o.vd.toNat (fun l =>
    let w := typeWidth o.ty.toNat
    fromElems w (fun j => f (typeSigned o.ty.toNat) w (elemAt (vOf s l o.va) w j) (shiftAmount s l w j o.b))))

/-- A class A slot on the raw bits of each element of va. -/
def aElem (i : Instr) (o : AOp) (f : Nat → Nat → Nat) (s : State) : Out :=
  framed s i (fun q => s.flyV q o.g latVector o.vd.toNat (fun l =>
    let w := typeWidth o.ty.toNat
    fromElems w (fun j => f w (elemAt (vOf s l o.va) w j))))

/-- Shift right: arithmetic for signed types. -/
def shrElem (sg : Bool) (w raw n : Nat) : Nat := (elemVal sg w raw / 2 ^ n % 2 ^ w).toNat

/-- One lane of VDOT4 (R163). -/
def dot4Lane (s : State) (o : AOp) (l : Nat × Nat) : Word :=
  let sg := typeSigned o.ty.toNat
  let a := vOf s l o.va
  let b := srcWord s l 8 o.b
  let c := elemVal sg 32 (vOf s l o.vd).toNat
  let t := ((List.range 4).map (fun j => elemVal sg 8 (elemAt a 8 j) * elemVal sg 8 (elemAt b 8 j))).sum
  BitVec.ofNat 32 (narrow o.sat sg 32 (c + t))

/-- VADD (R162). -/
def execVadd (o : AOp) (s : State) : Out := aSlot latVector (.vadd o) o (fun a b _ => a + b) s
/-- VSUB (R162). -/
def execVsub (o : AOp) (s : State) : Out := aSlot latVector (.vsub o) o (fun a b _ => a - b) s
/-- VMUL (R162). -/
def execVmul (o : AOp) (s : State) : Out := aSlot latVectorLong (.vmul o) o (fun a b _ => a * b) s
/-- VMAD (R162). -/
def execVmad (o : AOp) (s : State) : Out := aSlot latVectorLong (.vmad o) o (fun a b c => c + a * b) s
/-- VMIN (R162). -/
def execVmin (o : AOp) (s : State) : Out := aSlot latVector (.vmin o) o (fun a b _ => min a b) s
/-- VMAX (R162). -/
def execVmax (o : AOp) (s : State) : Out := aSlot latVector (.vmax o) o (fun a b _ => max a b) s
/-- VABS (R162). -/
def execVabs (o : AOp) (s : State) : Out := aSlot latVector (.vabs o) o (fun a _ _ => max a (-a)) s
/-- VMULH (R162): the high half of the product, which always fits. -/
def execVmulh (o : AOp) (s : State) : Out :=
  aSlot latVectorLong (.vmulh o) o (fun a b _ => a * b / 2 ^ typeWidth o.ty.toNat) s
/-- VDOT4 (R163). -/
def execVdot4 (o : AOp) (s : State) : Out :=
  framed s (.vdot4 o) (fun q => s.flyV q o.g latVectorLong o.vd.toNat (dot4Lane s o))
/-- VAND (R162). -/
def execVand (o : AOp) (s : State) : Out := aRaw (.vand o) o (fun a b => a &&& b) s
/-- VOR (R162). -/
def execVor (o : AOp) (s : State) : Out := aRaw (.vor o) o (fun a b => a ||| b) s
/-- VXOR (R162). -/
def execVxor (o : AOp) (s : State) : Out := aRaw (.vxor o) o (fun a b => a ^^^ b) s
/-- VANDN (R162). -/
def execVandn (o : AOp) (s : State) : Out := aRaw (.vandn o) o (fun a b => a &&& ~~~b) s
/-- VSHL (R162). -/
def execVshl (o : AOp) (s : State) : Out := aShift (.vshl o) o (fun _ _ raw n => raw * 2 ^ n) s
/-- VSHR (R162). -/
def execVshr (o : AOp) (s : State) : Out := aShift (.vshr o) o shrElem s
/-- VCLZ (R162). -/
def execVclz (o : AOp) (s : State) : Out := aElem (.vclz o) o (fun w raw => leadingZeros (BitVec.ofNat 32 raw) w) s
/-- VPOPC (R162). -/
def execVpopc (o : AOp) (s : State) : Out := aElem (.vpopc o) o (fun w raw => countOnes (BitVec.ofNat 32 raw) w) s
/-- VMOV (R162): va, or the replicated immediate. -/
def execVmov (o : AOp) (s : State) : Out :=
  framed s (.vmov o) (fun q => s.flyV q o.g latVector o.vd.toNat (fun l =>
    match o.b with
    | .reg _ => vOf s l o.va
    | .imm _ => srcWord s l (typeWidth o.ty.toNat) o.b))

/-! ### Compares and selection (R164, R165) -/

/-- The relation over every element of a lane. -/
def qLane (s : State) (o : QOp) (f : Int → Int → Bool) (l : Nat × Nat) : Bool :=
  let w := typeWidth o.ty.toNat
  let sg := typeSigned o.ty.toNat
  let a := vOf s l o.va
  let b := srcWord s l w o.b
  (List.range (32 / w)).all (fun j => f (elemVal sg w (elemAt a w j)) (elemVal sg w (elemAt b w j)))

/-- Invalid of an .f32 compare: a signalling NaN for EQ and NE, any NaN for LT and LE. -/
def cmpFlags (any : Bool) (a b : Num) : Flags :=
  flagIf (if any then a.isNan || b.isNan else a.isSnan || b.isSnan) flagNV

/-- A class Q slot. -/
def qSlot (i : Instr) (o : QOp) (f : Int → Int → Bool) (ff : Num → Num → Bool) (any : Bool) (s : State) : Out :=
  framed s i (fun q =>
    if o.ty = 6 then
      let num := fun (r : BitVec 8) (l : Nat × Nat) => dec fmtFp32 (vOf s l r).toNat
      let nb := fun (l : Nat × Nat) => dec fmtFp32 (srcWord s l 32 o.b).toNat
      (s.flyP q o.g latVector o.pd (fun l => ff (num o.va l) (nb l))).flyStatus q o.g latVector
        (fun l => cmpFlags any (num o.va l) (nb l))
    else s.flyP q o.g latVector o.pd (qLane s o f))

/-- VCMPEQ (R164). -/
def execVcmpeq (o : QOp) (s : State) : Out := qSlot (.vcmpeq o) o (fun a b => a == b) numEq false s
/-- VCMPNE (R164): the relation holds for every element; a NaN makes it true for .f32. -/
def execVcmpne (o : QOp) (s : State) : Out := qSlot (.vcmpne o) o (fun a b => a != b) (fun a b => !numEq a b) false s
/-- VCMPLT (R164). -/
def execVcmplt (o : QOp) (s : State) : Out := qSlot (.vcmplt o) o (fun a b => decide (a < b)) numLt true s
/-- VCMPLE (R164). -/
def execVcmple (o : QOp) (s : State) : Out :=
  qSlot (.vcmple o) o (fun a b => decide (a ≤ b)) (fun a b => numLt a b || numEq a b) true s

/-- VSEL (R165). -/
def execVsel (vd : BitVec 8) (pn : BitVec 4) (sense : Bool) (va vb : BitVec 8) (g : Guard) (s : State) : Out :=
  framed s (.vsel vd pn sense va vb g) (fun q => s.flyV q g latVector vd.toNat (fun l =>
    if (s.thread l.2).readP pn.toNat != sense then vOf s l va else vOf s l vb))

/-! ### Floating point (R166, R167) -/

/-- A class F slot. -/
def fSlot (i : Instr) (o : FOp) (f : Nat → Nat → Nat → Nat × Flags) (s : State) : Out :=
  framed s i (fun q => s.flyVF q o.g latVectorLong o.vd.toNat (fun l =>
    let r := f (vOf s l o.va).toNat (vOf s l o.vb).toNat (vOf s l o.vd).toNat
    (BitVec.ofNat 32 r.1, r.2)))

/-- A class H slot: both halves, their bits ORed. -/
def hSlot (i : Instr) (o : FOp) (f : Nat → Nat → Nat → Nat × Flags) (s : State) : Out :=
  framed s i (fun q => s.flyVF q o.g latVectorLong o.vd.toNat (fun l =>
    let r := fun j => f (elemAt (vOf s l o.va) 16 j) (elemAt (vOf s l o.vb) 16 j) (elemAt (vOf s l o.vd) 16 j)
    (fromElems 16 (fun j => (r j).1), (r 0).2 ||| (r 1).2)))

/-- VFADD (R166). -/
def execVfadd (o : FOp) (s : State) : Out := fSlot (.vfadd o) o (fun a b _ => fpAdd fmtFp32 (modeOf o.rnd) a b) s
/-- VFSUB (R166). -/
def execVfsub (o : FOp) (s : State) : Out := fSlot (.vfsub o) o (fun a b _ => fpSub fmtFp32 (modeOf o.rnd) a b) s
/-- VFMUL (R166). -/
def execVfmul (o : FOp) (s : State) : Out := fSlot (.vfmul o) o (fun a b _ => fpMul fmtFp32 (modeOf o.rnd) a b) s
/-- VFMA (R166). -/
def execVfma (o : FOp) (s : State) : Out := fSlot (.vfma o) o (fun a b c => fpFma fmtFp32 (modeOf o.rnd) a b c) s
/-- VFMIN (R166). -/
def execVfmin (o : FOp) (s : State) : Out := fSlot (.vfmin o) o (fun a b _ => fpMin fmtFp32 a b) s
/-- VFMAX (R166). -/
def execVfmax (o : FOp) (s : State) : Out := fSlot (.vfmax o) o (fun a b _ => fpMax fmtFp32 a b) s
/-- VHADD (R167). -/
def execVhadd (o : FOp) (s : State) : Out := hSlot (.vhadd o) o (fun a b _ => fpAdd fmtFp16 (modeOf o.rnd) a b) s
/-- VHSUB (R167). -/
def execVhsub (o : FOp) (s : State) : Out := hSlot (.vhsub o) o (fun a b _ => fpSub fmtFp16 (modeOf o.rnd) a b) s
/-- VHMUL (R167). -/
def execVhmul (o : FOp) (s : State) : Out := hSlot (.vhmul o) o (fun a b _ => fpMul fmtFp16 (modeOf o.rnd) a b) s
/-- VHFMA (R167). -/
def execVhfma (o : FOp) (s : State) : Out := hSlot (.vhfma o) o (fun a b c => fpFma fmtFp16 (modeOf o.rnd) a b c) s
/-- VBADD (R167). -/
def execVbadd (o : FOp) (s : State) : Out := hSlot (.vbadd o) o (fun a b _ => fpAdd fmtBf16 (modeOf o.rnd) a b) s
/-- VBSUB (R167). -/
def execVbsub (o : FOp) (s : State) : Out := hSlot (.vbsub o) o (fun a b _ => fpSub fmtBf16 (modeOf o.rnd) a b) s
/-- VBMUL (R167). -/
def execVbmul (o : FOp) (s : State) : Out := hSlot (.vbmul o) o (fun a b _ => fpMul fmtBf16 (modeOf o.rnd) a b) s
/-- VBFMA (R167). -/
def execVbfma (o : FOp) (s : State) : Out := hSlot (.vbfma o) o (fun a b c => fpFma fmtBf16 (modeOf o.rnd) a b c) s

/-- A word that is a NaN becomes the canonical NaN. -/
def canonOr (a r : Word) : Word := if (dec fmtFp32 a.toNat).isNan then 0x7FC00000 else r

/-- VFABS (R166). -/
def execVfabs (vd va : BitVec 8) (g : Guard) (s : State) : Out :=
  framed s (.vfabs vd va g) (fun q => s.flyV q g latVectorLong vd.toNat (fun l =>
    canonOr (vOf s l va) (vOf s l va &&& 0x7FFFFFFF)))
/-- VFNEG (R166). -/
def execVfneg (vd va : BitVec 8) (g : Guard) (s : State) : Out :=
  framed s (.vfneg vd va g) (fun q => s.flyV q g latVectorLong vd.toNat (fun l =>
    canonOr (vOf s l va) (vOf s l va ^^^ 0x80000000)))

/-! ### Conversions (R168 to R170) -/

/-- The format of a code that R58 allows. -/
def cvtFmt (code : BitVec 5) : Fmt := (fmtOf code.toNat).getD fmtFp32

/-- Update AMAX and SATCNT of a lane (R96 to R98). -/
def Thread.amaxStep (t : Thread) (x : Word) (range : Bool) : Thread :=
  { t with amax := amaxUpdate t.amax x,
           satcnt := if range ∧ t.satcnt ≠ 0xFFFFFFFF then t.satcnt + 1 else t.satcnt }

/-- A conversion slot: `mode` gives each lane's rounding mode, `step` its further change to the thread. -/
def cvtSlot (o : CvtOp) (mode : Nat × Nat → Mode) (step : Thread → Thread) (s : State) (q : Issue) : State :=
  let f := cvtFmt o.fmt
  let z := fun (l : Nat × Nat) => enc f (dec fmtFp32 (vOf s l o.va).toNat) (mode l) o.sat
  let s1 := s.flyVF q o.g latVectorLong o.vd.toNat (fun l =>
    (insertElem (vOf s l o.vd) f.width o.pos.toNat (z l).bits, (z l).flags))
  (participants s q o.g).foldl (fun s' l => s'.modThread l.2 (fun t =>
    step (if o.amx then t.amaxStep (vOf s l o.va) (z l).range else t))) s1

/-- VCVTF (R168). -/
def execVcvtf (o : CvtOp) (rnd : BitVec 2) (s : State) : Out :=
  framed s (.vcvtf o rnd) (fun q => cvtSlot o (fun _ => modeOf rnd) id s q)

/-- The draw of a lane (R93): seed, global thread index and RCTR. Service code has no dispatch packet, and R93 gives it no
seed and no %gid: both are 0 there (DESIGN CHOICE, log entry 15). -/
def srDraw (s : State) (q : Issue) (l : Nat × Nat) : Nat :=
  let g := s.group q.group
  let t := s.thread l.2
  ((random128 (s.launchOf q.group).seed (BitVec.ofNat 64 (g.gid * g.kernel.gsize + t.tid)) t.rctr).truncate 32).toNat

/-- VCVTS (R168): each executing lane consumes one RCTR value (R95). -/
def execVcvts (o : CvtOp) (s : State) : Out :=
  framed s (.vcvts o) (fun q => cvtSlot o (fun l => .sr (srDraw s q l)) (fun t => { t with rctr := t.rctr + 1 }) s q)

/-- VCVTX (R169). -/
def execVcvtx (vd va : BitVec 8) (fmt : BitVec 5) (pos : BitVec 3) (g : Guard) (s : State) : Out :=
  framed s (.vcvtx vd va fmt pos g) (fun q => s.flyVF q g latVectorLong vd.toNat (fun l =>
    let f := cvtFmt fmt
    let z := enc fmtFp32 (dec f (elemAt (vOf s l va) f.width pos.toNat)) .rne false
    (BitVec.ofNat 32 z.bits, z.flags)))

/-- VFTOI (R170). -/
def execVftoi (vd va : BitVec 8) (unsig : Bool) (rnd : BitVec 2) (sat : Bool) (g : Guard) (s : State) : Out :=
  framed s (.vftoi vd va unsig rnd sat g) (fun q => s.flyVF q g latVectorLong vd.toNat (fun l =>
    cvtInt (dec fmtFp32 (vOf s l va).toNat) unsig (modeOf rnd) sat))

/-- VITOF (R170). -/
def execVitof (vd va : BitVec 8) (unsig : Bool) (rnd : BitVec 2) (g : Guard) (s : State) : Out :=
  framed s (.vitof vd va unsig rnd g) (fun q => s.flyVF q g latVectorLong vd.toNat (fun l =>
    let z := enc fmtFp32 (numOfInt (elemVal (!unsig) 32 (vOf s l va).toNat)) (modeOf rnd) false
    (BitVec.ofNat 32 z.bits, z.flags)))

/-- VCVTH (R170). -/
def execVcvth (vd va vb : BitVec 8) (bf : Bool) (rnd : BitVec 2) (sat : Bool) (g : Guard) (s : State) : Out :=
  framed s (.vcvth vd va vb bf rnd sat g) (fun q => s.flyVF q g latVectorLong vd.toNat (fun l =>
    let f := if bf then fmtBf16 else fmtFp16
    let z0 := enc f (dec fmtFp32 (vOf s l va).toNat) (modeOf rnd) sat
    let z1 := enc f (dec fmtFp32 (vOf s l vb).toNat) (modeOf rnd) sat
    (BitVec.ofNat 32 (z0.bits + z1.bits * 2 ^ 16), z0.flags ||| z1.flags)))

/-! ### Nested planes (R171, R172) -/

/-- Bit 7 - p of element n, which byte n mod 4 of register r + n / 4 holds. -/
def planeBit (s : State) (l : Nat × Nat) (r p n : Nat) : Bool :=
  ((s.thread l.2).readV (r + n / 4)).getLsbD (8 * (n % 4) + (7 - p))

/-- VNPS (R171). -/
def execVnps (vd va : BitVec 8) (plane : BitVec 3) (g : Guard) (s : State) : Out :=
  framed s (.vnps vd va plane g) (fun q => s.flyV q g latVector vd.toNat (fun l =>
    fromElems 1 (fun n => if planeBit s l va.toNat plane.toNat n then 1 else 0)))

/-- Register k of a merge: bit 7 - p of its four elements replaced. -/
def mergePlane (old plane : Word) (p k : Nat) : Word :=
  (List.range 4).foldl (fun w b => insertElem w 1 (8 * b + (7 - p)) (elemAt plane 1 (4 * k + b))) old

/-- VNPM (R172): its destination is all eight registers. -/
def execVnpm (vd va : BitVec 8) (plane : BitVec 3) (g : Guard) (s : State) : Out :=
  framed s (.vnpm vd va plane g) (fun q =>
    (List.range 8).foldl (fun s' k => s'.flyV q g latVector (vd.toNat + k) (fun l =>
      mergePlane ((s.thread l.2).readV (vd.toNat + k)) (vOf s l va) plane.toNat k)) s)

/-! ### Lane exchange (R173 to R179) -/

/-- The participant on a lane. -/
def partOn (ps : List (Nat × Nat)) (lane : Nat) : Option (Nat × Nat) := (assoc ps lane).map (fun tk => (lane, tk))

/-- Receive va from a lane; a lane that is no participant delivers the reader's own value and raises OWN (R173). -/
def receive (s : State) (ps : List (Nat × Nat)) (va : BitVec 8) (l : Nat × Nat) (src : Nat) : Word × Flags :=
  match partOn ps src with
  | some p => (vOf s p va, flagNone)
  | none => (vOf s l va, flagOWN)

/-- The index of VSHFL: vb or IMM8. -/
def shflIndex (s : State) (l : Nat × Nat) : VSrc → Nat
  | .reg r => (vOf s l r).toNat
  | .imm i => i.toNat

/-- VSHFL (R174). -/
def execVshfl (vd va : BitVec 8) (vb : VSrc) (width : BitVec 3) (g : Guard) (s : State) : Out :=
  framed s (.vshfl vd va vb width g) (fun q =>
    let ps := participants s q g
    let n := 2 ^ width.toNat
    s.flyVF q g latExchange vd.toNat (fun l => receive s ps va l (l.1 - l.1 % n + shflIndex s l vb % n)))

/-- An entry of a pattern: bank, pattern, lane. What the store holds at core reset is not given: 0 (DESIGN CHOICE, log
entry 5). -/
def State.pattern (s : State) (core : Nat) (bank : Bool) (n lane : Nat) : Byte :=
  spGet (fun _ => 0) (s.core core).patterns ((if bank then 2048 else 0) + n * 32 + lane)

/-- VPERM (R176). -/
def execVperm (vd va : BitVec 8) (pat : BitVec 6) (g : Guard) (s : State) : Out :=
  framed s (.vperm vd va pat g) (fun q =>
    let ps := participants s q g
    s.flyVF q g latExchange vd.toNat (fun l =>
      let e := s.pattern q.core (s.group q.group).pbank pat.toNat l.1
      if e.getLsbD 7 then (0, flagNone) else receive s ps va l (e.toNat % 32)))

/-- The key of VMATCH (R177). -/
def matchKey (key : Option (BitVec 5 × BitVec 3)) (v : Word) : Nat :=
  match key with
  | none => v.toNat
  | some (pos, w) => v.toNat / 2 ^ pos.toNat % 2 ^ (4 * (w.toNat + 1))

/-- VMATCH (R177). -/
def execVmatch (vd va : BitVec 8) (key : Option (BitVec 5 × BitVec 3)) (g : Guard) (s : State) : Out :=
  framed s (.vmatch vd va key g) (fun q =>
    let ps := participants s q g
    s.flyV q g latExchange vd.toNat (fun l =>
      maskOf ((ps.filter (fun p => matchKey key (vOf s p va) == matchKey key (vOf s l va))).map (fun p => p.1))))

/-- VBALLOT (R177). -/
def execVballot (vd : BitVec 8) (pn : BitVec 4) (inv : Bool) (g : Guard) (s : State) : Out :=
  framed s (.vballot vd pn inv g) (fun q =>
    let m := maskOf (((participants s q g).filter (fun p => (s.thread p.2).readP pn.toNat != inv)).map (fun p => p.1))
    s.flyV q g latExchange vd.toNat (fun _ => m))

/-- VVOTE (R177). -/
def execVvote (pd pn : BitVec 4) (mode : BitVec 2) (quorum : BitVec 6) (g : Guard) (s : State) : Out :=
  framed s (.vvote pd pn mode quorum g) (fun q =>
    let ps := participants s q g
    let c := (ps.filter (fun p => (s.thread p.2).readP pn.toNat)).length
    s.flyP q g latExchange pd (fun _ =>
      if mode = 0 then decide (quorum.toNat ≤ c) else if mode = 1 then decide (c ≤ quorum.toNat)
      else c == ps.length))

/-- One step of a fold on raw elements (R178). -/
def foldStep (op ty : Nat) (a b : Nat) : Nat × Flags :=
  let w := typeWidth ty
  let sg := typeSigned ty
  if ty = 6 then
    if op = 0 then fpAdd fmtFp32 .rne a b else if op = 1 then fpMin fmtFp32 a b else fpMax fmtFp32 a b
  else if op = 0 then ((a + b) % 2 ^ w, flagNone)
  else
    let less := decide (elemVal sg w b < elemVal sg w a)
    (if (op == 1) == less then b else a, flagNone)

/-- The identities of R178. -/
def foldIdentity (op ty : Nat) : Nat :=
  let w := typeWidth ty
  let sg := typeSigned ty
  if op = 0 then 0
  else if ty = 6 then (if op = 1 then 0x7F800000 else 0xFF800000)
  else if op = 1 then (if sg then 2 ^ (w - 1) - 1 else 2 ^ w - 1)
  else if sg then 2 ^ (w - 1) else 0

/-- A fold in ascending lane order, with the bits its steps raise. A lone NaN is delivered canonical, since no payload
passes any operation (R81). -/
def foldElems (op ty : Nat) : List Nat → Nat × Flags
  | [] => (foldIdentity op ty, flagNone)
  | [x] => (if ty = 6 then (canonOr (BitVec.ofNat 32 x) (BitVec.ofNat 32 x)).toNat else x, flagNone)
  | x :: xs => xs.foldl (fun acc y =>
      let r := foldStep op ty acc.1 y
      (r.1, acc.2 ||| r.2)) (x, flagNone)

/-- The folds of every element over some lanes. -/
def foldLanes (s : State) (va : BitVec 8) (op ty : Nat) (ls : List (Nat × Nat)) : Word × Flags :=
  let w := typeWidth ty
  let r := fun j => foldElems op ty (ls.map (fun p => elemAt (vOf s p va) w j))
  (fromElems w (fun j => (r j).1), (List.range (32 / w)).foldl (fun f j => f ||| (r j).2) flagNone)

/-- VSCAN (R178). -/
def execVscan (vd va : BitVec 8) (op : BitVec 2) (excl : Bool) (ty : BitVec 3) (g : Guard) (s : State) : Out :=
  framed s (.vscan vd va op excl ty g) (fun q =>
    let ps := participants s q g
    s.flyVF q g latExchange vd.toNat (fun l =>
      foldLanes s va op.toNat ty.toNat (ps.filter (fun p => decide (p.1 < l.1) || (!excl && p.1 == l.1)))))

/-- VRED (R178). -/
def execVred (vd va : BitVec 8) (op : BitVec 2) (ty : BitVec 3) (g : Guard) (s : State) : Out :=
  framed s (.vred vd va op ty g) (fun q =>
    let r := foldLanes s va op.toNat ty.toNat (participants s q g)
    s.flyVF q g latExchange vd.toNat (fun _ => r))

/-- VBCAST (R179). -/
def execVbcast (vd va : BitVec 8) (lane : BitVec 5) (g : Guard) (s : State) : Out :=
  framed s (.vbcast vd va lane g) (fun q =>
    let ps := participants s q g
    s.flyV q g latExchange vd.toNat (fun l => (receive s ps va l lane.toNat).1))

/-! ### Accumulator tiles (R180 to R182) -/

def Group.tile (g : Group) (n : Nat) : Tile := spGet (fun _ => Tile.zero) g.tiles n
def Group.setTile (g : Group) (n : Nat) (t : Tile) : Group := { g with tiles := spSet (fun _ => Tile.zero) g.tiles n t }

/-- The key of a tile element. -/
def tileKey (row : Word) (half : Bool) (lane : Nat) : Nat :=
  64 * (row.toNat % 64) + (if half then 32 else 0) + lane

/-- The token fault of a vector access on a tile in state M (R33, rank 8 of R339). -/
def tokenCond (s : State) (q : Issue) (g : Guard) (tile : BitVec 3) : Option Cond :=
  if ((s.group q.group).tile tile.toNat).token = .m ∧ (participants s q g) ≠ [] then some (Cond.plain q 0x0A 0 q.cur)
  else none

/-- The freeze of a vector access on a tile in state MV (R181). -/
def tokenHold (s : State) (q : Issue) (g : Guard) (tile : BitVec 3) : Option Hold :=
  if ((s.group q.group).tile tile.toNat).token = .mv ∧ (participants s q g) ≠ [] then some (.token tile.toNat)
  else none

/-- A vector access to a tile: frame bound, then token, then the freeze, then the effect. -/
def tileSlot (s : State) (i : Instr) (g : Guard) (tile : BitVec 3) (effect : Issue → State) : Out :=
  slotCond s (fun q => (frameCond s q i).orElse (fun _ => tokenCond s q g tile)) (fun _ =>
    slotHeld s (fun q => tokenHold s q g tile) effect)

/-- VACCRD (R180). -/
def execVaccrd (vd : BitVec 8) (tile : BitVec 3) (half : Bool) (row : BitVec 8) (g : Guard) (s : State) : Out :=
  tileSlot s (.vaccrd vd tile half row g) g tile (fun q => s.flyV q g latTile vd.toNat (fun l =>
    spGet (fun _ => 0) ((s.group q.group).tile tile.toNat).elems (tileKey (vOf s l row) half l.1)))

/-- VACCWR (R180): it writes at the bundle's issue. -/
def execVaccwr (tile : BitVec 3) (half : Bool) (row data : BitVec 8) (g : Guard) (s : State) : Out :=
  tileSlot s (.vaccwr tile half row data g) g tile (fun q =>
    s.modGroup q.group (fun gr =>
      let t := gr.tile tile.toNat
      gr.setTile tile.toNat { t with elems := (participants s q g).foldl (fun m l =>
        spSet (fun _ => 0) m (tileKey (vOf s l row) half l.1) (vOf s l data)) t.elems }))

/-- The tile that a matrix command names. -/
def CmdOp.tile : CmdOp → Option Nat
  | .mma t _ _ _ _ _ _ => some t
  | .accz t => some t
  | .mst t _ => some t
  | .mld t => some t
  | .mstat t => some t
  | _ => none

/-- A matrix command of the group on a tile has issued and not retired. -/
def State.tileBusy (s : State) (g tile : Nat) : Bool := s.cmds.any (fun c => c.group == g && c.op.tile == some tile)

def Group.setToken (g : Group) (n : Nat) (k : Token) : Group := g.setTile n { g.tile n with token := k }

/-- TOKV (R181, R182): from M the token passes to V, by way of MV while a matrix command is outstanding. -/
def execTokv (tile : BitVec 3) (g : Guard) (s : State) : Out :=
  slotNext s (fun q =>
    if (participants s q g).isEmpty then s
    else if ((s.group q.group).tile tile.toNat).token = .m then
      s.modGroup q.group (fun gr => gr.setToken tile.toNat (if s.tileBusy q.group tile.toNat then .mv else .v))
    else s)

/-- TOKM (R181, R182). -/
def execTokm (tile : BitVec 3) (g : Guard) (s : State) : Out :=
  slotNext s (fun q =>
    if (participants s q g).isEmpty then s else s.modGroup q.group (fun gr => gr.setToken tile.toNat .m))

/-! ### Moves between x and v registers (R183) -/

/-- VXTOV (R183). -/
def execVxtov (vd : BitVec 8) (xa : BitVec 4) (hi : Bool) (g : Guard) (s : State) : Out :=
  framed s (.vxtov vd xa hi g) (fun q => s.flyV q g latVector vd.toNat (fun l =>
    if hi then bitsOf (xOf s l xa) 32 32 else bitsOf (xOf s l xa) 0 32))

/-- VVTOX (R183). -/
def execVvtox (xd : BitVec 4) (va : BitVec 8) (zero : Bool) (g : Guard) (s : State) : Out :=
  framed s (.vvtox xd va zero g) (fun q => s.flyX q g latVector xd (fun l =>
    if zero then (vOf s l va).zeroExtend 64 else (vOf s l va).signExtend 64))

end Sys2Proof.Machine
end

