-- ==== Sys2Proof/Machine/Function.lean ====
section
/-! DEFINITION. The function engine (07 R184 to R197): table images, resolution of a logical table, evaluation and the
F slot's meanings, with TSEL (R151). -/

namespace Sys2Proof.Machine

/-! ### Images (R187 to R189) -/

/-- Header fields by offset, and the four-byte fields of segment k. -/
def tblCount (img : List Byte) : Nat := natAt img 0 2
def tblMode (img : List Byte) : Nat := natAt img 2 1
def tblPolicy (img : List Byte) : Nat := natAt img 3 1 % 2
def tblField (img : List Byte) (off : Nat) : Nat := natAt img off 4
def tblIdent (img : List Byte) : Word := BitVec.ofNat 32 (tblField img 0x18)
def segField (img : List Byte) (k off : Nat) : Nat := natAt img (32 + 32 * k + off) 4
def segGap (img : List Byte) (k : Nat) : Bool := segField img k 0x14 % 2 == 1

/-- An FP32 encoding of a finite value. -/
def finite32 (bits : Nat) : Bool :=
  match dec fmtFp32 bits with
  | .fin _ _ _ => true
  | _ => false

/-- A finite value greater than zero. -/
def positive32 (bits : Nat) : Bool :=
  match dec fmtFp32 bits with
  | .fin neg m _ => !neg && m != 0
  | _ => false

/-- A header that R189 calls malformed. -/
def headerBad (img : List Byte) : Bool :=
  let lo := dec fmtFp32 (tblField img 4)
  let hi := dec fmtFp32 (tblField img 8)
  tblCount img == 0 || decide (256 < tblCount img) || decide (1 < tblMode img) || natAt img 3 1 / 2 != 0
  || tblField img 0x1C != 0
  || !finite32 (tblField img 4) || !finite32 (tblField img 8) || numLt hi lo
  || (if tblMode img = 0 then tblField img 0x10 / 32 != 0
      else !positive32 (tblField img 0x10) || !finite32 (tblField img 0x14))

/-- A segment that R189 calls malformed. -/
def segBad (img : List Byte) (k : Nat) : Bool :=
  !(finite32 (segField img k 0) && finite32 (segField img k 4) && finite32 (segField img k 8)
    && finite32 (segField img k 0xC) && finite32 (segField img k 0x10))
  || segField img k 0x14 / 2 != 0 || natAt img (32 + 32 * k + 0x18) 8 != 0

/-- A malformed image (R189). -/
def imageBad (img : List Byte) : Bool :=
  headerBad img || (List.range (tblCount img)).any (segBad img)

/-! ### Resolution (R190) -/

def Core.slot (c : Core) (n : Nat) : TableSlot := spGet (fun _ => TableSlot.reset) c.slots n
def Core.setSlot (c : Core) (n : Nat) (t : TableSlot) : Core :=
  { c with slots := spSet (fun _ => TableSlot.reset) c.slots n t }

def Group.table (g : Group) (tb : Nat) : TableMap := spGet (fun _ => TableMap.unmapped) g.tmap tb
def Group.setTable (g : Group) (tb : Nat) (m : TableMap) : Group :=
  { g with tmap := spSet (fun _ => TableMap.unmapped) g.tmap tb m }

/-- What resolving a logical table gives. -/
inductive Resolved where
  | fault (reason : Nat)
  | loading (slot : Nat)
  | ready (image : List Byte)
  deriving DecidableEq, Repr, Inhabited

/-- The conditions of R190 in their order. -/
def State.resolve (s : State) (group core tb : Nat) : Resolved :=
  let g := s.group group
  let m := g.table tb
  let t := (s.core core).slot m.byte.toNat
  if m.byte = 0xFF then .fault 0
  else if m.unusable || t.owner != some g.tenant then .fault 1
  else match t.state with
    | .empty => .fault 2
    | .failed => .fault 3
    | .loading => .loading m.byte.toNat
    | .ready =>
      match m.armed with
      | some i => if tblIdent t.image = i then .ready t.image else .fault 4
      | none => .ready t.image

/-- The table fault of an F slot (rank 9 of R339); a slot without a participant resolves nothing. -/
def tableCond (s : State) (q : Issue) (g : Guard) (tb : BitVec 3) : Option Cond :=
  if (participants s q g).isEmpty then none
  else match s.resolve q.group q.core tb.toNat with
    | .fault r =>
      let m := (s.group q.group).table tb.toNat
      some { Cond.plain q 0x0B r q.cur with
        info := BitVec.ofNat 64 (tb.toNat + m.byte.toNat * 2 ^ 8 + (m.armed.getD 0).toNat * 2 ^ 16) }
    | _ => none

/-- The freeze of an F slot whose table is Loading. -/
def tableHold (s : State) (q : Issue) (g : Guard) (tb : BitVec 3) : Option Hold :=
  if (participants s q g).isEmpty then none
  else match s.resolve q.group q.core tb.toNat with
    | .loading n => some (.table n)
    | _ => none

/-- The image that a slot evaluates; an F slot without participants evaluates none. -/
def State.image (s : State) (q : Issue) (tb : BitVec 3) : List Byte :=
  match s.resolve q.group q.core tb.toNat with
  | .ready i => i
  | _ => []

/-- An F slot: frame bound, table fault, freeze, then the effect; the use disarms a matching check (R191). -/
def tableSlot (s : State) (i : Instr) (g : Guard) (tb : BitVec 3) (effect : Issue → State) : Out :=
  slotCond s (fun q => (frameCond s q i).orElse (fun _ => tableCond s q g tb)) (fun _ =>
    slotHeld s (fun q => tableHold s q g tb) (fun q =>
      if (participants s q g).isEmpty then effect q
      else (effect q).modGroup q.group (fun gr =>
        gr.setTable tb.toNat { gr.table tb.toNat with armed := none })))

/-! ### Evaluation (R193) -/

def numLe (a b : Num) : Bool := numLt a b || numEq a b

def tblIndom (img : List Byte) (x : Nat) : Bool :=
  numLe (dec fmtFp32 (tblField img 4)) (dec fmtFp32 x) && numLe (dec fmtFp32 x) (dec fmtFp32 (tblField img 8))

/-- The key before clamping. -/
def tblKey (img : List Byte) (x : Nat) : Int :=
  if tblMode img = 0 then ((x / 2 ^ (tblField img 0x10 % 32) : Nat) : Int) - tblField img 0x14
  else (cvtInt (dec fmtFp32 (fpFma fmtFp32 .rne x (tblField img 0x10) (tblField img 0x14)).1) false .rd true).1.toInt

/-- The segment that R193 selects: the edge segment outside the domain. -/
def tblSegment (img : List Byte) (x : Nat) : Nat :=
  let last : Int := tblCount img - 1
  let k := if tblIndom img x then tblKey img x
    else if numLt (dec fmtFp32 x) (dec fmtFp32 (tblField img 4)) then 0 else last
  (min (max k 0) last).toNat

/-- A gap value as delivered. -/
def tblGap (img : List Byte) : Nat :=
  if (dec fmtFp32 (tblField img 0xC)).isNan then 0x7FC00000 else tblField img 0xC

/-- The cubic of a segment, with the bits its four steps raise. -/
def tblCubic (img : List Byte) (k x : Nat) : Nat × Flags :=
  let u := fpSub fmtFp32 .rne x (segField img k 0)
  let t2 := fpFma fmtFp32 .rne (segField img k 0x10) u.1 (segField img k 0xC)
  let t1 := fpFma fmtFp32 .rne t2.1 u.1 (segField img k 8)
  let t0 := fpFma fmtFp32 .rne t1.1 u.1 (segField img k 4)
  (t0.1, u.2 ||| t2.2 ||| t1.2 ||| t0.2)

/-- `tablefn`: the value, the bits raised, and whether it is the gap value. -/
def tablefn (img : List Byte) (x : Nat) : Nat × Flags × Bool :=
  if (dec fmtFp32 x).isNan then (0x7FC00000, flagIf (dec fmtFp32 x).isSnan flagNV, false)
  else if !tblIndom img x && tblPolicy img == 1 then (tblGap img, flagDOM, true)
  else if segGap img (tblSegment img x) then (tblGap img, flagGAP, true)
  else
    let r := tblCubic img (tblSegment img x) x
    (r.1, r.2, false)

/-! ### Reductions (R194) -/

/-- Fold a table value back, unless it is the gap value. -/
def foldBack (r : Nat × Flags × Bool) (f : Num → Nat × Flags) : Nat × Flags :=
  if r.2.2 then (r.1, r.2.1)
  else
    let z := f (dec fmtFp32 r.1)
    (z.1, r.2.1 ||| z.2)

/-- Round an exact value once under RNE. -/
def round32 (x : Num) : Nat × Flags := numEnc fmtFp32 (x, flagNone) .rne

/-- Scale by a sign and a power of two, exactly. -/
def numScale (neg : Bool) (k : Int) : Num → Num
  | .nan sg => .nan sg
  | .inf n => .inf (n != neg)
  | .fin n m e => .fin (n != neg) m (e + k)

/-- The nearest integer, ties to even, of (-1)^neg * m * 2^e. -/
def nearest (neg : Bool) (m : Nat) (e : Int) : Int :=
  if 0 ≤ e then signedOf neg (m * 2 ^ e.toNat)
  else
    let d := 2 ^ (-e).toNat
    let k := m / d
    signedOf neg (if roundsAway false .rne neg k (m % d) d then k + 1 else k)

/-- x - n as an encoding: exact, and +0 when x is an integer. -/
def fracOf (neg : Bool) (m : Nat) (e : Int) (n : Int) : Nat :=
  match (numAdd (.fin neg m e) (numOfInt (-n)) .rne).1 with
  | .fin _ 0 _ => 0
  | y => (round32 y).1

/-- FEV.E2. -/
def evE2 (img : List Byte) (x : Nat) : Nat × Flags :=
  match dec fmtFp32 x with
  | .nan _ => (0x7FC00000, flagNone)
  | .inf neg => (if neg then 0 else 0x7F800000, flagNone)
  | .fin neg m e =>
    if numLt (.fin false 1 8) (.fin neg m e) then (0x7F800000, flagOF ||| flagNX)
    else if numLt (.fin neg m e) (.fin true 1 8) then (0, flagUF ||| flagNX)
    else
      let n := nearest neg m e
      foldBack (tablefn img (fracOf neg m e n)) (fun t => round32 (numScale false n t))

/-- FEV.L2. -/
def evL2 (img : List Byte) (x : Nat) : Nat × Flags :=
  match dec fmtFp32 x with
  | .nan _ => (0x7FC00000, flagNone)
  | .inf neg => if neg then (0x7FC00000, flagNV) else (0x7F800000, flagNone)
  | .fin neg m e =>
    if m = 0 then (0xFF800000, flagNone)
    else if neg then (0x7FC00000, flagNV)
    else
      let l := Nat.log2 m
      let up : Nat := if 3 * 2 ^ l ≤ 2 * m then 1 else 0
      let y := (round32 (.fin false m (-(l : Int) - up))).1
      foldBack (tablefn img y) (fun t => numEnc fmtFp32 (numAdd (numOfInt (l + e + up)) t .rne) .rne)

/-- FEV.RC. -/
def evRc (img : List Byte) (x : Nat) : Nat × Flags :=
  match dec fmtFp32 x with
  | .nan _ => (0x7FC00000, flagNone)
  | .inf neg => (fmtFp32.signBit neg, flagNone)
  | .fin neg m e =>
    if m = 0 then (fmtFp32.infBits neg, flagNone)
    else
      let l := Nat.log2 m
      foldBack (tablefn img (round32 (.fin false m (-(l : Int)))).1) (fun t => round32 (numScale neg (-(l + e)) t))

/-- FEV.RS. -/
def evRs (img : List Byte) (x : Nat) : Nat × Flags :=
  match dec fmtFp32 x with
  | .nan _ => (0x7FC00000, flagNone)
  | .inf neg => if neg then (0x7FC00000, flagNV) else (0, flagNone)
  | .fin neg m e =>
    if m = 0 then (fmtFp32.infBits neg, flagNone)
    else if neg then (0x7FC00000, flagNV)
    else
      let l := Nat.log2 m
      let odd := (l + e) % 2
      foldBack (tablefn img (round32 (.fin false m (odd - l))).1)
        (fun t => round32 (numScale false (-((l + e - odd) / 2)) t))

/-- FEV.PD. -/
def evPd (img : List Byte) (x : Nat) : Nat × Flags :=
  match dec fmtFp32 x with
  | .nan _ => (0x7FC00000, flagNone)
  | .inf _ => (0x7FC00000, flagNV)
  | .fin neg m e =>
    let r := tablefn img (fracOf neg m e (nearest neg m e))
    (r.1, r.2.1)

/-- FEV. -/
def evPlain (img : List Byte) (x : Nat) : Nat × Flags :=
  let r := tablefn img x
  (r.1, r.2.1)

/-! ### Meanings (R195 to R197) -/

/-- The shared description of the evaluations. -/
def evSlot (i : Instr) (vd va : BitVec 8) (tb : BitVec 3) (g : Guard) (f : List Byte → Nat → Nat × Flags) (s : State) :
    Out :=
  tableSlot s i g tb (fun q => s.flyVF q g latFunction vd.toNat (fun l =>
    let r := f (s.image q tb) (vOf s l va).toNat
    (BitVec.ofNat 32 r.1, r.2)))

/-- FEV (R195). -/
def execFev (vd va : BitVec 8) (tb : BitVec 3) (g : Guard) (s : State) : Out :=
  evSlot (.fev vd va tb g) vd va tb g evPlain s
/-- FEV.E2 (R194). -/
def execFevE2 (vd va : BitVec 8) (tb : BitVec 3) (g : Guard) (s : State) : Out :=
  evSlot (.fevE2 vd va tb g) vd va tb g evE2 s
/-- FEV.L2 (R194). -/
def execFevL2 (vd va : BitVec 8) (tb : BitVec 3) (g : Guard) (s : State) : Out :=
  evSlot (.fevL2 vd va tb g) vd va tb g evL2 s
/-- FEV.RC (R194). -/
def execFevRc (vd va : BitVec 8) (tb : BitVec 3) (g : Guard) (s : State) : Out :=
  evSlot (.fevRc vd va tb g) vd va tb g evRc s
/-- FEV.RS (R194). -/
def execFevRs (vd va : BitVec 8) (tb : BitVec 3) (g : Guard) (s : State) : Out :=
  evSlot (.fevRs vd va tb g) vd va tb g evRs s
/-- FEV.PD (R194). -/
def execFevPd (vd va : BitVec 8) (tb : BitVec 3) (g : Guard) (s : State) : Out :=
  evSlot (.fevPd vd va tb g) vd va tb g evPd s

/-- FSEG (R196). -/
def execFseg (vd va : BitVec 8) (tb : BitVec 3) (g : Guard) (s : State) : Out :=
  tableSlot s (.fseg vd va tb g) g tb (fun q => s.flyV q g latFunction vd.toNat (fun l =>
    let img := s.image q tb
    let x := (vOf s l va).toNat
    if (dec fmtFp32 x).isNan || (!tblIndom img x && tblPolicy img == 1) then 0xFFFFFFFF
    else BitVec.ofNat 32 (tblSegment img x)))

/-- FDOM (R197). -/
def execFdom (pd : BitVec 4) (va : BitVec 8) (tb : BitVec 3) (g : Guard) (s : State) : Out :=
  tableSlot s (.fdom pd va tb g) g tb (fun q => s.flyP q g latFunction pd (fun l =>
    let img := s.image q tb
    let x := (vOf s l va).toNat
    !(dec fmtFp32 x).isNan && tblIndom img x && !segGap img (tblSegment img x)))

/-- Map a logical table to a byte as TSEL does (R151, R192). -/
def State.mapTable (s : State) (group core tb : Nat) (byte : Byte) : State :=
  s.modGroup group (fun g =>
    let outside := byte != 0xFF && (decide (15 < byte.toNat) || ((s.core core).slot byte.toNat).owner != some g.tenant)
    g.setTable tb ⟨byte, outside, none⟩)

/-- TSEL (R151). -/
def execTsel (tb : BitVec 3) (xa : BitVec 4) (g : Guard) (s : State) : Out :=
  slotNext s (fun q => match leader s q g with
    | none => s
    | some tk => s.mapTable q.group q.core tb.toNat (((s.thread tk).readX xa.toNat).truncate 8))

end Sys2Proof.Machine
end

