-- ==== Sys2Proof/Machine/MemorySlots.lean ====
section
/-! DEFINITION. The memory engine's slots on this package's memory (08 R199 to R220): addresses, the checks of R214,
loads, stores, atomics, prefetch, cache maintenance, fences and DRAIN. -/

namespace Sys2Proof.Machine

/-! ### Addresses (R199, R202) -/

/-- The effective address of a lane; `vi` is the index register of an indexed form. -/
def memEa (s : State) (xb : BitVec 4) (vi : Option (BitVec 8)) (off : BitVec 10) (size : Nat) (l : Nat × Nat) : DWord :=
  xOf s l xb + (match vi with
    | some r => (vOf s l r).signExtend 64 * BitVec.ofNat 64 size
    | none => 0) + off.signExtend 64 * BitVec.ofNat 64 size

/-- The address of a load or store. -/
def moEa (s : State) (o : MOp) (size : Nat) (l : Nat × Nat) : DWord :=
  memEa s o.xb (if o.ix then some o.vi else none) o.off size l

/-- The address of an atomic, FST or TXST. -/
def ixEa (s : State) (o : IxOp) (size : Nat) (l : Nat × Nat) : DWord := memEa s o.xb (some o.vi) o.off size l

/-! ### The checks of R214 -/

/-- Where an access may go: reads of any memory, writes of this package, hub reads of this package, FST, TXST. -/
inductive Reach where
  | load | write | hub | fst | txst
  deriving DecidableEq, Repr, Inhabited

/-- The permission reason of a site that a reach excludes (R211, R224, R399, R403). -/
def Reach.refuses (r : Reach) : Site → Option Nat
  | .here _ _ => none
  | .pkg _ _ => match r with
    | .write => some 4
    | .hub => some 5
    | _ => none
  | .host _ _ => match r with
    | .load => none
    | .fst => none
    | .hub => some 5
    | _ => some 4

/-- A failing check of one lane: its rank within a slot and which of R214's checks of that rank it is, its cause, reason
and address. -/
structure LaneFault where
  rank : Nat
  check : Nat
  cause : Nat
  reason : Nat
  addr : DWord
  deriving DecidableEq, Repr, Inhabited

/-- The failure of one translated byte: canonical form 0, translation 1, permission 2, the remote-write rule 3. -/
def State.siteFault (s : State) (g : Nat) (n : Need) (r : Reach) (va : DWord) : Option LaneFault :=
  match s.xlateFor g n va with
  | .bad c k => some (if c = 0x08 then ⟨2, 2, c, k, va⟩ else ⟨1, if k = 1 then 0 else 1, c, k, va⟩)
  | .ok site => (r.refuses site).map (fun k => ⟨2, 3, 0x08, k, va⟩)

/-- Every failing check of a lane's access: misalignment, or those of its bytes, by the pages and range they lie in. -/
def State.laneFaults (s : State) (q : Issue) (ea : DWord) (len align : Nat) (n : Need) (r : Reach) (scr : Bool) :
    List LaneFault :=
  if ea.toNat % align ≠ 0 then [⟨0, 0, 0x07, 0, ea⟩]
  else if scr then
    (((List.range len).find? (fun k =>
      ((s.group q.group).scrAt (clusterOf q.core) (ea + BitVec.ofNat 64 k).toNat).isNone)).map
      (fun k => ⟨2, 4, 0x08, 3, ea + BitVec.ofNat 64 k⟩)).toList
  else (portions ea len).filterMap (fun p => s.siteFault q.group n r (ea + BitVec.ofNat 64 p.1))

/-- The condition of a memory slot (rank 10 of R339): the first rank that fails, of its lowest lane; the mask holds every
lane that fails the same check (R214). -/
def memCond (s : State) (q : Issue) (lanes : List (Nat × Nat)) (ea : Nat × Nat → DWord) (len align : Nat) (n : Need)
    (r : Reach) (scr : Bool) : Option Cond :=
  let fs := lanes.flatMap (fun l => (s.laneFaults q (ea l) len align n r scr).map (fun f => (l.1, f)))
  (leastBy (fun f => f.2.rank) fs).map (fun f =>
    { cause := f.2.cause, reason := f.2.reason, ident := q.cur, write := n.kind == .write, addr := f.2.addr, info := 0,
      kind := n.kind
      lanes := ((fs.filter (fun h => h.2.rank == f.2.rank && h.2.check == f.2.check)).map (fun h => h.1)).eraseDups })

/-- A slot with the frame bound and one memory check. -/
def memSlot (s : State) (i : Instr) (cond : Issue → Option Cond) (effect : Issue → State) : Out :=
  slotCond s (fun q => (frameCond s q i).orElse (fun _ => cond q)) (fun q => .next (effect q))

/-! ### Reaching memory -/

/-- What stands at a virtual byte of a group; nothing while its translation waits. -/
def State.siteOf (s : State) (g : Nat) (n : Need) (va : DWord) : Option Site :=
  match s.xlateFor g n va with
  | .ok site => if site = .here nowhere .nc then none else some site
  | .bad _ _ => none

/-- Send a remote load of a thread (R211); the answer is the operation's identifier. -/
def State.sendLoad (s : State) (q : Issue) (tk e off len access : Nat) : State × Nat :=
  let o : OutOp := { id := s.ids, launch := (s.group q.group).launch, group := q.group, thread := tk, core := q.core,
                     target := s.pod * 4096 + e, kind := .load off len access, sent := some s.now, after := 0, place := 0 }
  (({ s.nextId with fab := { s.fab with ops := s.fab.ops ++ [o] } }).fabSend s.pod (.load o.target o.id off len), s.ids)

/-- The attribute under which an access with a hint reaches a line (R207): 011 bypasses L1, but a local line takes every
hint as 000. -/
def Attr.hinted (attr : Attr) (hint : Nat) : Attr := if attr = .wb ∧ hint = 3 then .nc else attr

/-- Marks 001 and 010 stay with a tracked line. -/
def State.hintLine (s : State) (core loc hint : Nat) (attr : Attr) : State := if attr = .wb then s.noteHint core loc hint else s

/-- The pieces that one part of a lane's access reads, and the remote load it sends. -/
def State.readPortion (s : State) (q : Issue) (tk access : Nat) (ea : DWord) (whole : Bool) (hint : Nat) (p : Nat × Nat) :
    State × List ReadPiece :=
  let va := ea + BitVec.ofNat 64 p.1
  match s.siteOf q.group needR va with
  | some (.here pa attr) =>
    (s.hintLine q.core pa hint attr,
     (piecesOf pa p.2 whole).map (fun k => ⟨p.1 + k.1, pa + k.1, k.2, attr.hinted hint, none, none⟩))
  | some (.pkg e off) =>
    let r := s.sendLoad q tk e off p.2 access
    (r.1, [⟨p.1, off, p.2, .nc, none, some r.2⟩])
  | some (.host e off) =>
    let r := s.sendLoad q tk e off p.2 access
    (r.1, [⟨p.1, off, p.2, .nc, none, some r.2⟩])
  | none => (s, [])

/-- The pieces of a scratchpad access. -/
def Group.scrPieces (g : Group) (cluster : Nat) (ea : DWord) (len : Nat) (whole : Bool) : List (Nat × Nat × Nat) :=
  (piecesOf ea.toNat len whole).filterMap (fun k =>
    (g.scrAt cluster (ea + BitVec.ofNat 64 k.1).toNat).map (fun loc => (k.1, loc, k.2)))

/-- All pieces that a lane reads. -/
def State.readLane (s : State) (q : Issue) (tk access : Nat) (ea : DWord) (len : Nat) (whole scr : Bool) (hint : Nat) :
    State × List ReadPiece :=
  if scr then
    (s, ((s.group q.group).scrPieces (clusterOf q.core) ea len whole).map (fun k => ⟨k.1, k.2.1, k.2.2, .nc, none, none⟩))
  else
    (portions ea len).foldl (fun acc p =>
      let r := acc.1.readPortion q tk access ea whole hint p
      (r.1, acc.2 ++ r.2)) (s.markRange q.group false ea len, [])

/-! ### Loads (R208, R210) -/

/-- Word `part` of a value that a load delivers. -/
def Ext.word (x : Ext) (bs : List Byte) (part : Nat) : Word :=
  match x with
  | .zero n => BitVec.ofNat 32 (natAt bs 0 n)
  | .sign n => if n = 1 then (BitVec.ofNat 8 (natAt bs 0 1)).signExtend 32 else (BitVec.ofNat 16 (natAt bs 0 2)).signExtend 32
  | .words => BitVec.ofNat 32 (natAt bs (4 * part) 4)

/-- Start the reads of every lane and put the destinations in flight. -/
def State.startLoad (s : State) (q : Issue) (ps : List (Nat × Nat)) (ea : Nat × Nat → DWord) (len words lat : Nat)
    (x : Ext) (whole scr : Bool) (hint data : Nat) : State :=
  if ps.isEmpty then s
  else
    let id := s.ids
    let r := ps.foldl (fun acc l =>
      let z := acc.1.readLane q l.2 id (ea l) len whole scr hint
      (z.1, acc.2 ++ [(l.2, z.2)])) (s.nextId, ([] : List (Nat × List ReadPiece)))
    let a : Access := { id := id, core := q.core, run := q.run, group := q.group, seq := (s.core q.core).seq, ext := x,
                        reads := r.2, answer := none, hub := false }
    let s1 := { r.1 with accesses := r.1.accesses ++ [a] }
    (List.range words).foldl (fun s' k =>
      s'.flyWait q lat id k (ps.map (fun l => (l.2, (s.thread l.2).destV (data + k), 0)))) s1

/-- A load of either space. -/
def loadSlot (i : Instr) (o : MOp) (size words : Nat) (x : Ext) (whole scr : Bool) (s : State) : Out :=
  memSlot s i
    (fun q => memCond s q (participants s q o.g) (moEa s o size) size (if whole then 16 else 1) needR .load scr)
    (fun q => s.startLoad q (participants s q o.g) (moEa s o size) size words (if scr then latScratch else latLoad s q)
      x whole scr o.hint.toNat o.data.toNat)

/-- LD.Z8 (R208). -/
def execLdZ8 (o : MOp) (s : State) : Out := loadSlot (.ldZ8 o) o 1 1 (.zero 1) false false s
/-- LD.S8 (R208). -/
def execLdS8 (o : MOp) (s : State) : Out := loadSlot (.ldS8 o) o 1 1 (.sign 1) false false s
/-- LD.Z16 (R208). -/
def execLdZ16 (o : MOp) (s : State) : Out := loadSlot (.ldZ16 o) o 2 1 (.zero 2) false false s
/-- LD.S16 (R208). -/
def execLdS16 (o : MOp) (s : State) : Out := loadSlot (.ldS16 o) o 2 1 (.sign 2) false false s
/-- LD.32 (R208). -/
def execLd32 (o : MOp) (s : State) : Out := loadSlot (.ld32 o) o 4 1 .words false false s
/-- LD.64 (R208). -/
def execLd64 (o : MOp) (s : State) : Out := loadSlot (.ld64 o) o 8 2 .words false false s
/-- LD.128 (R208). -/
def execLd128 (o : MOp) (s : State) : Out := loadSlot (.ld128 o) o 16 4 .words false false s
/-- LD.A16 (R208). -/
def execLdA16 (o : MOp) (s : State) : Out := loadSlot (.ldA16 o) o 16 4 .words true false s
/-- LDS.Z8 (R208). -/
def execLdsZ8 (o : MOp) (s : State) : Out := loadSlot (.ldsZ8 o) o 1 1 (.zero 1) false true s
/-- LDS.S8 (R208). -/
def execLdsS8 (o : MOp) (s : State) : Out := loadSlot (.ldsS8 o) o 1 1 (.sign 1) false true s
/-- LDS.Z16 (R208). -/
def execLdsZ16 (o : MOp) (s : State) : Out := loadSlot (.ldsZ16 o) o 2 1 (.zero 2) false true s
/-- LDS.S16 (R208). -/
def execLdsS16 (o : MOp) (s : State) : Out := loadSlot (.ldsS16 o) o 2 1 (.sign 2) false true s
/-- LDS.32 (R208). -/
def execLds32 (o : MOp) (s : State) : Out := loadSlot (.lds32 o) o 4 1 .words false true s
/-- LDS.64 (R208). -/
def execLds64 (o : MOp) (s : State) : Out := loadSlot (.lds64 o) o 8 2 .words false true s
/-- LDS.128 (R208). -/
def execLds128 (o : MOp) (s : State) : Out := loadSlot (.lds128 o) o 16 4 .words false true s
/-- LDS.A16 (R208). -/
def execLdsA16 (o : MOp) (s : State) : Out := loadSlot (.ldsA16 o) o 16 4 .words true true s

/-! ### Stores (R208, R210) -/

/-- The bytes of the DATA registers of a lane. -/
def dataBytes (s : State) (l : Nat × Nat) (data : BitVec 8) (size : Nat) : List Byte :=
  (((List.range 4).flatMap (fun k => leBytes 4 ((s.thread l.2).readV (data.toNat + k)).toNat))).take size

/-- Store a lane's bytes. -/
def State.storeLane (s : State) (q : Issue) (tk : Nat) (ea : DWord) (bs : List Byte) (whole scr : Bool) (hint : Nat) : State :=
  if scr then
    ((s.group q.group).scrPieces (clusterOf q.core) ea bs.length whole).foldl (fun s k =>
      s.store q.core tk k.2.1 .nc true ((bs.drop k.1).take k.2.2)) s
  else
    (portions ea bs.length).foldl (fun s p =>
      match s.siteOf q.group needW (ea + BitVec.ofNat 64 p.1) with
      | some (.here pa attr) =>
        (s.hintLine q.core pa hint attr).store q.core tk pa (attr.hinted hint) whole ((bs.drop p.1).take p.2)
      | _ => s) (s.markRange q.group true ea bs.length)

/-- A store of either space: lanes perform in ascending order. -/
def storeSlot (i : Instr) (o : MOp) (size : Nat) (whole scr : Bool) (s : State) : Out :=
  memSlot s i
    (fun q => memCond s q (participants s q o.g) (moEa s o size) size (if whole then 16 else 1) needW .write scr)
    (fun q => (participants s q o.g).foldl (fun s' l =>
      s'.storeLane q l.2 (moEa s o size l) (dataBytes s l o.data size) whole scr o.hint.toNat) s)

/-- ST.8 (R208). -/
def execSt8 (o : MOp) (s : State) : Out := storeSlot (.st8 o) o 1 false false s
/-- ST.16 (R208). -/
def execSt16 (o : MOp) (s : State) : Out := storeSlot (.st16 o) o 2 false false s
/-- ST.32 (R208). -/
def execSt32 (o : MOp) (s : State) : Out := storeSlot (.st32 o) o 4 false false s
/-- ST.64 (R208). -/
def execSt64 (o : MOp) (s : State) : Out := storeSlot (.st64 o) o 8 false false s
/-- ST.128 (R208). -/
def execSt128 (o : MOp) (s : State) : Out := storeSlot (.st128 o) o 16 false false s
/-- ST.A16 (R208). -/
def execStA16 (o : MOp) (s : State) : Out := storeSlot (.stA16 o) o 16 true false s
/-- STS.8 (R208). -/
def execSts8 (o : MOp) (s : State) : Out := storeSlot (.sts8 o) o 1 false true s
/-- STS.16 (R208). -/
def execSts16 (o : MOp) (s : State) : Out := storeSlot (.sts16 o) o 2 false true s
/-- STS.32 (R208). -/
def execSts32 (o : MOp) (s : State) : Out := storeSlot (.sts32 o) o 4 false true s
/-- STS.64 (R208). -/
def execSts64 (o : MOp) (s : State) : Out := storeSlot (.sts64 o) o 8 false true s
/-- STS.128 (R208). -/
def execSts128 (o : MOp) (s : State) : Out := storeSlot (.sts128 o) o 16 false true s
/-- STS.A16 (R208). -/
def execStsA16 (o : MOp) (s : State) : Out := storeSlot (.stsA16 o) o 16 true true s

/-! ### Atomics (R212, R213) -/

/-- The location of an atomic: where it stands, and how it reaches it. -/
def State.atomLoc (s : State) (q : Issue) (ea : DWord) (scr : Bool) : Option (Nat × Attr) :=
  if scr then ((s.group q.group).scrAt (clusterOf q.core) ea.toNat).map (fun p => (p, .nc))
  else match s.siteOf q.group needRW ea with
    | some (.here pa attr) => some (pa, attr)
    | _ => none

/-- One lane's atomic: an entry of the core's order, and the piece that takes the old word. -/
def State.atomLane (s : State) (q : Issue) (o : IxOp) (op : AtomOp) (scr : Bool) (access : Nat) (l : Nat × Nat) :
    State × List (Nat × List ReadPiece) :=
  match s.atomLoc q (ixEa s o 4 l) scr with
  | none => (s, [])
  | some (loc, attr) =>
    let s1 := if scr then s else s.markRange q.group true (ixEa s o 4 l) 4
    (s1.push q.core l.2 loc attr (s.thread l.2).rel
       (.atom op (vOf s l o.data) ((s.thread l.2).readV (o.data.toNat + 1)) access),
     [(l.2, [⟨0, loc, 4, attr, none, some s1.ids⟩])])

/-- Issue an atomic: its lanes in ascending order, and its results in flight. -/
def State.startAtom (s : State) (q : Issue) (ps : List (Nat × Nat)) (o : IxOp) (op : AtomOp) (scr : Bool) : State :=
  if ps.isEmpty then s
  else
    let id := s.ids
    let r := ps.foldl (fun acc l =>
      let z := acc.1.atomLane q o op scr id l
      (z.1, acc.2 ++ z.2)) (s.nextId, ([] : List (Nat × List ReadPiece)))
    let a : Access := { id := id, core := q.core, run := q.run, group := q.group, seq := (s.core q.core).seq, ext := .words,
                        reads := r.2, answer := none, hub := false }
    { r.1 with accesses := r.1.accesses ++ [a] }.flyWait q (if scr then latScratch else latLoad s q) id 0
      (ps.map (fun (l : Nat × Nat) => (l.2, (s.thread l.2).destV o.data.toNat, 0)))

/-- An atomic of either space (R213): each lane's read and write act in one step, when its entry performs. -/
def atomSlot (i : Instr) (o : IxOp) (op : AtomOp) (scr : Bool) (s : State) : Out :=
  memSlot s i
    (fun q => memCond s q (participants s q o.g) (ixEa s o 4) 4 4 needRW .write scr)
    (fun q => s.startAtom q (participants s q o.g) o op scr)

/-- ATOM.ADD (R212). -/
def execAtomAdd (o : IxOp) (s : State) : Out := atomSlot (.atomAdd o) o .add false s
/-- ATOM.MIN (R212). -/
def execAtomMin (o : IxOp) (s : State) : Out := atomSlot (.atomMin o) o .minS false s
/-- ATOM.MAX (R212). -/
def execAtomMax (o : IxOp) (s : State) : Out := atomSlot (.atomMax o) o .maxS false s
/-- ATOM.MINU (R212). -/
def execAtomMinu (o : IxOp) (s : State) : Out := atomSlot (.atomMinu o) o .minU false s
/-- ATOM.MAXU (R212). -/
def execAtomMaxu (o : IxOp) (s : State) : Out := atomSlot (.atomMaxu o) o .maxU false s
/-- ATOM.AND (R212). -/
def execAtomAnd (o : IxOp) (s : State) : Out := atomSlot (.atomAnd o) o .and false s
/-- ATOM.OR (R212). -/
def execAtomOr (o : IxOp) (s : State) : Out := atomSlot (.atomOr o) o .or false s
/-- ATOM.XOR (R212). -/
def execAtomXor (o : IxOp) (s : State) : Out := atomSlot (.atomXor o) o .xor false s
/-- ATOM.EXCH (R212). -/
def execAtomExch (o : IxOp) (s : State) : Out := atomSlot (.atomExch o) o .exch false s
/-- ATOM.CAS (R212). -/
def execAtomCas (o : IxOp) (s : State) : Out := atomSlot (.atomCas o) o .cas false s
/-- ATOM.FADD.F32 (R212). -/
def execAtomFaddF32 (o : IxOp) (s : State) : Out := atomSlot (.atomFaddF32 o) o .faddF32 false s
/-- ATOM.FADD.BF16X2 (R212). -/
def execAtomFaddBf16X2 (o : IxOp) (s : State) : Out := atomSlot (.atomFaddBf16X2 o) o .faddBf16 false s
/-- ATOMS.ADD (R212). -/
def execAtomsAdd (o : IxOp) (s : State) : Out := atomSlot (.atomsAdd o) o .add true s
/-- ATOMS.MIN (R212). -/
def execAtomsMin (o : IxOp) (s : State) : Out := atomSlot (.atomsMin o) o .minS true s
/-- ATOMS.MAX (R212). -/
def execAtomsMax (o : IxOp) (s : State) : Out := atomSlot (.atomsMax o) o .maxS true s
/-- ATOMS.MINU (R212). -/
def execAtomsMinu (o : IxOp) (s : State) : Out := atomSlot (.atomsMinu o) o .minU true s
/-- ATOMS.MAXU (R212). -/
def execAtomsMaxu (o : IxOp) (s : State) : Out := atomSlot (.atomsMaxu o) o .maxU true s
/-- ATOMS.AND (R212). -/
def execAtomsAnd (o : IxOp) (s : State) : Out := atomSlot (.atomsAnd o) o .and true s
/-- ATOMS.OR (R212). -/
def execAtomsOr (o : IxOp) (s : State) : Out := atomSlot (.atomsOr o) o .or true s
/-- ATOMS.XOR (R212). -/
def execAtomsXor (o : IxOp) (s : State) : Out := atomSlot (.atomsXor o) o .xor true s
/-- ATOMS.EXCH (R212). -/
def execAtomsExch (o : IxOp) (s : State) : Out := atomSlot (.atomsExch o) o .exch true s
/-- ATOMS.CAS (R212). -/
def execAtomsCas (o : IxOp) (s : State) : Out := atomSlot (.atomsCas o) o .cas true s
/-- ATOMS.FADD.F32 (R212). -/
def execAtomsFaddF32 (o : IxOp) (s : State) : Out := atomSlot (.atomsFaddF32 o) o .faddF32 true s
/-- ATOMS.FADD.BF16X2 (R212). -/
def execAtomsFaddBf16X2 (o : IxOp) (s : State) : Out := atomSlot (.atomsFaddBf16X2 o) o .faddBf16 true s

/-! ### Prefetch and cache maintenance (R216 to R218) -/

/-- PREF (R216): the line is brought to L1, or for HINT 011 and a tracked line no further than the home. -/
def execPref (xb : BitVec 4) (off : BitVec 10) (hint : BitVec 3) (g : Guard) (s : State) : Out :=
  slotNext s (fun q => (participants s q g).foldl (fun s' l =>
    match s'.siteOf q.group needR (memEa s xb none off 1 l) with
    | some (.here pa attr) =>
      if 3 < hint.toNat ∨ isScr pa ∨ s'.owned pa 1 ∨ (s'.readWaits pa 1).isSome then s'
      else (s'.hintLine q.core pa hint.toNat attr).readCopy q.core pa (attr.hinted hint.toNat)
    | _ => s') s)

/-- The line of an address in the L1 that holds it, when it is memory of this package. -/
def State.lineAt (s : State) (q : Issue) (va : DWord) : Option Nat :=
  match s.siteOf q.group needLine va with
  | some (.here pa _) => some (lineOf pa)
  | _ => none

/-- CLEAN and INVAL. -/
def lineSlot (i : Instr) (xb : BitVec 4) (off : BitVec 10) (g : Guard) (drop : Bool) (s : State) : Out :=
  memSlot s i
    (fun q => memCond s q (participants s q g) (memEa s xb none off 1) 1 1 needLine .load false)
    (fun q => (participants s q g).foldl (fun s' l =>
      let va := memEa s xb none off 1 l
      let s' := s'.markRange q.group false va 1
      match s'.lineAt q va with
      | none => s'
      | some a =>
        let w := s'.writebackL1 q.core (fun p => lineOf p == a)
        let o := w.l1Agent q.core
        if drop then (w.discardL1 q.core (fun p => lineOf p == a)).dirSet o a .i
        else if w.copyOf o a = .m then w.dirSet o a .s else w) s)

/-- CLEAN (R217). -/
def execClean (xb : BitVec 4) (off : BitVec 10) (g : Guard) (s : State) : Out :=
  lineSlot (.clean xb off g) xb off g false s
/-- INVAL (R217). -/
def execInval (xb : BitVec 4) (off : BitVec 10) (g : Guard) (s : State) : Out :=
  lineSlot (.inval xb off g) xb off g true s

/-- ICINV (R218): in the core's order, at once unless a fence of its bundle stands before it (R220). -/
def execIcinv (xb : BitVec 4) (g : Guard) (s : State) : Out :=
  memSlot s (.icinv xb g)
    (fun q => memCond s q (participants s q g) (memEa s xb none 0 1) 1 1 needR .load false)
    (fun q => (participants s q g).foldl (fun s' l =>
      let va := memEa s xb none 0 1 l
      let s' := s'.markRange q.group false va 1
      match s'.siteOf q.group needR va with
      | some (.here pa _) =>
        s'.storeCode q.core l.2 q.scope pa
      | _ => s') s)

/-! ### Fences and DRAIN (R219 to R221) -/

/-- A release wider than core scope stamps the thread's later writes (R307). -/
def Rels.stamp (r : Rels) (k : FenceKind) (scope n : Nat) : Rels :=
  if !k.isRelease || scope == 0 then r
  else if scope = 1 then { r with cluster := n }
  else if scope = 2 then { r with die := n }
  else if scope = 5 then { r with system := n }
  else { r with wide := n }

/-- Place a fence in the core's order after everything issued so far, for each participant. -/
def State.fence (s : State) (q : Issue) (lanes : List (Nat × Nat)) (k : FenceKind) (prom : Option Nat) : State :=
  if lanes.isEmpty then s
  else
    let s := s.bumpSeq q.core
    let n := (s.core q.core).seq
    let s := lanes.foldl (fun s l => s.modThread l.2 (fun t =>
      { t with fences := t.fences ++ [⟨k, q.scope, n, prom⟩], rel := t.rel.stamp k q.scope n })) s
    { s with issue := s.issue.map (fun i => { i with fenceSeq := if k = .cp then i.fenceSeq else some n }) }

/-- A fence slot. -/
def fenceSlot (k : FenceKind) (g : Guard) (s : State) : Out :=
  slotNext s (fun q => s.fence q (participants s q g) k none)

/-- FENCE.ACQ (R219). -/
def execFenceAcq (g : Guard) (s : State) : Out := fenceSlot .acq g s
/-- FENCE.REL (R219). -/
def execFenceRel (g : Guard) (s : State) : Out := fenceSlot .rel g s
/-- FENCE.AR (R219). -/
def execFenceAr (g : Guard) (s : State) : Out := fenceSlot .ar g s
/-- FENCE.SC (R219). -/
def execFenceSc (g : Guard) (s : State) : Out := fenceSlot .sc g s
/-- FENCE.CP (R219). -/
def execFenceCp (g : Guard) (s : State) : Out := fenceSlot .cp g s

/-- DRAIN (R221): the remote operations issued before this bundle's. -/
def execDrain (g : Guard) (s : State) : Out :=
  slotNext s (fun q => (participants s q g).foldl (fun s' l =>
    s'.modThread l.2 (fun t => { t with drain := some s.ids })) s)

end Sys2Proof.Machine
end

