-- ==== Sys2Proof/Machine/Commands.lean ====
section
/-! DEFINITION. Engine commands from issue to retirement, as far as both engines share it (01 R23 to R38): capture,
transfer identifiers, copy tags, waits, engine accesses to memory (R245, R311, R312) and retirement. -/

namespace Sys2Proof.Machine

/-! ### Kinds -/

/-- A command of the Siphon; every other command belongs to the matrix engine. -/
def CmdOp.isSiphon : CmdOp → Bool
  | .copy => true
  | .copyx => true
  | .tload => true
  | .pload _ => true
  | .dload => true
  | .intake => true
  | _ => false

/-- The C or X opcode of a command (R61, R62); a scale command posts no record and has none. -/
def CmdOp.code : CmdOp → Nat
  | .copy => 1
  | .copyx => 2
  | .tload => 3
  | .pload _ => 4
  | .dload => 5
  | .intake => 6
  | .mma _ _ _ _ _ _ _ => 1
  | .accz _ => 2
  | .mst _ _ => 3
  | .mld _ => 4
  | .msync => 5
  | .mstat _ => 6
  | .scale _ _ _ => 0

/-- A command as it is captured at issue. -/
def blankCmd (s : State) (q : Issue) (op : CmdOp) (h : Sync) (leader : Nat) (xs xd : DWord) : Cmd :=
  { id := s.ids, group := q.group, core := q.core, issued := s.coreCycles q.core, since := s.now, op := op, wsem := h.wsem.toNat, wth := h.wth.toNat,
    ssem := h.ssem.toNat, inc := h.inc.toNat, ch := 0, ident := 0, tag := 0, xs := xs, xd := xd, shape := [], mask := 0,
    xform := 0, timed := false, inBuffer := false, scope := q.scope, leader := leader, place := q.seq0, startSeq := 0,
    started := false, progress := 0, held := none, finished := false, status := 0, failAddr := 0, detail := 0,
    result := [], mismatch := none, rowBad := none, row := [], units := [], buf := [], base := 0,
    dstAt := 0, aAt := 0, bAt := 0, planned := false, out := [], keys := [] }

def State.addCmd (s : State) (c : Cmd) : State := { s.nextId with cmds := s.cmds ++ [c] }

/-- The leader lane of a slot without a guard: the lowest active lane (R36). -/
def Issue.leader (q : Issue) : Option Nat := (q.lanes.head?).map (fun l => l.2)

/-! ### Copy tags and channels (R30, R31) -/

def Group.tagsOut (g : Group) (n : Nat) : Nat := spGet (fun _ => 0) g.tagCount n
def Group.chan (g : Group) (n : Nat) : Channel := spGet (fun _ => Channel.zero) g.chans n

/-- A command that names tag n issues: its count rises and its bit clears. -/
def Group.takeTag (g : Group) (n : Nat) : Group :=
  { g with tagCount := spSet (fun _ => 0) g.tagCount n (g.tagsOut n + 1),
           tags := g.tags &&& ~~~(BitVec.ofNat 64 (2 ^ n)) }

/-- It retires: its count falls and its bit is set at zero. -/
def Group.freeTag (g : Group) (n : Nat) : Group :=
  { g with tagCount := spSet (fun _ => 0) g.tagCount n (g.tagsOut n - 1),
           tags := if g.tagsOut n ≤ 1 then g.tags ||| BitVec.ofNat 64 (2 ^ n) else g.tags }

/-- The next identifier of a channel. -/
def Group.takeIdent (g : Group) (n : Nat) : Group :=
  { g with chans := spSet (fun _ => Channel.zero) g.chans n { g.chan n with cid := (g.chan n).cid + 1 } }

/-- %cdone advances over an unbroken run of retired identifiers. -/
def Channel.settle (c : Channel) : Nat → Channel
  | 0 => c
  | n + 1 =>
    if c.ahead.contains (c.cdone + 1) then
      Channel.settle { c with cdone := c.cdone + 1, ahead := c.ahead.filter (fun i => i != c.cdone + 1) } n
    else c

def Group.freeIdent (g : Group) (n ident : Nat) : Group :=
  let c := { g.chan n with ahead := (g.chan n).ahead ++ [ident] }
  { g with chans := spSet (fun _ => Channel.zero) g.chans n (c.settle c.ahead.length) }

/-! ### Starting -/

/-- The wait of a command is met (R23): the count at the start of the cycle is tested (R27). -/
def State.waitMet (s : State) (c : Cmd) : Bool := decide (c.wth ≤ ((s.group c.group).semStart c.wsem).toNat)

/-- The group may issue bundles and start commands: it is resident and not being saved, its launch goes
on, and the package is not in the fatal-error state (R450). -/
def State.groupRuns (s : State) (g : Nat) : Bool :=
  s.mgmt.fatal.isNone &&
  (s.group g).place == .resident && !(s.group g).stopped && ((s.launchOf g).status).isNone

/-- No FENCE.CP of an earlier bundle holds the command back (R219), its thread's end notwithstanding. -/
def State.cpClear (s : State) (c : Cmd) : Bool :=
  s.threads.all (fun q => groupOfThread q.1 != c.group || q.2.fences.all (fun f =>
    f.kind != .cp || decide (c.place < f.seq) || s.fenceDone c.core q.1 f))

/-! ### Engine accesses (R245) -/

/-- The units that an access reads stay as they were read (R312). -/
def State.keepUnits (s : State) (c : Cmd) : Eng → Cmd
  | .ok segs => segs.foldl (fun c g =>
      (List.range ((g.2.2.1 + g.2.1 - 1) / 8 - g.2.2.1 / 8 + 1)).foldl (fun (c : Cmd) k =>
        let u := g.2.2.1 / 8 + k
        { c with units := spPut c.units u ((List.range 8).map (fun b => s.unitByte c g.2.2.2 (8 * u + b))) }) c) c
  | _ => c

/-- Copies in M of the lines that an access reads at the home are written back (R363). -/
def State.engRecall (s : State) : Eng → State
  | .ok segs => segs.foldl (fun s g => if isScr g.2.2.1 then s else s.homeRead g.2.2.1) s
  | _ => s

/-- Local lines of the command's own core take the bytes that it has written (R301, R310). -/
def State.refreshLocal (s : State) (core loc : Nat) (bs : List Byte) : State :=
  ((List.range bs.length).zip bs).foldl (fun s q =>
    if (spFind (s.core (s.l1Owner core (loc + q.1))).lines (loc + q.1)).isSome then
      s.modCore (s.l1Owner core (loc + q.1)) (fun c => { c with lines := spPut c.lines (loc + q.1) (q.2, false) })
    else s) s

/-- Write bytes where an access lies. -/
def State.engWrite (s : State) (c : Cmd) (bs : List Byte) : Eng → State
  | .ok segs => segs.foldl (fun s g =>
      let v := (bs.drop g.1).take g.2.1
      (s.put g.2.2.1 v).refreshLocal c.core g.2.2.1 v) s
  | _ => s

/-- What the writes of an access wait for, if anything (R383, R400). -/
def State.engWaits (s : State) : Eng → Option WaitOn
  | .ok segs => segs.findSome? (fun g => s.writeWaits g.2.2.1 g.2.1)
  | _ => none

/-- What the reads of an access wait for, if anything (R400). -/
def State.engReadWaits (s : State) : Eng → Option WaitOn
  | .ok segs => segs.findSome? (fun g => s.readWaits g.2.2.1 g.2.1)
  | _ => none


/-- The same for both ends of an access of a command. -/
def State.engMarkWaits (s : State) (c : Cmd) (scr w : Bool) (va : DWord) (len : Nat) : Option WaitOn :=
  if scr || len == 0 then none
  else (s.markWaits c.group w va).orElse (fun _ => s.markWaits c.group w (va + BitVec.ofNat 64 (len - 1)))

/-- Mark the pages that an access of a command uses. -/
def State.engMark (s : State) (c : Cmd) (scr w : Bool) (va : DWord) (len : Nat) : State :=
  if scr || len == 0 then s else s.markRange c.group w va len

/-- A command is stopped by an access (R245). -/
def Cmd.stop (c : Cmd) (status : Nat) (addr detail : DWord) : Cmd :=
  { c with finished := true, status := status, failAddr := addr, detail := detail }

/-- A refused request that a command waited on (R340). -/
def State.cmdRefused (s : State) (c : Cmd) (va : DWord) (k : AccKind) : Bool :=
  s.refused.any (fun q => q.tenant == (s.group c.group).tenant && q.vpn == va.toNat / 4096 && q.kind == k &&
    q.cmds.contains c.id)

/-- A command meets a page that is not present: it takes the refusal it waited for, or holds on the page's request. -/
def State.engMiss (s : State) (c : Cmd) (va : DWord) (k : AccKind) (detail : DWord) : State × Cmd :=
  if s.cmdRefused c va k then
    ({ s with refused := s.refused.map (fun q =>
        if q.tenant == (s.group c.group).tenant && q.vpn == va.toNat / 4096 && q.kind == k
        then { q with cmds := q.cmds.filter (fun i => i != c.id) } else q) },
     c.stop 0x02 va detail)
  else
    let r := s.raise (s.group c.group).tenant va k
    (r.1, { c with held := r.2 })

/-- Resolve a failing access: the command stops or holds. -/
def State.engFail (s : State) (c : Cmd) (k : AccKind) (detail : DWord) : Eng → State × Cmd
  | .ok _ => (s, c)
  | .stop st va => (s, c.stop st va detail)
  | .miss va => s.engMiss c va k detail

/-- The request that holds a command has been answered. -/
def State.unheld (s : State) (c : Cmd) : Bool :=
  match c.held with
  | none => true
  | some r => !s.reqs.any (fun q => q.id == r)

/-! ### Retirement (R26, R27, R237) -/

/-- The stream completion record of a command (R253). -/
def streamRecord (s : State) (c : Cmd) : Rec :=
  [BitVec.ofNat 64 (2 ^ 63 + 0x40 * 2 ^ 56 + c.status * 2 ^ 48 + c.op.code * 2 ^ 42 + c.ch * 2 ^ 40 + c.tag * 2 ^ 32),
   BitVec.ofNat 64 c.ident, c.failAddr, c.detail, BitVec.ofNat 64 s.now, c.xs, c.xd, 0]

/-- A group's queue has room for a record (R271). -/
def Group.statRoom (g : Group) : Bool := decide (g.stats.length < 16)

/-- Set TRL in the leader lane's thread, unless it has exited (R247, R268). -/
def State.setTrl (s : State) (c : Cmd) : State :=
  if (s.thread c.leader).live then s.modThread c.leader (fun t => { t with status := t.status ||| flagTRL }) else s

/-- Tiles in passage whose last matrix command has retired go to the vector engine, at the start of a cycle (R34, R181). -/
def State.settleTokens (s : State) (g : Nat) : State :=
  (List.range 8).foldl (fun s n =>
    if ((s.group g).tile n).token = .mv ∧ s.tileBusy g n = false then s.modGroup g (fun gr => gr.setToken n .v) else s) s

/-- What every retirement does: the signal, then the command leaves the engine. -/
def State.retire (s : State) (c : Cmd) (rec' : Option Rec) : State :=
  let s := s.modGroup c.group (fun g =>
    let g := if c.inc = 0 then g else g.semWrite ⟨if c.op.isSiphon then 6 else 5, c.ssem, false, c.inc⟩
    let g := if c.op.isSiphon then (g.freeTag c.tag).freeIdent c.ch c.ident else g
    match rec' with
    | some r => { g with stats := g.stats ++ [r] }
    | none => g)
  s.dropCmd c.id

end Sys2Proof.Machine
end

