-- ==== Sys2Proof/Machine/Siphon.lean ====
section
/-! DEFINITION. The stream engine (10 R234 to R253): shape sets, copies, and table, pattern and dictionary loads. -/

namespace Sys2Proof.Machine

/-! ### Shape sets (R239 to R241) -/

/-- The width of a shape field. -/
def shapeWidth (f : Nat) : Nat :=
  if f = 0 then 5
  else if f ≤ 4 then 32
  else if f ≤ 13 then 48
  else if f = 14 then 32
  else if f = 17 then 1
  else 64

/-- A field keeps the low bits of its width. -/
def shapeKeep (f : Nat) (v : DWord) : DWord := v &&& lowMask (shapeWidth f)

/-- IMM16 extended as R239 gives for the field. -/
def shapeImm (f : Nat) (imm : BitVec 16) : DWord := if 5 ≤ f ∧ f ≤ 13 then imm.signExtend 64 else imm.zeroExtend 64

/-- A shape write: it lands at count b + 3 (R241). -/
def State.shapeWrite (s : State) (q : Issue) (sh f : Nat) (v : DWord) : State :=
  match q.leader with
  | none => s
  | some tk => s.fly q 3 [(tk, .shape sh f, (shapeKeep f v).zeroExtend 128)]

/-- SHSET (R240). -/
def execShset (sh : BitVec 3) (field : BitVec 5) (xs : BitVec 4) (s : State) : Out :=
  slotNext s (fun q => s.shapeWrite q sh.toNat field.toNat
    (((q.leader).map (fun tk => (s.thread tk).readX xs.toNat)).getD 0))
/-- SHSETI (R240). -/
def execShseti (sh : BitVec 3) (field : BitVec 5) (imm : BitVec 16) (s : State) : Out :=
  slotNext s (fun q => s.shapeWrite q sh.toNat field.toNat (shapeImm field.toNat imm))

/-- The shape set of a group as it stands: fields 0 to 17. -/
def Group.shape (g : Group) (sh : Nat) : List DWord :=
  (List.range 18).map (fun f => spGet shapeDefault g.shapes (sh * 32 + f))

/-! ### Issue (R234, R236) -/

/-- Issue a C-slot command. -/
def State.issueC (s : State) (q : Issue) (op : CmdOp) (o : LoadOp) (f : Cmd → Cmd) : State :=
  match q.leader with
  | none => s
  | some tk =>
    let t := s.thread tk
    let s := s.modGroup q.group (fun g => (g.takeTag o.tag.toNat).takeIdent o.ch.toNat)
    let c := blankCmd s q op o.h tk (t.readX o.xs.toNat) (t.readX o.xd.toNat)
    s.addCmd (f { c with ch := o.ch.toNat, tag := o.tag.toNat,
                         ident := ((s.group q.group).chan o.ch.toNat).cid })

/-- Capture what a copy adds: its shape set, mask, transform and start time. -/
def captureCopy (s : State) (q : Issue) (o : CopyOp) (c : Cmd) : Cmd :=
  let shape := (s.group q.group).shape o.sh.toNat
  let late := o.timed && decide (s.now < (shape.getD 15 0).toNat)
  { c with shape := shape, mask := o.mask, xform := o.xform.toNat, timed := late, inBuffer := late }

/-- COPY (R242). -/
def execCopy (o : CopyOp) (s : State) : Out := slotNext s (fun q => s.issueC q .copy o.c (captureCopy s q o))
/-- COPYX (R242). -/
def execCopyx (o : CopyOp) (s : State) : Out := slotNext s (fun q => s.issueC q .copyx o.c (captureCopy s q o))
/-- TLOAD (R249). -/
def execTload (o : LoadOp) (s : State) : Out := slotNext s (fun q => s.issueC q .tload o id)
/-- PLOAD (R249): the bank not active for the group at its issue (R175). -/
def execPload (o : LoadOp) (s : State) : Out :=
  slotNext s (fun q => s.issueC q (.pload (!(s.group q.group).pbank)) o id)
/-- DLOAD (R249). -/
def execDload (o : LoadOp) (s : State) : Out := slotNext s (fun q => s.issueC q .dload o id)
/-- INTAKE (R385). -/
def execIntake (o : LoadOp) (s : State) : Out := slotNext s (fun q => s.issueC q .intake o id)

/-! ### Moving elements (R243, R245 to R247) -/

/-- The trailer of a row: its CRC, then SEAL (R246). -/
def trailerOf (c : Cmd) (row : List Byte) : List Byte :=
  leBytes 4 (crc32c row).toNat ++ leBytes 4 (c.fieldAt 14).toNat

/-- Bytes that the staging buffers of a core hold (R258). -/
def State.staged (s : State) (core : Nat) (b : Bool) : Nat :=
  (s.groups.map (fun g => if g.2.core = core ∧ g.2.place = .resident then (if b then g.2.stageB else g.2.stageA).length
    else 0)).sum

/-- Free bytes of a staging buffer (R258). -/
def State.stageRoom (s : State) (core : Nat) (b : Bool) : Nat := 65536 - s.staged core b

def Eng.isOk : Eng → Bool
  | .ok _ => true
  | _ => false

/-- The value of an element, given the bytes of its row read so far (those of this element included). -/
def Cmd.elemBytes (c : Cmd) (l : Nat) (read row : List Byte) : List Byte :=
  if c.xform = 3 then List.replicate c.esize 0
  else if c.xform = 2 then
    read ++ ((trailerOf c row).drop ((c.idx l).1 * c.esize + read.length - (c.rowBytes - 8))).take
      (c.esize - read.length)
  else read

/-- Read the next element, whose accesses can all proceed: its value, the row so far, and a trailer that does not match.
Each 8-byte unit is read once (R312). -/
def State.readElem (s : State) (c : Cmd) (l : Nat) (e : Elem) : State × Cmd :=
  let c := s.keepUnits (s.keepUnits c e.index) e.src
  let read := s.engRead c e.src
  let row := (if (c.idx l).1 = 0 then [] else c.row) ++ read
  let i := c.idx l
  let last := decide (i.1 + 1 = c.cnt 0)
  let bad := c.xform == 1 && last && row.drop (c.rowBytes - 8) != trailerOf c (row.take (c.rowBytes - 8))
  (((s.engMark c c.ssp false e.from_ (c.readLen l)).engRecall e.index).engRecall e.src,
   { c with row := row, progress := l + 1, buf := c.buf ++ [c.elemBytes l read row],
            rowBad := c.rowBad.orElse (fun _ =>
              if bad then some (i.2.1 + c.cnt 1 * (i.2.2.1 + c.cnt 2 * i.2.2.2)) else none) })

/-- What reading an element waits for, if anything. -/
def State.elemWaits (s : State) (c : Cmd) (l : Nat) (e : Elem) : Option WaitOn :=
  ((s.engReadWaits e.index).orElse (fun _ => s.engReadWaits e.src)).orElse (fun _ =>
    s.engMarkWaits c c.ssp false e.from_ (c.readLen l))

/-- Read the next element if it can be read. A read that cannot proceed stops the copy once every element before it has
been taken (R245); a page that is not present is asked for at once. -/
def State.readNext (s : State) (c : Cmd) : State × Cmd :=
  if c.total ≤ c.progress then (s, c)
  else
    let e := s.elem c c.progress
    match [e.index, e.src].find? (fun a => !a.isOk) with
    | some f =>
      if c.base = c.progress then s.engFail c .read (BitVec.ofNat 64 c.progress) f
      else match f with
        | .miss va => ((s.raise (s.group c.group).tenant va .read).1, c)
        | _ => (s, c)
    | none =>
      let w := s.elemWaits c c.progress e
      if w.isSome || s.engOwned c e.index || s.engOwned c e.src then (s.askFor w, c)
      else s.readElem c c.progress e

/-- What writing an element waits for, if anything. -/
def State.landWaits (s : State) (c : Cmd) (e : Elem) : Option WaitOn :=
  (((s.engWaits e.dst).orElse (fun _ => s.engWaits e.mirror)).orElse (fun _ =>
    s.engMarkWaits c (c.dsp || !c.mask.getLsbD 0) true e.to_ c.esize)).orElse (fun _ =>
    s.engMarkWaits c (!c.mask.getLsbD 4) true (e.to_ + c.signed 13) c.esize)

/-- Destination and mirror take an element. -/
def State.landElem (s : State) (c : Cmd) (v : List Byte) (e : Elem) : State × Cmd :=
  let s := (s.engMark c (c.dsp || !c.mask.getLsbD 0) true e.to_ c.esize).engMark c (!c.mask.getLsbD 4) true
    (e.to_ + c.signed 13) c.esize
  ((s.engWrite c v e.dst).engWrite c v e.mirror, { c with dstAt := c.dstAt + 1 })

/-- Destination and mirror take the oldest element that they have not, if they can; an access of them that cannot proceed
stops the copy there (R245). -/
def State.landNext (s : State) (c : Cmd) : State × Cmd :=
  if c.progress ≤ c.dstAt then (s, c)
  else
    let e := s.elem c c.dstAt
    match [e.dst, e.mirror].find? (fun a => !a.isOk) with
    | some f => s.engFail c .write (BitVec.ofNat 64 c.dstAt) f
    | none =>
      let w := s.landWaits c e
      if w.isSome || s.engOwned c e.dst || s.engOwned c e.mirror then (s.askFor w, c)
      else s.landElem c (c.buf.getD (c.dstAt - c.base) []) e

/-- The staging buffers take the bytes that they have room for, each on its own (R258). -/
def State.stageNext (s : State) (c : Cmd) : State × Cmd :=
  let bs := c.buf.flatten
  let have_ := fun (at_ : Nat) => c.progress * c.esize - at_
  let from_ := fun (at_ : Nat) => bs.drop (at_ - c.base * c.esize)
  let a := if c.mask.getLsbD 1 then min (have_ c.aAt) (s.stageRoom c.core false) else 0
  let b := if c.mask.getLsbD 2 then min (have_ c.bAt) (s.stageRoom c.core true) else 0
  (s.modGroup c.group (fun g =>
     { g with stageA := g.stageA ++ (from_ c.aAt).take a, stageB := g.stageB ++ (from_ c.bAt).take b }),
   { c with aAt := c.aAt + a, bAt := c.bAt + b })

/-- The elements that every consumer has taken. -/
def Cmd.taken (c : Cmd) : Nat :=
  min c.dstAt (min (if c.mask.getLsbD 1 then c.aAt / c.esize else c.progress)
    (if c.mask.getLsbD 2 then c.bAt / c.esize else c.progress))

/-- They are kept no longer. -/
def Cmd.trim (c : Cmd) : Cmd := { c with buf := c.buf.drop (c.taken - c.base), base := max c.base c.taken }

/-- A copy has moved every element. -/
def Cmd.finishCopy (c : Cmd) : Cmd :=
  match c.rowBad with
  | some r => { c with finished := true, status := 0x06, detail := BitVec.ofNat 64 r }
  | none => { c with finished := true }

/-- One element is read, one lands, and staged bytes are taken, as far as each can: the consumers go on independently
(R258). -/
def copyStep (s : State) (c : Cmd) : State × Cmd :=
  let l := s.landNext { c with held := none }
  if l.2.finished then l
  else
    let r := if l.2.held.isSome then l else l.1.readNext l.2
    if r.2.finished then r
    else
      let g := r.1.stageNext r.2
      (g.1, g.2.trim)

/-- Some steps of a copy, until it ends. -/
def copyRun (s : State) (c : Cmd) : Nat → State × Cmd
  | 0 => (s, c)
  | n + 1 =>
    if c.finished then (s, c)
    else if c.total ≤ c.base then (s, c.finishCopy)
    else
      let z := copyStep s c
      copyRun z.1 z.2 n

/-- A copy that has started makes as many steps as the free value says: its units are read apart in time (R312). -/
def advanceCopy (s : State) (c : Cmd) : State × Cmd :=
  match c.shapeFault with
  | some st => (s, c.stop st 0 (Config.recordDetail c.op.code st))
  | none => copyRun s c (Config.copySteps s.turn + 1)

/-- Whether a copy has still to read an 8-byte unit: R313 holds back writes of its group to it. -/
def State.copyUnread (s : State) (c : Cmd) (loc : Nat) : Bool :=
  (c.op == .copy || c.op == .copyx) && !c.finished && (!c.timed || c.started) && c.shapeFault.isNone &&
  (List.range (c.total - c.progress)).any (fun k =>
    let e := s.elem c (c.progress + k)
    (spFind c.units (loc / 8)).isNone && [e.index, e.src].any (fun a => match a with
      | .ok segs => segs.any (fun g => overlaps (g.2.2.1 / 8 * 8) (roundUp (g.2.2.1 % 8 + g.2.1) 8) (loc / 8 * 8) 8)
      | _ => false))

/-! ### Loads into stores (R249 to R251) -/

/-- What a load command's read waits for, if anything. -/
def State.loadWaits (s : State) (c : Cmd) (va : DWord) (len : Nat) (e : Eng) : Option WaitOn :=
  (s.engReadWaits e).orElse (fun _ => s.engMarkWaits c false false va len)

/-- Read bytes of an image from where the command's row ends, some chunks of it, up to a length. -/
def pull (s : State) (c : Cmd) (base : DWord) (chunk total : Nat) : Nat → State × Cmd
  | 0 => (s, c)
  | n + 1 =>
    if total ≤ c.row.length then (s, c)
    else
      let va := base + BitVec.ofNat 64 c.row.length
      match s.engAccess c false needR va chunk with
      | .ok segs =>
        if (s.loadWaits c va chunk (.ok segs)).isSome || s.engOwned c (.ok segs) then
          (s.askFor (s.loadWaits c va chunk (.ok segs)), { c with held := none })
        else
          let c := s.keepUnits c (.ok segs)
          pull ((s.engMark c false false va chunk).engRecall (.ok segs)) { c with row := c.row ++ s.engRead c (.ok segs), held := none }
            base chunk total n
      | f => s.engFail c .read (Config.recordDetail c.op.code (match f with
          | .stop st _ => st
          | _ => 2)) f

/-- The tenant that owns a slot according to TABOWN (R327). -/
def State.ownerReg (s : State) (core slot : Nat) : Option Nat :=
  let off := regTabown core (decide (8 ≤ slot))
  if s.field off (8 * (slot % 8) + 7) 1 = 1 then some (s.field off (8 * (slot % 8)) 6) else none

/-- A change of owner takes effect when the slot is not Loading, and empties it (R185). -/
def State.syncOwner (s : State) (core slot : Nat) : State :=
  s.modCore core (fun c =>
    let t := c.slot slot
    if t.state = .loading ∨ t.owner = s.ownerReg core slot then c
    else c.setSlot slot ⟨.empty, s.ownerReg core slot, []⟩)

/-- The slot that a TLOAD may load: in range and owned by its group's tenant. -/
def State.tloadSlot (s : State) (c : Cmd) : Option Nat :=
  if c.xd.toNat ≤ 15 ∧ ((s.core c.core).slot c.xd.toNat).owner = some (s.group c.group).tenant then some c.xd.toNat
  else none

/-- Set the state of the slot that a TLOAD loads. -/
def State.setLoadSlot (s : State) (c : Cmd) (st : SlotState) (img : List Byte) : State :=
  s.modCore c.core (fun k => k.setSlot c.xd.toNat { k.slot c.xd.toNat with state := st, image := img })

/-- Read a table image and judge it (R189). -/
def tloadRead (s : State) (c : Cmd) : State × Cmd :=
  let r := if c.row.isEmpty then pull s c c.xs 32 32 1 else (s, c)
  let z := if r.2.finished || r.2.row.isEmpty then r
    else pull r.1 r.2 c.xs 32 (32 + 32 * (if headerBad r.2.row then 0 else tblCount r.2.row)) (Config.copySteps s.turn)
  let c := z.2
  if c.finished || c.row.isEmpty || c.held.isSome then z
  else if headerBad c.row then (z.1, c.stop 0x07 0 (Config.recordDetail 3 7))
  else if c.row.length < 32 + 32 * tblCount c.row then z
  else if imageBad c.row then (z.1, c.stop 0x07 0 (Config.recordDetail 3 7))
  else (z.1, { c with finished := true })

/-- A TLOAD that has started (R186, R250). -/
def advanceTload (s : State) (c : Cmd) : State × Cmd :=
  if c.planned then tloadRead s c
  else if c.xs.toNat % 32 ≠ 0 then
    ((if (s.tloadSlot c).isSome then s.setLoadSlot c .failed [] else s), c.stop 0x05 0 (Config.recordDetail 3 5))
  else match s.tloadSlot c with
    | none => (s, c.stop 0x07 0 (Config.recordDetail 3 7))
    | some _ => tloadRead (s.setLoadSlot c .loading []) { c with planned := true }

/-- At a TLOAD's retirement its slot becomes Ready or Failed, and a pending change of owner takes effect. -/
def State.retireTload (s : State) (c : Cmd) : State :=
  if c.planned then
    (if c.status = 0 then s.setLoadSlot c .ready c.row else s.setLoadSlot c .failed []).syncOwner c.core c.xd.toNat
  else s

/-- First pattern and count of a PLOAD. -/
def Cmd.patFirst (c : Cmd) : Nat := c.xd.toNat % 64
def Cmd.patCount (c : Cmd) : Nat := c.xd.toNat / 256 % 64 + 1

/-- Patterns one by one, each written whole, as many as the free value says (R312). -/
def ploadRun (s : State) (c : Cmd) (bank : Bool) : Nat → State × Cmd
  | 0 => (s, c)
  | n + 1 =>
    let va := c.xs + BitVec.ofNat 64 (32 * c.progress)
    if c.patCount ≤ c.progress then (s, { c with finished := true })
    else match s.engAccess c false needR va 32 with
    | .ok segs =>
      let bs := s.engRead c (.ok segs)
      if (s.loadWaits c va 32 (.ok segs)).isSome || s.engOwned c (.ok segs) then
        (s.askFor (s.loadWaits c va 32 (.ok segs)), { c with held := none })
      else
      let s := ((s.engMark c false false va 32).engRecall (.ok segs)).modCore c.core (fun k =>
        { k with patterns := spSetN (fun _ => 0) k.patterns
                   ((if bank then 2048 else 0) + 32 * (c.patFirst + c.progress)) bs })
      ploadRun s { c with progress := c.progress + 1, held := none } bank n
    | f => s.engFail c .read (Config.recordDetail 4 (match f with
        | .stop st _ => st
        | _ => 2)) f

def advancePload (s : State) (c : Cmd) (bank : Bool) : State × Cmd :=
  if c.xs.toNat % 32 ≠ 0 then (s, c.stop 0x05 0 (Config.recordDetail 4 5))
  else if 64 < c.patFirst + c.patCount then (s, c.stop 0x09 0 (Config.recordDetail 4 9))
  else ploadRun s c bank (Config.copySteps s.turn + 1)

/-- Count and bank of a DLOAD. -/
def Cmd.dictCount (c : Cmd) : Nat := c.xd.toNat % 2 ^ 11 + 1
def Cmd.dictBank (c : Cmd) : Bool := c.xd.getLsbD 12

def Core.bank (c : Core) (b : Bool) : DictBank := if b then c.dict1 else c.dict0
def Core.setBank (c : Core) (b : Bool) (d : DictBank) : Core := if b then { c with dict1 := d } else { c with dict0 := d }

/-- A group placed on a core, resident or parked, is bound to a bank (R40, R251). -/
def State.bankBound (s : State) (core : Nat) (b : Bool) : Bool :=
  s.groups.any (fun g => !isService g.1 && g.2.core == core && (g.2.place == .resident || g.2.place == .parked) && g.2.dbank == b)

/-- Bundles one by one, each checked under R43, as many as the free value says (R312). -/
def dloadRun (s : State) (c : Cmd) : Nat → State × Cmd
  | 0 => (s, c)
  | n + 1 =>
    let va := c.xs + BitVec.ofNat 64 (48 * c.progress)
    if c.dictCount ≤ c.progress then (s, { c with finished := true })
    else match s.engAccess c false needR va 48 with
    | .ok segs =>
      let b := bundleOfBytes (s.engRead c (.ok segs))
      if (s.loadWaits c va 48 (.ok segs)).isSome || s.engOwned c (.ok segs) then
        (s.askFor (s.loadWaits c va 48 (.ok segs)), { c with held := none })
      else if !packedRight b then (s, c.stop 0x08 0 (Config.recordDetail 5 8))
      else
        let s := ((s.engMark c false false va 48).engRecall (.ok segs)).modCore c.core (fun k =>
          k.setBank c.dictBank { k.bank c.dictBank with
            bundles := spSet (fun _ => 0) (k.bank c.dictBank).bundles c.progress b })
        dloadRun s { c with progress := c.progress + 1, held := none } n
    | f => s.engFail c .read (Config.recordDetail 5 (match f with
        | .stop st _ => st
        | _ => 2)) f

/-- A DLOAD that has started (R251). -/
def advanceDload (s : State) (c : Cmd) : State × Cmd :=
  if c.planned then dloadRun s c (Config.copySteps s.turn + 1)
  else if s.bankBound c.core c.dictBank then (s, c.stop 0x08 0 (Config.recordDetail 5 8))
  else
    let s := s.modCore c.core (fun k => k.setBank c.dictBank ⟨0, none, [], true⟩)
    let c := { c with planned := true }
    if c.xs.toNat % 16 ≠ 0 then (s, c.stop 0x05 0 (Config.recordDetail 5 5))
    else dloadRun s c (Config.copySteps s.turn + 1)

/-- At a DLOAD's retirement its bank has its length. -/
def State.retireDload (s : State) (c : Cmd) : State :=
  if c.planned then
    s.modCore c.core (fun k => k.setBank c.dictBank { k.bank c.dictBank with
      loading := false, len := if c.status = 0 then c.dictCount else 0 })
  else s

/-! ### What may start (R235, R236) -/

/-- The store that a load fills is being filled by another (R186, R251). -/
def State.storeBusy (s : State) (c : Cmd) : Bool :=
  match c.op with
  | .tload => (s.tloadSlot c).any (fun n => decide (((s.core c.core).slot n).state = .loading))
  | .dload => ((s.core c.core).bank c.dictBank).loading
  | _ => false

/-- A Siphon command can start. -/
def State.siphonReady (s : State) (c : Cmd) : Bool :=
  c.op.isSiphon && !c.started && decide (c.issued < s.coreCycles c.core)
  && decide ((s.core c.core).siphonFrom ≤ s.coreCycles c.core)
  && s.cmds.all (fun d => !(d.op.isSiphon && d.group == c.group && decide (d.id < c.id) && !d.started))
  && s.waitMet c && s.cpClear c && s.groupRuns c.group && !s.storeBusy c
  && (!c.timed || decide ((c.fieldAt 15).toNat ≤ s.now))

end Sys2Proof.Machine
end

