-- ==== Sys2Proof/Machine/Intake.lean ====
section
/-! DEFINITION. The intake chain (16 R385 to R389): descriptor, decryption, decompression, conversion, and the writes of
the output. The ciphers and decompressors stand in Cipher.lean and Inflate.lean. -/

namespace Sys2Proof.Machine

/-! ### The descriptor (R386) -/

/-- A field of the descriptor that a command has read. -/
def Cmd.desc (c : Cmd) (off n : Nat) : Nat := natAt c.row off n

def descSlen (c : Cmd) : Nat := c.desc 8 4
def descLimit (c : Cmd) : Nat := c.desc 12 4
def descDec (c : Cmd) : Nat := c.desc 0x10 1
def descDcmp (c : Cmd) : Nat := c.desc 0x11 1
def descConv (c : Cmd) : Nat := c.desc 0x12 1
def descFmt (c : Cmd) : Nat := c.desc 0x13 1
def descKey (c : Cmd) : Nat := c.desc 0x14 1
def descDu (c : Cmd) : Nat := c.desc 0x15 1
def descScale (c : Cmd) : DWord := BitVec.ofNat 64 (c.desc 0x18 8)

/-- A descriptor that breaks the rules. -/
def descBad (c : Cmd) : Bool :=
  c.desc 0 8 % 16 != 0 || descSlen c == 0 || descLimit c == 0 || decide (2 < descDec c) || decide (2 < descDcmp c)
  || decide (3 < descConv c)
  || (if descConv c = 1 then !(decide (3 ≤ descFmt c) && decide (descFmt c ≤ 7)) else descFmt c != 0)
  || (descDec c == 0 && descKey c != 0)
  || (if descDec c = 2 then !(decide (9 ≤ descDu c) && decide (descDu c ≤ 16)) else descDu c != 0)
  || c.desc 0x16 2 != 0
  || (descConv c != 1 && descConv c != 3 && c.desc 0x18 8 != 0)
  || (descDec c == 0 && c.desc 0x20 16 != 0) || (descDec c == 1 && c.desc 0x2C 4 != 0)
  || (descDec c != 1 && c.desc 0x30 16 != 0)

/-! ### Stages (R387, R388) -/

/-- The `n` bytes of a slot's key that a cipher takes: 32 for GCM, two keys of 32 for XTS. -/
def slotKey (n : Nat) (key : List Byte) : List Byte := (List.range n).map (fun k => key.getD k (Config.slotByte k))

/-- Data units of XTS, each with its tweak. -/
def xtsUnits (key : List Byte) (tweak : Nat) (unit : Nat) (src : List Byte) : Nat → Nat → List Byte
  | 0, _ => []
  | n + 1, k =>
    aesXts key (BitVec.ofNat 128 (tweak + k)) (bytesAt src (k * unit) unit) ++ xtsUnits key tweak unit src n (k + 1)

/-- Decryption: the bytes and the reason of a failure. -/
def decryptStage (c : Cmd) (key src : List Byte) : List Byte × Option Nat :=
  if descDec c = 1 then
    let r := aesGcm (slotKey 32 key) (bytesAt c.row 0x20 12) src
    (r.1, if r.2 = bytesAt c.row 0x30 16 then none else some 0x03)
  else if descDec c = 2 then
    let unit := 2 ^ descDu c
    if descSlen c % unit ≠ 0 then ([], some 0x07)
    else (xtsUnits (slotKey 64 key) (c.desc 0x20 16) unit src (descSlen c / unit) 0, none)
  else (src, none)

/-- Decompression. -/
def inflateStage (c : Cmd) (src : List Byte) : List Byte × Option Nat :=
  let r : Inflated :=
    if descDcmp c = 1 then lz4 src else if descDcmp c = 2 then zstd src else .whole src
  match r with
  | .whole out => (out, none)
  | .malformed out => (out, some 0x04)
  | .badSum out => (out, some 0x05)

/-- floor(log2) of a finite magnitude. -/
def magLog (m : Nat) (e : Int) : Int := (Nat.log2 m : Int) + e

/-- The scale of a block (R388). -/
def blockScale (emax : Int) (xs : List Num) : Nat :=
  if xs.any (fun x => match x with
      | .fin _ _ _ => false
      | _ => true) then 0xFF
  else
    let big := xs.foldl (fun (acc : Option Int) x => match x with
      | .fin _ m e => if m = 0 then acc else
          some (match acc with
            | none => magLog m e
            | some l => max l (magLog m e))
      | _ => acc) none
    match big with
    | none => 127
    | some l => (max 0 (min 254 (l - emax + 127))).toNat

/-- emax of a destination format. -/
def fmtEmax (code : Nat) : Int :=
  if code = 3 then 8 else if code = 4 then 15 else if code = 5 then 4 else if code = 6 ∨ code = 7 then 2 else 6

/-- The FP32 elements of a block. -/
def blockNums (bs : List Byte) (off n : Nat) : List Num := (List.range n).map (fun k => dec fmtFp32 (natAt bs (off + 4 * k) 4))

/-- Elements of `w` bits packed in ascending order (R78), as bytes. -/
def packElems (w : Nat) (vals : List Nat) : List Byte :=
  leBytes (w * vals.length / 8)
    ((((List.range vals.length).zip vals).map (fun q => q.2 % 2 ^ w * 2 ^ (w * q.1))).sum)

/-- One MX block: its element bytes and its scale. -/
def mxBlock (code : Nat) (xs : List Num) : List Byte × Byte :=
  let f := (fmtOf code).getD fmtE4m3
  let e := blockScale (fmtEmax code) xs
  (packElems f.width (xs.map (fun x =>
    if e = 0xFF then 0 else (enc f (numScale false (127 - (e : Int)) x) .rne true).bits)), BitVec.ofNat 8 e)

/-- One element of scaled S8. -/
def s8Of (e : Nat) (x : Num) : Nat :=
  if e = 0xFF then 0
  else match x with
    | .fin neg m ex => ((max (-128) (min 127 (nearest neg m (ex + 127 - (e : Int)))) : Int) % 256).toNat
    | _ => 0

/-- A nested-plane image of 8-bit elements (R84). -/
def planeImage (vals : List Nat) : List Byte :=
  (List.range 8).flatMap (fun p => packElems 1 (vals.map (fun v => v / 2 ^ (7 - p))))

/-- Conversion: chunks of output bytes with the scale bytes that go with each, and the reason of a failure. DESIGN CHOICE
(log entry 39): an input length that breaks R388 writes nothing, not even the whole blocks before its end. -/
def convertStage (c : Cmd) (bs : List Byte) : List (List Byte × List Byte) × Option Nat :=
  if descConv c = 1 then
    if bs.length % 128 ≠ 0 then ([], some 0x07)
    else ((List.range (bs.length / 128)).map (fun b =>
      let r := mxBlock (descFmt c) (blockNums bs (128 * b) 32)
      (r.1, [r.2])), none)
  else if descConv c = 2 then
    if bs.length % 4096 ≠ 0 then ([], some 0x07)
    else ((List.range (bs.length / 4096)).map (fun m =>
      (planeImage ((List.range 4096).map (fun n => natAt bs (4096 * m + n) 1)), [])), none)
  else if descConv c = 3 then
    if bs.length % 16384 ≠ 0 then ([], some 0x07)
    else ((List.range (bs.length / 16384)).map (fun m =>
      let xs := blockNums bs (16384 * m) 4096
      let es := (List.range 128).map (fun b => blockScale 6 ((xs.drop (32 * b)).take 32))
      (planeImage (((List.range 4096).zip xs).map (fun q => s8Of (es.getD (q.1 / 32) 0) q.2)),
       es.map (fun e => BitVec.ofNat 8 e))), none)
  else (bs.map (fun b => ([b], [])), none)

/-- Chunks whose output bytes stay within LIMIT, and whether all do. DESIGN CHOICE (log entry 39): LIMIT counts the bytes
written to the destination, and not the scale bytes. -/
def withinLimit : Nat → List (List Byte × List Byte) → List (List Byte × List Byte) × Bool
  | _, [] => ([], true)
  | room, ch :: rest =>
    if ch.1.length ≤ room then
      let r := withinLimit (room - ch.1.length) rest
      (ch :: r.1, r.2)
    else ([], false)

/-- The chain's result: the chunks it makes and the reason it stops with. DESIGN CHOICE (log entry 39): when several stages
fail, decryption is reported before decompression, that before conversion, and that before LIMIT. -/
def chainResult (c : Cmd) (key src : List Byte) : List (List Byte × List Byte) × Option Nat :=
  let d := decryptStage c key src
  let z := inflateStage c d.1
  let v := convertStage c z.1
  let w := withinLimit (descLimit c) v.1
  let reason := match d.2, z.2, v.2 with
    | some r, _, _ => some r
    | none, some r, _ => some r
    | none, none, some r => some r
    | none, none, none => if w.2 then none else some 0x06
  (w.1, reason)

/-- Bytes at rising addresses. -/
def atAddr (base : DWord) : Nat → List Byte → List (DWord × Byte)
  | _, [] => []
  | k, b :: bs => (base + BitVec.ofNat 64 k, b) :: atAddr base (k + 1) bs

/-- The writes of some chunks. -/
def chunkWrites (xd scale : DWord) : Nat → Nat → List (List Byte × List Byte) → List (DWord × Byte)
  | _, _, [] => []
  | k, b, ch :: rest => atAddr xd k ch.1 ++ atAddr scale b ch.2 ++ chunkWrites xd scale (k + ch.1.length) (b + ch.2.length) rest

/-- The writes that a result makes, with its status: a chain that stops has written a part of its chunks, and a tag
mismatch writes zeros over them (R389). -/
def planWrites (s : State) (c : Cmd) (r : List (List Byte × List Byte) × Option Nat) : Cmd :=
  match r.2 with
  | none => { c with planned := true, out := chunkWrites c.xd (descScale c) 0 0 r.1 }
  | some reason =>
    let part := r.1.take (Config.intakeWritten s.turn)
    let n := (part.map (fun ch => ch.1.length)).sum
    let ws := chunkWrites c.xd (descScale c) 0 0 part
    { c with planned := true, status := 0x0A, detail := BitVec.ofNat 64 (n * 2 ^ 32 + reason),
             out := if reason = 0x03 then ws ++ ws.map (fun w => (w.1, 0)) else ws }

/-- The writes that follow on each other within one 8-byte unit. -/
def unitWrites (va : DWord) : List (DWord × Byte) → List Byte
  | [] => []
  | (a, b) :: rest => if a = va ∧ a.toNat % 8 ≠ 0 then b :: unitWrites (va + 1) rest else []

/-- Make the writes, one 8-byte unit after the other, as many as the free value says. -/
def intakeWrite (s : State) (c : Cmd) : Nat → State × Cmd
  | 0 => (s, c)
  | n + 1 =>
    match c.out with
    | [] => (s, { c with finished := true })
    | (va, b) :: rest =>
      let bs := b :: unitWrites (va + 1) rest
      match s.engAccess c false needW va bs.length with
      | .ok segs =>
        let w := (s.engWaits (.ok segs)).orElse (fun _ => s.engMarkWaits c false true va bs.length)
        if w.isSome || s.engOwned c (.ok segs) then (s.askFor w, { c with held := none })
        else intakeWrite ((s.engMark c false true va bs.length).engWrite c bs (.ok segs))
          { c with out := c.out.drop bs.length, held := none } n
      | f => s.engFail c .write (Config.recordDetail 6 (match f with
          | .stop st _ => st
          | _ => 2)) f

/-- The key slot of the descriptor as it stood at the command's start, if its tenant may use it (R387, R447). -/
def State.keyFor (s : State) (c : Cmd) : Option (List Byte) :=
  match spGet (fun _ => none) c.keys (descKey c) with
  | some (t, k) => if t = (s.group c.group).tenant then some k else none
  | none => none

/-- Stop before anything is written. -/
def Cmd.intakeStop (c : Cmd) (reason : Nat) : Cmd := c.stop 0x0A 0 (BitVec.ofNat 64 reason)

/-- The source address and the bytes read of it stand behind the descriptor. -/
def intakeRead (s : State) (c : Cmd) : State × Cmd :=
  let src := BitVec.ofNat 64 (c.desc 0 8)
  let key := if descDec c = 0 then some [] else s.keyFor c
  match key with
  | none => (s, c.intakeStop 0x02)
  | some k =>
    let r := pull s c (src - 64) 1 (64 + descSlen c) (8 * (Config.copySteps s.turn + 1))
    if r.2.finished || decide (r.2.row.length < 64 + descSlen c) then r
    else
      let c := planWrites s r.2 (chainResult r.2 k (r.2.row.drop 64))
      intakeWrite r.1 c (Config.copySteps s.turn + 1)

/-- An INTAKE that has started. -/
def advanceIntake (s : State) (c : Cmd) : State × Cmd :=
  if c.planned then intakeWrite s c (Config.copySteps s.turn + 1)
  else if c.xs.toNat % 64 ≠ 0 ∨ c.xd.toNat % 64 ≠ 0 then (s, c.stop 0x05 0 (Config.recordDetail 6 5))
  else
    let r := if c.row.isEmpty then pull s c c.xs 64 64 1 else (s, c)
    if r.2.finished || r.2.row.isEmpty then r
    else if descBad r.2 then (r.1, r.2.intakeStop 0x01)
    else intakeRead r.1 r.2

end Sys2Proof.Machine
end

