-- ==== Sys2Proof/Machine/Matrix.lean ====
section
/-! DEFINITION. The matrix engine (11 R254 to R272): X-slot and K-slot commands, their checks at issue, and what they
compute. -/

namespace Sys2Proof.Machine

/-! ### Formats (R256, R260) -/

/-- Element width in bits of an operand format; a nested-plane code NPk has k. -/
def opWidth (code : Nat) : Nat :=
  if code = 1 ∨ code = 2 then 16
  else if code = 3 ∨ code = 4 ∨ code = 8 ∨ code = 9 then 8
  else if code = 5 ∨ code = 6 then 6
  else if code = 7 ∨ code = 10 then 4
  else if isNp code then code - 9
  else 0

/-- The MX codes. -/
def isMx (code : Nat) : Bool := decide (3 ≤ code) && decide (code ≤ 7)
/-- The integer formats. -/
def isIntFmt (code : Nat) : Bool := code == 8 || code == 9 || code == 10

/-- The format pair of an MMA; code 31 takes entry LC1 mod 16 of the leader lane (R61, R260). -/
def mmaPair (s : State) (q : Issue) (fa fb : BitVec 5) : Nat × Nat :=
  let lc1 := ((q.leader).map (fun tk => (s.thread tk).loop.lc1.toNat)).getD 0
  let e := spGet (fun _ => ((0 : BitVec 5), (0 : BitVec 5))) (s.group q.group).fmt (lc1 % 16)
  (if fa = 31 then e.1.toNat else fa.toNat, if fb = 31 then e.2.toNat else fb.toNat)

/-- Bytes of an operand of kb K blocks. -/
def extentOf (code kb : Nat) : Nat := 256 * kb * opWidth code

/-! ### Checks at issue (R257) -/

/-- The x operands of the leader lane. -/
def leaderX (s : State) (q : Issue) (r : BitVec 4) : DWord := ((q.leader).map (fun tk => (s.thread tk).readX r.toNat)).getD 0

/-- Bit 63 selects a staging buffer. -/
def isStaged (v : DWord) : Bool := v.getLsbD 63

/-- A condition of an X or K slot. -/
def engCond (q : Issue) (cause reason : Nat) (w : Bool) (addr : DWord) : Option Cond :=
  some { Cond.plain q cause reason q.cur with write := w, addr := addr }

/-- The runs of scratchpad bytes that a command touches: base and length. -/
abbrev Runs := List (DWord × Nat)

/-- The first byte of some runs outside the gang's valid offsets. -/
def State.badByte (s : State) (q : Issue) (rs : Runs) : Option DWord :=
  rs.findSome? (fun r => ((List.range r.2).find? (fun k =>
    ((s.group q.group).scrAt (clusterOf q.core) (r.1 + BitVec.ofNat 64 k).toNat).isNone)).map
      (fun k => r.1 + BitVec.ofNat 64 k))

/-- Runs include offsets of both halves. -/
def spansHalves (rs : Runs) : Bool :=
  let hs := rs.flatMap (fun r => [r.1.getLsbD 20, (r.1 + BitVec.ofNat 64 (r.2 - 1)).getLsbD 20])
  hs.contains true && hs.contains false

/-- Range, then span, of the runs of one operand. -/
def runsCond (s : State) (q : Issue) (w : Bool) (rs : Runs) (next : Option Cond) : Option Cond :=
  match s.badByte q rs with
  | some a => engCond q 0x08 3 w a
  | none => next

/-- The named tile must be in token state M. -/
def tileCond (s : State) (q : Issue) (tile : BitVec 3) : Option Cond :=
  if ((s.group q.group).tile tile.toNat).token = .m then none else engCond q 0x0A 0 false 0

/-- MMA. -/
def mmaCond (s : State) (q : Issue) (o : MmaOp) : Option Cond :=
  let p := mmaPair s q o.fa o.fb
  let kb := o.kb.toNat + 1
  let a := leaderX s q o.xa
  let b := leaderX s q o.xb
  let ra : Runs := if isStaged a then [] else [(a, extentOf p.1 kb)]
  let rb : Runs := if isStaged b then [] else [(b, extentOf p.2 kb)]
  if !isStaged a && a.toNat % 64 != 0 then engCond q 0x07 0 false a
  else if !isStaged b && b.toNat % 64 != 0 then engCond q 0x07 0 false b
  else runsCond s q false (ra ++ rb)
    (if spansHalves ra || spansHalves rb then engCond q 0x09 1 false 0
     else if !isStaged a && !isStaged b && a.getLsbD 20 == b.getLsbD 20 then engCond q 0x09 0 false 0
     else tileCond s q o.tile)

/-- Row size of a stored format. -/
def rowSize (fmt : Nat) : Nat := if fmt = 0 then 256 else 128

/-- Pitch and trailer flag of an MLD or MST (R267). -/
def pitchOf (v : DWord) : Nat := v.toNat % 2 ^ 32
def trailed (v : DWord) : Bool := v.getLsbD 32

/-- The runs of a tile in the scratchpad. -/
def tileRuns (a v : DWord) (size : Nat) : Runs :=
  (List.range 64).map (fun r => (a + BitVec.ofNat 64 (r * pitchOf v), size)) ++
  (if trailed v then [(a + BitVec.ofNat 64 (64 * pitchOf v), 8)] else [])

/-- MLD and MST. -/
def moveCond (s : State) (q : Issue) (tile : BitVec 3) (xa xb : BitVec 4) (fmt : Nat) (w : Bool) : Option Cond :=
  let a := leaderX s q xa
  let v := leaderX s q xb
  if a.toNat % 16 ≠ 0 ∨ pitchOf v % 16 ≠ 0 ∨ pitchOf v < rowSize fmt then engCond q 0x07 0 w a
  else if isStaged a then engCond q 0x08 3 w a
  else runsCond s q w (tileRuns a v (rowSize fmt))
    (if spansHalves (tileRuns a v (rowSize fmt)) then engCond q 0x09 1 w 0 else tileCond s q tile)

/-- SCLA and SCLB. -/
def scaleCond (s : State) (q : Issue) (xa : BitVec 4) : Option Cond :=
  let a := leaderX s q xa
  if a.toNat % 64 ≠ 0 then engCond q 0x07 0 false a
  else if isStaged a then engCond q 0x08 3 false a
  else runsCond s q false [(a, 1024)] (if spansHalves [(a, 1024)] then engCond q 0x09 1 false 0 else none)

/-! ### Issue (R255, R263, R265 to R270) -/

/-- Issue a matrix-engine command. -/
def State.issueX (s : State) (q : Issue) (op : CmdOp) (h : Sync) (xs xd : DWord) : State :=
  match q.leader with
  | none => s
  | some tk => s.addCmd (blankCmd s q op h tk xs xd)

/-- MMA (R265). -/
def execMma (o : MmaOp) (s : State) : Out :=
  slotCond s (fun q => mmaCond s q o) (fun q =>
    let p := mmaPair s q o.fa o.fb
    .next (s.issueX q (.mma o.tile.toNat p.1 p.2 (o.kb.toNat + 1) o.zf o.mid o.lb) o.h
      (leaderX s q o.xa) (leaderX s q o.xb)))
/-- ACCZ (R266). -/
def execAccz (h : Sync) (tile : BitVec 3) (s : State) : Out :=
  slotCond s (fun q => tileCond s q tile) (fun q => .next (s.issueX q (.accz tile.toNat) h 0 0))
/-- MST (R267). -/
def execMst (h : Sync) (tile : BitVec 3) (xa xb : BitVec 4) (fmt : BitVec 5) (s : State) : Out :=
  slotCond s (fun q => moveCond s q tile xa xb fmt.toNat true) (fun q =>
    .next (s.issueX q (.mst tile.toNat fmt.toNat) h (leaderX s q xa) (leaderX s q xb)))
/-- MLD (R267). -/
def execMld (h : Sync) (tile : BitVec 3) (xa xb : BitVec 4) (s : State) : Out :=
  slotCond s (fun q => moveCond s q tile xa xb 0 false) (fun q =>
    .next (s.issueX q (.mld tile.toNat) h (leaderX s q xa) (leaderX s q xb)))
/-- MSYNC (R269). -/
def execMsync (h : Sync) (s : State) : Out := slotNext s (fun q => s.issueX q .msync h 0 0)
/-- MSTAT (R270). -/
def execMstat (h : Sync) (tile : BitVec 3) (xa : BitVec 4) (s : State) : Out :=
  slotCond s (fun q => tileCond s q tile) (fun q => .next (s.issueX q (.mstat tile.toNat) h (leaderX s q xa) 0))

/-- A K slot has no wait and no signal. -/
def noSync : Sync := ⟨0, 0, 0, 0⟩

/-- A scratchpad byte as a command reads it: every store of its own group issued before, else what has performed
(R259). -/
def State.groupByte (s : State) (core g before loc : Nat) : Byte :=
  let hit := (s.core core).writes.foldl (fun acc w =>
    if w.seq < before ∧ groupOfThread w.thread = g then (w.byteAt loc).orElse (fun _ => acc) else acc) none
  hit.getD (s.byte loc)

/-- Scratchpad bytes from an offset. -/
def State.scrBytes (s : State) (core g before : Nat) (a : DWord) (n : Nat) : List Byte :=
  (List.range n).map (fun k =>
    match (s.group g).scrAt (clusterOf core) (a + BitVec.ofNat 64 k).toNat with
    | some loc => s.groupByte core g before loc
    | none => 0)

/-- SCLA and SCLB read their bytes at issue. -/
def scaleSlot (side lb : Bool) (xa : BitVec 4) (s : State) : Out :=
  slotCond s (fun q => scaleCond s q xa) (fun q =>
    let bs := s.scrBytes q.core q.group q.seq0 (leaderX s q xa) 1024
    .next (s.issueX q (.scale side lb (some bs)) noSync (leaderX s q xa) 0))

/-- SCLA (R263). -/
def execScla (lb : Bool) (xa : BitVec 4) (s : State) : Out := scaleSlot false lb xa s
/-- SCLB (R263). -/
def execSclb (lb : Bool) (xa : BitVec 4) (s : State) : Out := scaleSlot true lb xa s
/-- SCLZ (R263). -/
def execSclz (side lb : Bool) (s : State) : Out := slotNext s (fun q => s.issueX q (.scale side lb none) noSync 0 0)

/-! ### Latches (R261, R262) -/

/-- The key of a latch: bank, side, row or column, K block. -/
def latchKey (lb side : Bool) (m j : Nat) : Nat := (if lb then 2048 else 0) + (if side then 1024 else 0) + 16 * m + j

def State.latch (s : State) (core : Nat) (lb side : Bool) (m j : Nat) : Nat :=
  (spGet (fun _ => 127) (s.core core).latches (latchKey lb side m j)).toNat

/-- A scale command takes effect. -/
def State.setLatches (s : State) (core : Nat) (side lb : Bool) (data : Option (List Byte)) : State :=
  let bs := data.getD (List.replicate 1024 127)
  s.modCore core (fun c => { c with latches := spSetN (fun _ => 127) c.latches (latchKey lb side 0 0) bs })

/-! ### What an MMA computes (R264) -/

/-- Bits of element n of width w, packed in ascending order (R78). -/
def packedAt (bs : List Byte) (w n : Nat) : Nat := natAt bs (n * w / 8) 3 / 2 ^ (n * w % 8) % 2 ^ w

/-- Element n of a nested-plane operand read with k planes, each of `size` bytes (R85). -/
def npRead (bs : List Byte) (k size n : Nat) : Int :=
  let bit := fun p => natAt bs (size * p + n / 8) 1 / 2 ^ (n % 8) % 2
  let v := ((List.range k).map (fun p => bit p * 2 ^ (k - 1 - p))).sum
  if bit 0 = 1 then (v : Int) - 2 ^ k else v

/-- An integer element. -/
def intElem (code : Nat) (bs : List Byte) (n : Nat) : Int :=
  elemVal (code != 9) (opWidth code) (packedAt bs (opWidth code) n)

/-- An element as an exact value. -/
def numElem (code : Nat) (bs : List Byte) (n : Nat) : Num :=
  match fmtOf code with
  | some f => dec f (packedAt bs (opWidth code) n)
  | none => numOfInt (intElem code bs n)

/-- The block of the float class: NaN, infinity or the rounded sum. -/
def floatBlock (terms : List (Num × Flags)) (sa sb : Nat) : Num :=
  let ts := terms.map (fun t => t.1)
  let pos := ts.contains (.inf false)
  let neg := ts.contains (.inf true)
  if sa = 0xFF ∨ sb = 0xFF ∨ ts.any Num.isNan ∨ (pos ∧ neg) then .nan false
  else if pos then .inf false
  else if neg then .inf true
  else
    match ts.foldl (fun acc t => (numAdd acc t .rne).1) (.fin false 0 0) with
    | .fin n m e =>
      if m = 0 then .fin false 0 0
      else dec fmtFp32 (enc fmtFp32 (.fin n m (e + sa + sb - 254)) .rne false).bits
    | x => x

/-- The operands and settings of an MMA in hand. -/
structure MmaIn where
  fa : Nat
  fb : Nat
  kb : Nat
  mid : Bool
  a : List Byte
  b : List Byte
  deriving DecidableEq, Repr, Inhabited

/-- The indices k of block j. -/
def blockKs (j : Nat) : List Nat := (List.range 32).map (fun i => 32 * j + i)

/-- One K block on an element of the tile. -/
def mmaBlock (i : MmaIn) (scale : Bool → Nat → Nat → Nat) (t : Word) (m n j : Nat) : Word :=
  let kk := 32 * i.kb
  if isNp i.fa then
    let q := i.fa - 9
    let w : Int := 2 ^ (8 - q)
    let sb := ((blockKs j).map (fun k => intElem i.fb i.b (n * kk + k))).sum
    let sm := ((blockKs j).map (fun k => npRead i.a q (256 * i.kb) (m * kk + k) * intElem i.fb i.b (n * kk + k))).sum
    BitVec.ofInt 32 (t.toInt + 2 * w * sm + (if i.mid then (w - 1) * sb else 0))
  else if isIntFmt i.fa && isIntFmt i.fb then
    BitVec.ofInt 32 (t.toInt + ((blockKs j).map (fun k => intElem i.fa i.a (m * kk + k) * intElem i.fb i.b (n * kk + k))).sum)
  else
    let terms := (blockKs j).map (fun k => numMul (numElem i.fa i.a (m * kk + k)) (numElem i.fb i.b (n * kk + k)))
    let sa := if isMx i.fa then scale false m j else 127
    let sb := if isMx i.fb then scale true n j else 127
    BitVec.ofNat 32 (enc fmtFp32 (numAdd (dec fmtFp32 t.toNat) (floatBlock terms sa sb) .rne).1 .rne false).bits

/-- An element of the result: its K blocks in ascending order. -/
def mmaElem (i : MmaIn) (scale : Bool → Nat → Nat → Nat) (t : Word) (m n : Nat) : Word :=
  (List.range i.kb).foldl (fun t j => mmaBlock i scale t m n j) t

/-- A tile from a function of row and column. -/
def tileOf (f : Nat → Nat → Word) : Sparse Word :=
  (List.range 4096).foldl (fun e k => spSet (fun _ => 0) e k (f (k / 64) (k % 64))) []

def Tile.at_ (t : Tile) (m n : Nat) : Word := spGet (fun _ => 0) t.elems (64 * m + n)

/-! ### Start (R255, R258, R263) -/

/-- Staged bytes that an operand takes. -/
def Cmd.takesA (c : Cmd) : Nat :=
  match c.op with
  | .mma _ fa _ kb _ _ _ => if isStaged c.xs then extentOf fa kb else 0
  | _ => 0
def Cmd.takesB (c : Cmd) : Nat :=
  match c.op with
  | .mma _ _ fb kb _ _ _ => if isStaged c.xd then extentOf fb kb else 0
  | _ => 0

/-- A matrix-engine command can start. -/
def State.matrixReady (s : State) (c : Cmd) : Bool :=
  !c.op.isSiphon && !c.started && decide (c.issued < s.coreCycles c.core)
  && decide ((s.core c.core).matrixFrom ≤ s.coreCycles c.core)
  && s.cmds.all (fun d => !(!d.op.isSiphon && d.group == c.group && decide (d.id < c.id) && !d.started))
  && s.cmds.all (fun d => !(!d.op.isSiphon && d.core == c.core && d.started))
  && s.waitMet c && s.groupRuns c.group
  && (s.core c.core).writes.all (fun w =>
    !(isScr w.addr && groupOfThread w.thread == c.group && decide (w.seq < c.place)))
  && decide (c.takesA ≤ (s.group c.group).stageA.length) && decide (c.takesB ≤ (s.group c.group).stageB.length)

/-- An operand's bytes: staged, or from the scratchpad. -/
def State.operand (s : State) (c : Cmd) (v : DWord) (stage : List Byte) (n : Nat) : List Byte :=
  if isStaged v then stage.take n else s.scrBytes c.core c.group c.place v n

/-- The CRC and trailer of an MLD, when they differ (R268). -/
def State.mldTrailer (s : State) (c : Cmd) : Option (Word × DWord) :=
  if trailed c.xd then
    let rows := (List.range 64).flatMap (fun r =>
      s.scrBytes c.core c.group c.place (c.xs + BitVec.ofNat 64 (r * pitchOf c.xd)) 256)
    let got := leNat (s.scrBytes c.core c.group c.place (c.xs + BitVec.ofNat 64 (64 * pitchOf c.xd)) 8)
    let crc := crc32c rows
    if got = crc.toNat then none else some (crc, BitVec.ofNat 64 got)
  else none

/-- A matrix-engine command starts: it reads its operands, and its result waits for retirement (log entry 7). -/
def State.startMatrix (s : State) (c : Cmd) : State :=
  let c := { c with started := true, finished := true }
  match c.op with
  | .mma tile fa fb kb zf mid lb =>
    let g := s.group c.group
    let i : MmaIn := ⟨fa, fb, kb, mid, s.operand c c.xs g.stageA (extentOf fa kb), s.operand c c.xd g.stageB (extentOf fb kb)⟩
    let old := g.tile tile
    let r := tileOf (fun m n => mmaElem i (fun side m j => s.latch c.core lb side m j) (if zf then 0 else old.at_ m n) m n)
    (s.modGroup c.group (fun g => { g with stageA := g.stageA.drop c.takesA, stageB := g.stageB.drop c.takesB })).modCmd
      c.id (fun _ => { c with result := r })
  | .mld _ =>
    let r := tileOf (fun m n => BitVec.ofNat 32 (leNat
      (s.scrBytes c.core c.group c.place (c.xs + BitVec.ofNat 64 (m * pitchOf c.xd + 4 * n)) 4)))
    s.modCmd c.id (fun _ => { c with result := r, mismatch := s.mldTrailer c })
  | .scale side lb data => (s.setLatches c.core side lb data).modCmd c.id (fun _ => c)
  | _ => s.modCmd c.id (fun _ => c)

/-! ### Retirement (R267 to R271) -/

/-- The bytes of a row that MST stores. -/
def mstRow (t : Tile) (fmt m : Nat) : List Byte :=
  (List.range 64).flatMap (fun n =>
    let w := t.at_ m n
    if fmt = 0 then leBytes 4 w.toNat
    else leBytes 2 (enc (if fmt = 1 then fmtBf16 else fmtFp16) (dec fmtFp32 w.toNat) .rne false).bits)

/-- Write bytes at a scratchpad offset. -/
def State.putScr (s : State) (c : Cmd) (a : DWord) (bs : List Byte) : State :=
  ((List.range bs.length).zip bs).foldl (fun s q =>
    match (s.group c.group).scrAt (clusterOf c.core) (a + BitVec.ofNat 64 q.1).toNat with
    | some loc => s.setByte loc q.2
    | none => s) s

/-- MST writes its rows and its trailer. -/
def State.mstWrite (s : State) (c : Cmd) (t : Tile) (fmt : Nat) : State :=
  let rows := (List.range 64).map (mstRow t fmt)
  let s := ((List.range 64).zip rows).foldl (fun s r => s.putScr c (c.xs + BitVec.ofNat 64 (r.1 * pitchOf c.xd)) r.2) s
  if trailed c.xd then
    s.putScr c (c.xs + BitVec.ofNat 64 (64 * pitchOf c.xd))
      (leBytes 4 (crc32c rows.flatten).toNat ++ [BitVec.ofNat 8 fmt, 0, 0, 0])
  else s

/-- The tile statistics of MSTAT. -/
def mstatRecord (s : State) (c : Cmd) (tile : Nat) : Rec :=
  let t := (s.group c.group).tile tile
  let ws := (List.range 4096).map (fun k => t.at_ (k / 64) (k % 64))
  let count := fun (p : Word → Bool) => (ws.filter p).length
  let nan := fun (w : Word) => (dec fmtFp32 w.toNat).isNan
  let most := fun (f : Word → Nat) => ws.foldl (fun acc w => max acc (f w)) 0
  [BitVec.ofNat 64 (2 ^ 63 + 0x41 * 2 ^ 56 + 0x06 * 2 ^ 42 + tile * 2 ^ 32), c.xs,
   BitVec.ofNat 64 (count nan * 2 ^ 32 + count (fun w => w &&& 0x7FFFFFFF == 0x7F800000)),
   BitVec.ofNat 64 (count (fun w => w != 0) * 2 ^ 32 + most (fun w => if nan w then 0 else (w &&& 0x7FFFFFFF).toNat)),
   BitVec.ofNat 64 s.now, BitVec.ofNat 64 (most (fun w => w.toInt.natAbs)), 0, 0]

/-- The trailer mismatch record of MLD. -/
def mismatchRecord (s : State) (c : Cmd) (tile : Nat) (m : Word × DWord) : Rec :=
  [BitVec.ofNat 64 (2 ^ 63 + 0x42 * 2 ^ 56 + 0x04 * 2 ^ 42 + tile * 2 ^ 32), c.xs, m.1.zeroExtend 64, m.2,
   BitVec.ofNat 64 s.now, 0, 0, 0]

/-- The record that a command posts when it retires. -/
def recordOf (s : State) (c : Cmd) : Option Rec :=
  match c.op with
  | .mstat tile => some (mstatRecord s c tile)
  | .mld tile => c.mismatch.map (mismatchRecord s c tile)
  | _ => if c.op.isSiphon && c.status != 0 then some (streamRecord s c) else none

/-- What a command writes when it retires. -/
def State.retireEffect (s : State) (c : Cmd) : State :=
  let setTile := fun (tile : Nat) (e : Sparse Word) =>
    s.modGroup c.group (fun g => g.setTile tile { g.tile tile with elems := e })
  match c.op with
  | .mma tile _ _ _ _ _ _ => setTile tile c.result
  | .accz tile => setTile tile []
  | .mld tile => (if c.mismatch.isSome then State.setTrl else fun s _ => s) (setTile tile c.result) c
  | .mst tile fmt => s.mstWrite c ((s.group c.group).tile tile) fmt
  | .tload => s.retireTload c
  | .dload => s.retireDload c
  | .copy => if c.status = 0x06 then s.setTrl c else s
  | .copyx => if c.status = 0x06 then s.setTrl c else s
  | _ => s

/-- A finished command retires, unless its record finds no room (R271). -/
def State.tryRetire (s : State) (c : Cmd) : State :=
  let r := recordOf s c
  if r.isSome && !(s.group c.group).statRoom then s
  else (s.retireEffect c).retire c r

/-- Work that a started Siphon command can do now. -/
def advanceCmd (s : State) (c : Cmd) : State × Cmd :=
  match c.op with
  | .copy => advanceCopy s c
  | .copyx => advanceCopy s c
  | .tload => advanceTload s c
  | .pload bank => advancePload s c bank
  | .dload => advanceDload s c
  | .intake => advanceIntake s c
  | _ => (s, c)

/-- Let a started command go on; the consumers of a copy go on while a page that it needs is awaited (R258). -/
def State.stepCmd (s : State) (c : Cmd) : State :=
  if c.finished || !(s.unheld c || c.op == .copy || c.op == .copyx) then s
  else
    let r := advanceCmd s c
    r.1.modCmd c.id (fun _ => r.2)

/-- A Siphon command starts, and takes the Siphon's start of the cycle; one that moves nothing retires in it (R235,
R243). An intake fixes its key (R447). -/
def State.startSiphon (s : State) (c : Cmd) : State :=
  let c := { c with started := true, inBuffer := false, startSeq := s.ids, keys := if c.op == .intake then s.mgmt.keys else [] }
  let s := ((s.nextId.modCmd c.id (fun _ => c)).modCore c.core (fun k => { k with siphonFrom := s.coreCycles c.core + 1 })).stepCmd c
  match s.findCmd c.id with
  | none => s
  | some d =>
    if d.finished && (d.op == .copy || d.op == .copyx) && d.total == 0 then s.tryRetire d else s

/-! ### Events of the engines -/

/-- SIPHON_COMMAND_START (R235): the earliest issued command of a core that can start. -/
def execSiphonCommandStart (core : Nat) (s : State) : Out :=
  match leastBy (fun c => c.id) (s.cmds.filter (fun c => c.core == core && s.siphonReady c)) with
  | none => .next s
  | some c => .next (s.startSiphon c)

/-- TIMED_COPY_START_TIME (R236): a timed copy whose start time has come, if it is the earliest issued command of its
core that can start. -/
def execTimedCopyStartTime (cmd : Nat) (s : State) : Out :=
  match s.findCmd cmd with
  | none => .next s
  | some c =>
    if c.timed && s.siphonReady c &&
       s.cmds.all (fun d => !(d.core == c.core && decide (d.id < c.id) && s.siphonReady d)) then
      .next (s.startSiphon c)
    else .next s

/-- A command that has finished retires. -/
def State.retireDone (s : State) (cmd : Nat) : State :=
  match s.findCmd cmd with
  | none => s
  | some d => if d.finished then s.tryRetire d else s

/-- MATRIX_COMMAND_START (R255). MSYNC retires in the cycle it starts (R269). -/
def execMatrixCommandStart (core : Nat) (s : State) : Out :=
  match leastBy (fun c => c.id) (s.cmds.filter (fun c => c.core == core && s.matrixReady c)) with
  | none => .next s
  | some c =>
    let t := (s.startMatrix c).modCore core (fun k => { k with matrixFrom := s.coreCycles core + 1 })
    .next (if c.op == .msync then t.retireDone c.id else t)

/-- COMMAND_RETIRE (R26): a started command finishes what it still has to do, and retires. -/
def execCommandRetire (cmd : Nat) (s : State) : Out :=
  match s.findCmd cmd with
  | none => .next s
  | some c =>
    if !c.started then .next s
    else
      let s1 := s.stepCmd c
      match s1.findCmd cmd with
      | none => .next s1
      | some c1 => .next (if c1.finished then s1.tryRetire c1 else s1)

end Sys2Proof.Machine
end

