-- ==== Sys2Proof/Machine/Fabric.lean ====
section
/-! DEFINITION. The fabric engine (17 R390 to R398) and the memory slots that leave the core (08 R221 to R225): FST,
FSIG, LAUNCH, ACQ.PROM, remote loads, acknowledgements, lost targets and links. Targets are global numbers (R392). -/

namespace Sys2Proof.Machine

/-! ### Signals -/

def sigPkg (h : DWord) : Nat := h.toNat / 2 ^ 46
def sigTag (h : DWord) : Nat := h.toNat / 2 ^ 30 % 2 ^ 16
def sigGrp (h : DWord) : Nat := h.toNat / 2 ^ 8 % 2 ^ 22
def sigSem (h : DWord) : Nat := h.toNat % 2 ^ 8

/-- A stray-signal event (R223, R395, R397). -/
def State.strayEvent (s : State) (h : DWord) : State :=
  ((s.setReg regFbstray (s.reg regFbstray + 1)).setReg regFbstrayh h).send (.stray h)

/-- The launch that a handle names, if it is live and has the group and the semaphore. -/
def State.signalled (s : State) (h : DWord) : Option Launch :=
  (s.launches.find? (fun l => l.live && l.id % 2 ^ 16 == sigTag h)).filter (fun l =>
    decide (sigGrp h < l.grid) && decide (sigSem h < l.kernel.semWindow))

/-- The semaphore image of a group not yet placed. -/
def State.image? (s : State) (k : Nat) : Sparse (BitVec 16) := spGet (fun _ => []) s.sched.images k

/-- Apply an increment at its target hub (R223): `none` is a delivery to void. -/
def State.applySignal (s : State) (h : DWord) (inc : Nat) : Option State :=
  match s.signalled h with
  | none => none
  | some l =>
    let k := groupKey l.id (sigGrp h)
    if l.nextGroup ≤ sigGrp h then
      let m := s.image? k
      let n := (spGet (fun _ => 0) m (sigSem h)).toNat + inc
      some { s with sched := { s.sched with
        images := spPut s.sched.images k (spSet (fun _ => 0) m (sigSem h) (satSem n))
        imageSat := if n ≤ 0xFFFF then s.sched.imageSat else s.sched.imageSat ++ [k] } }
    else if (s.group k).place = .ended then none
    else some (s.modGroup k (fun g => g.semWrite ⟨7, sigSem h, false, inc⟩))

/-- A handle that no message can carry: an absent or host endpoint of the own pod (R393), or a pod without route
(R395). -/
def State.unroutable (s : State) (h : DWord) : Bool :=
  if sigPkg h / 4096 = s.pod then s.endpointKind (sigPkg h % 4096) != 1
  else s.field (regFbroute (sigPkg h / 4096)) 0 16 == 0

/-- A signal of a launch is delivered to void. -/
def State.countVoid (s : State) (launch : Nat) : State := s.modLaunch launch (fun l => { l with voids := l.voids + 1 })

/-! ### Outstanding operations -/

def State.dropOp (s : State) (id : Nat) : State :=
  { s with fab := { s.fab with ops := s.fab.ops.filter (fun o => o.id != id) } }

/-- A target acknowledges: a lost declaration clears (R397). -/
def State.ackFrom (s : State) (target : Nat) : State :=
  { s with fab := { s.fab with lost := s.fab.lost.filter (fun t => t != target),
                               unheard := s.fab.unheard.filter (fun t => t != target),
                               lastAck := spSet (fun _ => 0) s.fab.lastAck target s.now,
                               heard := spSet (fun _ => 0) s.fab.heard target s.now } }

/-- A target acknowledges an operation that went when it was declared lost (R397). -/
def State.lateAck (s : State) (id : Nat) : State :=
  match s.fab.late.find? (fun l => l.1 == id) with
  | some l => { s with fab := { s.fab with late := s.fab.late.filter (fun m => m.1 != id) } }.ackFrom l.2
  | none => s

/-- A message of a package that has been taken before is a duplicate (R396). -/
def State.dup (s : State) (src id : Nat) : Bool := s.fab.seen.contains (src, id, 0)

/-- A message of a package has come, a duplicate too: the package can be reached (R407). -/
def State.noteHeard (s : State) (src : Nat) : State :=
  { s with fab := { s.fab with unheard := s.fab.unheard.filter (fun t => t != src),
                               heard := spSet (fun _ => 0) s.fab.heard src s.now } }

/-- Take a message of another package (R396, R407). -/
def State.hear (s : State) (src id : Nat) : State :=
  { s with fab := { s.fab with seen := s.fab.seen ++ [(src, id, 0)] } }.noteHeard src

/-- A message that is not to be taken: a duplicate still shows that its sender can be reached. -/
def State.ignore (s : State) (src id : Nat) : State := if s.fabricOn && s.dup src id then s.noteHeard src else s

/-- Answer a package. -/
def State.fabReply (s : State) (src : Nat) (m : Msg) : State := s.fabSend (src / 4096) m

def OutOp.isSig (o : OutOp) : Bool :=
  match o.kind with
  | .fsig _ _ => true
  | _ => false

def OutOp.isLoad (o : OutOp) : Bool :=
  match o.kind with
  | .load _ _ _ => true
  | _ => false

/-- The outstanding count of a launch (R335): its FSTs and FSIGs that have not completed. -/
def State.outstanding (s : State) (launch : Nat) : Nat :=
  (s.fab.ops.filter (fun o => o.launch == launch && !o.isLoad)).length

/-- Every store and atomic that the thread of an FSIG issued in earlier bundles has performed (R316), but for bytes of
local lines still to be written back. -/
def State.signalFree (s : State) (o : OutOp) : Bool :=
  (s.core o.core).writes.all (fun w => !(w.thread == o.thread && decide (w.seq < o.after) && w.len != 0 && s.awaited 3 w))

/-- What writing those bytes back waits for. -/
def State.signalWaits (s : State) (o : OutOp) : Option WaitOn := s.l1Waits o.core (fun _ => true)

/-- Send an FSIG that is free to go. -/
def State.sendSignal (s : State) (o : OutOp) : State :=
  match o.kind with
  | .fsig h inc =>
    let s := s.writebackL1 o.core (fun _ => true)
    let s := { s with fab := { s.fab with ops := s.fab.ops.map (fun p =>
      if p.id = o.id then { p with sent := some s.now } else p) } }
    if o.target = s.globalNumber then s else s.fabSend (o.target / 4096) (.fsig o.target o.id h inc 1)
  | _ => s

/-- Send every FSIG of a core that is free to go. -/
def State.sendSignals (s : State) (core : Nat) : State :=
  (s.fab.ops.filter (fun o => o.core == core && o.isSig && o.sent.isNone)).foldl (fun s o =>
    if !s.signalFree o then s
    else if (s.signalWaits o).isSome then s.askFor (s.signalWaits o)
    else if s.ownedDirty o.core (fun _ => true) then s
    else s.sendSignal o) s

/-! ### FST, FSIG, LAUNCH, ACQ.PROM -/

/-- One lane's FST. -/
def State.fstLane (s : State) (q : Issue) (tk : Nat) (ea : DWord) (data : QWord) : State :=
  let s := s.markRange q.group true ea 16
  let go := fun (target addr : Nat) (out : Bool) =>
    let o : OutOp := { id := s.ids, launch := (s.group q.group).launch, group := q.group, thread := tk, core := q.core,
                       target := target, kind := .fst addr data, sent := some s.now, after := 0,
                       place := (s.core q.core).seq }
    let s := { s.nextId with fab := { s.fab with ops := s.fab.ops ++ [o] } }
    if out then s.fabSend s.pod (.fst target o.id addr data) else s
  match s.siteOf q.group needW ea with
  | some (.here pa _) => go s.globalNumber pa false
  | some (.pkg e off) => go (s.pod * 4096 + e) off true
  | some (.host e off) => go (s.pod * 4096 + e) off true
  | none => s

/-- The 16 bytes of DATA to DATA+3 as one value. -/
def data16 (s : State) (l : Nat × Nat) (data : BitVec 8) : QWord := BitVec.ofNat 128 (leNat (dataBytes s l data 16))

/-- FST (R222). -/
def execFst (o : IxOp) (s : State) : Out :=
  memSlot s (.fst o)
    (fun q => memCond s q (participants s q o.g) (ixEa s o 16) 16 16 needW .fst false)
    (fun q => (participants s q o.g).foldl (fun s' l =>
      s'.fstLane q l.2 (ixEa s o 16 l) (data16 s l o.data)) s)

/-- One lane's FSIG. -/
def State.fsigLane (s : State) (q : Issue) (tk : Nat) (h : DWord) (inc : Nat) : State :=
  if s.unroutable h then (s.countVoid (s.group q.group).launch).strayEvent h
  else
    let o : OutOp := { id := s.ids, launch := (s.group q.group).launch, group := q.group, thread := tk, core := q.core,
                       target := sigPkg h, kind := .fsig h inc, sent := none, after := q.seq0,
                       place := (s.core q.core).seq }
    { s.nextId with fab := { s.fab with ops := s.fab.ops ++ [o] } }

/-- FSIG (R223): it is sent when the thread's earlier writes have performed (R316). -/
def execFsig (xb : BitVec 4) (inc : BitVec 10) (g : Guard) (s : State) : Out :=
  slotNext s (fun q =>
    ((participants s q g).foldl (fun s' l => s'.fsigLane q l.2 (xOf s l xb) inc.toNat) s).sendSignals q.core)

/-- Add lanes to the batch of the bundle, which both memory slots share (R224). -/
def State.joinBatch (s : State) (q : Issue) (lanes : List (Nat × Nat × Nat)) : State :=
  if s.sched.batches.any (fun b => b.core == q.core && b.upTo == q.seq0) then
    { s with sched := { s.sched with batches := s.sched.batches.map (fun b =>
        if b.core = q.core ∧ b.upTo = q.seq0 then { b with lanes := b.lanes ++ lanes } else b) } }
  else
    { s.nextId with sched := { s.sched with batches := s.sched.batches ++ [⟨s.ids, q.group, q.core, q.seq0, q.scope, lanes⟩] } }

/-- An access that the hub answers, with `words` words per lane in flight. -/
def State.askHub (s : State) (q : Issue) (lanes : List (Nat × Nat)) (words : Nat) (data : BitVec 8)
    (answer : List (Nat × QWord)) : State :=
  let a : Access := { id := s.ids, core := q.core, run := q.run, group := q.group, seq := (s.core q.core).seq,
                      ext := .words, reads := lanes.map (fun l => (l.2, [])), answer := some answer, hub := true }
  (List.range words).foldl (fun s' k =>
    s'.flyWait q (latLoad s q) a.id k (lanes.map (fun l => (l.2, (s.thread l.2).destV (data.toNat + k), 0))))
    { s.nextId with accesses := s.accesses ++ [a] }

/-- LAUNCH (R224): the hub reads the packets once the release is satisfied. -/
def execLaunch (data : BitVec 8) (xb : BitVec 4) (g : Guard) (s : State) : Out :=
  let named := fun q => (participants s q g).filter (fun l => xOf s l xb != 0)
  memSlot s (.launch data xb g)
    (fun q => memCond s q (named q) (fun l => xOf s l xb) 64 64 needR .hub false)
    (fun q =>
      let none_ := (participants s q g).filter (fun l => xOf s l xb == 0)
      let z := fun (k : Nat) => none_.map (fun l => (l.2, (s.thread l.2).destV (data.toNat + k), (0 : QWord)))
      let s0 := (named q).foldl (fun s' l => s'.markRange q.group false (xOf s l xb) 64) s
      let s1 := (s0.fly q (latLoad s q) (z 0)).fly q (latLoad s q) (z 1)
      if (named q).isEmpty then s1
      else
        let id := s1.ids
        let s2 := s1.askHub q (named q) 2 data []
        s2.joinBatch q ((named q).map (fun l =>
          let pa := match s.siteOf q.group needR (xOf s l xb) with
            | some (.here pa _) => pa
            | _ => 0
          (id, l.2, pa))))

/-- ACQ.PROM (R225). -/
def execAcqProm (xb : BitVec 4) (g : Guard) (s : State) : Out :=
  slotNext s (fun q =>
    match leader s q g with
    | none => s
    | some tk =>
      let victim := ((s.thread tk).readX xb.toNat).toNat % 1024
      if victim < 768 ∧ victim ≠ q.core then
        let p : Promotion := { id := s.ids, core := q.core, victim := victim, scope := q.scope,
                               threads := (participants s q g).map (fun l => l.2), reached := false, upTo := 0 }
        { s.nextId with fab := { s.fab with proms := s.fab.proms ++ [p] } }.fence q (participants s q g) .acq (some s.ids)
      else s.fence q (participants s q g) .acq none)

/-- PROMOTION_AT_VICTIM (R225): the promotion reaches the victim, which has accepted what stands in its order. -/
def execPromotionAtVictim (prom : Nat) (s : State) : Out :=
  .next { s with fab := { s.fab with proms := s.fab.proms.map (fun r =>
    if r.id = prom ∧ r.reached = false then { r with reached := true, upTo := (s.core r.victim).seq } else r) } }

/-- Entries of a core that are held back until a promotion of its own is acknowledged (R219), or that follow such an entry:
the core has not accepted them. -/
def State.promHeld (s : State) (core : Nat) : List PendWrite :=
  (s.core core).writes.foldl (fun acc w =>
    if (s.thread w.thread).fences.any (fun f => decide (f.seq ≤ w.seq) &&
        (f.prom.isSome || (s.fenceWrites core w.thread f).any (fun v => acc.contains v)))
      || acc.any (fun v => v.meets w.addr w.len || v.sameSems w || !v.doneFor w)
    then acc ++ [w] else acc) []

/-- The victim's accepted stores and atomics have performed at the promotion's scope. -/
def State.victimDone (s : State) (p : Promotion) : Bool :=
  let held := s.promHeld p.victim
  (s.core p.victim).writes.all (fun w =>
    !decide (w.seq < p.upTo) || w.len == 0 || held.contains w || !s.awaited p.scope w)

/-- PROMOTION_ACK (R225): once those writes have performed, the victim's dirty local lines are written back, all its local
lines go, and it acknowledges. -/
def execPromotionAck (prom : Nat) (s : State) : Out :=
  match s.fab.proms.find? (fun p => p.id == prom && p.reached) with
  | none => .next s
  | some p =>
    let all := fun (_ : Nat) => true
    if !s.victimDone p || s.ownedDirty p.victim all then .next s
    else if (s.l1Waits p.victim all).isSome then .next (s.askFor (s.l1Waits p.victim all))
    else
      let s := (s.writebackL1 p.victim all).discardL1 p.victim all
      .next ({ s with fab := { s.fab with proms := s.fab.proms.filter (fun r => r.id != prom) } }.settleCore p.core)

/-! ### Remote loads (R211, R315) -/

/-- REMOTE_LOAD_REQUEST (R315): this package reads its memory at the home, once, and answers. -/
def execRemoteLoadRequest (src id addr len : Nat) (s : State) : Out :=
  if !s.fabricOn || s.dup src id then .next (s.ignore src id)
  else if decide (devSize < addr + len) || s.owned addr len then .next s
  else if (s.readWaits addr len).isSome then .next (s.askFor (s.readWaits addr len))
  else
    .next (((((linesOf addr len).foldl (fun s l => s.homeRead l) s).hear src id)).fabReply src
      (.loadReply src id (s.bytes addr len)))

/-- REMOTE_LOAD_RESPONSE (R211). -/
def execRemoteLoadResponse (id : Nat) (bytes : List (BitVec 8)) (s : State) : Out :=
  match s.fab.ops.find? (fun o => o.id == id) with
  | none => .next (if s.fabricOn then s.lateAck id else s)
  | some o =>
    match o.kind with
    | .load _ len access =>
      if bytes.length ≠ len ∨ s.fabricOn = false then .next s
      else
        .next ((((s.dropOp id).ackFrom o.target).fillAnswer access id bytes).settleCore o.core)
    | _ => .next s

/-! ### FST and FSIG at their targets -/

/-- An FST to this package's own memory performs: open earlier loads of its thread are read first (R303, R314). -/
def State.performFst (s : State) (o : OutOp) : State :=
  match o.kind with
  | .fst addr data =>
    ((s.fixReads o.core (fun k => k == o.thread) o.place addr 16).put addr (leBytes 16 data.toNat)).dropOp o.id
  | _ => s

/-- FST_APPLY (R222): a write of this package's own fabric completes here; another package gets its acknowledgement. -/
def execFstApply (src id addr : Nat) (data : BitVec 128) (s : State) : Out :=
  if devSize < addr + 16 ∨ addr % 16 ≠ 0 ∨ s.owned addr 16 then .next (s.ignore src id)
  else if (s.writeWaits addr 16).isSome then .next (s.askFor (s.writeWaits addr 16))
  else if src = s.globalNumber then
    match s.fab.ops.find? (fun o => o.id == id && o.target == src && o.kind == .fst addr data) with
    | none => .next s
    | some o =>
      if !s.canFix o.core (fun k => k == o.thread) o.place addr 16 then .next s
      else .next ((s.performFst o).settleCore o.core)
  else if !s.fabricOn || s.dup src id then .next (s.ignore src id)
  else .next (((s.put addr (leBytes 16 data.toNat)).hear src id).fabReply src (.fstAck src id))

/-- FST_ACK (R221). -/
def execFstAck (id : Nat) (s : State) : Out :=
  match s.fab.ops.find? (fun o => o.id == id && o.target != s.globalNumber && s.fabricOn) with
  | none => .next (if s.fabricOn then s.lateAck id else s)
  | some o =>
    match o.kind with
    | .fst _ _ => .next (((s.dropOp id).ackFrom o.target).settleCore o.core)
    | _ => .next s

/-- FSIG_APPLY (R223). -/
def execFsigApply (src id : Nat) (handle : BitVec 64) (inc : Nat) (s : State) : Out :=
  if sigPkg handle ≠ s.globalNumber then .next s
  else if src = s.globalNumber then
    match s.fab.ops.find? (fun o => o.id == id && o.kind == .fsig handle inc && o.sent.isSome) with
    | none => .next s
    | some o =>
      match s.applySignal handle inc with
      | some s' => .next ((s'.dropOp id).settleCore o.core)
      | none => .next ((((s.countVoid o.launch).strayEvent handle).dropOp id).settleCore o.core)
  else if !s.fabricOn || s.dup src id then .next (s.ignore src id)
  else
    let s := s.hear src id
    match s.applySignal handle inc with
    | some s' => .next (s'.fabReply src (.fsigAck src id false))
    | none => .next ((s.strayEvent handle).fabReply src (.fsigAck src id true))

/-- FSIG_ACK (R221): applied, or delivered to void at some hub. -/
def execFsigAck (id : Nat) (void : Bool) (s : State) : Out :=
  match s.fab.ops.find? (fun o => o.id == id && o.isSig && o.sent.isSome && o.target != s.globalNumber && s.fabricOn) with
  | none => .next (if s.fabricOn then s.lateAck id else s)
  | some o =>
    let s := (s.dropOp id).ackFrom o.target
    .next ((if void then s.countVoid o.launch else s).settleCore o.core)

/-- Remember an FSIG forwarded at a hop count, so that a resent one is not forwarded again (R396). -/
def State.sawHop (s : State) (src id hops : Nat) : State :=
  { s with fab := { s.fab with seen := s.fab.seen ++ [(src, id, hops)] } }

/-- FSIG_FORWARD (R395): an FSIG for another package after `hops` hops, sent on or dropped to void. -/
def execFsigForward (src id : Nat) (handle : BitVec 64) (inc hops : Nat) (s : State) : Out :=
  if sigPkg handle = s.globalNumber ∨ !s.fabricOn ∨ s.fab.seen.contains (src, id, hops + 1) then .next s
  else
    let s := s.sawHop src id (hops + 1)
    if 8 ≤ hops ∨ s.unroutable handle then .next ((s.strayEvent handle).fabReply src (.fsigAck src id true))
    else if s.podUp (sigPkg handle / 4096) then .next (s.send (.fsig (sigPkg handle) id handle inc (hops + 1)))
    else .next { s with fab := { s.fab with forwards := s.fab.forwards ++ [⟨src, id, handle, inc, hops, s.now⟩] } }

/-- Send on the signals whose pod can be reached again, and the messages that wait for a port. -/
def State.flushForwards (s : State) : State :=
  ((s.fab.forwards.filter (fun f => s.podUp (sigPkg f.handle / 4096))).foldl
    (fun (s : State) (f : Forward) => s.send (.fsig (sigPkg f.handle) f.id f.handle f.inc (f.hops + 1)))
    { s with fab := { s.fab with forwards := s.fab.forwards.filter (fun f => !s.podUp (sigPkg f.handle / 4096)) } }).flushQueue

/-! ### Links (R390, R391, R396) -/

def State.setPort (s : State) (port : BitVec 4) (width st : Nat) : State :=
  (s.setField (regFbport port.toNat) 2 2 width).setField (regFbport port.toNat) 0 2 st

/-- LINK_UP (R390): a port comes up while its LZ1-N works (R434, R437). -/
def execLinkUp (port : BitVec 4) (width : BitVec 2) (s : State) : Out :=
  if width = 0 ∨ s.dieState (9 + port.toNat / 8) ≠ 2 then .next s else .next (s.setPort port width.toNat 2).flushForwards

/-- LINK_RETRAIN (R391). -/
def execLinkRetrain (port : BitVec 4) (lanes : Nat) (s : State) : Out :=
  if s.field (regFbport port.toNat) 0 2 = 0 ∨ lanes = 0 ∨ 4 < lanes then .next s
  else .next (s.setPort port (if lanes = 4 then 3 else if 2 ≤ lanes then 2 else 1) 2)

/-- LINK_FAIL (R396): the messages go through other ports, which nothing can see. -/
def execLinkFail (port : BitVec 4) (s : State) : Out := .next (s.setPort port 0 0)

end Sys2Proof.Machine
end

