-- ==== Sys2Proof/Machine/Transactions.lean ====
section
/-! DEFINITION. Transactions (17 R401 to R409): the thread's operations, the coordinator's commit, the target's part,
the decision log, and targets declared lost (R397). -/

namespace Sys2Proof.Machine

/-- A handle that no transaction of the package has (R403): the free choice, or else the least. -/
def State.freshHandle (s : State) : Word :=
  let h := Config.txHandle s.turn % 2 ^ 31
  let free := fun (n : Nat) => n != 0 && (s.findTx (BitVec.ofNat 32 n)).isNone && s.fab.stale.all (fun q => q.1.toNat != n)
  if free h then BitVec.ofNat 32 h
  else BitVec.ofNat 32 (((List.range (s.fab.txs.length + s.fab.stale.length + 2)).find? free).getD 0)

/-! ### Parts held here as a target (R404 to R406) -/

/-- Stage 16 bytes of a place in program order: of two stores to one address the later in that order stays. With them why
the transaction is doomed, if it is. -/
def State.stagePart (s : State) (coord : Nat) (h : Word) (seq addr : Nat) (data : QWord) : State × Option Word :=
  let p := (s.findPart coord h).getD ⟨coord, h, [], false, s.now, false⟩
  if p.gone then (s, some 0x80000010)
  else if !Config.txRoom s.turn then (s, some 0x80000011)
  else
    let ws := if p.writes.any (fun w => w.2.1 == addr && decide (seq < w.1)) then p.writes
      else p.writes.filter (fun w => w.2.1 != addr) ++ [(seq, addr, data)]
    (s.setPart coord h (some { p with writes := ws, last := s.now }), none)

/-- Vote on a part: lock its blocks, or say why not (R405, step 2). A part no longer held votes 0x80000010 (DEDUCED). -/
def State.votePart (s : State) (coord : Nat) (h : Word) : State × Option Word :=
  match s.findPart coord h with
  | none => (s, some 0x80000010)
  | some p =>
    let blocks := p.writes.map (fun w => w.2.1 / 64)
    if p.gone then (s, some 0x80000010)
    else if p.prepared then (s, none)
    else if s.fab.locks.any (fun l => blocks.contains l.1) then (s, some 0x80000012)
    else
      let s := s.setPart coord h (some { p with prepared := true, last := s.now })
      ({ s with fab := { s.fab with locks := s.fab.locks ++ blocks.eraseDups.map (fun b => (b, coord, h)) } }, none)

/-- What applying a part waits for (R383, R400). -/
def State.partWaits (s : State) (p : Part) : Option WaitOn := p.writes.findSome? (fun w => s.writeWaits w.2.1 16)

/-- A line of the part is owned by an engine command (R311). -/
def State.partOwned (s : State) (p : Part) : Bool := p.writes.any (fun w => s.owned w.2.1 16)

/-- What the thread of a part of this package issued before its TXSTs: thread, core and place, with the address. -/
def State.partPlaces (s : State) (p : Part) : List (Nat × Nat × Nat × Nat) :=
  if p.coord ≠ s.globalNumber then []
  else match s.findTx p.handle with
    | none => []
    | some t => p.writes.filterMap (fun w => (assoc t.own w.1).map (fun q => (t.thread, q.1, q.2, w.2.1)))

/-- The thread's earlier stores to those bytes have performed, and its earlier loads of them can be read first (R303,
R314). -/
def State.partFollows (s : State) (p : Part) : Bool :=
  (s.partPlaces p).all (fun z =>
    (s.core z.2.1).writes.all (fun w => !(w.thread == z.1 && decide (w.seq < z.2.2.1) && w.meets z.2.2.2 16))
    && s.canFix z.2.1 (fun k => k == z.1) z.2.2.1 z.2.2.2 16)

/-- Apply a part at one instant (R406). -/
def State.applyPart (s : State) (p : Part) : State :=
  let s := (s.partPlaces p).foldl (fun s z => s.fixReads z.2.1 (fun k => k == z.1) z.2.2.1 z.2.2.2 16) s
  (p.writes.foldl (fun s w => s.put w.2.1 (leBytes 16 w.2.2.toNat)) s).closePart p.coord p.handle

/-- Act on a decision; the answer says whether it is done, and not waiting. -/
def State.decidePart (s : State) (coord : Nat) (h : Word) (commit : Bool) : State × Bool :=
  match s.findPart coord h with
  | none => (s, true)
  | some p =>
    if !commit then (s.closePart coord h, true)
    else if !p.prepared || s.partOwned p || !s.partFollows p then (s, false)
    else if (s.partWaits p).isSome then (s.askFor (s.partWaits p), false)
    else (s.applyPart p, true)

/-! ### The decision log (R408) -/

def State.logEntries (s : State) : Nat := 2 ^ (min 10 (s.field regTxlbase 0 4) + 6)
def State.logBase (s : State) : Nat := s.field regTxlbase 12 52 * 4096

/-- The next free entry from the ring's place on. -/
def State.freeEntry (s : State) : Option Nat :=
  ((List.range s.logEntries).map (fun k => (s.fab.logNext + k) % s.logEntries)).find? (fun e =>
    s.fab.txs.all (fun t => t.logged != some e))

/-- The bytes of an entry. -/
def logBytes (t : Tx) (outcome : Word) : List Byte :=
  leBytes 4 t.handle.toNat ++ leBytes 4 outcome.toNat ++ leBytes 8 t.user.toNat ++
  bytesAt (t.targets.flatMap (fun g => leBytes 2 (g % 4096))) 0 32 ++ leBytes 2 t.targets.length ++ List.replicate 14 0

/-- Write an entry, and say whether it is written: it waits while the log is disabled or full, and for its line. -/
def State.writeLog (s : State) (t : Tx) (outcome : Word) : State × Bool :=
  match s.freeEntry with
  | none => (s, false)
  | some e =>
    let a := s.logBase + 64 * e
    if s.logBase = 0 || s.hubOwned a 64 then (s, false)
    else if (s.hubWaits a 64).isSome then (s.askFor (s.hubWaits a 64), false)
    else
      let s := s.hubPut a (logBytes t outcome)
      ({ s with fab := { s.fab with logNext := (e + 1) % s.logEntries } }.modTx t.handle
        (fun t => { t with logged := some e }), true)

/-! ### The commit (R405) -/

/-- The access that a commit in progress answers. -/
def TxPhase.access : TxPhase → Option Nat
  | .staging a => some a
  | .voting a _ => some a
  | _ => none

/-- Add a lane's value to an access of the hub. -/
def State.answerHub (s : State) (access tk : Nat) (v : QWord) : State :=
  { s with accesses := s.accesses.map (fun (a : Access) =>
      if a.id = access then { a with answer := a.answer.map (fun l => l ++ [(tk, v)]) } else a) }

/-- Steps 4 and 5: DATA takes the outcome, and every target the decision. -/
def State.announce (s : State) (t : Tx) (commit : Bool) (outcome : Word) : State :=
  let s := match t.phase.access with
    | some a => s.answerHub a t.thread (outcome.zeroExtend 128)
    | none => s
  let s := s.modTx t.handle (fun t => { t with phase := .decided commit, outcome := outcome, out := [] })
  (s.farTargets t).foldl (fun s g => s.txSend t.handle g (fun id => .txDecision g id t.handle commit)) s

/-- Step 3: the entry of the decision, then the decision itself. -/
def State.decideTx (s : State) (t : Tx) (commit : Bool) (outcome : Word) : State :=
  let r := s.writeLog t outcome
  if r.2 then r.1.announce t commit outcome else r.1

/-- Every target has voted yes. -/
def Tx.allVoted (t : Tx) : Bool := t.targets.all (fun g => t.votes.contains g)

/-- Step 2: prepare goes to every target; the part held here votes at once. -/
def State.prepareAll (s : State) (t : Tx) (access : Nat) : State :=
  let s := s.modTx t.handle (fun t => { t with phase := .voting access s.now })
  let s := (s.farTargets t).foldl (fun s g => s.txSend t.handle g (fun id => .txPrepare g id t.handle)) s
  if t.targets.contains s.globalNumber then
    let v := s.votePart s.globalNumber t.handle
    v.1.modTx t.handle (fun t => match v.2 with
      | none => { t with votes := t.votes ++ [s.globalNumber] }
      | some w => t.doom w)
  else s

/-- Targets that step 6 still waits for: after an abort, only those that can be reached. -/
def State.txPending (s : State) (t : Tx) (commit : Bool) : Bool :=
  t.out.any (fun o => commit || !s.fab.lost.contains o.2.1) || (s.findPart s.globalNumber t.handle).isSome

/-- The outcome record. -/
def recordBytes (t : Tx) : List Byte := leBytes 4 t.handle.toNat ++ leBytes 4 t.outcome.toNat ++ leBytes 8 t.user.toNat

/-- Write the outcome record, or give it up, or wait. -/
def State.writeRecord (s : State) (t : Tx) : State :=
  let done := fun (s : State) => s.modTx t.handle (fun t => { t with recorded := true })
  if t.statusAddr = 0 then done s
  else
    match s.xlate t.tenant needW t.statusAddr with
    | .ok (.here pa _) =>
      let w := (s.writeWaits pa 16).orElse (fun _ => s.tenantMarkWaits t.tenant true t.statusAddr)
      if w.isSome then s.askFor w
      else if s.owned pa 16 then s
      else done ((s.markUsed t.tenant true t.statusAddr).put pa (recordBytes t))
    | .ok _ => done s
    | .bad c r =>
      if c = 0x0C ∧ r = 0 then
        if (t.req.bind (fun n => s.reqs.find? (fun q => q.id == n))).isSome then s
        else
          let z := s.raise t.tenant t.statusAddr .write
          z.1.modTx t.handle (fun t => { t with req := z.2 })
      else done s

/-- The SIG increment of the hub's own: it counts for no launch (R335, R336). -/
def State.hubSignal (s : State) (h : DWord) : State :=
  if h = 0 then s
  else if sigPkg h = s.globalNumber then (s.applySignal h 1).getD (s.strayEvent h)
  else if s.unroutable h then s.strayEvent h
  else
    let o : OutOp := { id := s.ids, launch := 0, group := 0, thread := 0, core := 0, target := sigPkg h,
                       kind := .fsig h 1, sent := some s.now, after := 0, place := 0 }
    { s.nextId with fab := { s.fab with ops := s.fab.ops ++ [o] } }.fabSend (sigPkg h / 4096)
      (.fsig (sigPkg h) o.id h 1 1)

/-- What a transaction can do next. -/
def State.settleTx (s : State) (t : Tx) : State :=
  match t.phase with
  | .open_ => s
  | .staging a =>
    match t.doomed with
    | some w => if t.lost then s.decideTx t false w else s.announce t false w
    | none =>
      if !t.out.isEmpty then s
      else if t.targets.isEmpty then s.decideTx t true 0
      else s.prepareAll t a
  | .voting _ _ =>
    match t.doomed with
    | some w => s.decideTx t false w
    | none => if t.allVoted then s.decideTx t true 0 else s
  | .decided commit =>
    let s := (s.decidePart s.globalNumber t.handle commit).1
    if s.txPending t commit then s
    else if !t.recorded then s.writeRecord t
    else (s.hubSignal t.sig).endRecord t

/-- Let every transaction go on. -/
def settleTxsN (s : State) : Nat → State
  | 0 => s
  | n + 1 => settleTxsN ((s.fab.txs.map (fun t => t.handle)).foldl (fun s h => match s.findTx h with
      | some t => s.settleTx t
      | none => s) s) n

def State.settleTxs (s : State) : State := settleTxsN s 5

/-! ### The thread's operations (R403) -/

/-- A descriptor that breaks R402. -/
def txDescBad (bs : List Byte) : Bool :=
  natAt bs 0 8 % 16 != 0 || natAt bs 0x14 4 != 0 || natAt bs 0x20 32 != 0

/-- One lane of TXBEGIN: the value that DATA takes. -/
def State.txBegin (s : State) (q : Issue) (tk : Nat) (bs : List Byte) : State × Word :=
  if (s.openTx tk).isSome then (s, 0x80000001)
  else if s.fab.stray.contains tk then
    ({ s with fab := { s.fab with stray := s.fab.stray.filter (fun k => k != tk) } }, 0x80000004)
  else if txDescBad bs then (s, 0x80000002)
  else if 65536 ≤ (s.fab.txs.filter (fun t => !t.phase.isDecided)).length ∨ s.logBase = 0 then (s, 0x80000003)
  else
    let h := s.freshHandle
    let t : Tx := { handle := h, thread := tk, launch := (s.group q.group).launch, tenant := (s.group q.group).tenant,
                    statusAddr := BitVec.ofNat 64 (natAt bs 0 8), sig := BitVec.ofNat 64 (natAt bs 8 8),
                    vote := if natAt bs 0x10 4 = 0 then 1024 else natAt bs 0x10 4,
                    user := BitVec.ofNat 64 (natAt bs 0x18 8), targets := [], stores := 0, out := [],
                    doomed := none, phase := .open_, votes := [], outcome := 0, logged := none, req := none,
                    recorded := false, lost := false, own := [] }
    ({ s with fab := { s.fab with txs := s.fab.txs ++ [t] } }, h)

/-- TXBEGIN (R403). -/
def execTxbegin (data : BitVec 8) (xb : BitVec 4) (g : Guard) (s : State) : Out :=
  memSlot s (.txbegin data xb g)
    (fun q => memCond s q (participants s q g) (fun l => xOf s l xb) 64 64 needR .hub false)
    (fun q =>
      let ps := participants s q g
      if ps.isEmpty then s
      else
        let r := ps.foldl (fun (acc : State × List (Nat × QWord)) l =>
          let s0 := acc.1.markRange q.group false (xOf s l xb) 64
          let bs := match s0.siteOf q.group needR (xOf s l xb) with
            | some (.here pa attr) => s0.readRun attr q.core l.2 pa 64
            | _ => []
          let z := s0.txBegin q l.2 bs
          (z.1, acc.2 ++ [(l.2, z.2.zeroExtend 128)])) (s, [])
        r.1.askHub q ps 1 data r.2)

/-- One lane of TXST (R403, R404). -/
def State.txStore (s : State) (q : Issue) (tk : Nat) (ea : DWord) (data : QWord) : State :=
  let s := s.markRange q.group true ea 16
  match s.openTx tk with
  | none =>
    if s.fab.stray.contains tk then s else { s with fab := { s.fab with stray := s.fab.stray ++ [tk] } }
  | some t =>
    let go := fun (target addr : Nat) =>
      if t.doomed.isSome then s
      else if (!t.targets.contains target && decide (16 ≤ t.targets.length)) || decide (4096 ≤ t.stores) then
        s.modTx t.handle (fun t => t.doom 0x80000013)
      else
        let s := s.modTx t.handle (fun t =>
          { t with stores := t.stores + 1, targets := if t.targets.contains target then t.targets else t.targets ++ [target],
                   own := if target = s.globalNumber then t.own ++ [(t.stores, q.core, (s.core q.core).seq)] else t.own })
        if target = s.globalNumber then
          let r := s.stagePart target t.handle t.stores addr data
          match r.2 with
          | none => r.1
          | some w => r.1.modTx t.handle (fun t => t.doom w)
        else s.txSend t.handle target (fun id => .txStage target id t.handle t.stores addr data)
    match s.siteOf q.group needW ea with
    | some (.here pa _) => go s.globalNumber pa
    | some (.pkg e off) => go (s.pod * 4096 + e) off
    | _ => s

/-- TXST (R403). -/
def execTxst (o : IxOp) (s : State) : Out :=
  memSlot s (.txst o)
    (fun q => memCond s q (participants s q o.g) (ixEa s o 16) 16 16 needW .txst false)
    (fun q => (participants s q o.g).foldl (fun s' l =>
      s'.txStore q l.2 (ixEa s o 16 l) (data16 s l o.data)) s)

/-- TXCOMMIT (R405). -/
def execTxcommit (data : BitVec 8) (g : Guard) (s : State) : Out :=
  memSlot s (.txcommit data g) (fun _ => none) (fun q =>
    let ps := participants s q g
    if ps.isEmpty then s
    else
      let id := s.ids
      let s1 := s.askHub q ps 1 data []
      (ps.foldl (fun s' l =>
        match s'.openTx l.2 with
        | some t =>
          if t.handle = vOf s l data then s'.modTx t.handle (fun t => { t with phase := .staging id })
          else s'.answerHub id l.2 0x80000005
        | none => s'.answerHub id l.2 0x80000005) s1).settleTxs)

/-- TXABORT (R403). -/
def execTxabort (g : Guard) (s : State) : Out :=
  slotNext s (fun q => (participants s q g).foldl (fun s' l => s'.abortTx l.2) s)

/-! ### Messages of the protocol -/

/-- A message of another coordinator that is to be taken (R396). -/
def State.takes (s : State) (coord id : Nat) : Bool := coord != s.globalNumber && s.fabricOn && !s.dup coord id

/-- TX_STAGE (R404): a part of another coordinator. A store of a part that a later message has closed stages nothing. -/
def execTxStage (msg : FabName) (handle : BitVec 32) (place : TxPlace) (data : BitVec 128) (s : State) : Out :=
  if !s.takes msg.peer msg.id then .next (s.ignore msg.peer msg.id)
  else if devSize < place.addr + 16 ∨ place.addr % 16 ≠ 0 then .next s
  else if s.fab.closed.any (fun c => c.1 == msg.peer && c.2.1 == handle && decide (msg.id < c.2.2)) then
    .next ((s.hear msg.peer msg.id).fabReply msg.peer (.txStageAck msg.peer msg.id handle none))
  else
    let r := (s.hear msg.peer msg.id).stagePart msg.peer handle place.seq place.addr data
    .next (r.1.fabReply msg.peer (.txStageAck msg.peer msg.id handle r.2))

/-- A package acknowledges a message (R397). -/
def State.acked (s : State) (peer : Nat) : State := if s.fabricOn && peer != s.globalNumber then s.ackFrom peer else s

/-- TX_STAGE_ACK (R405). -/
def execTxStageAck (handle : BitVec 32) (msg : FabName) (doom : Option (BitVec 32)) (s : State) : Out :=
  let s := s.acked msg.peer
  match s.findTx handle with
  | none => .next s
  | some t =>
    if !t.sent msg.id msg.peer || t.phase.isDecided || !s.fabricOn then .next s
    else
      .next ((s.modTx handle (fun t => match doom with
        | some w => (t.ackFrom msg.id msg.peer).doom w
        | none => t.ackFrom msg.id msg.peer)).settleTxs)

/-- TX_PREPARE (R405). -/
def execTxPrepare (msg : FabName) (handle : BitVec 32) (s : State) : Out :=
  if !s.takes msg.peer msg.id then .next (s.ignore msg.peer msg.id)
  else
    let r := (s.hear msg.peer msg.id).votePart msg.peer handle
    .next (r.1.fabReply msg.peer (.txVote msg.peer msg.id handle r.2))

/-- TX_VOTE (R405): a yes counts within VOTE. -/
def execTxVote (handle : BitVec 32) (msg : FabName) (no : Option (BitVec 32)) (s : State) : Out :=
  let s := s.acked msg.peer
  match s.findTx handle with
  | none => .next s
  | some t =>
    match t.phase with
    | .voting _ since =>
      if !t.sent msg.id msg.peer || !s.fabricOn then .next s
      else
        .next ((s.modTx handle (fun t => match no with
          | some w => (t.ackFrom msg.id msg.peer).doom w
          | none =>
            if since + t.vote * 1024 < s.now then (t.ackFrom msg.id msg.peer).doom 0x80000010
            else { t.ackFrom msg.id msg.peer with votes := t.votes ++ [msg.peer] })).settleTxs)
    | _ => .next s

/-- TX_VOTE_TIMEOUT (R405): a vote is missing at the end of VOTE. -/
def execTxVoteTimeout (handle : BitVec 32) (s : State) : Out :=
  match s.findTx handle with
  | none => .next s
  | some t =>
    match t.phase with
    | .voting _ since =>
      if !t.allVoted && decide (since + t.vote * 1024 ≤ s.now) then
        .next ((s.modTx handle (fun t => t.doom 0x80000010)).settleTxs)
      else .next s
    | _ => .next s

/-- Stages of a handle that were sent before a message belong to a part that is closed (R404). -/
def State.notePartEnd (s : State) (coord : Nat) (h : Word) (id : Nat) : State :=
  { s with fab := { s.fab with closed := s.fab.closed.filter (fun c => !(c.1 == coord && c.2.1 == h)) ++ [(coord, h, id)] } }

/-- TX_DECISION (R406). -/
def execTxDecision (msg : FabName) (handle : BitVec 32) (commit : Bool) (s : State) : Out :=
  if !s.takes msg.peer msg.id then .next (s.ignore msg.peer msg.id)
  else
    let r := s.decidePart msg.peer handle commit
    if r.2 then
      .next (((((r.1.hear msg.peer msg.id).ackFrom msg.peer)).notePartEnd msg.peer handle msg.id).fabReply msg.peer
        (.txApplyAck msg.peer msg.id handle))
    else .next (r.1.noteHeard msg.peer)

/-- TX_RECOVERY (R407): a prepared part learns the decision once the link is back. Its acknowledgement names no message. -/
def execTxRecovery (coord : Nat) (handle : BitVec 32) (commit : Bool) (s : State) : Out :=
  if coord = s.globalNumber ∨ !s.fabricOn ∨ !(s.findPart coord handle).any (fun p => p.prepared) then .next s
  else
    let r := s.decidePart coord handle commit
    if r.2 then .next ((r.1.ackFrom coord).fabReply coord (.txApplyAck coord 0 handle)) else .next r.1

/-- TX_APPLY_ACK (R405). -/
def execTxApplyAck (handle : BitVec 32) (msg : FabName) (s : State) : Out :=
  let s := s.acked msg.peer
  let s := if s.fabricOn then
      { s with fab := { s.fab with stale := s.fab.stale.filter (fun q => q != (handle, msg.peer)) } }
    else s
  match s.findTx handle with
  | none => .next s
  | some t =>
    if t.phase.isDecided && s.fabricOn && (t.sent msg.id msg.peer || (msg.id == 0 && t.awaits msg.peer)) then
      .next ((s.modTx handle (fun t => t.quit msg.peer)).settleTxs)
    else .next s

/-- The cycles of FBLOSS have passed since a count; 0 means never. -/
def State.lossDue (s : State) (since : Nat) : Bool :=
  decide (s.field regFbloss 0 32 ≠ 0) && decide (since + s.field regFbloss 0 32 ≤ s.now)

/-- TX_PART_TIMEOUT (R407). -/
def execTxPartTimeout (coord : Nat) (handle : BitVec 32) (s : State) : Out :=
  match s.findPart coord handle with
  | none => .next s
  | some p =>
    if p.prepared || p.gone || !s.lossDue (max p.last (spGet (fun _ => 0) s.fab.heard coord)) then .next s
    else
      let s := s.setPart coord handle (some { p with gone := true, writes := [] })
      if coord = s.globalNumber then .next ((s.modTx handle (fun t => t.doom 0x80000010)).settleTxs) else .next s

/-! ### Lost targets (R397, R407) -/

/-- A message has been held for a target for FBLOSS cycles without an acknowledgement. -/
def State.targetSilent (s : State) (t : Nat) : Bool :=
  let since := fun (n : Nat) => s.lossDue (max n (spGet (fun _ => 0) s.fab.lastAck t))
  s.fab.ops.any (fun o => o.target == t && o.sent.any since)
  || s.fab.txs.any (fun x => x.out.any (fun o => o.2.1 == t && since o.2.2))
  || s.fab.parts.any (fun p => p.coord == t && p.prepared && since p.last)
  || s.fab.forwards.any (fun f => sigPkg f.handle == t && since f.since)

/-- The identifier of an operation's message. -/
def Msg.opId : Msg → Option Nat
  | .fst _ id _ _ => some id
  | .fsig _ id _ _ _ => some id
  | .load _ id _ _ => some id
  | _ => none

/-- What happens to an operation whose target is lost; a message of it that still waits for a port goes. -/
def State.loseOp (s : State) (o : OutOp) : State :=
  let s := s.dropOp o.id
  let s := { s with fab := { s.fab with queue := s.fab.queue.filter (fun q => q.2.opId != some o.id),
                                        late := s.fab.late ++ [(o.id, o.target)] } }
  match o.kind with
  | .fsig h _ => (s.countVoid o.launch).strayEvent h
  | _ => s.endLaunch o.launch 0x05 (s.group o.group).gid (BitVec.ofNat 64 o.target)

/-- TARGET_LOST (R397). -/
def execTargetLost (pkg : Nat) (s : State) : Out :=
  if !s.targetSilent pkg || pkg == s.globalNumber then .next s
  else
    let s := (s.fab.ops.filter (fun o => o.target == pkg && o.sent.isSome)).foldl (fun s o => s.loseOp o) s
    let s := (s.fab.forwards.filter (fun f => sigPkg f.handle == pkg)).foldl
      (fun (s : State) (f : Forward) => (s.strayEvent f.handle).fabReply f.src (.fsigAck f.src f.id true)) s
    let s := { s with fab := { s.fab with
      forwards := s.fab.forwards.filter (fun f => sigPkg f.handle != pkg),
      lost := if s.fab.lost.contains pkg then s.fab.lost else s.fab.lost ++ [pkg],
      unheard := if s.fab.unheard.contains pkg then s.fab.unheard else s.fab.unheard ++ [pkg],
      txs := s.fab.txs.map (fun (t : Tx) =>
        if t.targets.contains pkg && !t.phase.isDecided then
          { (t.doom 0x80000010).quit pkg with lost := true }
        else t) } }
    .next s.settleTxs

end Sys2Proof.Machine
end

