-- ==== Sys2Proof/Machine/Frame.lean ====
section
/-! DEFINITION. The frame engine (12 R275 to R293): CALL, CALLI, RET and UNWIND, frame waits, spills and refills. -/

namespace Sys2Proof.Machine

/-! ### Spill areas (R279, R280) -/

/-- Bytes of a record. -/
def recordSize : Nat := 0x480

/-- The address of record d of a thread. -/
def State.recordAddr (s : State) (tk d : Nat) : DWord :=
  let t := s.thread tk
  let la := s.launchOf t.group
  la.spill + BitVec.ofNat 64 (((s.group t.group).gid * (s.group t.group).kernel.gsize + t.tid) * la.stride + d * recordSize)

/-- R280 allows record d to be written. -/
def State.recordFits (s : State) (tk d : Nat) : Bool :=
  decide ((d + 1) * recordSize ≤ (s.launchOf (s.thread tk).group).stride)

/-- What an access of the Windlass meets. -/
inductive Wl where
  | ok (locs : List Nat)
  /-- A snapshot copy, a host's copy of a line or an engine command comes first (R383, R400, R311). -/
  | wait (h : Hold)
  | miss (va : DWord) (kind : AccKind)
  /-- The launch ends with a status and its detail. -/
  | fail (status : Nat) (detail : DWord)
  deriving DecidableEq, Repr, Inhabited

/-- Locations of a Windlass access. -/
def State.wlLocs (s : State) (tk : Nat) (n : Need) (va : DWord) (len : Nat) : Wl :=
  let g := (s.thread tk).group
  match s.locsVa (s.group g).tenant n va len with
  | .ok ls =>
    let mark := (s.markWaits g n.w va).orElse (fun _ => s.markWaits g n.w (va + BitVec.ofNat 64 (len - 1)))
    match (mark.map WaitOn.hold).orElse (fun _ => ls.findSome? (s.locHold n.w)) with
    | some h => .wait h
    | none => .ok ls
  | .error (c, a) => if c = notPresent then .miss a n.kind else .fail 0x02 a

/-- Read through the Windlass. -/
def Wl.bytes (w : Wl) (s : State) : List Byte :=
  match w with
  | .ok ls => ls.map s.byte
  | _ => []

/-- Write through the Windlass, at package scope. -/
def State.wlPut (s : State) (tk : Nat) (va : DWord) (bs : List Byte) : Wl → State
  | .ok ls => (ls.zip bs).foldl (fun s q => s.put q.1 [q.2]) (s.markRange (s.thread tk).group true va bs.length)
  | _ => s

/-! ### Entries (R277, R278) -/

def entryBytes (e : Entry) : List Byte :=
  leBytes 8 e.ret.toNat ++ leBytes 8 e.loop.ls0.toNat ++ leBytes 8 e.loop.ls1.toNat ++ leBytes 4 e.loop.lc0.toNat ++
  leBytes 4 e.loop.lc1.toNat ++
  [e.loop.ec, e.loop.rrb.zeroExtend 8, e.loop.rot.zeroExtend 8, e.stage, if e.mark then 1 else 0,
   BitVec.ofNat 8 (e.size - 1)] ++ List.replicate 26 0

/-- An entry as it stands in a record, without any check. -/
def entryOf (bs : List Byte) : Entry :=
  { ret := BitVec.ofNat 64 (natAt bs 0 8)
    loop := ⟨BitVec.ofNat 32 (natAt bs 0x18 4), BitVec.ofNat 32 (natAt bs 0x1C 4), bs.getD 0x20 0,
             (bs.getD 0x21 0).truncate 6, (bs.getD 0x22 0).truncate 3, BitVec.ofNat 64 (natAt bs 8 8),
             BitVec.ofNat 64 (natAt bs 0x10 8)⟩
    stage := bs.getD 0x23 0
    mark := (bs.getD 0x24 0).getLsbD 0
    size := (bs.getD 0x25 0).toNat % 16 + 1
    onChip := true }

/-- Entry d of a thread, 1 to its depth. -/
def Thread.entry (t : Thread) (d : Nat) : Entry := t.entries.getD (t.depth - d) default

/-- The record that a push must write first: the oldest of 8 entries on chip. -/
def Thread.evicts (t : Thread) : Option Nat :=
  if 8 ≤ (t.entries.filter (fun e => e.onChip)).length then some (t.depth - 7) else Option.none

/-- What a push of an entry meets. -/
def State.pushNeeds (s : State) (tk : Nat) : Wl :=
  let t := s.thread tk
  match t.evicts with
  | none => .ok []
  | some d =>
    if s.recordFits tk d then s.wlLocs tk needW (s.recordAddr tk d) 64 else .fail 0x01 (BitVec.ofNat 64 d)

/-- The frame that a call is given: its carried registers, every other 0. -/
def newFrame (size : Nat) (carried : List Word) : Frame := ⟨size, spSetN (fun _ => 0) [] 0 carried, false⟩

/-- Push an entry and a frame (R281 `grant`). -/
def State.pushFrame (s : State) (tk : Nat) (e : Entry) (carried : List Word) (dem : Nat) : State :=
  let t := s.thread tk
  let s := match t.evicts with
    | none => s
    | some d => s.wlPut tk (s.recordAddr tk d) (entryBytes (t.entry d)) (s.pushNeeds tk)
  s.modThread tk (fun t =>
    let kept := match t.evicts with
      | none => t.entries
      | some _ => modAt (fun e => { e with onChip := false }) t.entries 7
    { t.setStage 0 with entries := e :: kept, frames := newFrame dem carried :: t.frames, loop := LoopState.zero })

/-- Some blocks of a lane's bank have been freed in this core cycle (R285, R286). -/
def State.freed (s : State) (core lane n : Nat) : State :=
  if n = 0 then s
  else s.modCore core (fun c =>
    let old := spGet (fun _ => (0, 0)) c.lastFreed lane
    let now := s.coreCycles core
    { c with lastFreed := spSet (fun _ => (0, 0)) c.lastFreed lane (now, (if old.1 = now then old.2 else 0) + n) })

/-- The free blocks that a request may have: those freed in this cycle are available from the next (R285). -/
def State.blocksReady (s : State) (core lane : Nat) : Nat :=
  let old := spGet (fun _ => (0, 0)) (s.core core).lastFreed lane
  s.blocksFree core lane - (if old.1 = s.coreCycles core then old.2 else 0)

/-- The blocks that a thread's frames hold. -/
def Thread.blocks (t : Thread) : Nat := ((t.frames.filter (fun f => !f.spilled)).map (fun f => f.size)).foldl (· + ·) 0

/-- The blocks of a resident group's threads are freed (R286). -/
def State.freedGroup (s : State) (k : Nat) : State :=
  if (s.group k).place ≠ .resident then s
  else (s.threads.filter (fun q => groupOfThread q.1 == k && q.2.live)).foldl (fun s q =>
    s.freed (s.group k).core (s.laneOf q.1) q.2.blocks) s

/-- Discard the results in flight of a thread in a run to frames deeper than a depth. -/
def State.dropFlights (s : State) (run tk depth : Nat) : State :=
  s.modRun run (fun r => { r with flights := r.flights.map (fun f => match f.dest with
    | .v d _ => if depth < d then { f with vals := f.vals.filter (fun v => v.1 != tk) } else f
    | _ => f) })

/-! ### Branch-slot plumbing -/

/-- Put the loop state and the predicates of an entry in flight (R125): they replace what lands with them (R111). -/
def State.restoreLoop (s : State) (q : Issue) (tk : Nat) (e : Entry) : State :=
  (s.fly q 1 [(tk, .loop0, loop0Val e.loop e.stage)]).fly q 1 [(tk, .loop1, loop1Val e.loop)]

/-- Give a lane its way on. -/
def State.way (s : State) (lane : Nat) (w : Way) : State :=
  { s with issue := s.issue.map (fun q => { q with ways := q.ways ++ [(lane, w)] }) }

/-- Even addresses: bit 0 is taken as 0. -/
def evenPc (a : DWord) : DWord := a &&& 0xFFFFFFFFFFFFFFFE

/-- The entry that a call captures (R281). -/
def Thread.capture (t : Thread) (ret : DWord) (mark : Bool) (dem : Nat) : Entry :=
  ⟨ret, t.loop, t.stage, mark, dem, true⟩

/-- v0 to v(carry-1) of the current frame. -/
def Thread.carried (t : Thread) (carry : Nat) : List Word := (List.range carry).map t.readV

/-- A call of one lane is granted its frame at its issue (R281, R285). -/
def State.grantNow (s : State) (core lane dem : Nat) : Bool :=
  decide (dem ≤ s.blocksReady core lane) && !(s.core core).waiters.any (fun w => w.lane == lane)
  && !(s.core core).refills.any (fun r => r.lane == lane)

/-- One lane's call. -/
def State.callLane (s : State) (q : Issue) (l : Nat × Nat) (target : DWord) (dem carry : Nat) (mark : Bool) : State :=
  let t := s.thread l.2
  let e := t.capture q.seqPc mark dem
  if t.depth = 65535 then (s.endGroupLaunch q.group 0x01 65536).way l.1 (.go target)
  else if s.grantNow q.core l.1 dem then
    match s.pushNeeds l.2 with
    | .fail st d => (s.endGroupLaunch q.group st d).way l.1 (.go target)
    | _ =>
      ((s.pushFrame l.2 e (t.carried carry) dem).restoreLoop q l.2 { e with loop := LoopState.zero, stage := 0 }).way l.1
        (.go target)
  else
    (s.modCore q.core (fun c => { c with waiters := c.waiters ++
      [⟨l.2, l.1, s.coreCycles q.core, e, t.carried carry, dem, target, none⟩] })).way l.1 (.block .frame target)

/-- A Windlass access of a bundle that cannot be made yet, or fails: the run freezes or the launch ends (R279). -/
def State.wlStop (s : State) (q : Issue) : Wl → Option State
  | .ok _ => none
  | .wait h => some (s.hold q.run h)
  | .miss va k =>
    some (if s.refusedRun q.run (s.group q.group).tenant (va.toNat / 4096) k then
        (s.endGroupLaunch q.group 0x02 va).leaveIssue
      else s.holdPage q.run (s.group q.group).tenant va k)
  | .fail st d => some (s.endGroupLaunch q.group st d).leaveIssue

/-- The first Windlass access of the pushes of a call that has to wait. -/
def callNeeds (s : State) (q : Issue) (dem : Nat × Nat → Nat) : Wl :=
  (q.lanes.findSome? (fun l =>
    if (s.thread l.2).depth != 65535 && s.grantNow q.core l.1 (dem l) then
      match s.pushNeeds l.2 with
      | .wait h => some (Wl.wait h)
      | .miss va k => some (Wl.miss va k)
      | _ => none
    else none)).getD (.ok [])

/-- A frame-engine slot: Windlass accesses that must come first, then conditions, then the effect. -/
def frameSlot (s : State) (needs : Issue → Wl) (cond : Issue → Option Cond) (effect : Issue → State) : Out :=
  withIssue s (fun q =>
    if q.cleared then .next (effect q)
    else match s.wlStop q (needs q) with
      | some s' => .next s'
      | none => match cond q with
        | some c => .next (s.takeCond q c)
        | none => .next (effect q))

/-! ### CALL and CALLI (R281 to R284) -/

/-- Demand 1 to 16 of the DEM field. -/
def demandOf (dem : BitVec 4) : Nat := dem.toNat + 1

/-- CALL (R281). -/
def execCall (b : BitVec 3) (dem : BitVec 4) (carry : BitVec 3) (mark : Bool) (s : State) : Out :=
  frameSlot s (fun q => callNeeds s q (fun _ => demandOf dem)) (fun _ => none) (fun q =>
    q.lanes.foldl (fun s' l =>
      s'.callLane q l (evenPc ((s.thread l.2).readB b.toNat)) (demandOf dem) carry.toNat mark) s)

/-- The descriptor that a lane reads: the one of the load phase, or as it stands. -/
def State.descOf (s : State) (q : Issue) (x : BitVec 4) (l : Nat × Nat) : List Byte :=
  match assoc q.descs l.1 with
  | some bs => bs
  | none => match s.siteOf q.group needR (xOf s l x) with
    | some (.here pa attr) => s.readRun attr q.core l.2 pa 16
    | _ => []

def descDemand (bs : List Byte) : Nat := natAt bs 8 1
def isStub (bs : List Byte) : Bool := descDemand bs == 0xFF

/-- A descriptor that R282 faults. -/
def callDescBad (bs : List Byte) : Bool :=
  !isStub bs && (descDemand bs == 0 || decide (16 < descDemand bs) || decide (1 < natAt bs 9 1) || natAt bs 10 6 != 0)

/-- The conditions of the descriptor read (rank 10). -/
def calliRead (s : State) (q : Issue) (x : BitVec 4) : Option Cond :=
  memCond s { q with cur := 0 } q.lanes (fun l => xOf s l x) 16 16 needR .hub false

/-- The conditions of the descriptors (ranks 11 and 12); a bundle whose lanes are not all stubs sheds them (R283). -/
def calliCond (s : State) (q : Issue) (x : BitVec 4) : Option Cond :=
  let bad := q.lanes.filter (fun l => callDescBad (s.descOf q x l))
  if !bad.isEmpty then some (Cond.plain q 0x0D 0 0)
  else if q.lanes.all (fun l => isStub (s.descOf q x l)) then some (Cond.plain q 0x0E 0 0)
  else none

/-- The stub lanes of a CALLI that not every lane shares. -/
def stubLanes (s : State) (q : Issue) (x : BitVec 4) : List (Nat × Nat) :=
  q.lanes.filter (fun l => isStub (s.descOf q x l))

/-- The stub lanes leave the issue group and take the trap (R283); the bundle goes on for the others. -/
def State.shedStubs (s : State) (q : Issue) (x : BitVec 4) : State × Issue :=
  let st := stubLanes s q x
  match s.findRun q.run with
  | none => (s, q)
  | some r =>
    if st.isEmpty || st.length == q.lanes.length then (s, q)
    else
      let s := (s.landAll r.group r.flights).modRun r.id (fun r => { r with flights := [] })
      let s := s.leaveRun r.id st
      let id := s.ids
      let s := s.startRun q.core q.group st q.pc q.count []
      let keep := { q with lanes := q.lanes.filter (fun l => !st.contains l) }
      let out := { q with lanes := st, run := id }
      let s := s.takeCond out (Cond.plain out 0x0E 0 0)
      ({ s with issue := some keep }, keep)

/-- Demand of a lane's descriptor. -/
def calliDemand (s : State) (q : Issue) (x : BitVec 4) (l : Nat × Nat) : Nat := descDemand (s.descOf q x l)

/-- The calls of the lanes whose descriptor is bound. -/
def State.calliLanes (s : State) (q : Issue) (x : BitVec 4) (carry : BitVec 3) (mark : Bool) : State :=
  q.lanes.foldl (fun s' l =>
    let d := s.descOf q x l
    let s'' := if isService q.group then s' else s'.markRange q.group false (xOf s l x) 16
    s''.callLane q l (evenPc (BitVec.ofNat 64 (natAt d 0 8))) (descDemand d) carry.toNat (mark || natAt d 9 1 == 1)) s

/-- CALLI (R281, R282). -/
def execCalli (x : BitVec 4) (carry : BitVec 3) (mark : Bool) (s : State) : Out :=
  withIssue s (fun q =>
    if q.cleared then .next (s.calliLanes q x carry mark)
    else match calliRead s q x with
      | some c => .next (s.takeCond q c)
      | none =>
        match calliCond s q x with
        | some c => .next (s.takeCond q c)
        | none =>
          let awaited := if (stubLanes s q x).isEmpty then none else (s.findRun q.run).bind (fun r => r.awaitsAny)
          match awaited with
          | some a => .next (s.hold q.run (.value a))
          | none =>
            match s.wlStop q (callNeeds s q (calliDemand s q x)) with
            | some s' => .next s'
            | none =>
              let r := s.shedStubs q x
              .next (r.1.calliLanes r.2 x carry mark))

/-! ### RET and UNWIND (R289 to R291) -/

/-- The frame of a thread at a depth. -/
def Thread.frameAt (t : Thread) (d : Nat) : Frame := t.frames.getD (t.depth - d) ⟨1, [], false⟩

/-- An entry of a thread: the one on chip, or the record's. -/
def State.entryAt (s : State) (tk d : Nat) : Except Wl Entry :=
  let e := (s.thread tk).entry d
  if e.onChip then .ok e
  else match s.wlLocs tk needR (s.recordAddr tk d) 64 with
    | .ok ls => .ok (entryOf (ls.map s.byte))
    | w => .error w

/-- Drop the n newest frames of a thread and their entries; their blocks are free. -/
def State.dropFrames (s : State) (core lane tk n : Nat) : State :=
  let n' := { s.thread tk with frames := (s.thread tk).frames.take n }.blocks
  (s.modThread tk (fun t => { t with frames := t.frames.drop n, entries := t.entries.drop n })).freed core lane n'

/-- A refill request of a lane at its issue, and its thread's block. -/
def State.askRefill (s : State) (q : Issue) (l : Nat × Nat) (r : RefillReq) : State :=
  (s.modCore q.core (fun c => { c with refills := c.refills ++ [r] })).way l.1 (.block .refill r.pc)

/-- Pop n frames of a lane and go on at an entry: at once, or after a refill. -/
def State.popTo (s : State) (q : Issue) (l : Nat × Nat) (n : Nat) (e : Entry) (carried : List Word) : State :=
  let d := (s.thread l.2).depth - n
  let s := ((s.dropFlights q.run l.2 d).dropFrames q.core l.1 l.2 n).restoreLoop q l.2 e
  if ((s.thread l.2).frameAt d).spilled then
    s.askRefill q l ⟨l.2, l.1, s.coreCycles q.core, d, e.ret, none, 0, carried, [], none⟩
  else
    let cs := (List.range carried.length).zip carried
    (cs.foldl (fun s c => s.fly q 1 [(l.2, .v d (e.loop.phys c.1), c.2.zeroExtend 128)]) s).way l.1 (.go e.ret)

/-- Pop n frames of a lane; an entry held in memory is read back before anything goes (R277). -/
def State.popLane (s : State) (q : Issue) (l : Nat × Nat) (n : Nat) (carried : List Word) : State :=
  let d := (s.thread l.2).depth - n
  let e := (s.thread l.2).entry (d + 1)
  if e.onChip then s.popTo q l n e carried
  else s.askRefill q l ⟨l.2, l.1, s.coreCycles q.core, d, e.ret, some (d + 1), n, carried, [], none⟩

/-- Some active lane is at depth 0. -/
def retCond (s : State) (q : Issue) : Option Cond :=
  if q.lanes.any (fun l => (s.thread l.2).depth == 0) then some (Cond.plain q 0x06 0 0) else none

/-- RET (R289). -/
def execRet (carry : BitVec 3) (s : State) : Out :=
  frameSlot s (fun _ => .ok []) (retCond s) (fun q =>
    q.lanes.foldl (fun s' l => s'.popLane q l 1 ((s.thread l.2).carried carry.toNat)) s)

/-- UNWIND by a count: frames that a lane pops. -/
def unwindCount (s : State) (x : BitVec 4) (l : Nat × Nat) : Nat := (xOf s l x).toNat

/-- UNWIND's effect in a lane. -/
def State.unwindLane (s : State) (q : Issue) (l : Nat × Nat) (n : Nat) : State :=
  if n = 0 then s.way l.1 (.go q.seqPc) else s.popLane q l n []

/-- The underflow of UNWIND by a count. -/
def unwindCond (s : State) (q : Issue) (x : BitVec 4) : Option Cond :=
  if q.lanes.any (fun l => decide ((s.thread l.2).depth < unwindCount s x l)) then some (Cond.plain q 0x06 1 0) else none

/-- UNWIND (R291). -/
def execUnwind (x : BitVec 4) (s : State) : Out :=
  frameSlot s (fun _ => .ok [])
    (fun q => unwindCond s q x)
    (fun q => q.lanes.foldl (fun s' l => s'.unwindLane q l (unwindCount s x l)) s)

/-- MARK of entry d, read back when it is held in memory. -/
def State.markAt (s : State) (tk d : Nat) : Except Wl Bool :=
  match s.entryAt tk d with
  | .ok e => .ok e.mark
  | .error w => .error w

/-- The nearest marked entry at or below d, 0 when there is none. -/
def State.findMark (s : State) (tk : Nat) : Nat → Except Wl Nat
  | 0 => .ok 0
  | d + 1 =>
    match s.markAt tk (d + 1) with
    | .error w => .error w
    | .ok true => .ok (d + 1)
    | .ok false => s.findMark tk d

def markNeeds (s : State) (q : Issue) : Wl :=
  (q.lanes.findSome? (fun l => match s.findMark l.2 (s.thread l.2).depth with
    | .error w => some w
    | .ok _ => none)).getD (.ok [])

/-- The nearest marked entry of a lane. -/
def markOf (s : State) (l : Nat × Nat) : Nat :=
  match s.findMark l.2 (s.thread l.2).depth with
  | .ok d => d
  | .error _ => 0

/-- The underflow of UNWIND.MARK. -/
def markCond (s : State) (q : Issue) : Option Cond :=
  if q.lanes.any (fun l => markOf s l == 0) then some (Cond.plain q 0x06 2 0) else none

/-- The entries that the test of a lane has examined in memory, down to the nearest marked one or to entry 1, were read by
translated accesses (R279, R373). -/
def State.readMarks (s : State) (l : Nat × Nat) : State :=
  let t := s.thread l.2
  let d := max 1 (markOf s l)
  ((List.range (t.depth + 1 - d)).filter (fun k => !(t.entry (d + k)).onChip)).foldl (fun s k =>
    s.markRange t.group false (s.recordAddr l.2 (d + k)) 64) s

/-- UNWIND.MARK's effect in a lane. -/
def State.unwindToMark (s : State) (q : Issue) (l : Nat × Nat) (d : Nat) : State :=
  match s.entryAt l.2 d with
  | .ok e => s.popTo q l ((s.thread l.2).depth - d + 1) e []
  | .error _ => s

/-- UNWIND.MARK (R291): the entries are read, then tested. -/
def execUnwindMark (s : State) : Out :=
  withIssue s (fun q =>
    let read := q.lanes.foldl (fun s' l => s'.readMarks l) s
    let effect := q.lanes.foldl (fun s' l => s'.unwindToMark q l (markOf s l)) read
    if q.cleared then .next effect
    else match s.wlStop q (markNeeds s q) with
      | some s' => .next s'
      | none => match markCond s q with
        | some c => .next (read.takeCond q c)
        | none => .next effect)

/-! ### Spills (R286) -/

/-- A thread belongs to an unfiled run. -/
def State.inRun (s : State) (tk : Nat) : Bool := s.runs.any (fun r => r.lanes.any (fun l => l.2 == tk))

/-- The group is resident on the core and its launch goes on. -/
def State.serves (s : State) (core g : Nat) : Bool :=
  (s.group g).core == core && s.groupRuns g

/-- Depth of the oldest frame of a thread that may be spilled. -/
def Thread.oldestResident (t : Thread) : Option Nat :=
  (List.range t.frames.length).find? (fun d =>
    let k := t.frames.length - 1 - d
    ((t.frames[k]?).map (fun f => !f.spilled)).getD false && (k != 0 || t.blocked != .no))

/-- The victim: thread and depth. -/
def State.victim (s : State) (core lane : Nat) : Option (Nat × Nat) :=
  let ts := s.threads.filter (fun q => q.2.live && s.serves core q.2.group && q.2.tid % 32 == lane && !s.inRun q.1
    && q.2.oldestResident.isSome)
  let key := fun (q : Nat × Thread) =>
    ((65536 - q.2.depth) * 2 ^ 64 + (s.group q.2.group).launch) * 2 ^ 64
      + (s.group q.2.group).gid * (s.group q.2.group).kernel.gsize + q.2.tid
  (leastBy key ts).bind (fun q => q.2.oldestResident.map (fun d => (q.1, d)))

/-- The bytes of a spilled frame: its registers in physical order. -/
def frameBytes (f : Frame) : List Byte :=
  (List.range (16 * f.size)).flatMap (fun r => leBytes 4 (spGet (fun _ => (0 : Word)) f.regs r).toNat)

/-- Change the frame of a thread at a depth. -/
def Thread.modFrame (t : Thread) (d : Nat) (f : Frame → Frame) : Thread :=
  { t with frames := modAt f t.frames (t.depth - d) }

/-- What spilling a frame meets. -/
def State.spillNeeds (s : State) (v : Nat × Nat) : Wl :=
  if s.recordFits v.1 v.2 then
    s.wlLocs v.1 needW (s.recordAddr v.1 v.2 + 0x40) (64 * ((s.thread v.1).frameAt v.2).size)
  else .fail 0x01 (BitVec.ofNat 64 v.2)

/-- Write a frame to its record and free its blocks. -/
def State.spill (s : State) (core lane : Nat) (v : Nat × Nat) (w : Wl) : State :=
  let f := (s.thread v.1).frameAt v.2
  let s := s.wlPut v.1 (s.recordAddr v.1 v.2 + 0x40) (frameBytes f) w
  (s.modThread v.1 (fun t => t.modFrame v.2 (fun f => { f with regs := [], spilled := true }))).freed core lane f.size

/-- A frame that was chosen can still be spilled: it is resident, and is not the current frame of a thread that is neither
blocked nor parked. -/
def State.spillable (s : State) (core : Nat) (v : Nat × Nat) : Bool :=
  let t := s.thread v.1
  t.live && s.serves core t.group && decide (v.2 ≤ t.depth) && !(t.frameAt v.2).spilled
  && (decide (v.2 < t.depth) || t.blocked != .no)

/-- Spill victims until a number of blocks is free, first one that was chosen before. The answer says what stopped it, with
the victim it stopped at. -/
def spillUntil (s : State) (core lane need : Nat) (first : Option (Nat × Nat)) : Nat → State × Option ((Nat × Nat) × Wl)
  | 0 => (s, none)
  | n + 1 =>
    if need ≤ s.blocksFree core lane then (s, none)
    else match (first.filter (s.spillable core)).orElse (fun _ => s.victim core lane) with
      | none => (s, none)
      | some v =>
        match s.spillNeeds v with
        | .ok ls => spillUntil (s.spill core lane v (.ok ls)) core lane need none n
        | w => (s, some (v, w))

/-- A Windlass access on behalf of a thread cannot be made: its launch ends, or a page request is raised. -/
def State.wlWait (s : State) (tk : Nat) (w : Wl) : State × Option (Nat × DWord × Nat) :=
  match w with
  | .fail st d => (s.endGroupLaunch (s.thread tk).group st d, none)
  | .miss va k =>
    let r := s.raise (s.group (s.thread tk).group).tenant va k
    (r.1, r.2.map (fun id => (id, va, tk)))
  | .wait (.hostLine inval line) => (s.askLine inval line, none)
  | .wait (.snapshotCopy page) => (s.askCopy page, none)
  | _ => (s, none)

/-! ### Grants (R284, R285) -/

/-- A waiting thread is blocked and its run has dissolved. -/
def State.waitsAs (s : State) (core tk : Nat) (b : Blocked) : Bool :=
  (s.thread tk).live && (s.thread tk).blocked == b && s.serves core (s.thread tk).group

/-- The oldest call waiter of a lane that competes. -/
def State.oldestWaiter (s : State) (core lane : Nat) : Option Waiter :=
  (s.core core).waiters.find? (fun w => w.lane == lane && s.serves core (s.thread w.thread).group)

def State.oldestRefill (s : State) (core lane : Nat) : Option RefillReq :=
  (s.core core).refills.find? (fun r => r.lane == lane && s.serves core (s.thread r.thread).group)

/-- The page request of a waiting access is still open. -/
def State.reqOpen (s : State) : Option (Nat × DWord × Nat) → Bool
  | none => false
  | some r => s.reqs.any (fun q => q.id == r.1)

/-- Replace a thread's place in the frame-wait list. -/
def State.setWaiter (s : State) (core tk : Nat) (f : Waiter → Option Waiter) : State :=
  s.modCore core (fun c => { c with waiters := c.waiters.filterMap (fun w => if w.thread = tk then f w else some w) })

/-- Grant a waiter its frame, or hold it on what its push meets. -/
def State.grantWaiter (s : State) (core : Nat) (w : Waiter) : State :=
  match s.pushNeeds w.thread with
  | .ok _ =>
    let s := s.pushFrame w.thread w.entry w.carried w.dem
    let s := s.setWaiter core w.thread (fun _ => none)
    (s.modThread w.thread (fun t => { t with pc := w.target })).release w.thread
  | x =>
    let r := s.wlWait w.thread x
    r.1.setWaiter core w.thread (fun w => some { w with req := r.2 })

/-- FRAME_GRANT (R285): the oldest call waiter of a lane fits, and no refill waits there. -/
def execFrameGrant (core lane : Nat) (s : State) : Out :=
  match s.oldestWaiter core lane with
  | none => .next s
  | some w =>
    if (s.oldestRefill core lane).isNone && s.waitsAs core w.thread .frame && !s.reqOpen w.req
       && decide (w.dem ≤ s.blocksReady core lane) then .next (s.grantWaiter core w)
    else .next s

/-- The spilling of a lane for a waiter, and its victim in hand; none once it has ended. -/
def State.setSpilling (s : State) (core lane : Nat) (v : Option (Nat × Option (Nat × Nat))) : State :=
  s.modCore core (fun c => { c with spilling := spSet (fun _ => none) c.spilling lane v })

def State.spillingFor (s : State) (core lane tk : Nat) : Option (Option (Nat × Nat)) :=
  ((spGet (fun _ => none) (s.core core).spilling lane).filter (fun p => p.1 == tk)).map (fun p => p.2)

/-- SPILL_TIMEOUT (R286): no block of the lane has been freed for 1,024 core cycles, or the Windlass spills already. The
waiter's frame comes from the blocks that are free from the next cycle on (R285). -/
def execSpillTimeout (core lane : Nat) (s : State) : Out :=
  match s.oldestWaiter core lane with
  | none => .next s
  | some w =>
    let from_ := max w.since (spGet (fun _ => (0, 0)) (s.core core).lastFreed lane).1
    let on := s.spillingFor core lane w.thread
    if s.waitsAs core w.thread .frame && (s.oldestRefill core lane).isNone && !s.reqOpen w.req
       && (on.isSome || decide (from_ + 1024 ≤ s.coreCycles core)) then
      let r := spillUntil s core lane w.dem (on.getD none) 4096
      match r.2 with
      | some (v, x) =>
        let z := (r.1.setSpilling core lane (some (w.thread, some v))).wlWait v.1 x
        .next (z.1.setWaiter core w.thread (fun w => some { w with req := z.2 }))
      | none =>
        .next (r.1.setSpilling core lane (if w.dem ≤ r.1.blocksFree core lane then none else some (w.thread, none)))
    else .next s

/-! ### Refills (R288) -/

def State.setRefill (s : State) (core tk : Nat) (f : RefillReq → Option RefillReq) : State :=
  s.modCore core (fun c => { c with refills := c.refills.filterMap (fun r => if r.thread = tk then f r else some r) })

/-- The registers that a record holds. -/
def regsOf (bs : List Byte) (size : Nat) : Sparse Word :=
  spSetN (fun _ => 0) [] 0 ((List.range (16 * size)).map (fun r => BitVec.ofNat 32 (natAt bs (4 * r) 4)))

/-- Keep what a later result has left in a predicate or a loop counter. -/
def Thread.keepLate (new old : Thread) : Dest → Thread
  | .p r => if 8 ≤ r then new.writeP r (old.readP r) else new
  | .sr 0x020 => { new with loop := { new.loop with lc0 := old.loop.lc0 } }
  | .sr 0x021 => { new with loop := { new.loop with lc1 := old.loop.lc1 } }
  | .sr 0x022 => { new with loop := { new.loop with ec := old.loop.ec } }
  | _ => new

/-- Take the loop state and p8 to p15 of an entry, but for what a result that lands later replaces (R289). -/
def Thread.takeEntry (t : Thread) (e : Entry) (late : List Dest) : Thread :=
  late.foldl (fun n d => n.keepLate t d) { t.setStage e.stage with loop := e.loop }

/-- Carried values enter the frame under the restored rotation, but where a later result has landed. -/
def Thread.putCarried (t : Thread) (depth : Nat) (late : List Dest) (vs : List Word) : Thread :=
  ((List.range vs.length).zip vs).foldl (fun t c =>
    if late.contains (.v depth (t.loop.phys c.1)) then t else t.writeV depth (t.loop.phys c.1) c.2) t

/-- The thread has what it needs: it goes on. -/
def State.finishRefill (s : State) (core : Nat) (r : RefillReq) : State :=
  let s := s.setRefill core r.thread (fun _ => none)
  (s.modThread r.thread (fun t => { t.putCarried r.depth r.late r.carried with pc := r.pc })).release r.thread

/-- Make the frame of a request resident, spilling others when the bank is short; blocks that were freed in this cycle are
available from the next (R285). -/
def State.refillFrame (s : State) (core : Nat) (r : RefillReq) : State :=
  let f := (s.thread r.thread).frameAt r.depth
  if !f.spilled then s.finishRefill core r
  else
    let va := s.recordAddr r.thread r.depth + 0x40
    match s.wlLocs r.thread needR va (64 * f.size) with
    | .ok ls =>
      if f.size ≤ s.blocksReady core r.lane then
        let s := s.markRange (s.thread r.thread).group false va (64 * f.size)
        (s.modThread r.thread (fun t => t.modFrame r.depth
          (fun f => { f with regs := regsOf (ls.map s.byte) f.size, spilled := false }))).finishRefill core r
      else
        let z := spillUntil s core r.lane f.size ((s.spillingFor core r.lane r.thread).getD none) 4096
        match z.2 with
        | some (v, x) =>
          let y := (z.1.setSpilling core r.lane (some (r.thread, some v))).wlWait v.1 x
          y.1.setRefill core r.thread (fun r => some { r with req := y.2 })
        | none => z.1.setSpilling core r.lane none
    | x =>
      let y := s.wlWait r.thread x
      y.1.setRefill core r.thread (fun r => some { r with req := y.2 })

/-- REFILL (R288): the oldest request of a lane. -/
def execRefill (core lane : Nat) (s : State) : Out :=
  match s.oldestRefill core lane with
  | none => .next s
  | some r =>
    if !s.waitsAs core r.thread .refill || s.reqOpen r.req then .next s
    else
      match r.entryAt with
      | none => .next (s.refillFrame core r)
      | some d =>
        match s.wlLocs r.thread needR (s.recordAddr r.thread d) 64 with
        | .ok ls =>
          let e := entryOf (ls.map s.byte)
          let s := s.markRange (s.thread r.thread).group false (s.recordAddr r.thread d) 64
          let s := (s.dropFrames core lane r.thread r.pops).modThread r.thread (fun t => t.takeEntry e r.late)
          let r := { r with entryAt := none, pops := 0, pc := e.ret }
          .next ((s.setRefill core r.thread (fun _ => some r)).refillFrame core r)
        | x =>
          let y := s.wlWait r.thread x
          .next (y.1.setRefill core r.thread (fun r => some { r with req := y.2 }))

end Sys2Proof.Machine
end

