-- ==== Sys2Proof/Machine/Service.lean ====
section
/-! DEFINITION. Service handlers (15 R356 to R358): the queue of requests, the entry into service code and its end. -/

namespace Sys2Proof.Machine

/-- Service requests can be posted: SRVBASE is set and a store has been loaded (R357). -/
def State.serviceOn (s : State) : Bool := s.field regSrvbase 17 47 != 0 && s.mgmt.serviceStore.isSome

/-- The address of record r of a core. -/
def State.serviceRecord (s : State) (core r : Nat) : Nat :=
  s.field regSrvbase 17 47 * 2 ^ 17 + 0x20000 * core + 0x800 * r

/-- Records of a core that its requests hold. -/
def Core.svcSlots (c : Core) : List Nat := c.svcQueue.map (fun q => q.slot) ++ (c.service.toList.map (fun q => q.slot))

/-- No request holds a record, and no store of service code into it has still to perform. -/
def State.svcOpen (s : State) (core r : Nat) : Bool :=
  !(s.core core).svcSlots.contains r && (match s.paKind (s.serviceRecord core r) with
    | .dev off => (s.core core).writes.all (fun w => groupOfThread w.thread != serviceKey core || !w.meets off 0x800)
    | _ => true)

/-- The record that a new request takes. DESIGN CHOICE (log entry 38): the least one free, since R357 does not say which queue
position a request has. -/
def State.svcFree (s : State) (core : Nat) : Option Nat := (List.range 64).find? (s.svcOpen core)

/-- The queue has no entry free (R357). -/
def State.serviceFull (s : State) (core : Nat) : Bool := (s.svcFree core).isNone

/-- Post a request. -/
def State.postService (s : State) (q : Issue) (num : BitVec 16) : State :=
  (s.modCore q.core (fun c =>
    { c with svcQueue := c.svcQueue ++ [⟨num, q.group, q.lanes, q.pc, s.coreCycles q.core, c.seq,
                                         (s.svcFree q.core).getD 0, false, false⟩] })).bumpSeq q.core

/-- The record of a request. -/
def State.serviceBytes (s : State) (q : SvcReq) : List Byte :=
  let g := s.group q.group
  leBytes 8 q.num.toNat ++ leBytes 8 g.launch ++ leBytes 8 g.gid ++
  leBytes 4 (maskOf (q.lanes.map (fun l => l.1))).toNat ++ [BitVec.ofNat 8 g.tenant, BitVec.ofNat 8 g.prio, 0, 0] ++
  leBytes 8 q.pc.toNat ++ List.replicate 24 (0 : Byte) ++
  ((List.range 32).flatMap (fun i => match assoc q.lanes i with
    | some tk => (List.range 7).flatMap (fun k => leBytes 8 ((s.thread tk).readX (k + 1)).toNat)
    | none => List.replicate 56 (0 : Byte))) ++
  List.replicate 192 (0 : Byte)

/-- The record of a request is written once its threads have blocked, with the registers that have landed by then (R132,
R357). -/
def State.writeSvcRecord (s : State) (core : Nat) (q : SvcReq) : State :=
  let a := s.serviceRecord core q.slot
  if q.recorded || !q.lanes.all (fun l => !s.inRun l.2) || s.hubOwned a 0x800 then s
  else if (s.hubWaits a 0x800).isSome then s.askFor (s.hubWaits a 0x800)
  else
    (s.hubPut a (s.serviceBytes q)).modCore core (fun c => { c with svcQueue := c.svcQueue.map (fun r =>
      if r.slot = q.slot then { r with recorded := true } else r) })

/-- Write every record that is due. -/
def State.writeSvcRecords (s : State) : State :=
  s.cores.foldl (fun s c => c.2.svcQueue.foldl (fun s q => s.writeSvcRecord c.1 q) s) s

/-- A thread of the service context at entry (R358). -/
def serviceThread (core lane : Nat) (record : Nat) : Thread :=
  { Thread.none with group := serviceKey core, tid := lane, frames := [⟨1, [], false⟩], live := true,
                     x := spSet (fun _ => 0) [] 1 (BitVec.ofNat 64 record) }

/-- The pseudo-group of the service context. -/
def serviceGroup (core : Nat) : Group :=
  { Group.none with core := core, place := .resident, kernel := { Kernel.none with gsize := 32 } }

/-- Enter service code for the oldest request (R358). -/
def State.enterService (s : State) (core : Nat) (q : SvcReq) (rest : List SvcReq) : State :=
  let s := s.modCore core (fun c => { c with svcQueue := rest, service := some q })
  let s := s.setGroup (serviceKey core) (serviceGroup core)
  let ls := (List.range 32).map (fun k => (k, threadKey (serviceKey core) k))
  let s := ls.foldl (fun s l => s.setThread l.2 (serviceThread core l.1 (s.serviceRecord core q.slot))) s
  s.startRun core (serviceKey core) ls 0 0 []

/-- The oldest request of a core, once its record is written and no service code runs. -/
def State.serviceDue (s : State) (core : Nat) : Option (SvcReq × List SvcReq) :=
  match (s.core core).svcQueue, (s.core core).service with
  | q :: rest, none => if s.issue.isNone && q.recorded then some (q, rest) else none
  | _, _ => none

/-- SRVDL core cycles have passed since a request arrived. -/
def State.svcLate (s : State) (core : Nat) (q : SvcReq) : Bool :=
  decide (q.arrived + max 1 (s.field regSrvdl 0 32) ≤ s.coreCycles core)

/-- The oldest request is entered next: no run of the core issues before (R358). -/
def State.svcNext (s : State) (core : Nat) : Bool := ((s.core core).svcQueue.head?).any (fun q => q.yielded)

/-- A bundle of a run has issued: requests that arrived before it are entered after it, if it is a yield bundle, or if their
deadline has passed (R358). -/
def State.noteYield (s : State) (q : Issue) : State :=
  s.modCore q.core (fun c => { c with svcQueue := c.svcQueue.map (fun (r : SvcReq) =>
    if r.place < q.seq0 ∧ (q.yieldB ∨ s.svcLate q.core r) then { r with yielded := true } else r) })

/-- SERVICE_ENTRY (R358): after the bundle that lets the request in. -/
def execServiceEntry (core : Nat) (s : State) : Out :=
  match s.serviceDue core with
  | none => .next s
  | some (q, rest) => .next (if q.yielded then s.enterService core q rest else s)

/-- SERVICE_DEADLINE (R358): the deadline has passed, and no run of the core has issued a bundle in this cycle. -/
def execServiceDeadline (core : Nat) (s : State) : Out :=
  match s.serviceDue core with
  | none => .next s
  | some (q, rest) =>
    .next (if s.svcLate core q && decide ((s.core core).issueFrom ≤ s.coreCycles core) then s.enterService core q rest else s)

/-- What the shadow of a thread of a saved group takes: x1 to x7, and that it is no longer blocked (R353). -/
def shadowWrites (g : Group) (t : Thread) : List (DWord × List Byte) :=
  [(shadowAddr g t.tid + 8, (List.range 7).flatMap (fun k => leBytes 8 (t.readX (k + 1)).toNat)),
   (shadowAddr g t.tid + 0xDB, [if t.trap.isSome then 1 else 0])]

/-- What the writes of a list of pool locations wait for. -/
def State.poolWaits (s : State) (ws : List (Nat × Byte)) : Option WaitOn := ws.findSome? (fun w => s.writeWaits w.1 1)

/-- Write service results to the shadow of a thread of a saved group: a page that is not present is waited for, and any
other failure ends the launch with status 0x02 (R346, R353). -/
def State.settleShadow (s : State) (k tk : Nat) : State :=
  let g := s.group k
  let done := fun (s : State) => s.modGroup k (fun g => { g with shadowDue := g.shadowDue.filter (fun x => x != tk) })
  if g.poolReq.any (fun r => s.reqs.any (fun q => q.id == r.1)) then s
  else match s.poolLocs g.tenant (shadowWrites g (s.thread tk)) with
    | .ok ws =>
      let w := (s.poolWaits ws).orElse (fun _ => s.tenantMarkWaits g.tenant true (shadowAddr g (s.thread tk).tid))
      if w.isSome then s.askFor w
      else if ws.any (fun w => (s.lineOwner w.1).isSome) then s
      else done (ws.foldl (fun s w => s.put w.1 [w.2]) (s.markRange k true (shadowAddr g (s.thread tk).tid) 256))
    | .error (code, va) =>
      if code = notPresent then
        let r := s.raise g.tenant va .write
        r.1.modGroup k (fun g => { g with poolReq := r.2.map (fun id => (id, va)) })
      else done (s.endGroupLaunch k 0x02 va)

/-- Write the service results that are due. -/
def State.settleShadows (s : State) : State :=
  s.groups.foldl (fun s g => g.2.shadowDue.foldl (fun s tk => s.settleShadow g.1 tk) s) s

/-- A byte of a record as service code leaves it, its own writes that have still to perform included. -/
def State.svcByte (s : State) (core loc : Nat) : Byte :=
  ((s.core core).writes.foldl (fun acc w =>
    if groupOfThread w.thread = serviceKey core then (w.byteAt loc).orElse (fun _ => acc) else acc) none).getD (s.hubByte loc)

/-- What reading a record waits for (R311, R400). -/
def State.recordHold (s : State) (core : Nat) : Option Hold :=
  (s.core core).service.bind (fun q => match s.paKind (s.serviceRecord core q.slot) with
    | .dev off => (linesOf off 0x800).findSome? (s.locHold false)
    | _ => none)

/-- Service code has ended: each requesting lane takes x1 to x7 from the record and is released (R358). -/
def State.endService (s : State) (core : Nat) : State :=
  match (s.core core).service with
  | none => s
  | some q =>
    let a := s.serviceRecord core q.slot
    let x := fun (lane k : Nat) =>
      BitVec.ofNat 64 (leNat ((List.range 8).map (fun j => s.svcByte core (a + 0x40 + 56 * lane + 8 * k + j))))
    let s := (s.hubSeen a 0x800).clearService core
    (s.svcWaiters q).foldl (fun s l =>
      ((s.modThread l.2 (fun t => (List.range 7).foldl (fun t k => t.writeX (k + 1) (x l.1 k)) t)).release l.2).noteShadow
        l.2) s

end Sys2Proof.Machine
end

