-- ==== Sys2Proof/Machine/Fetch.lean ====
section
/-! DEFINITION. The fetch of an item and its bundle (02 R39 to R42, 18 R427), from code, a dictionary bank or the service
store, and the loads that RESUME.SLOTS and DSWAP make on their own (02 R71, 18 R424). -/

namespace Sys2Proof.Machine

/-! ### Fetch -/

/-- What a fetch gives. -/
inductive Fetched where
  | fault (cause reason ident : Nat) (addr : DWord)
  | bundle (b : BitVec 384) (seqPc : DWord) (va : DWord) (len : Nat) (locs : List Nat)
  deriving DecidableEq, Repr, Inhabited

/-- Where a code byte lies, or the reason of the fetch fault (R42). DESIGN CHOICE (log entry 20): of a leaf that lacks a
permission and leads to no device memory of this package, the permission is reported, since `permits` comes first. -/
def State.codeSite (s : State) (g : Nat) (va : DWord) : Except Nat Nat :=
  match s.xlateFor g needX va with
  | .ok (.here pa _) => .ok pa
  | .ok _ => .error 5
  | .bad c r => .error (if c = 0x08 then (if r = 5 then 5 else 4) else r)

/-- Locations of a run of code bytes, or the first that faults. -/
def State.codeLocs (s : State) (g : Nat) (va : DWord) : Nat → Except (Nat × DWord) (List Nat)
  | 0 => .ok []
  | n + 1 =>
    match s.codeSite g va with
    | .error r => .error (r, va)
    | .ok pa =>
      match s.codeLocs g (va + 1) n with
      | .error e => .error e
      | .ok ls => .ok (pa :: ls)

/-- A byte as a core fetches it: its kept copy, when it has one and the free value takes it, else the core's own writes
where they stand, or the home (R427). -/
def State.codeByte (s : State) (core pa : Nat) : Byte :=
  let now := s.fetchedByte core pa
  match spFind (s.core core).code (pa / 64) with
  | some bs => if Config.useFetchCopy s.turn (pa / 8) then bs.getD (pa % 64) 0 else now
  | none => now

/-- The core keeps a copy of the fetch block of a byte. -/
def State.keepCode (s : State) (core pa : Nat) : State :=
  let blk := (List.range 64).map (fun k => s.codeByte core (pa / 64 * 64 + k))
  s.modCore core (fun c => { c with code := spPut c.code (pa / 64) blk })

/-- Length of the service store (R356). -/
def serviceBytesLen : Nat := 512 * 48

/-- Fetch the item at a PC and its bundle. -/
def State.fetch (s : State) (core g : Nat) (pc : DWord) : Fetched :=
  if isService g then
    if pc.toNat % 48 = 0 ∧ pc.toNat + 48 ≤ serviceBytesLen then
      .bundle (bundleOfBytes (bytesAt (s.mgmt.serviceStore.getD []) pc.toNat 48)) (pc + 48) pc 0 []
    else .fault 0x02 0 15 0
  else
    match s.codeLocs g pc 2 with
    | .error (r, va) => .fault 0x01 r 15 va
    | .ok ls =>
      let item := leNat (ls.map (s.codeByte core))
      let bank := (s.core core).bank (s.group g).dbank
      if item < bank.len then .bundle (spGet (fun _ => 0) bank.bundles item) (pc + 2) pc 2 ls
      else if item = 0xFFFF then
        match s.codeLocs g (pc + 2) 48 with
        | .error (r, va) => .fault 0x01 r 15 va
        | .ok more => .bundle (bundleOfBytes (more.map (s.codeByte core))) (pc + 50) pc 50 (ls ++ more)
      else if 0xFFF0 ≤ item then .fault 0x03 0 14 0
      else .fault 0x02 0 15 0

/-- What a fetch leaves: A bits set, and the copies that the core keeps. -/
def State.fetched (s : State) (core g : Nat) (va : DWord) (len : Nat) (locs : List Nat) : State :=
  if len = 0 then s else (locs.foldl (fun s pa => s.keepCode core pa) s).markRange g false va len

/-! ### Loads of a bundle's own (R71, R424) -/

/-- A byte of a load that a bundle makes for itself: of this package as the core's threads read it, of another package or
a host as the free value answers (log entry 9). -/
def State.loadByte (s : State) (core tk g : Nat) (va : DWord) : Except (Nat × DWord) Byte :=
  match s.xlateFor g needR va with
  | .ok (.here pa attr) => .ok (s.readByte attr core tk (s.core core).seq pa)
  | .ok (.pkg e off) => .ok (Config.farByte s.turn (e * 2 ^ 43 + off))
  | .ok (.host e off) => .ok (Config.farByte s.turn (e * 2 ^ 43 + off))
  | .bad c r => .error (c * 256 + r, va)

/-- The bytes of such a load, or the code and address of its first failing byte. -/
def State.loadBytes (s : State) (core tk g : Nat) (va : DWord) : Nat → Except (Nat × DWord) (List Byte)
  | 0 => .ok []
  | n + 1 =>
    match s.loadByte core tk g va with
    | .error e => .error e
    | .ok b =>
      match s.loadBytes core tk g (va + 1) n with
      | .error e => .error e
      | .ok bs => .ok (b :: bs)

/-- The pages that a run of bytes touches get their A bits (R373). -/
def State.markPages (s : State) (g : Nat) (va : DWord) (len : Nat) : State :=
  (List.range ((len + 4095) / 4096 + 1)).foldl (fun s k =>
    s.markRange g false (va + BitVec.ofNat 64 (min (4096 * k) (len - 1))) 1) s

end Sys2Proof.Machine
end

