-- ==== Sys2Proof/Machine/Swap.lean ====
section
/-! DEFINITION. Kernel headers (18 R415) and live kernel replacement (05 R155, 18 R423 to R426). -/

namespace Sys2Proof.Machine

/-! ### Kernel headers (R415) -/

/-- FLAGS of a header. -/
def hdrFlag (h : List Byte) (k : Nat) : Bool := natAt h 0x0E 2 / 2 ^ k % 2 == 1

/-- The kernel of a header at a base. ENTRY and HANDLER are measured from base + CODEOFF. -/
def kernelOf (base : DWord) (h : List Byte) : Kernel :=
  let code := base + BitVec.ofNat 64 (natAt h 0x20 8)
  { base := base
    entry := code + BitVec.ofNat 64 (natAt h 0x30 8)
    handler := if hdrFlag h 2 then some (code + BitVec.ofNat 64 (natAt h 0x38 8)) else none
    lload := natAt h 5 1
    gsize := natAt h 6 2
    gang := natAt h 8 1
    demand := natAt h 9 1
    sems := natAt h 0x0A 2
    tags := natAt h 0x0C 1
    tiles := natAt h 0x0D 1
    fuse := hdrFlag h 0
    scales := hdrFlag h 1
    pattern := hdrFlag h 3
    scratch := natAt h 0x10 4
    dictLen := natAt h 0x14 2
    dictOff := natAt h 0x18 8
    codeOff := natAt h 0x20 8
    codeSize := natAt h 0x28 8
    fmt := (List.range 16).map (fun j => ((h.getD (0x60 + 2 * j) 0).truncate 5, (h.getD (0x61 + 2 * j) 0).truncate 5))
    tmap := bytesAt h 0x80 8 }

/-! ### Arming (R155, R424) -/

/-- The other dictionary bank of a group. -/
def State.otherBank (s : State) (g : Nat) : DictBank := (s.core (s.group g).core).bank (!(s.group g).dbank)

/-- The dictionary-swap refusal (rank 4), whatever the address. -/
def dswapCond (s : State) (q : Issue) (g : Guard) : Option Cond :=
  match leader s q g with
  | none => none
  | some _ => if (s.otherBank q.group).len = 0 then some (Cond.plain q 0x04 0 q.cur) else none

/-- Read bytes as a load at core scope in a group's context. -/
def State.loadVa (s : State) (q : Issue) (tk : Nat) (va : DWord) (len : Nat) : Option (List Byte) :=
  match s.loadBytes q.core tk q.group va len with
  | .ok bs => some bs
  | .error _ => none

/-- The address of an item of a kernel's code (R39, R415). -/
def Kernel.codeItem (k : Kernel) (pc : DWord) : Bool :=
  let start := k.base + BitVec.ofNat 64 k.codeOff
  pc.toNat % 2 == 0 && decide (start.toNat ≤ pc.toNat) && decide (pc.toNat + 2 ≤ start.toNat + k.codeSize)

/-- The address of a yield bundle of the kernel in force of a group. -/
def State.yieldAt (s : State) (core g : Nat) (pc : DWord) : Bool :=
  (s.group g).kernel.codeItem pc && (match s.fetch core g pc with
    | .bundle b _ _ _ _ => (headerOf b).y
    | .fault _ _ _ _ => false)

/-- Read a yield map and its header; `none` when a read faults or the map breaks R423: its base, its count, its zero
bytes, an old PC that is no yield bundle of the running kernel, or a new PC outside the replacement's items. -/
def State.readMap (s : State) (q : Issue) (tk : Nat) (va : DWord) : Option YieldMap :=
  (s.loadVa q tk va 64).bind (fun m =>
    let base : DWord := BitVec.ofNat 64 (natAt m 0 8)
    let count := natAt m 8 4
    if base.toNat % 64 ≠ 0 ∨ count < 1 ∨ 64 < count ∨ natAt m 12 52 ≠ 0 then none
    else
      (s.loadVa q tk (va + 64) (16 * count)).bind (fun e =>
        (s.loadVa q tk base 256).bind (fun h =>
          let pairs := (List.range count).map (fun j =>
            ((BitVec.ofNat 64 (natAt e (16 * j) 8) : DWord), (BitVec.ofNat 64 (natAt e (16 * j + 8) 8) : DWord)))
          if pairs.all (fun p => s.yieldAt q.core q.group p.1 && (kernelOf base h).codeItem p.2)
          then some ⟨base, h, pairs⟩ else none)))

/-- The loads of a yield map and its header set A bits (R373). -/
def State.markMap (s : State) (q : Issue) (tk : Nat) (va : DWord) : State :=
  match s.loadVa q tk va 64 with
  | none => s
  | some m => ((s.markPages q.group va (64 + 16 * min 64 (natAt m 8 4))).markPages q.group (BitVec.ofNat 64 (natAt m 0 8)) 256)

/-- DSWAP (R155). -/
def execDswap (xa : BitVec 4) (g : Guard) (s : State) : Out :=
  slotCond s (fun q => dswapCond s q g) (fun q =>
    match leader s q g with
    | none => .next s
    | some tk =>
      let a := (s.thread tk).readX xa.toNat
      let s := s.withdrawSwap q.group
      if a = 0 then .next s
      else match s.readMap q tk a with
        | none => .next (s.markMap q tk a)
        | some m => .next ((s.markMap q tk a).modGroup q.group (fun g => { g with swap := some a, ymap := some m })))

/-! ### The swap (R424, R426) -/

/-- The new PC of the entry whose old PC a bundle has. -/
def swapTarget (g : Group) (pc : DWord) : Option DWord :=
  g.ymap.bind (fun m => (m.pairs.find? (fun p => p.1 == pc)).map (fun p => p.2))

/-- The checks of R426. -/
def swapPasses (s : State) (k : Nat) (m : YieldMap) : Bool :=
  let o := (s.group k).kernel
  let n := kernelOf m.base m.header
  natAt m.header 4 1 == 1 && n.gsize == o.gsize && n.gang == o.gang && n.sems == o.sems && n.tags == o.tags
  && n.tiles == o.tiles && n.scratch == o.scratch && n.fuse == o.fuse && n.scales == o.scales && n.pattern == o.pattern
  && n.dictLen == (s.otherBank k).len

/-- What names a kernel in a dictionary bank: its base, a multiple of 64, and its tenant. -/
def kernelKey (tenant : Nat) (base : DWord) : DWord := base + BitVec.ofNat 64 tenant

/-- The swap happens: the group takes the replacement and its threads their new PCs. -/
def State.switchKernel (s : State) (k : Nat) (m : YieldMap) : State :=
  let g := s.group k
  let tks := s.swapWaiters k
  let s := s.modCore g.core (fun c => c.setBank (!g.dbank) { c.bank (!g.dbank) with kernel := some (kernelKey g.tenant m.base) })
  let s := s.modGroup k (fun g => { g with dbank := !g.dbank, swap := none, ymap := none, kernel := kernelOf m.base m.header })
  tks.foldl (fun s tk =>
    (s.modThread tk (fun t => { t with pc := (swapTarget g t.yieldPc).getD t.pc })).release tk) s

/-- SWAP_COMMIT (R426): the last thread of the group has entered swap wait. -/
def execSwapCommit (group : Nat) (s : State) : Out :=
  let live := s.liveThreads group
  match (s.group group).ymap with
  | none => .next s
  | some m =>
    if live.isEmpty || !s.groupRuns group || !live.all (fun tk => (s.thread tk).blocked == .swap) then .next s
    else if swapPasses s group m then .next (s.switchKernel group m)
    else .next (s.withdrawSwap group)

end Sys2Proof.Machine
end

