-- ==== Sys2Proof/Machine/Sequencer.lean ====
section
/-! DEFINITION. The sequencer's branch-slot kinds (04 R115 to R133), the end of threads and groups, and the end of a
bundle: where each lane goes on (R101, R108, R121). -/

namespace Sys2Proof.Machine

/-! ### Branch trees (R115) -/

/-- The index of the first true test, from index k. -/
def firstTest (t : Thread) : List Test → Nat → Option (Nat × Test)
  | [], _ => none
  | x :: xs, k => if t.readP x.pred.toNat != x.sense then some (k, x) else firstTest t xs (k + 1)

/-- The leaf of a thread: 4 when no test is true. -/
def leafOf (t : Thread) (tests : List Test) : Nat :=
  match firstTest t tests 0 with
  | some (k, _) => k
  | none => 4

/-- The leaves of the active lanes. -/
def leaves (s : State) (q : Issue) (tests : List Test) : List (Nat × Nat) :=
  q.lanes.map (fun l => (l.1, leafOf (s.thread l.2) tests))

/-- BR (R115): the leaf of every lane, and the target of those that chose one. -/
def execBr (tests : List Test) (file : Bool) (s : State) : Out :=
  slotNext s (fun q =>
    let s := { s with issue := some { q with leaf := leaves s q tests, file := q.file || file } }
    q.lanes.foldl (fun s l =>
      match firstTest (s.thread l.2) tests 0 with
      | some (_, x) => s.way l.1 (.go (evenPc ((s.thread l.2).readB x.breg.toNat)))
      | none => s) s)

/-! ### Loops (R119 to R124) -/

/-- The frame-bound condition of LOOP (R120). -/
def loopCond (s : State) (q : Issue) (rot : BitVec 3) : Option Cond :=
  if q.lanes.any (fun l => decide ((s.thread l.2).vCount < rotSize rot.toNat)) then some (Cond.plain q 0x05 0 0) else none

/-- The loop state that LOOP gives a lane, with p8 to p15. -/
def loopStart (q : Issue) (n : Word) (epi : Byte) (rot : BitVec 3) (l : LoopState) : LoopState × Byte :=
  ({ l with lc0 := if n = 0 then 0 else n - 1, ec := if n = 0 then 0 else epi, rrb := 0, rot := rot, ls0 := q.seqPc },
   if n = 0 then 0 else 1)

/-- LOOP (R120). -/
def execLoop (x : BitVec 4) (epi : BitVec 8) (rot : BitVec 3) (s : State) : Out :=
  slotCond s (fun q => loopCond s q rot) (fun q =>
    .next (s.fly q 1 (q.lanes.map (fun l =>
      let z := loopStart q ((xOf s l x).truncate 32) epi rot (s.thread l.2).loop
      (l.2, .loop0, loop0Val z.1 z.2)))))

/-- LOOP.L1 (R124). -/
def execLoopL1 (x : BitVec 4) (s : State) : Out :=
  slotNext s (fun q => s.fly q 1 (q.lanes.map (fun l =>
    let n : Word := (xOf s l x).truncate 32
    (l.2, .loop1, loop1Val { (s.thread l.2).loop with lc1 := if n = 0 then 0 else n - 1, ls1 := q.seqPc }))))

/-- LEND1 (R124). -/
def execLend1 (s : State) : Out :=
  slotNext s (fun q => q.lanes.foldl (fun s' l =>
    let lp := (s.thread l.2).loop
    if lp.lc1 = 0 then s'.way l.1 (.go q.seqPc)
    else (s'.fly q 1 [(l.2, .loop1, loop1Val { lp with lc1 := lp.lc1 - 1 })]).way l.1 (.go lp.ls1)) s)

/-- RRB one back, modulo rsz. -/
def LoopState.rotate (l : LoopState) : LoopState :=
  let n := rotSize l.rot.toNat
  if n = 0 then l else { l with rrb := BitVec.ofNat 6 ((l.rrb.toNat + n - 1) % n) }

/-- p15 to p9 take p14 to p8; p8 takes s. -/
def shiftStage (stage : Byte) (s : Bool) : Byte := (stage <<< 1) ||| (if s then 1 else 0)

/-- `loop_end` (R121): the new loop state and stage, and the next PC; `none` falls through unchanged. -/
def loopEnd (t : Thread) : Option (LoopState × Byte × DWord) :=
  if t.loop.lc0 ≠ 0 then
    some ({ t.loop with lc0 := t.loop.lc0 - 1 }.rotate, shiftStage t.stage true, t.loop.ls0)
  else if t.loop.ec ≠ 0 then
    some ({ t.loop with ec := t.loop.ec - 1 }.rotate, shiftStage t.stage false, t.loop.ls0)
  else none

/-- Close a level-0 iteration in a lane. -/
def State.closeLoop (s : State) (q : Issue) (l : Nat × Nat) : State :=
  match loopEnd (s.thread l.2) with
  | none => s.way l.1 (.go q.seqPc)
  | some (lp, st, pc) => (s.fly q 1 [(l.2, .loop0, loop0Val lp st)]).way l.1 (.go pc)

/-! ### REFORM, BAR, TRAP, BRK, SVC (R127 to R133) -/

/-- REFORM (R127). -/
def execReform (s : State) : Out :=
  slotNext s (fun q => { s with issue := some { q with file := true } })

/-- The imprecise-status trap of BAR and EXIT (R129). -/
def statusCond (s : State) (q : Issue) : Option Cond :=
  let g := s.group q.group
  let rep := if g.semSat then q.lanes else q.lanes.filter (fun l => (s.thread l.2).status &&& g.smask != 0)
  if rep.isEmpty then none
  else some { Cond.plain q 0x11 0 0 with lanes := rep.map (fun l => l.1), info := if g.semSat then 1 else 0 }

/-- BAR (R128): its threads arrive once their values and fences are in, when `dissolve` withdraws a swap in which another
thread waits (R425). -/
def execBar (s : State) : Out :=
  slotCond s (statusCond s) (fun q => .next (q.lanes.foldl (fun s l => s.way l.1 (.block .bar q.seqPc)) s))

/-- The software trap (R131). -/
def trapCond (s : State) (q : Issue) (code : BitVec 8) (pred : BitVec 4) (sense : Bool) : Option Cond :=
  let ls := q.lanes.filter (fun l => (s.thread l.2).readP pred.toNat != sense)
  if ls.isEmpty then none
  else some { Cond.plain q 0x0F 0 0 with lanes := ls.map (fun l => l.1), info := code.zeroExtend 64 }

/-- TRAP (R131): with every test 0 it acts as leaf 4. -/
def execTrap (code : BitVec 8) (pred : BitVec 4) (sense : Bool) (s : State) : Out :=
  slotCond s (fun q => trapCond s q code pred sense) (fun _ => .next s)

/-- The breakpoint (R133). -/
def brkCond (q : Issue) (code : BitVec 8) : Cond := { Cond.plain q 0x10 0 0 with info := code.zeroExtend 64 }

/-- BRK (R133). -/
def execBrk (code : BitVec 8) (s : State) : Out := slotCond s (fun q => some (brkCond q code)) (fun _ => .next s)

/-- SVC (R132, R357). -/
def execSvc (num : BitVec 16) (s : State) : Out :=
  slotHeld s (fun q => if s.serviceOn && s.serviceFull q.core then some .serviceQueue else none) (fun q =>
    if s.serviceOn then q.lanes.foldl (fun s l => s.way l.1 (.block .svc q.seqPc)) (s.postService q num)
    else { (s.fly q 1 (q.lanes.map (fun l => (l.2, .x 1, 0xFFFFFFFFFFFFFFFF)))) with
           issue := some { q with file := true } })

/-! ### EXIT and the end of a group (R130) -/

/-- The held results of a trap without those of a thread. -/
def TrapRec.without (r : TrapRec) (tk : Nat) : TrapRec :=
  { r with lanes := r.lanes.filter (fun l => l.2 != tk)
           flights := (r.flights.map (fun f => { f with vals := f.vals.filter (fun v => v.1 != tk) })).filter (fun f =>
             !f.vals.isEmpty) }

/-- A thread's slot is free from the next core cycle on (R130). -/
def State.noteExit (s : State) (core : Nat) : State :=
  s.modCore core (fun c => { c with exits := (s.coreCycles core, (if c.exits.1 = s.coreCycles core then c.exits.2 else 0) + 1) })

/-- Slots of threads that have exited in this cycle. -/
def State.slotsLeaving (s : State) (core : Nat) : Nat :=
  if (s.core core).exits.1 = s.coreCycles core then (s.core core).exits.2 else 0

/-- End a thread: its frames and results go, its transaction aborts, and it leaves its trap (R130, R343). -/
def State.endThread (s : State) (tk : Nat) : State :=
  let core := (s.group (s.thread tk).group).core
  let s := s.freed core (s.laneOf tk) (s.thread tk).blocks
  let s := s.modThread tk (fun t => { t with live := false, frames := [], entries := [], blocked := .no, trap := none,
                                             drain := none })
  let s := { s with traps := (s.traps.map (fun (r : TrapRec) => r.without tk)).filter (fun r => !r.lanes.isEmpty) }
  (s.endTx tk).noteExit core

/-- EXIT in the service context: its end when no service thread is left (R358). -/
def State.exitService (s : State) (q : Issue) : State :=
  let s := q.lanes.foldl (fun s l => (s.endTx l.2).modThread l.2 (fun t => { t with live := false })) (s.leaveRun q.run q.lanes)
  if (s.liveThreads q.group).isEmpty then s.endService q.core else s

/-- The shape-field writes of a run land: the exit of its threads is their filing point (R241). -/
def State.landShapes (s : State) (run : Nat) : State :=
  match s.findRun run with
  | none => s
  | some r => s.landAll r.group (r.flights.filter (fun f => match f.dest with
      | .shape _ _ => true
      | _ => false))

/-- EXIT (R130). -/
def execExit (s : State) : Out :=
  slotCond s (statusCond s) (fun q =>
    if isService q.group then
      match if q.cleared then none else s.recordHold q.core with
      | some h => .next (s.hold q.run h)
      | none => .next (s.exitService q)
    else
      let s := q.lanes.foldl (fun s l => s.endThread l.2) ((s.landShapes q.run).leaveRun q.run q.lanes)
      .next (s.barCheck q.group))

/-- A group's record once it has ended. -/
def endedGroup (g : Group) : Group :=
  { Group.none with launch := g.launch, gid := g.gid, core := g.core, member := g.member, tenant := g.tenant,
                    kernel := g.kernel, place := .ended }

/-- A group's threads, runs, bins, waits, traps and accesses go (R130, R337). -/
def State.clearGroup (s : State) (g : Nat) : State :=
  let s := s.freedGroup g
  { s with threads := s.threads.filter (fun t => groupOfThread t.1 != g),
           runs := s.runs.filter (fun r => r.group != g),
           accesses := s.accesses.filter (fun a => a.group != g),
           traps := s.traps.filter (fun r => r.group != g),
           cores := s.cores.map (fun c => (c.1, { c.2 with
             bins := c.2.bins.filter (fun b => b.group != g),
             waiters := c.2.waiters.filter (fun w => groupOfThread w.thread != g),
             refills := c.2.refills.filter (fun r => groupOfThread r.thread != g),
             svcQueue := c.2.svcQueue.filter (fun r => r.group != g) })) }

/-- Give a part of a save pool back. -/
def State.freePool (s : State) (t addr : Nat) : State :=
  { s with sched := { s.sched with pool := s.sched.pool.filter (fun p => !(p.1 == t && p.2.1 == addr)) } }

/-- A group ends: everything it held is free, and its launch counts it. -/
def State.endGroup (s : State) (k : Nat) : State :=
  let g := s.group k
  let s := match g.fixedPart with
    | some a => s.freePool g.tenant a
    | none => s
  let s := match g.contextPart with
    | some p => s.freePool g.tenant p.1
    | none => s
  ((s.clearGroup k).setGroup k (endedGroup g)).modLaunch g.launch (fun l => { l with ended := l.ended + 1 })

/-- GROUP_END (R130): the last thread has exited, and every command has retired. -/
def execGroupEnd (group : Nat) (s : State) : Out :=
  let g := s.group group
  if g.place ≠ .ended ∧ (s.liveThreads group).isEmpty ∧ s.cmds.all (fun c => c.group != group) then
    .next (s.endGroup group)
  else .next s

/-! ### The end of a bundle -/

/-- The next PC of a lane that the branch slot sends nowhere. -/
def State.defaultWays (s : State) (q : Issue) : State :=
  q.lanes.foldl (fun s l =>
    if (assoc q.ways l.1).isSome then s
    else if q.loopEnd && q.leafOf l.1 == 4 then s.closeLoop q l
    else s.way l.1 (.go q.seqPc)) s

/-- The PC of a way that goes on. -/
def Way.pc? : Way → Option DWord
  | .go pc => some pc
  | _ => none

/-- The one PC that every lane goes on at, if there is one. -/
def commonPc (ways : List (Nat × Way)) : Option DWord :=
  match ways with
  | [] => none
  | (_, w) :: rest => match w with
    | .go pc => if rest.all (fun v => v.2 == .go pc) then some pc else none
    | _ => none

/-- A block's next PC replaces where the lanes would go (R71). -/
def nextWays (q : Issue) (ways : List (Nat × Way)) : List (Nat × Way) :=
  match q.nextPc with
  | none => ways
  | some pc => ways.map (fun w => match w.2 with
    | .go _ => (w.1, .go pc)
    | .block why _ => (w.1, .block why pc)
    | .gone => w)

/-- After a yield bundle that the armed map names, threads outside handler mode enter swap wait (R424); a withdrawal
releases them at the item after it (R425). One that the bundle blocks enters it when it is released. -/
def swapWays (s : State) (q : Issue) (ways : List (Nat × Way)) : List (Nat × Way) :=
  if (swapTarget (s.group q.group) q.pc).isNone || inHandler s q.lanes then ways
  else ways.map (fun w => match w.2 with
    | .go _ => (w.1, .block .swap q.seqPc)
    | _ => w)

/-- The threads that a yield bundle of the armed map blocks otherwise are to enter swap wait on their release (R424). -/
def State.noteSwapDue (s : State) (q : Issue) (ways : List (Nat × Way)) : State :=
  if (swapTarget (s.group q.group) q.pc).isNone || inHandler s q.lanes then s
  else q.lanes.foldl (fun s l => match assoc ways l.1 with
    | some (.block why _) => if why = .swap then s else s.modThread l.2 (fun t => { t with swapDue := some q.seqPc })
    | _ => s) s

/-- Lanes that are still in the run: EXIT has taken the others out. -/
def liveWays (r : Run) (ways : List (Nat × Way)) : List (Nat × Way) :=
  ways.filter (fun w => (assoc r.lanes w.1).isSome)

/-- After a yield bundle a group that is asked to yield stops (R353). -/
def State.yieldStop (s : State) (q : Issue) : State :=
  if q.yieldB && (s.group q.group).yieldReq.isSome then s.modGroup q.group (fun g => { g with stopped := true }) else s

/-- The bundle has acted: the run goes on at one PC, or reaches a filing point. A yield bundle lets an older service
request in (R358). -/
def State.finishIssue (s : State) : State :=
  match s.issue with
  | none => s
  | some q0 =>
    let s := ((s.noteYield q0).yieldStop q0).endWait q0.core q0.run
    match s.findRun q0.run with
    | none => s.leaveIssue
    | some _ =>
      let s := s.defaultWays q0
      match s.issue, s.findRun q0.run with
      | some q, some r =>
        let ways := swapWays s q (nextWays q (liveWays r q.ways))
        let s := (q.lanes.foldl (fun s l => s.modThread l.2 (fun t => { t with yieldPc := q.pc })) s).noteSwapDue q ways
        let s := s.modRun q.run (fun r => { r with count := q.count + 1, since := s.coreCycles q.core + 1, held := none,
                                                   onBundle := none, resume := none })
        let s := s.leaveIssue
        match q.file, commonPc ways with
        | false, some pc => s.modRun q.run (fun r => { r with pc := pc })
        | _, _ =>
          match (s.modRun q.run (fun r => { r with ways := some ways })).findRun q.run with
          | some r => (s.modRun q.run (fun r => { r with ways := some ways })).settleRun r
          | none => s
      | _, _ => s.leaveIssue

end Sys2Proof.Machine
end

