-- ==== Sys2Proof/Machine/Resume.lean ====
section
/-! DEFINITION. RESUME.SLOTS (02 R69 to R71, 15 R344): the return from the per-context handler. -/

namespace Sys2Proof.Machine

/-! ### The emulation result block (R70) -/

/-- Bits set in a suppress mask, in PRES order. -/
def maskBits (m : BitVec 13) : List Nat := (List.range 13).filter (fun k => m.getLsbD k)

def blockLen (m : BitVec 13) : Nat := 0x10 + 0x210 * (maskBits m).length

/-- Control of entry j and its fields. -/
def entryCtl (bs : List Byte) (j : Nat) : Nat := natAt bs (0x10 + 0x210 * j) 8
def entryMask (bs : List Byte) (j lane : Nat) : Bool := entryCtl bs j / 2 ^ (32 + lane) % 2 == 1
def entryLat (bs : List Byte) (j : Nat) : Nat := entryCtl bs j / 2 ^ 24 % 256
def entryReg (bs : List Byte) (j : Nat) : Nat := entryCtl bs j / 2 ^ 16 % 256
def entryKind (bs : List Byte) (j : Nat) : Nat := entryCtl bs j / 2 ^ 12 % 16
def entryCount (bs : List Byte) (j : Nat) : Nat := entryCtl bs j % 16
def entryVal (bs : List Byte) (j lane : Nat) : Nat := natAt bs (0x20 + 0x210 * j + 16 * lane) 16

/-- An entry that R71 calls malformed. The list there names neither a landing latency outside R70's range nor a scalar,
predicate or bank register beyond its file: such an entry is malformed too. The count, latency and register of an entry of
kind 0, which supplies nothing, are not looked at (both DESIGN CHOICE, log entry 19). -/
def entryBad (s : State) (lanes : List (Nat × Nat)) (bs : List Byte) (j : Nat) : Bool :=
  let k := entryKind bs j
  entryCtl bs j / 2 ^ 4 % 256 != 0 || natAt bs (0x18 + 0x210 * j) 8 != 0 || decide (4 < k)
  || (k != 0 && (decide (entryLat bs j < 1) || decide (15 < entryLat bs j)))
  || (k == 1 && !(entryCount bs j == 1 || entryCount bs j == 2 || entryCount bs j == 4))
  || (decide (2 ≤ k) && entryCount bs j != 1)
  || (k == 1 && lanes.any (fun l => entryMask bs j l.1 &&
        decide ((s.thread l.2).vCount < entryReg bs j + entryCount bs j)))
  || (k == 2 && decide (15 < entryReg bs j))
  || (k == 3 && (entryReg bs j == 0 || decide (15 < entryReg bs j)))
  || (k == 4 && decide (7 < entryReg bs j))

/-- A malformed block. -/
def blockBad (s : State) (lanes : List (Nat × Nat)) (m : BitVec 13) (bs : List Byte) : Bool :=
  natAt bs 8 8 != 0 || (List.range (maskBits m).length).any (entryBad s lanes bs)

/-- The values of an entry for a lane. DESIGN CHOICE (log entry 38): the register of a kind-1 entry is a logical one, read
under the rotation that the shadow gave back. -/
def entryDests (t : Thread) (bs : List Byte) (j lane : Nat) : List (Dest × QWord) :=
  let v := entryVal bs j lane
  if entryKind bs j = 1 then
    (List.range (entryCount bs j)).map (fun k =>
      (t.destV (entryReg bs j + k), BitVec.ofNat 128 (v / 2 ^ (32 * k) % 2 ^ 32)))
  else if entryKind bs j = 2 then [(.x (entryReg bs j), BitVec.ofNat 128 (v % 2 ^ 64))]
  else if entryKind bs j = 3 then [(.p (entryReg bs j), BitVec.ofNat 128 (v % 2))]
  else if entryKind bs j = 4 then [(.b (entryReg bs j), BitVec.ofNat 128 (v % 2 ^ 64))]
  else []

/-! ### Acting (R71, R344) -/

/-- The trap whose threads are exactly those of the issue group. -/
def State.trapOf (s : State) (lanes : List (Nat × Nat)) : Option TrapRec :=
  ((lanes.head?).bind (fun l => (s.thread l.2).trap)).bind (fun id =>
    (s.traps.find? (fun r => r.id == id)).filter (fun r => r.lanes == lanes))

/-- What a RESUME.SLOTS that cannot act does instead. -/
inductive ResumeStop where
  | cond (c : Cond)
  | page (va : DWord)
  | fail (va : DWord)
  deriving DecidableEq, Repr, Inhabited

/-- The bytes of the block, as a load of the handler run. -/
def State.blockRead (s : State) (q : Issue) (tk : Nat) (va : DWord) (len : Nat) : Except (Nat × DWord) (List Byte) :=
  s.loadBytes q.core tk q.group va len

/-- The condition of a failing read. -/
def readCond (q : Issue) (code : Nat) (va : DWord) : Cond :=
  { Cond.plain q (code / 256) (code % 256) q.cur with addr := va }

/-- The suppress mask and skip of xa. -/
def resumeMask (a : DWord) : BitVec 13 := a.truncate 13
def resumeSkip (a : DWord) : Bool := a.getLsbD 13

/-- The shadow of a thread, read back: a save-pool access (R346), which the handler's own stores precede. -/
def State.shadowRead (s : State) (q : Issue) (tk : Nat) : Except (Nat × DWord) (List Byte) :=
  match s.locsVa (s.group q.group).tenant needR (shadowAddr (s.group q.group) (s.thread tk).tid) 256 with
  | .ok ls => .ok (ls.map (fun loc => s.readByte .wb q.core tk (s.core q.core).seq loc))
  | .error e => .error e

/-- The first shadow that cannot be read. -/
def shadowStop (s : State) (q : Issue) : Option ResumeStop :=
  q.lanes.findSome? (fun l => match s.shadowRead q l.2 with
    | .ok _ => none
    | .error (code, va) => some (if code = notPresent then .page va else .fail va))

/-- What stops a RESUME.SLOTS, if anything. -/
def resumeStop (s : State) (q : Issue) (xa xb : BitVec 4) (g : Guard) : Option ResumeStop :=
  match leader s q g with
  | none => none
  | some tk =>
    let a := (s.thread tk).readX xa.toNat
    let m := resumeMask a
    match s.blockRead q tk ((s.thread tk).readX xb.toNat) (blockLen m) with
    | .error (code, va) => some (.cond (readCond q code va))
    | .ok bs =>
      match s.trapOf q.lanes with
      | none => some (.cond (Cond.plain q 0x03 0 q.cur))
      | some r =>
        if a.toNat / 2 ^ 14 ≠ 0 ∨ (m &&& ~~~((r.bundle.truncate 13 : BitVec 13))) ≠ 0 ∨ blockBad s q.lanes m bs then
          some (.cond (Cond.plain q 0x03 0 q.cur))
        else shadowStop s q

/-- Take what stops it. -/
def State.takeResumeStop (s : State) (q : Issue) : ResumeStop → State
  | .cond c => s.takeCond q c
  | .page va =>
    if s.refusedRun q.run (s.group q.group).tenant (va.toNat / 4096) .read then
      (s.endGroupLaunch q.group 0x02 va).leaveIssue
    else s.holdPage q.run (s.group q.group).tenant va .read
  | .fail va => (s.endGroupLaunch q.group 0x02 va).leaveIssue

/-- Reload a thread from its shadow, and out of its trap. -/
def State.reloadThread (s : State) (q : Issue) (tk : Nat) : State :=
  match s.shadowRead q tk with
  | .ok bs =>
    (s.markRange q.group false (shadowAddr (s.group q.group) (s.thread tk).tid) 256).modThread tk
      (fun t => { t.reload bs with trap := none })
  | .error _ => s

/-- The results that a block supplies, landing from the trapped count. -/
def blockFlights (s : State) (lanes : List (Nat × Nat)) (bs : List Byte) (n count : Nat) : List Flight :=
  (List.range n).flatMap (fun j =>
    resultsOf (count + entryLat bs j) none 0 (lanes.flatMap (fun l =>
      if entryMask bs j l.1 then (entryDests (s.thread l.2) bs j l.1).map (fun d => (l.2, d.1, d.2)) else [])))

/-- The restored run goes on at the trapped count, with its results and those of the block. A next PC is taken as it
stands, bit 0 too; a trap whose bundle was not fetched has no item after it, and a skip then goes on at its own PC (both
DESIGN CHOICE, log entry 19). -/
def State.resume (s : State) (q : Issue) (r : TrapRec) (a : DWord) (bs : List Byte) : State :=
  let m := resumeMask a
  let next := natAt bs 0 8
  let s := q.lanes.foldl (fun s l => s.reloadThread q l.2) s
  let fs := r.flights ++ blockFlights s q.lanes bs (maskBits m).length r.count
  let s := { s.leaveRun q.run q.lanes with traps := s.traps.filter (fun t => t.id != r.id), issue := none }
  if resumeSkip a then
    s.startRun q.core q.group q.lanes (if next = 0 then r.seqPc else BitVec.ofNat 64 next) (r.count + 1) fs
  else
    let id := s.ids
    (s.startRun q.core q.group q.lanes r.pc r.count fs).modRun id (fun n =>
      { n with resume := some (m, if next = 0 then none else some (BitVec.ofNat 64 next)) })

/-- RESUME.SLOTS (R71, R344). -/
def execResumeSlots (xa xb : BitVec 4) (g : Guard) (s : State) : Out :=
  withIssue s (fun q =>
    match resumeStop s q xa xb g with
    | some st => .next (s.takeResumeStop q st)
    | none =>
      match leader s q g with
      | none => .next s
      | some tk =>
        let a := (s.thread tk).readX xa.toNat
        let b := (s.thread tk).readX xb.toNat
        match s.trapOf q.lanes, s.blockRead q tk b (blockLen (resumeMask a)) with
        | some r, .ok bs => .next ((s.markPages q.group b bs.length).resume q r a bs)
        | _, _ => .next s)

end Sys2Proof.Machine
end

