-- ==== Sys2Proof/Machine/Checks.lean ====
section
/-! DEFINITION. What is checked before a bundle issues: the legality that depends on the group (01 R22, 06 R175, R182,
11 R262, 15 R343, R344), the stalls and freezes (R112 to R114, R148, R149, R181, R219, R221, R234, R236, R313, R354,
R383), and the precise conditions by rank (R339). -/

namespace Sys2Proof.Machine

/-! ### Legality in a group -/

/-- Wait and signal fields lie in the window, but for the two exemptions of R22. -/
def syncIn (n : Nat) (h : Sync) : Bool :=
  (decide (h.wsem.toNat < n) || (h.wsem == 0 && h.wth == 0)) && (decide (h.ssem.toNat < n) || (h.ssem == 0 && h.inc == 0))

/-- A C-slot command names members of its group's windows. -/
def loadIn (k : Kernel) (o : LoadOp) : Bool := syncIn k.semWindow o.h && decide (o.tag.toNat < k.tagWindow)

/-- An X-slot command names members of its group's windows. -/
def tileIn (k : Kernel) (h : Sync) (tile : BitVec 3) : Bool := syncIn k.semWindow h && decide (tile.toNat < k.tiles)

/-- The resolved format pair of an MMA is one that R61 allows; code 31 names no format. -/
def pairAllowed (p : Nat × Nat) (mid : Bool) : Bool :=
  p.1 != 31 && p.2 != 31 && mmaFits p.1 p.2 mid

/-- A slot that the group's windows, flags or mode make illegal (R22, R175, R182, R262, R343, R344). -/
def slotAllowed (s : State) (q : Issue) (i : Instr) : Bool :=
  let k := (s.group q.group).kernel
  match i with
  | .semset n _ _ => decide (n.toNat < k.semWindow)
  | .semadd n _ _ => decide (n.toNat < k.semWindow)
  | .semwait n _ _ => decide (n.toNat < k.semWindow)
  | .ftset _ _ _ => decide (0 < k.tiles)
  | .vaccrd _ t _ _ _ => decide (t.toNat < k.tiles)
  | .vaccwr t _ _ _ _ => decide (t.toNat < k.tiles)
  | .tokv t _ => decide (t.toNat < k.tiles)
  | .tokm t _ => decide (t.toNat < k.tiles)
  | .mma o => tileIn k o.h o.tile && pairAllowed (mmaPair s q o.fa o.fb) o.mid &&
      (k.scales || !(isMx (mmaPair s q o.fa o.fb).1 || isMx (mmaPair s q o.fa o.fb).2))
  | .accz h t => tileIn k h t
  | .mst h t _ _ _ => tileIn k h t
  | .mld h t _ _ => tileIn k h t
  | .msync h => syncIn k.semWindow h
  | .mstat h t _ => tileIn k h t
  | .scla _ _ => k.scales
  | .sclb _ _ => k.scales
  | .sclz _ _ => k.scales
  | .copy o => loadIn k o.c
  | .copyx o => loadIn k o.c
  | .tload o => loadIn k o
  | .pload o => k.pattern && loadIn k o
  | .dload o => loadIn k o
  | .intake o => loadIn k o
  | .vperm _ _ _ _ => k.pattern
  | .pswap _ => k.pattern
  | .bar => !inHandler s q.lanes
  | .svc _ => !inHandler s q.lanes
  | .dswap _ _ => !inHandler s q.lanes
  | .resumeSlots _ _ _ => (s.trapOf q.lanes).isSome
  | _ => true

/-! ### Memory accesses of a slot -/

/-- Kinds of memory-slot access, as fences and R214 tell them apart. -/
inductive MemKind where
  | load | store | atom | line | code | fst | txst | hub
  deriving DecidableEq, Repr, Inhabited

/-- A memory slot's access: kind, address operands, scale, size, alignment and space. -/
structure MemAcc where
  kind : MemKind
  xb : BitVec 4
  vi : Option (BitVec 8)
  off : BitVec 10
  scale : Nat
  size : Nat
  align : Nat
  scr : Bool
  deriving DecidableEq, Repr, Inhabited

/-- A load or store (R208): the A16 forms need 16-byte alignment (R209). -/
def moAcc (k : MemKind) (o : MOp) (size align : Nat) (scr : Bool) : MemAcc :=
  ⟨k, o.xb, if o.ix then some o.vi else none, o.off, size, size, align, scr⟩

/-- An access that is always indexed and aligned to its size. -/
def ixAcc (k : MemKind) (o : IxOp) (size : Nat) (scr : Bool) : MemAcc :=
  ⟨k, o.xb, some o.vi, o.off, size, size, size, scr⟩

/-- The access of a slot; PREF, fences, DRAIN, FSIG, TXCOMMIT and TXABORT make none that R214 checks. -/
def memAcc (i : Instr) : Option MemAcc :=
  match i with
  | .ldZ8 o => some (moAcc .load o 1 1 false)
  | .ldS8 o => some (moAcc .load o 1 1 false)
  | .ldZ16 o => some (moAcc .load o 2 1 false)
  | .ldS16 o => some (moAcc .load o 2 1 false)
  | .ld32 o => some (moAcc .load o 4 1 false)
  | .ld64 o => some (moAcc .load o 8 1 false)
  | .ld128 o => some (moAcc .load o 16 1 false)
  | .ldA16 o => some (moAcc .load o 16 16 false)
  | .ldsZ8 o => some (moAcc .load o 1 1 true)
  | .ldsS8 o => some (moAcc .load o 1 1 true)
  | .ldsZ16 o => some (moAcc .load o 2 1 true)
  | .ldsS16 o => some (moAcc .load o 2 1 true)
  | .lds32 o => some (moAcc .load o 4 1 true)
  | .lds64 o => some (moAcc .load o 8 1 true)
  | .lds128 o => some (moAcc .load o 16 1 true)
  | .ldsA16 o => some (moAcc .load o 16 16 true)
  | .st8 o => some (moAcc .store o 1 1 false)
  | .st16 o => some (moAcc .store o 2 1 false)
  | .st32 o => some (moAcc .store o 4 1 false)
  | .st64 o => some (moAcc .store o 8 1 false)
  | .st128 o => some (moAcc .store o 16 1 false)
  | .stA16 o => some (moAcc .store o 16 16 false)
  | .sts8 o => some (moAcc .store o 1 1 true)
  | .sts16 o => some (moAcc .store o 2 1 true)
  | .sts32 o => some (moAcc .store o 4 1 true)
  | .sts64 o => some (moAcc .store o 8 1 true)
  | .sts128 o => some (moAcc .store o 16 1 true)
  | .stsA16 o => some (moAcc .store o 16 16 true)
  | .atomAdd o => some (ixAcc .atom o 4 false)
  | .atomMin o => some (ixAcc .atom o 4 false)
  | .atomMax o => some (ixAcc .atom o 4 false)
  | .atomMinu o => some (ixAcc .atom o 4 false)
  | .atomMaxu o => some (ixAcc .atom o 4 false)
  | .atomAnd o => some (ixAcc .atom o 4 false)
  | .atomOr o => some (ixAcc .atom o 4 false)
  | .atomXor o => some (ixAcc .atom o 4 false)
  | .atomExch o => some (ixAcc .atom o 4 false)
  | .atomCas o => some (ixAcc .atom o 4 false)
  | .atomFaddF32 o => some (ixAcc .atom o 4 false)
  | .atomFaddBf16X2 o => some (ixAcc .atom o 4 false)
  | .atomsAdd o => some (ixAcc .atom o 4 true)
  | .atomsMin o => some (ixAcc .atom o 4 true)
  | .atomsMax o => some (ixAcc .atom o 4 true)
  | .atomsMinu o => some (ixAcc .atom o 4 true)
  | .atomsMaxu o => some (ixAcc .atom o 4 true)
  | .atomsAnd o => some (ixAcc .atom o 4 true)
  | .atomsOr o => some (ixAcc .atom o 4 true)
  | .atomsXor o => some (ixAcc .atom o 4 true)
  | .atomsExch o => some (ixAcc .atom o 4 true)
  | .atomsCas o => some (ixAcc .atom o 4 true)
  | .atomsFaddF32 o => some (ixAcc .atom o 4 true)
  | .atomsFaddBf16X2 o => some (ixAcc .atom o 4 true)
  | .fst o => some (ixAcc .fst o 16 false)
  | .txst o => some (ixAcc .txst o 16 false)
  | .clean xb off _ => some ⟨.line, xb, none, off, 1, 1, 1, false⟩
  | .inval xb off _ => some ⟨.line, xb, none, off, 1, 1, 1, false⟩
  | .icinv xb _ => some ⟨.code, xb, none, 0, 1, 1, 1, false⟩
  | .launch _ xb _ => some ⟨.hub, xb, none, 0, 1, 64, 64, false⟩
  | .txbegin _ xb _ => some ⟨.hub, xb, none, 0, 1, 64, 64, false⟩
  | _ => none
def MemAcc.need (a : MemAcc) : Need :=
  match a.kind with
  | .load => needR
  | .line => needLine
  | .code => needR
  | .hub => needR
  | .atom => needRW
  | .store => needW
  | .fst => needW
  | .txst => needW

def MemAcc.reach (a : MemAcc) : Reach :=
  match a.kind with
  | .load => .load
  | .line => .load
  | .code => .load
  | .hub => .hub
  | .atom => .write
  | .store => .write
  | .fst => .fst
  | .txst => .txst

/-- The address of a lane. -/
def MemAcc.ea (a : MemAcc) (s : State) (l : Nat × Nat) : DWord := memEa s a.xb a.vi a.off a.scale l

/-- The lanes of a slot that make its access: a LAUNCH lane with address 0 makes none (R224). -/
def accLanes (s : State) (q : Issue) (i : Instr) : List (Nat × Nat) :=
  let ps := participants s q ((guardIn i).getD Guard.always)
  match i with
  | .launch _ xb _ => ps.filter (fun l => xOf s l xb != 0)
  | _ => ps

/-- Rank 10 for one memory slot (R214). -/
def memSlotCond (s : State) (q : Issue) (i : Instr) : Option Cond :=
  (memAcc i).bind (fun a => memCond s q (accLanes s q i) (a.ea s) a.size a.align a.need a.reach a.scr)

/-- The locations of this package that a lane's access covers: location, length and attribute. -/
def accSegs (s : State) (q : Issue) (a : MemAcc) (l : Nat × Nat) : List (Nat × Nat × Attr) :=
  if a.scr then
    (List.range a.size).filterMap (fun k =>
      ((s.group q.group).scrAt (clusterOf q.core) (a.ea s l + BitVec.ofNat 64 k).toNat).map (fun loc => (loc, 1, .nc)))
  else (portions (a.ea s l) a.size).filterMap (fun p =>
    match s.siteOf q.group a.need (a.ea s l + BitVec.ofNat 64 p.1) with
    | some (.here pa lo) => some (pa, p.2, lo)
    | _ => none)

/-! ### Fences and DRAIN (R219 to R221) -/

/-- A pending fence holds an access back. -/
def FenceKind.holds (f : FenceKind) (k : MemKind) : Bool :=
  match f, k with
  | .cp, _ => false
  | _, .fst => false
  | _, .txst => false
  | .rel, .load => false
  | .rel, .hub => false
  | _, _ => true

/-- A fence of an earlier bundle holds back an access of a thread. -/
def fenced (s : State) (tk : Nat) (k : MemKind) : Bool := (s.thread tk).fences.any (fun f => f.kind.holds k)

/-- A remote load is held back by no fence. -/
def allRemote (s : State) (q : Issue) (a : MemAcc) (l : Nat × Nat) : Bool :=
  a.kind == .load && !a.scr && (accSegs s q a l).isEmpty

/-- Memory-slot accesses that a DRAIN holds back. -/
def drainHeld (i : Instr) : Bool :=
  (memAcc i).isSome || (match i with
    | .pref _ _ _ _ => true
    | .fsig _ _ _ => true
    | .txcommit _ _ => true
    | .txabort _ => true
    | _ => false)

/-- A semaphore write of the group that a fence holds has still to be applied to a semaphore (R310). -/
def semDue (s : State) (q : Issue) (n : Nat) : Bool :=
  (s.core q.core).writes.any (fun w => match w.act with
    | .sem o g => g == q.group && o.sem == n
    | _ => false)

/-- The freeze of a slot on fences and drains of its threads. -/
def orderHold (s : State) (q : Issue) (i : Instr) : Option Hold :=
  let ps := participants s q ((guardIn i).getD Guard.always)
  if drainHeld i && ps.any (fun l => (s.thread l.2).drain.isSome) then some .drain
  else
    match memAcc i with
    | some a => if (accLanes s q i).any (fun l => fenced s l.2 a.kind && !allRemote s q a l) then some .fence else none
    | none =>
      match i with
      | .semset _ _ _ => if ps.any (fun l => fenced s l.2 .store) then some .fence else none
      | .semadd _ _ _ => if ps.any (fun l => fenced s l.2 .store) then some .fence else none
      | .semwait n _ _ => if ps.any (fun l => fenced s l.2 .load) || semDue s q n.toNat then some .fence else none
      | .resumeSlots _ _ _ => if ps.any (fun l => fenced s l.2 .load) then some .fence else none
      | .dswap _ _ => if ps.any (fun l => fenced s l.2 .load) then some .fence else none
      | .calli _ _ _ => if q.lanes.any (fun l => fenced s l.2 .load) then some .fence else none
      | _ => none

/-! ### Copies that have still to read (R313) -/

/-- The virtual bytes that a load command has still to read: start and length. -/
def unreadRuns (s : State) (c : Cmd) : List (DWord × Nat) :=
  let peek := fun (va : DWord) (n : Nat) => s.engRead c (s.engAccess c false needR va n)
  match c.op with
  | .tload =>
    let h := if c.row.isEmpty then peek c.xs 32 else c.row
    [(c.xs + BitVec.ofNat 64 c.row.length, 32 + 32 * tblCount h - c.row.length)]
  | .pload _ => [(c.xs + BitVec.ofNat 64 (32 * c.progress), 32 * (c.patCount - c.progress))]
  | .dload => [(c.xs + BitVec.ofNat 64 (48 * c.progress), 48 * (c.dictCount - c.progress))]
  | .intake =>
    if c.planned then []
    else
      let d := if c.row.isEmpty then { c with row := peek c.xs 64 } else c
      [(c.xs, 64 - c.row.length),
       (BitVec.ofNat 64 (d.desc 0 8) + BitVec.ofNat 64 (c.row.length - 64), descSlen d - (c.row.length - 64))]
  | _ => []

/-- A load command has still to read an 8-byte unit. -/
def State.loadUnread (s : State) (c : Cmd) (loc : Nat) : Bool :=
  !c.finished && (unreadRuns s c).any (fun r => (List.range ((r.2 + 7) / 8)).any (fun k =>
    match s.engAccess c false needR (r.1 + BitVec.ofNat 64 (8 * k)) (min 8 (r.2 - 8 * k)) with
    | .ok segs => segs.any (fun g => overlaps (g.2.2.1 / 8 * 8) (roundUp (g.2.2.1 % 8 + g.2.1) 8) (loc / 8 * 8) 8)
    | _ => false))

/-- The command of the group that has still to read a location. -/
def State.unreadBy (s : State) (g loc : Nat) : Option Cmd :=
  s.cmds.find? (fun c => c.group == g && (s.copyUnread c loc || s.loadUnread c loc))

/-- The freeze of a store or atomic on an earlier command's source. -/
def sourceHold (s : State) (q : Issue) (i : Instr) : Option Hold :=
  (memAcc i).bind (fun a =>
    if a.kind = .store ∨ a.kind = .atom then
      (accLanes s q i).findSome? (fun l => (accSegs s q a l).findSome? (fun g =>
        (List.range g.2.1).findSome? (fun k => (s.unreadBy q.group (g.1 + k)).map (fun c => Hold.copySource c.id))))
    else none)

/-! ### Snapshot copies, host copies and owned lines (R383, R400, R311) -/

/-- The freeze of CLEAN and INVAL: the thread's earlier stores to a local line have entered it, and its dirty bytes are
written back. -/
def lineHold (s : State) (q : Issue) (tk : Nat) (g : Nat × Nat × Attr) : Option Hold :=
  let f := inLine (g.1 / 128)
  if (s.core q.core).writes.any (fun w => w.thread == tk && w.attr == .lcl && w.meets (lineOf g.1) 128) then some .ordered
  else ((s.l1Waits q.core f).map WaitOn.hold).orElse (fun _ => (s.dirtyOwner q.core f).map Hold.engineLine)

/-- The freeze of a read that a bundle makes in its own issue step, of one run of bytes of this package: the line (R311, R400),
earlier writes of the core that have still to perform there (R302), and earlier loads of the thread that have still to be
read there (R303). -/
def State.readHold (s : State) (core tk pa len : Nat) (attr : Attr) : Option Hold :=
  let seq := (s.core core).seq
  (s.locHold false pa).orElse (fun _ =>
    if (s.core core).writes.any (s.blocksRead core tk seq pa len attr) then some .ordered
    else (s.accesses.find? (fun a => a.core == core &&
      ((assoc a.reads tk).getD []).any (fun p => p.isOpen && overlaps p.addr p.len pa len))).map (fun a => Hold.value a.id))

/-- The freeze of one lane's access: A and D bits, what TXBEGIN reads and what CLEAN and INVAL write back at the bundle's
issue. Loads, stores and atomics wait when they perform, a LAUNCH packet when the hub reads it. -/
def laneHold (s : State) (q : Issue) (reads : Bool) (a : MemAcc) (l : Nat × Nat) : Option Hold :=
  let mark := if a.scr then none
    else (portions (a.ea s l) a.size).findSome? (fun (p : Nat × Nat) =>
      s.markWaits q.group a.need.w (a.ea s l + BitVec.ofNat 64 p.1))
  let own := fun (g : Nat × Nat × Attr) => match a.kind with
    | .line => lineHold s q l.2 g
    | .hub => if reads then s.readHold q.core l.2 g.1 g.2.1 g.2.2 else none
    | _ => none
  (mark.map WaitOn.hold).orElse (fun _ => (accSegs s q a l).findSome? own)

/-- The freeze of a load that a bundle makes for itself, line by line. -/
def State.loadHold (s : State) (q : Issue) (tk : Nat) (va : DWord) (len : Nat) : Option Hold :=
  (List.range ((va.toNat % 128 + len + 127) / 128)).findSome? (fun k =>
    let off := if k = 0 then 0 else 128 * k - va.toNat % 128
    let a := va + BitVec.ofNat 64 off
    ((s.markWaits q.group false a).map WaitOn.hold).orElse (fun _ => match s.siteOf q.group needR a with
      | some (.here pa attr) => s.readHold q.core tk pa (min (len - off) (128 - pa % 128)) attr
      | _ => none))

/-- The freeze of the items that the entries of a yield map name in the running kernel. -/
def State.itemsHold (s : State) (q : Issue) (es : List Byte) : Option Hold :=
  (List.range (es.length / 16)).findSome? (fun j =>
    let pc : DWord := BitVec.ofNat 64 (natAt es (16 * j) 8)
    if !(s.group q.group).kernel.codeItem pc then none
    else ((s.markWaits q.group false pc).orElse (fun _ => s.markWaits q.group false (pc + 49))).map WaitOn.hold)

/-- The freeze of the loads that CALLI, RESUME.SLOTS and DSWAP make. -/
def ownHold (s : State) (q : Issue) (i : Instr) : Option Hold :=
  match i with
  | .calli x _ _ => q.lanes.findSome? (fun l => s.loadHold q l.2 (xOf s l x) 16)
  | .resumeSlots xa xb g => (leader s q g).bind (fun tk =>
      (s.loadHold q tk ((s.thread tk).readX xb.toNat) (blockLen (resumeMask ((s.thread tk).readX xa.toNat)))).orElse (fun _ =>
        if isService q.group || (s.group q.group).fixedPart.isNone then none
        else q.lanes.findSome? (fun l => s.loadHold q l.2 (shadowAddr (s.group q.group) (s.thread l.2).tid) 256)))
  | .dswap xa g => (leader s q g).bind (fun tk =>
      let va := (s.thread tk).readX xa.toNat
      if va = 0 then none
      else (s.loadHold q tk va 64).orElse (fun _ => (s.loadVa q tk va 64).bind (fun m =>
        (s.loadHold q tk (va + 64) (16 * (1 + (natAt m 8 4 - 1) % 64))).orElse (fun _ =>
          (s.loadHold q tk (BitVec.ofNat 64 (natAt m 0 8)) 256).orElse (fun _ =>
            (s.loadVa q tk (va + 64) (16 * min 64 (natAt m 8 4))).bind (s.itemsHold q))))))
  | _ => none

/-- The slot reads its access in its issue step. -/
def readsAtIssue (i : Instr) : Bool :=
  match i with
  | .txbegin _ _ _ => true
  | _ => false

/-- The freeze of a slot on copies, lines and reads of its own. -/
def copyHold (s : State) (q : Issue) (i : Instr) : Option Hold :=
  ((memAcc i).bind (fun a => (accLanes s q i).findSome? (laneHold s q (readsAtIssue i) a))).orElse (fun _ => ownHold s q i)

/-! ### Engine commands (R30, R234, R236, R354) -/

/-- The tag of a C-slot command. -/
def slotTag (i : Instr) : Option Nat :=
  match i with
  | .copy o => some o.c.tag.toNat
  | .copyx o => some o.c.tag.toNat
  | .tload o => some o.tag.toNat
  | .pload o => some o.tag.toNat
  | .dload o => some o.tag.toNat
  | .intake o => some o.tag.toNat
  | _ => none

/-- A timed copy whose start lies ahead. -/
def startsLate (s : State) (q : Issue) (i : Instr) : Bool :=
  let late := fun (o : CopyOp) => o.timed && decide (s.now < (((s.group q.group).shape o.sh.toNat).getD 15 0).toNat)
  match i with
  | .copy o => late o
  | .copyx o => late o
  | _ => false

/-- Slots that issue a command: a C, X or K slot. -/
def issuesCmd (pos : Nat) : Bool := pos == 9 || pos == 10 || pos == 12

/-- The stalls of a bundle's commands. -/
def cmdHold (s : State) (q : Issue) (is : List (Nat × Instr)) : Option Hold :=
  let n := (is.filter (fun i => issuesCmd i.1)).length
  let waiting := (s.cmds.filter (fun c => c.group == q.group && !c.started)).length
  if n ≠ 0 ∧ 512 < waiting + n then some .commandFull
  else is.findSome? (fun i => (slotTag i.2).bind (fun t =>
    if 63 ≤ (s.group q.group).tagsOut t then some Hold.tagCount
    else if 256 ≤ (s.cmds.filter (fun c => c.op.isSiphon && c.core == q.core)).length then some .siphonFull
    else if startsLate s q i.2 && decide (64 ≤ (s.cmds.filter (fun c => c.core == q.core && c.inBuffer)).length)
    then some .startBuffer else none))

/-! ### All stalls and freezes of a bundle before its checks -/

/-- The stall or freeze of one slot. -/
def slotHold (s : State) (q : Issue) (i : Instr) : Option Hold :=
  ((match i with
    | .semwait n xa g => semwaitHold s q n xa g
    | .tagwa xa g => tagwaHold s q xa g
    | .tagwl xa g => tagwlHold s q xa g
    | .vaccrd _ t _ _ g => tokenHold s q g t
    | .vaccwr t _ _ _ g => tokenHold s q g t
    | .exit => if isService q.group then s.recordHold q.core else none
    | .svc _ => if s.serviceOn && s.serviceFull q.core then some .serviceQueue else none
    | _ => none).orElse (fun _ => orderHold s q i)).orElse (fun _ =>
    (sourceHold s q i).orElse (fun _ => copyHold s q i))

/-- The stall or freeze of a bundle. -/
def bundleHold (s : State) (q : Issue) (is : List (Nat × Instr)) : Option Hold :=
  (cmdHold s q is).orElse (fun _ => is.findSome? (fun i => slotHold s q i.2))

/-- The Windlass access of a CALL's pushes (R279, R281). -/
def callFrames (s : State) (q : Issue) (is : List (Nat × Instr)) : Wl :=
  (is.findSome? (fun i => match i.2 with
    | .call _ dem _ _ => some (callNeeds s q (fun _ => demandOf dem))
    | _ => none)).getD (.ok [])

/-- The entries that UNWIND.MARK has read back first (R291). -/
def markFrames (s : State) (q : Issue) (is : List (Nat × Instr)) : Wl :=
  (is.findSome? (fun i => match i.2 with
    | .unwindMark => some (markNeeds s q)
    | _ => none)).getD (.ok [])

/-! ### The ranks of R339 -/

/-- Rank 5 of one slot. -/
def frameRank (s : State) (q : Issue) (i : Nat × Instr) : Option Cond :=
  match i.2 with
  | .loop _ _ rot => loopCond s q rot
  | _ => frameCond s { q with cur := i.1 } i.2

/-- Rank 7 of one slot. -/
def engineRank (s : State) (q : Issue) (i : Nat × Instr) : Option Cond :=
  let q := { q with cur := i.1 }
  match i.2 with
  | .mma o => mmaCond s q o
  | .accz _ t => tileCond s q t
  | .mst _ t xa xb fmt => moveCond s q t xa xb fmt.toNat true
  | .mld _ t xa xb => moveCond s q t xa xb 0 false
  | .mstat _ t _ => tileCond s q t
  | .scla _ xa => scaleCond s q xa
  | .sclb _ xa => scaleCond s q xa
  | _ => none

/-- Rank 6. -/
def returnRank (s : State) (q : Issue) (i : Instr) : Option Cond :=
  match i with
  | .ret _ => retCond s q
  | .unwind x => unwindCond s q x
  | .unwindMark => markCond s q
  | _ => none

/-- Rank 8. -/
def tokenRank (s : State) (q : Issue) (i : Nat × Instr) : Option Cond :=
  let q := { q with cur := i.1 }
  match i.2 with
  | .vaccrd _ t _ _ g => tokenCond s q g t
  | .vaccwr t _ _ _ g => tokenCond s q g t
  | _ => none

/-- The logical table of an F slot. -/
def tableOf (i : Instr) : Option (BitVec 3) :=
  match i with
  | .fev _ _ tb _ => some tb
  | .fevE2 _ _ tb _ => some tb
  | .fevL2 _ _ tb _ => some tb
  | .fevRc _ _ tb _ => some tb
  | .fevRs _ _ tb _ => some tb
  | .fevPd _ _ tb _ => some tb
  | .fseg _ _ tb _ => some tb
  | .fdom _ _ tb _ => some tb
  | _ => none

/-- Rank 9. -/
def tableRank (s : State) (q : Issue) (i : Nat × Instr) : Option Cond :=
  (tableOf i.2).bind (fun tb => tableCond s { q with cur := i.1 } ((guardIn i.2).getD Guard.always) tb)

/-- The freeze on a Loading table slot, which ranks 1 to 8 precede. -/
def tableFreeze (s : State) (q : Issue) (i : Nat × Instr) : Option Hold :=
  (tableOf i.2).bind (fun tb => tableHold s q ((guardIn i.2).getD Guard.always) tb)

/-- Rank 13. -/
def branchRank (s : State) (q : Issue) (i : Instr) : Option Cond :=
  match i with
  | .trap code pred sense => trapCond s q code pred sense
  | .brk code => some (brkCond q code)
  | .bar => statusCond s q
  | .exit => statusCond s q
  | _ => none

/-- Slots in the order M0, M1 and so on: PRES order. -/
def firstOf {α : Type} (is : List (Nat × Instr)) (f : Nat × Instr → Option α) : Option (Nat × α) :=
  is.findSome? (fun i => (f i).map (fun c => (i.1, c)))

/-- Ranks 4 to 8: the slot and its condition. -/
def earlyRanks (s : State) (q : Issue) (is : List (Nat × Instr)) : Option (Nat × Cond) :=
  (firstOf is (fun i => match i.2 with
    | .dswap _ g => dswapCond s { q with cur := i.1 } g
    | _ => none)).orElse (fun _ =>
  (firstOf is (frameRank s q)).orElse (fun _ =>
  (firstOf is (fun i => returnRank s q i.2)).orElse (fun _ =>
  (firstOf is (engineRank s q)).orElse (fun _ =>
   firstOf is (tokenRank s q)))))

/-- Ranks 9 to 13 but for the CALLI descriptors; a block read by RESUME.SLOTS is a memory condition of its slot. -/
def lateRanks (s : State) (q : Issue) (is : List (Nat × Instr)) : Option Nat :=
  ((firstOf is (tableRank s q)).map (fun p => p.1)).orElse (fun _ =>
  ((firstOf is (fun i => memSlotCond s { q with cur := i.1 } i.2)).map (fun p => p.1)).orElse (fun _ =>
  ((firstOf is (fun i => match i.2 with
    | .resumeSlots xa xb g => resumeStop s { q with cur := i.1 } xa xb g
    | _ => none)).map (fun p => p.1)).orElse (fun _ =>
  ((firstOf is (fun i => match i.2 with
    | .calli x _ _ => (calliRead s q x).orElse (fun _ => calliCond s q x)
    | _ => none)).map (fun p => p.1)).orElse (fun _ =>
   (firstOf is (fun i => branchRank s q i.2)).map (fun p => p.1)))))

end Sys2Proof.Machine
end

