-- ==== Sys2Proof/Machine/BundleIssue.lean ====
section
/-! DEFINITION. BUNDLE_ISSUE (04 R104): the choice of a candidate, what the fetch of its next item waits for, the checks, and the latch of the bundle's slots in the order in which they act. BIN_AGED and LOAD_VALUE_ARRIVES. -/

namespace Sys2Proof.Machine

/-! ### Fetch -/

/-- What a fetch waits for: A bits of the code's pages, and the blocks that the core does not keep (R311, R383, R400). -/
def State.fetchHold (s : State) (core g : Nat) (va : DWord) (len : Nat) (locs : List Nat) : Option Hold :=
  if len = 0 then none
  else (((s.markWaits g false va).orElse (fun _ => s.markWaits g false (va + BitVec.ofNat 64 (len - 1)))).map
    WaitOn.hold).orElse (fun _ => locs.findSome? (fun l =>
      if (spFind (s.core core).code (l / 64)).isSome then none else s.locHold false l))

/-! ### The latch -/

/-- The bundle of a run before its slots are known. DESIGN CHOICE (log entry 38): for a reserved code item, which names no
bundle, the bundle bytes of the trap header are these zeros. -/
def blankIssue (s : State) (r : Run) : Issue :=
  { core := r.core, run := r.id, group := r.group, lanes := r.lanes, pc := r.pc, seqPc := r.pc, count := r.count,
    scope := 0, seq0 := (s.core r.core).seq, loopEnd := false, yieldB := false, bundle := 0, slots := [], cur := 15,
    ext := none, leaf := [], ways := [], file := false, cleared := false,
    suppress := (r.resume.map (fun z => z.1)).getD 0, fenceSeq := none, nextPc := r.resume.bind (fun z => z.2),
    descs := [] }

/-- The place of a slot in the order in which the slots of a bundle act (R50, R115, R182, R210, R220, R310). -/
def actRank (i : Instr) : Nat :=
  match i with
  | .limm _ => 0
  | .br _ _ => 1
  | .getsr _ _ _ => 2
  | .tagff _ _ _ => 2
  | .fenceAcq _ => 8
  | .fenceRel _ => 8
  | .fenceAr _ => 8
  | .fenceSc _ => 8
  | .fenceCp _ => 8
  | .acqProm _ _ => 8
  | .vaccwr _ _ _ _ _ => 6
  | .tokv _ _ => 14
  | .tokm _ _ => 14
  | .semset _ _ _ => 17
  | .semadd _ _ _ => 18
  | .tsel _ _ _ => 19
  | .pswap _ => 19
  | .ftset _ _ _ => 19
  | .sqrd _ _ _ => 19
  | .dswap _ _ => 19
  | .resumeSlots _ _ _ => 21
  | _ => 22

/-- The same by the class of the slot, where the opcode alone does not decide it. -/
def slotRank (i : Nat × Instr) : Nat :=
  if actRank i.2 ≠ 22 then actRank i.2
  else match memAcc i.2 with
    | some a => match a.kind with
      | .load => 7
      | .atom => 9
      | .store => 11
      | _ => 12
    | none =>
      match kindOf i.1 with
      | .br => 20
      | .s => 3
      | .f => 4
      | .v => 5
      | .m => 12
      | .k => 10
      | .x => 13
      | .c => 15
      | .h => 16

/-- The bits of decoded slots, in the order in which they act. -/
def slotWords (b : BitVec 384) (is : List (Nat × Instr)) : List SlotWord :=
  (sortByKey slotRank is).filterMap (fun i => (slotAt i.1 (slotsOf b)).map (fun w => ⟨i.1, w⟩))

/-- Latch one slot whose check fails; its meaning takes the condition. -/
def State.latchOne (s : State) (q : Issue) (pos : Nat) : State :=
  { s with issue := some { q with slots := ((slotAt pos (slotsOf q.bundle)).map (fun w => (⟨pos, w⟩ : SlotWord))).toList } }

/-- The bin whose bundle issues is free (R102). -/
def State.freeBin (s : State) (core run : Nat) : State :=
  s.modCore core (fun c => { c with bins := c.bins.filter (fun b => b.run != some run) })

/-- Latch the slots of a bundle whose checks all pass: it issues. -/
def State.latchAll (s : State) (q : Issue) (is : List (Nat × Instr)) : State :=
  let s := s.freeBin q.core q.run
  let s := { s with issue := some { q with slots := slotWords q.bundle is, cleared := true } }
  if is.isEmpty then s.finishIssue else s

/-- The leaf of every lane: from the tree, or 4 (R50). -/
def treeLeaves (s : State) (q : Issue) (is : List (Nat × Instr)) : List (Nat × Nat) :=
  (is.findSome? (fun i => match i.2 with
    | .br ts _ => some (leaves s q ts)
    | _ => none)).getD (q.lanes.map (fun l => (l.1, 4)))

/-! ### Trying a run -/

/-- The slots of a bundle that decode and that the group may issue, whatever the bundle's other slots are. -/
def soundSlots (ok : Instr → Bool) (skip : BitVec 13) (b : BitVec 384) : List (Nat × Instr) :=
  if headerIllegal b then []
  else (slotsOf b).filterMap (fun w =>
    if skip.getLsbD w.1 then none else (decodeAt w.1 w.2).bind (fun i => if ok i then some (w.1, i) else none))

/-- The bundle being tried: what its header and its tree give. -/
def Issue.withBundle (q : Issue) (s : State) (b : BitVec 384) (seqPc : DWord) (is : List (Nat × Instr)) : Issue :=
  let h := headerOf b
  let q := { q with bundle := b, seqPc := seqPc }
  { q with scope := h.sc.toNat, loopEnd := h.e, yieldB := h.y, leaf := treeLeaves s q is }

/-- The run is held after an attempt. -/
def State.isHeld (s : State) (run : Nat) : Bool := (s.findRun run).any (fun r => r.held.isSome)

/-- A CALLI whose every other check has passed (R282, R283): its descriptors are captured, its stub lanes leave. -/
def State.latchCalli (s : State) (q : Issue) (is : List (Nat × Instr)) (x : BitVec 4) : State × Bool :=
  let q := { q with descs := q.lanes.map (fun l => (l.1, s.descOf q x l)) }
  let awaited := if (stubLanes s q x).isEmpty then none else (s.findRun q.run).bind (fun r => r.awaitsAny)
  match awaited with
  | some a => (s.hold q.run (.value a), false)
  | none =>
    match s.wlStop q (callNeeds s q (calliDemand s q x)) with
    | some s' => (s', false)
    | none =>
      let z := s.shedStubs q x
      (z.1.latchAll z.2 is, true)

/-- The ranks of a decoded bundle from 4 on (R339), and its issue; the frames that a call pushes need room once no
condition is left (R281). -/
def State.tryBundle (s : State) (q : Issue) (is : List (Nat × Instr)) : State × Bool :=
  match earlyRanks s q is with
  | some (pos, _) => (s.latchOne q pos, true)
  | none =>
    match is.findSome? (tableFreeze s q) with
    | some h => (s.hold q.run h, false)
    | none =>
      match lateRanks s q is with
      | some pos => (s.latchOne q pos, true)
      | none =>
        match is.findSome? (fun i => match i.2 with
          | .calli x _ _ => some x
          | _ => none) with
        | some x => s.latchCalli q is x
        | none =>
          match s.wlStop q (callFrames s q is) with
          | some s' => (s', false)
          | none => (s.latchAll q is, true)

/-- Take a condition of the fetch or of the whole bundle. -/
def State.tryCond (s : State) (q : Issue) (c : Cond) : State × Bool :=
  let s' := s.takeCond q c
  (s', !s'.isHeld q.run)

/-- Try to issue the next bundle of a run; the answer says whether the cycle is used. The stalls and freezes of its slots
come before its legality (R114, R339). -/
def State.tryRun (s : State) (r : Run) : State × Bool :=
  match r.awaits r.count with
  | some a => (s.hold r.id (.value a), false)
  | none =>
    let s := (s.landDue r r.count).bumpSeq r.core
    let q := blankIssue s r
    match s.markWaits r.group false r.pc, s.fetch r.core r.group r.pc with
    | some w, _ => (s.hold r.id w.hold, false)
    | none, .fault cause reason ident va =>
      s.tryCond q { Cond.plain q cause reason ident with addr := va, kind := .exec }
    | none, .bundle b seqPc va len locs =>
      match s.fetchHold r.core r.group va len locs with
      | some h => (s.hold r.id h, false)
      | none =>
        let s := (s.fetched r.core r.group va len locs).modRun r.id (fun r => { r with onBundle := some b })
        let sound := soundSlots (slotAllowed s { q with bundle := b }) q.suppress b
        let q := q.withBundle s b seqPc sound
        match bundleHold s q sound with
        | some h => (s.hold r.id h, false)
        | none =>
          match s.wlStop q (markFrames s q sound) with
          | some s' => (s', false)
          | none =>
            match legalBundle (slotAllowed s q) q.suppress b with
            | .error n => s.tryCond q (Cond.plain q 0x03 0 n)
            | .ok is => s.tryBundle q is

/-! ### Candidates (R103, R104) -/

/-- A ready bin or an unfiled run. -/
inductive Candidate where
  | run (id : Nat)
  | bin (b : Bin)
  deriving DecidableEq, Repr, Inhabited

/-- The slots of the bundle that a run waits with still hold it. -/
def State.slotsHold (s : State) (r : Run) : Bool :=
  match r.onBundle with
  | none => false
  | some b =>
    let q := blankIssue s r
    let is := soundSlots (slotAllowed s { q with bundle := b }) q.suppress b
    let q := q.withBundle s b q.seqPc is
    (bundleHold s q is).isSome || (is.findSome? (tableFreeze s q)).isSome

/-- The stall or freeze of a run goes on (R104, R112, R114, R340). -/
def State.holdsOn (s : State) (r : Run) : Bool :=
  match r.held with
  | none => false
  | some (.value a, _) => s.accesses.any (fun z => z.id == a)
  | some (.page id, _) => s.reqs.any (fun q => q.id == id)
  | some (.requestFull, _) => decide (4096 ≤ s.reqs.length)
  | some (.snapshotCopy p, _) => s.copyBit p
  | some (.hostLine inval line, _) => decide ((if inval then 0 else 1) < s.hostLevel line)
  | some (.entryRead, _) => false
  | _ => s.slotsHold r

/-- Runs whose stall or freeze has ended are candidates again from the next cycle (R104); it is not their place here to
be checked. Those of parked and saved groups keep it until the group is resident. -/
def State.freeHolds (s : State) : State :=
  { s with runs := s.runs.map (fun r =>
      if r.held.isSome && (s.group r.group).place == .resident && !s.holdsOn r
      then { r with held := none, since := s.coreCycles r.core + 1 } else r) }

/-- The group of a candidate may issue on a core: in service code only the service context, and none while a request is to be
entered (R358). -/
def State.mayIssue (s : State) (core g : Nat) : Bool :=
  if (s.core core).service.isSome then g == serviceKey core && s.mgmt.fatal.isNone
  else if s.svcNext core then false
  else (s.group g).core == core && s.groupRuns g

/-- The runs of a core that may be candidates. -/
def State.openRuns (s : State) (core : Nat) : List Run :=
  s.runs.filter (fun r => r.core == core && r.ways.isNone && s.mayIssue core r.group && r.held.isNone
    && decide (r.since ≤ s.coreCycles core))

/-- First cycle from which a bin is ready: filled, or aged whether or not BIN_AGED has come (R103). -/
def State.binReady (s : State) (core : Nat) (b : Bin) : Option Nat :=
  let aged := b.oldest + (s.launchOf b.group).age + 1
  let t := match b.ready with
    | some r => min r aged
    | none => aged
  if b.run.isNone && decide (t ≤ s.coreCycles core) then some t else none

/-- Key of a candidate: since when it is one, then launch, %gid and lowest %tid (R104). -/
def State.candKey (s : State) (since g : Nat) (lanes : List (Nat × Nat)) : Nat :=
  let tid := ((leastBy (fun l => (s.thread l.2).tid) lanes).map (fun l => (s.thread l.2).tid)).getD 0
  ((since * 2 ^ 64 + (s.group g).launch) * 2 ^ 32 + (s.group g).gid) * 2 ^ 16 + tid

/-- The candidates of a core, first to last. -/
def State.candidates (s : State) (core : Nat) : List Candidate :=
  let rs := (s.openRuns core).map (fun r => (s.candKey r.since r.group r.lanes, Candidate.run r.id))
  let bs := (s.core core).bins.filterMap (fun b =>
    if s.mayIssue core b.group then (s.binReady core b).map (fun t => (s.candKey t b.group b.lanes, Candidate.bin b)) else none)
  (sortByKey (fun c => c.1) (rs ++ bs)).map (fun c => c.2)

/-- Try a candidate; a ready bin forms an issue group with a run of its own (R103), and is free once that has issued
(R102). -/
def State.tryCandidate (s : State) (core : Nat) (c : Candidate) : State × Bool :=
  match c with
  | .run id => match s.findRun id with
    | some r => s.tryRun r
    | none => (s, false)
  | .bin b =>
    let id := s.ids
    let s := (s.modCore core (fun c => { c with bins := c.bins.map (fun x => if x = b then { x with run := some id } else x) }))
      |>.startRun core b.group b.lanes b.pc 0 []
    match s.findRun id with
    | some r => s.tryRun r
    | none => (s, false)

/-- The later candidates whose bundle stalls or freezes in this cycle are none from here on (R104). -/
def State.holdRest (s : State) (core : Nat) (rest : List Candidate) : State :=
  rest.foldl (fun s c =>
    let z := s.tryCandidate core c
    if z.2 then s else { z.1 with issue := s.issue }) s

/-- The first candidate that can issue does, and takes the core's cycle. -/
def tryAll (s : State) (core : Nat) : List Candidate → State
  | [] => s
  | c :: rest =>
    let z := s.tryCandidate core c
    if z.2 then (z.1.holdRest core rest).modCore core (fun c => { c with issueFrom := s.coreCycles core + 1 })
    else tryAll z.1 core rest

/-- BUNDLE_ISSUE (R104): one bundle of the core in a cycle. -/
def execBundleIssue (core : Nat) (s : State) : Out :=
  if s.issue.isSome || decide (s.coreCycles core < (s.core core).issueFrom) then .next s
  else
    let s := (s.settleCore core).sendSignals core
    .next (tryAll s core (s.candidates core))

/-! ### BIN_AGED (R103) -/

/-- BIN_AGED: the oldest thread of a bin has waited the age limit of its launch. -/
def execBinAged (core bin : Nat) (s : State) : Out :=
  match (s.core core).bins[bin]? with
  | none => .next s
  | some b =>
    if b.ready.isNone && decide (b.oldest + (s.launchOf b.group).age ≤ s.coreCycles core) then
      .next (s.modCore core (fun c =>
        { c with bins := modAt (fun b => { b with ready := some (b.oldest + (s.launchOf b.group).age + 1) }) c.bins bin }))
    else .next s

/-! ### LOAD_VALUE_ARRIVES (R110, R112) -/

/-- What the open pieces of an access wait for, if the directory has to be asked. -/
def State.accessWaits (s : State) (a : Access) : Option WaitOn :=
  a.reads.findSome? (fun r => r.2.findSome? (fun p =>
    if p.isOpen then s.readWaits p.addr p.len else none))

/-- Every piece of an access has its bytes, or can be read now; an access of the hub has its answers. -/
def State.accessReady (s : State) (a : Access) : Bool :=
  if a.hub then a.reads.all (fun r => (a.answer.getD []).any (fun v => v.1 == r.1))
  else a.reads.all (fun r => r.2.all (fun p => p.fixed.isSome || s.pieceReady a r.1 p))

/-- A piece of an access is read for one thread, if it may be now, and L1 keeps what the read leaves there (R363, R372). -/
def State.readPiece (s : State) (id tk at_ : Nat) : State :=
  match s.accesses.find? (fun a => a.id == id) with
  | none => s
  | some a =>
    match ((assoc a.reads tk).getD []).find? (fun p => p.at_ == at_) with
    | none => s
    | some p =>
      if !s.pieceReady a tk p then s
      else
        { s with accesses := s.accesses.map (fun (b : Access) =>
            if b.id = id then { b with reads := b.reads.map (fun (r : Nat × List ReadPiece) =>
              if r.1 = tk then (tk, r.2.map (fun (o : ReadPiece) => if o.at_ = at_ then o.fix s a tk else o)) else r) }
            else b) }.readCopy a.core p.addr p.attr

/-- The pieces of an access: thread and place in the value. -/
def Access.pieces (a : Access) : List (Nat × Nat) := a.reads.flatMap (fun r => r.2.map (fun p => (r.1, p.at_)))

/-- The pieces of an access that a test selects are read, each on its own (R305). -/
def State.readPieces (s : State) (a : Access) (f : Nat → Nat → Bool) : State :=
  (a.pieces.filter (fun p => f p.1 p.2)).foldl (fun s p => s.readPiece a.id p.1 p.2) s

/-- Some pieces of the outstanding loads are read before they are needed: the free value says which (R302, R305). -/
def State.readSome (s : State) : State :=
  s.accesses.foldl (fun s a => s.readPieces a (Config.readsNow s.turn a.id)) s

/-- The bytes that a thread's pieces give. -/
def pieceBytes (ps : List ReadPiece) : List Byte := ps.flatMap (fun p => p.fixed.getD [])

/-- The value of word `part` for a thread. -/
def Access.value (a : Access) (tk part : Nat) : QWord :=
  if a.hub then
    (((assoc (a.answer.getD []) tk).getD 0) >>> (32 * part)) &&& 0xFFFFFFFF
  else (a.ext.word (pieceBytes ((assoc a.reads tk).getD [])) part).zeroExtend 128

/-- A result that waited for an access takes its values. -/
def Flight.arrive (f : Flight) (a : Access) : Flight :=
  if f.wait = some a.id then { f with wait := none, vals := f.vals.map (fun v => (v.1, a.value v.1 f.part)) } else f

/-- Results that waited for an access take its values; a run that froze on it, or has reached the count at which it lands, is
a candidate from the next cycle (R104). -/
def State.arriveAll (s : State) (a : Access) : State :=
  let runs := s.runs.map (fun (r : Run) =>
    let due := r.flights.any (fun f => f.wait == some a.id && decide (f.land ≤ r.count))
    { r with flights := r.flights.map (fun f => f.arrive a), since := if due then s.coreCycles r.core + 1 else r.since })
  { s with accesses := s.accesses.filter (fun (b : Access) => b.id != a.id), runs := runs }

/-- LOAD_VALUE_ARRIVES (R112): the values of one access arrive. -/
def execLoadValueArrives (flight : Nat) (s : State) : Out :=
  match s.accesses.find? (fun a => a.id == flight) with
  | none => .next s
  | some a =>
    if !s.accessReady a then .next (s.askFor (s.accessWaits a))
    else
      let s := s.readPieces a (fun _ _ => true)
      match s.accesses.find? (fun a => a.id == flight) with
      | none => .next s
      | some a => if a.reads.all (fun r => r.2.all (fun p => a.hub || p.fixed.isSome)) then .next ((s.arriveAll a).settleCore a.core) else .next s

end Sys2Proof.Machine
end

