-- ==== Sys2Proof/Machine/Accept.lean ====
section
/-! DEFINITION. Dispatch packets (14 R322), fat objects and kernel headers (18 R413 to R416), acceptance (R324, R325),
prerequisites and the memory condition (R326), launch windows (R323) and LAUNCH batches (08 R224). -/

namespace Sys2Proof.Machine

/-! ### The packet (R322) -/

def packetWords (bs : List Byte) : List DWord := (List.range 8).map (fun k => BitVec.ofNat 64 (natAt bs (8 * k) 8))

/-- A packet as the launch it would make. -/
def packetLaunch (ws : List DWord) : Launch := { (default : Launch) with words := ws }

def Launch.code (l : Launch) : DWord := l.words.getD 0 0 &&& 0xFFFFFFFFFFFFFFC0
def Launch.cls (l : Launch) : Nat := l.bits 0 0 6
def Launch.pre (l : Launch) (k : Nat) : Nat := l.bits 2 (32 * k) 32
def Launch.maddr (l : Launch) : DWord := l.words.getD 3 0 &&& 0xFFFFFFFFFFFFFFFC
def Launch.mmode (l : Launch) : Nat := l.bits 3 0 2
def Launch.mval (l : Launch) : Nat := l.bits 4 0 32
def Launch.ctgt (l : Launch) : DWord := l.words.getD 7 0 &&& 0xFFFFFFFFFFFFFFC0
def Launch.irq (l : Launch) : Bool := l.bits 7 0 1 == 1

/-- Code 0x01 of R324. -/
def Launch.malformed (l : Launch) : Bool :=
  l.bits 1 56 8 != 0 || l.bits 7 1 5 != 0 || l.bits 1 32 2 == 3 || l.grid % l.gang != 0
  || !canonical l.code || !canonical l.maddr || !canonical l.ctgt
  || (if l.mmode = 0 then l.maddr != 0 || l.mval != 0 else l.maddr == 0)
  || (l.irq && l.ctgt == 0)

/-! ### Fat objects (R413 to R416) -/

/-- Bytes of a tenant's memory as the hub reads them; `none` when some byte cannot be read in this package. -/
def State.hubRead (s : State) (t : Nat) (va : DWord) (n : Nat) : Option (List Byte) :=
  match s.readVa t needR va n with
  | .ok bs => some bs
  | .error _ => none

def at64 (va : DWord) (off : Nat) : DWord := va + BitVec.ofNat 64 off

/-- A byte whose translation stands, and names no device memory of this package (R414). -/
def State.outsideDev (s : State) (t : Nat) (va : DWord) : Bool :=
  match s.leafFor t va.toNat with
  | none => false
  | some (p, level) => match s.paKind (leafPa p level va.toNat) with
    | .dev _ => false
    | _ => true

/-- First bytes of the pages that a run of bytes touches. -/
def pagesOf (va : DWord) (len : Nat) : List DWord :=
  if len = 0 then []
  else (List.range ((va.toNat % 4096 + len - 1) / 4096 + 1)).map (fun k =>
    if k = 0 then va else BitVec.ofNat 64 ((va.toNat / 4096 + k) * 4096))

/-- The first 64 bytes of a fat object keep R413. -/
def fatHeaderOk (h : List Byte) : Bool :=
  natAt h 0 4 == 0x4C5A4631 && natAt h 4 2 == 1 && decide (1 ≤ natAt h 6 2) && decide (natAt h 6 2 ≤ 63)
  && natAt h 0x10 48 == 0

/-- Class, gap and offset of entry j. -/
def entClass (es : List Byte) (j : Nat) : Nat := natAt es (16 * j) 2
def entOff (es : List Byte) (j : Nat) : Nat := natAt es (16 * j + 8) 8

def fatEntriesOk (n total : Nat) (es : List Byte) : Bool :=
  decide (0x40 + 16 * n ≤ total) &&
  (List.range n).all (fun j => natAt es (16 * j + 2) 6 == 0 && entOff es j % 64 == 0 && decide (entOff es j ≤ total)
    && (j == 0 || decide (entClass es (j - 1) < entClass es j)))

/-- Fields of a kernel header (R415). -/
def hdrYcount (h : List Byte) : Nat := natAt h 0x16 2
def hdrYoff (h : List Byte) : Nat := natAt h 0x40 8
def hdrRelOff (h : List Byte) : Nat := natAt h 0x48 8
def hdrRelCount (h : List Byte) : Nat := natAt h 0x50 4

/-- An even offset within the code stream. -/
def inCode (h : List Byte) (off : Nat) : Bool := off % 2 == 0 && decide (off < natAt h 0x28 8)

/-- A native header that breaks R415; the binary starts at an offset of an object of a total size. -/
def kernelBad (h : List Byte) (off total : Nat) : Bool :=
  let k := kernelOf 0 h
  let within := fun (o n : Nat) => decide (off + o + n ≤ total)
  natAt h 0 4 != 0x4C5A4B31 || natAt h 4 1 != 1 || !(k.lload == 4 || k.lload == 6)
  || k.gsize == 0 || decide (1024 < k.gsize) || !(k.gang == 1 || k.gang == 2 || k.gang == 4)
  || k.demand == 0 || decide (16 < k.demand) || decide (256 < k.sems) || decide (64 < k.tags) || decide (8 < k.tiles)
  || natAt h 0x0E 2 / 16 != 0 || decide (2097152 < k.scratch) || k.dictLen == 0 || decide (2048 < k.dictLen)
  || decide (64 < hdrYcount h) || k.dictOff % 16 != 0 || k.codeOff % 2 != 0
  || !inCode h (natAt h 0x30 8) || (if hdrFlag h 2 then !inCode h (natAt h 0x38 8) else natAt h 0x38 8 != 0)
  || natAt h 0x54 4 != 0 || natAt h 0x58 8 != 0
  || k.tmap.any (fun b => decide (15 < b.toNat) && b != 0xFF) || natAt h 0x88 120 != 0
  || !within 0 256 || !within k.dictOff (48 * k.dictLen) || !within k.codeOff k.codeSize
  || !within (hdrYoff h) (8 * hdrYcount h) || !within (hdrRelOff h) (16 * hdrRelCount h)

/-- A relocation entry that breaks R416 in a native binary. -/
def relBad (es : List Byte) (off total j : Nat) : Bool :=
  natAt es (16 * j) 8 % 8 != 0 || natAt es (16 * j + 8) 1 != 1 || natAt es (16 * j + 9) 7 != 0
  || decide (total < off + natAt es (16 * j) 8 + 8)

/-- A run of bytes is a bundle with Y = 1. One whose page is not present passes: nothing shows that it breaks R415, and
a dictionary image may come in at the placement (R330, R340). -/
def State.yieldBundle (s : State) (t : Nat) (va : DWord) : Bool :=
  match s.readVa t needR va 48 with
  | .ok bs => (headerOf (bundleOfBytes bs)).y
  | .error e => e.1 == notPresent

/-- The code item at an offset of a binary's code stream names a bundle with Y = 1 (R41). -/
def State.yieldItem (s : State) (t : Nat) (k : Kernel) (off : Nat) : Bool :=
  match s.hubRead t (at64 k.base (k.codeOff + off)) 2 with
  | none => false
  | some it =>
    if leNat it = 0xFFFF then s.yieldBundle t (at64 k.base (k.codeOff + off + 2))
    else decide (leNat it < k.dictLen) && s.yieldBundle t (at64 k.base (k.dictOff + 48 * leNat it))

/-- The runs of bytes that this reads. -/
def State.yieldRuns (s : State) (t : Nat) (k : Kernel) (off : Nat) : List (DWord × Nat) :=
  let item := at64 k.base (k.codeOff + off)
  match s.hubRead t item 2 with
  | none => []
  | some it =>
    [(item, 2), (if leNat it = 0xFFFF then at64 k.base (k.codeOff + off + 2) else at64 k.base (k.dictOff + 48 * leNat it), 48)]

/-- Each yield-table entry names a bundle with Y = 1. -/
def State.yieldsOk (s : State) (t : Nat) (k : Kernel) (h : List Byte) : Bool :=
  match s.hubRead t (at64 k.base (hdrYoff h)) (8 * hdrYcount h) with
  | none => false
  | some es => (List.range (hdrYcount h)).all (fun j =>
      inCode h (natAt es (8 * j) 8) && s.yieldItem t k (natAt es (8 * j) 8))

def State.relocsOk (s : State) (t : Nat) (k : Kernel) (h : List Byte) (off total : Nat) : Bool :=
  match s.hubRead t (at64 k.base (hdrRelOff h)) (16 * hdrRelCount h) with
  | none => false
  | some es => (List.range (hdrRelCount h)).all (fun j => !relBad es off total j)

/-- The kernel of a header at an offset of a fat object, if it keeps R415 and R416. -/
def State.readKernel (s : State) (t : Nat) (code : DWord) (off total : Nat) : Option Kernel :=
  (s.hubRead t (at64 code off) 256).bind (fun h =>
    let k := kernelOf (at64 code off) h
    if kernelBad h off total || !s.relocsOk t k h off total || !s.yieldsOk t k h then none else some k)

/-- The kernel of the binary of class 0x01 of a fat object (R414). -/
def State.readFat (s : State) (t : Nat) (l : Launch) : Option Kernel :=
  if l.cls ≠ 1 then none
  else
    (s.hubRead t l.code 64).bind (fun h =>
      let n := natAt h 6 2
      let total := natAt h 8 8
      if !fatHeaderOk h then none
      else
        (s.hubRead t (at64 l.code 0x40) (16 * n)).bind (fun es =>
          if !fatEntriesOk n total es || (pagesOf l.code total).any (s.outsideDev t) then none
          else
            ((List.range n).find? (fun j => entClass es j == 1)).bind (fun j =>
              (s.readKernel t l.code (entOff es j) total).filter (fun k => k.gsize == l.gsize && k.gang == l.gang))))

/-- The runs of bytes that reading a kernel header takes: the header, and its tables and yield bundles if it is sound. -/
def State.kernelRuns (s : State) (t : Nat) (base : DWord) (off total : Nat) : List (DWord × Nat) :=
  (base, 256) :: (match s.hubRead t base 256 with
    | none => []
    | some h =>
      if kernelBad h off total then []
      else
        let yields := at64 base (hdrYoff h)
        [(at64 base (hdrRelOff h), 16 * hdrRelCount h), (yields, 8 * hdrYcount h)] ++
          (List.range (hdrYcount h)).flatMap (fun j =>
            s.yieldRuns t (kernelOf base h) (leNat ((s.hubRead t (at64 yields (8 * j)) 8).getD []))))

/-- The runs of bytes that reading a fat object takes, whatever comes of it. -/
def State.fatRuns (s : State) (t : Nat) (l : Launch) : List (DWord × Nat) :=
  let h := (s.hubRead t l.code 64).getD []
  let n := natAt h 6 2
  if l.cls ≠ 1 ∨ fatHeaderOk h = false then [(l.code, 64)]
  else
    let es := (s.hubRead t (at64 l.code 0x40) (16 * n)).getD []
    (l.code, 0x40 + 16 * n) :: (match (List.range n).find? (fun j => entClass es j == 1) with
      | some j => s.kernelRuns t (at64 l.code (entOff es j)) (entOff es j) (natAt h 8 8)
      | none => [])

/-- The pages of a fat object whose translation is looked at. -/
def State.fatPages (s : State) (t : Nat) (l : Launch) : List DWord :=
  let h := (s.hubRead t l.code 64).getD []
  if fatHeaderOk h then pagesOf l.code (natAt h 8 8) else []

/-! ### Where groups can stand -/

/-- The island of a core runs and is not to be gated, and takes groups again after an ungating (R440). A change of its
clock does not close it. -/
def State.islandOpen (s : State) (core : Nat) : Bool :=
  let n := islandOf core
  s.field (regIslctl n) 15 1 == 0 && s.field (regIslctl n) 13 2 != 2 && !s.mgmt.waking.contains n

/-- A core accepts placement: its die is Active (R436) and its island is on. -/
def State.coreOpen (s : State) (core : Nat) : Bool := s.dieState (dieOf core) == 2 && s.islandOpen core

/-- Groups of a kernel that one empty core holds (R19, R20, R276, R262). -/
def coreRoom (k : Kernel) : Nat :=
  let share := fun (total each : Nat) => if each = 0 then 16 else total / each
  min 16 (min (1024 / max 1 k.gsize) (min (share 256 (k.demand * ((k.gsize + 31) / 32)))
    (min (share 256 k.semWindow) (min (share 64 k.tagWindow) (min (share 8 k.tiles)
      (min (share 64 k.fmtWindow) (if k.scales then 1 else 16)))))))

/-- Half of a gang's scratchpad region (R202). -/
def Kernel.scrHalf (k : Kernel) : Nat := roundUp k.scratch 0x20000 / 2

/-- Gangs that one empty cluster holds. -/
def clusterRoom (k : Kernel) : Nat :=
  min (4 * coreRoom k / max 1 k.gang) (if k.scrHalf = 0 then 64 else 2 ^ 20 / k.scrHalf)

/-- Groups that a tenant's empty save pool holds (R347). -/
def State.poolRoom (s : State) (t : Nat) (k : Kernel) : Nat :=
  s.field (regSvsize t) 0 32 * 65536 / roundUp (512 * k.gsize) 65536

/-- The grid can be resident at once on the package with no other launch (R331). DESIGN CHOICE (log entry 23): cores that
accept no placement, on gated or waking islands and on dies that are not Active, do not count. -/
def State.coopFits (s : State) (t : Nat) (l : Launch) (k : Kernel) : Bool :=
  let open_ := ((List.range 192).filter (fun c => s.coreOpen (4 * c))).length
  decide (l.grid ≤ open_ * clusterRoom k * k.gang) && (!s.poolOn t || decide (l.grid ≤ s.poolRoom t k))

/-! ### Acceptance (R324, R325) -/

/-- Bits [15:0] of the live launches. -/
def State.liveLow (s : State) : List Nat := (s.launches.filter (fun l => l.live)).map (fun l => l.id % 65536)

/-- The next identifier. -/
def State.freshLaunch (s : State) : Nat :=
  let low := 0 :: s.liveLow
  s.sched.nextId + ((List.range 65536).find? (fun k => !low.contains ((s.sched.nextId + k) % 65536))).getD 0

/-- The refusal of a packet for a tenant before its code is read, if any (R324). -/
def State.earlyRefusal (s : State) (tenant : Nat) (l : Launch) : Option Nat :=
  if s.mgmt.fatal.isSome then some 0x07
  else if l.malformed then some 0x01
  else if l.tenant ≠ tenant ∨ s.tenantOn tenant = false then some 0x02
  else if s.field (regTencfg tenant) 8 3 < l.prio then some 0x03
  else none

/-- The refusal of a packet for a tenant, if any (R324). -/
def State.packetRefusal (s : State) (tenant : Nat) (l : Launch) : Option Nat :=
  match s.earlyRefusal tenant l with
  | some c => some c
  | none => match s.readFat tenant l with
    | none => some 0x04
    | some k =>
      if l.coop && !s.coopFits tenant l k then some 0x05
      else if 65535 ≤ s.liveLow.length then some 0x06
      else none

/-- A result word that carries a refusal code. -/
def refusalWord (code : Nat) : DWord := BitVec.ofNat 64 (2 ^ 63 + code)

/-- The launch of an accepted packet. -/
def newLaunch (s : State) (l : Launch) (k : Kernel) : Launch :=
  { id := s.freshLaunch, words := l.words, accepted := s.now, firstPlaced := none, kernel := k,
    waits := ((s.launches.filter (fun m => m.live && (l.pre 0 != 0 && m.id % 2 ^ 32 == l.pre 0 ||
      l.pre 1 != 0 && m.id % 2 ^ 32 == l.pre 1))).map (fun m => m.id)),
    cond := l.mmode == 0, condReq := none, recReq := none, ready := none, nextGroup := 0, ended := 0, status := none, badGid := 0,
    detail := 0, voids := 0, live := true, done := none }

/-- A byte can be read through a tenant's translation. -/
def State.translates (s : State) (t : Nat) (va : DWord) : Bool :=
  match s.xlate t needR va with
  | .ok _ => true
  | .bad _ _ => false

/-- The hub reads runs of bytes: it marks their pages (R373), and a copy in M is written back (R363). -/
def State.markReads (s : State) (t : Nat) (rs : List (DWord × Nat)) : State :=
  rs.foldl (fun s r => s.sawVa t needR r.1 r.2)
    (((rs.flatMap (fun r => pagesOf r.1 r.2)).filter (s.translates t)).foldl (fun s va => s.markUsed t false va) s)

/-- The locations of a run of a tenant's bytes, one for each line that it touches. -/
def State.runLines (s : State) (t : Nat) (r : DWord × Nat) : List Nat :=
  if r.2 = 0 then []
  else (List.range ((r.2 + 127) / 128 + 1)).filterMap (fun k =>
    match s.xlate t needR (r.1 + BitVec.ofNat 64 (min (128 * k) (r.2 - 1))) with
    | .ok (.here pa _) => some pa
    | _ => none)

/-- What the hub's reads wait for: A bits (R373, R383), host copies (R400). -/
def State.readsWait (s : State) (t : Nat) (rs : List (DWord × Nat)) : Option WaitOn :=
  ((rs.flatMap (fun r => pagesOf r.1 r.2)).findSome? (s.tenantMarkWaits t false)).orElse (fun _ =>
    (rs.flatMap (s.runLines t)).findSome? (fun l => s.readWaits l 1))

/-- A line that the hub would read is owned by a command (R311). -/
def State.readsOwned (s : State) (t : Nat) (rs : List (DWord × Nat)) : Bool :=
  (rs.flatMap (s.runLines t)).any (fun l => s.owned l 1)

/-- Drop the fetch copies of a kernel's code stream in every core (R418), whatever its pages permit. -/
def State.dropStream (s : State) (t : Nat) (k : Kernel) : State :=
  let first := at64 k.base k.codeOff
  let blocks := (List.range ((first.toNat % 64 + k.codeSize + 63) / 64)).filterMap (fun j =>
    let va := (first.toNat / 64 + j) * 64
    match s.leafFor t va with
    | some (p, level) => match s.paKind (leafPa p level va) with
      | .dev off => some (off / 64)
      | _ => none
    | none => none)
  s.dropCode (fun _ => true) (fun b => blocks.contains b)

/-- What the hub waits for before it takes a packet. -/
def State.takeWaits (s : State) (tenant : Nat) (ws : List DWord) : Option WaitOn :=
  if (s.earlyRefusal tenant (packetLaunch ws)).isSome then none
  else (s.readsWait tenant (s.fatRuns tenant (packetLaunch ws))).orElse (fun _ =>
    (s.fatPages tenant (packetLaunch ws)).findSome? (fun va => s.leafWait hubTlb tenant false va.toNat))

/-- The hub may take a packet now. -/
def State.canTake (s : State) (tenant : Nat) (ws : List DWord) : Bool :=
  (s.earlyRefusal tenant (packetLaunch ws)).isSome ||
    ((s.takeWaits tenant ws).isNone && !s.readsOwned tenant (s.fatRuns tenant (packetLaunch ws)))

/-! ### The memory condition (R326) -/

/-- Whether a word meets a condition. -/
def condMet (l : Launch) (v : Nat) : Bool :=
  if l.mmode = 1 then decide (l.mval ≤ v) else if l.mmode = 2 then v == l.mval else if l.mmode = 3 then v != l.mval else true

/-- The launch's condition is still to be met. -/
def Launch.waitsCond (l : Launch) : Bool := l.live && !l.cond && l.status.isNone

/-- A request that a launch waits on is still open. -/
def State.launchHeld (s : State) (l : Launch) : Bool := l.condReq.any (fun n => s.reqs.any (fun q => q.id == n))

/-- Evaluate the condition of a launch. -/
def State.evalCond (s : State) (l : Launch) : State :=
  if !l.waitsCond || s.launchHeld l then s
  else
    match s.xlate l.tenant needR l.maddr with
    | .ok (.here pa _) =>
      let w := (s.tenantMarkWaits l.tenant false l.maddr).orElse (fun _ => s.readWaits pa 4)
      if w.isSome then s.askFor w
      else if s.owned pa 4 then s
      else
        let z := (s.markUsed l.tenant false l.maddr).homeReads pa 4
        if condMet l (leNat (s.bytes pa 4)) then z.modLaunch l.id (fun l => { l with cond := true }) else z
    | .ok _ => s.endLaunch l.id 0x08 0 l.maddr
    | .bad c r =>
      if c = 0x0C ∧ r = 0 then
        let z := s.raise l.tenant l.maddr .read
        z.1.modLaunch l.id (fun l => { l with condReq := z.2 })
      else s.endLaunch l.id 0x08 0 l.maddr

/-- A launch whose prerequisites and condition are met becomes ready. -/
def State.settleReady (s : State) : State :=
  { s with launches := s.launches.map (fun (l : Launch) =>
      if l.live && l.ready.isNone && l.status.isNone && l.cond && l.waits.isEmpty then { l with ready := some s.now } else l) }

/-- Evaluate the condition of every launch that waits for one. -/
def State.settleConds (s : State) : State :=
  ((s.launches.map (fun l => l.id)).foldl (fun s n => match s.findLaunch n with
    | some l => s.evalCond l
    | none => s) s).settleReady

/-- Accept or refuse a packet: the result word, and the new launch if there is one. A refused packet changes no state. -/
def State.accept (s : State) (tenant : Nat) (ws : List DWord) : State × DWord :=
  let l := packetLaunch ws
  match s.packetRefusal tenant l, s.readFat tenant l with
  | some c, _ => (s, refusalWord c)
  | none, none => (s, refusalWord 0x04)
  | none, some k =>
    let n := newLaunch s l k
    let s := (s.markReads tenant (s.fatRuns tenant l)).dropStream tenant k
    let s := { s with launches := s.launches ++ [n], sched := { s.sched with nextId := n.id + 1 } }
    ((s.evalCond n).settleReady, BitVec.ofNat 64 n.id)

/-- MEMORY_CONDITION_POLL (R326). -/
def execMemoryConditionPoll (launch : Nat) (s : State) : Out :=
  match s.findLaunch launch with
  | none => .next s
  | some l => .next (s.evalCond l).settleReady

/-! ### Launch windows (R323) -/

def cellKey (tenant : BitVec 6) (cell : BitVec 5) : Nat := tenant.toNat * 32 + cell.toNat
def State.cell (s : State) (k : Nat) : Cell := spGet (fun _ => Cell.reset) s.sched.cells k
def State.setCell (s : State) (k : Nat) (c : Cell) : State :=
  { s with sched := { s.sched with cells := spSet (fun _ => Cell.reset) s.sched.cells k c } }

/-- Only naturally aligned 8-byte accesses reach hub register space (R431). -/
def wordAccess (off len : Nat) : Bool := off % 8 == 0 && len == 8

/-- A write to a cell. -/
def State.writeCell (s : State) (k off : Nat) (bytes : List Byte) : State :=
  if 0x40 ≤ off then s
  else
    let c := s.cell k
    s.setCell k { c with packet := spSetN (fun _ => 0) c.packet off bytes, taken := false }

/-- LAUNCH_WINDOW_WRITE (R323). -/
def execLaunchWindowWrite (tenant : BitVec 6) (cell : BitVec 5) (off : BitVec 7) (bytes : List (BitVec 8)) (s : State) :
    Out :=
  if wordAccess off.toNat bytes.length then .next (s.writeCell (cellKey tenant cell) off.toNat bytes) else .next s

/-- The packet that stands in a cell. -/
def Cell.words (c : Cell) : List DWord := packetWords (spGetN (fun _ => 0) c.packet 0 64)

/-- The 64 bytes of a result. -/
def resultBytes (word : DWord) (now : Nat) : List Byte :=
  leBytes 8 word.toNat ++ leBytes 8 (if word.getLsbD 63 then 0 else now) ++ List.replicate 48 0

/-- The read that takes a packet. -/
def State.takeCell (s : State) (tenant k : Nat) : State :=
  let z := s.accept tenant (s.cell k).words
  let c := z.1.cell k
  z.1.setCell k { c with result := spSetN (fun _ => 0) c.result 0 (resultBytes z.2 s.now), taken := true }

/-- LAUNCH_WINDOW_READ (R323). -/
def execLaunchWindowRead (tenant : BitVec 6) (cell : BitVec 5) (off : BitVec 7) (len : Nat) (s : State) : Out :=
  let k := cellKey tenant cell
  if !wordAccess off.toNat len then .next (s.send (.windowReply (List.replicate len 0)))
  else if off.toNat < 0x40 then .next (s.send (.windowReply (spGetN (fun _ => 0) (s.cell k).packet off.toNat 8)))
  else if !(s.cell k).taken && !s.canTake tenant.toNat (s.cell k).words then
    .next (s.askFor (s.takeWaits tenant.toNat (s.cell k).words))
  else
    let s := if (s.cell k).taken then s else s.takeCell tenant.toNat k
    .next (s.send (.windowReply (spGetN (fun _ => 0) (s.cell k).result (off.toNat - 0x40) 8)))

/-! ### LAUNCH batches (R224) -/

/-- The fence that a lane's release waits as (R224). -/
def Batch.fence (b : Batch) : PendFence := ⟨.rel, max 3 b.scope, b.upTo, none⟩

/-- What the batch's release waits for has completed, and no batch of its core before it is left (R224). -/
def State.batchFree (s : State) (b : Batch) : Bool :=
  b.lanes.all (fun l => s.fenceDone b.core l.2.1 b.fence)
  && s.sched.batches.all (fun c => !(c.core == b.core && decide (c.upTo < b.upTo)))

/-- The packet of a lane as it stands at the home. -/
def State.batchPacket (s : State) (l : Nat × Nat × Nat) : List DWord := packetWords (s.bytes l.2.2 64)

/-- What reading and taking the packets waits for that has to be asked for. -/
def State.batchWaits (s : State) (t : Nat) (b : Batch) : Option WaitOn :=
  b.lanes.findSome? (fun l => (s.readWaits l.2.2 64).orElse (fun _ => s.takeWaits t (s.batchPacket l)))

/-- The hub may read and take every packet now. -/
def State.batchReady (s : State) (t : Nat) (b : Batch) : Bool :=
  b.lanes.all (fun l => !s.owned l.2.2 64 && s.canTake t (s.batchPacket l))

/-- Handle one lane's packet: its access takes the identifier or the refusal. -/
def State.takeLane (s : State) (tenant : Nat) (l : Nat × Nat × List DWord) : State :=
  let z := s.accept tenant l.2.2
  z.1.answerHub l.1 l.2.1 (z.2.zeroExtend 128)

/-- The hub reads the packets and takes the batch as one unit. -/
def State.takeBatch (s : State) (t : Nat) (b : Batch) : State :=
  let s' := b.lanes.foldl (fun s l => s.homeReads l.2.2 64)
    { s with sched := { s.sched with batches := s.sched.batches.filter (fun c => c.id != b.id) } }
  (b.lanes.map (fun l => (l.1, l.2.1, s.batchPacket l))).foldl (fun s l => s.takeLane t l) s'

/-- LAUNCH_BATCH_ACCEPT (R224): once the release is satisfied the core's dirty local lines are written back, and the hub
reads the packets at their home. -/
def execLaunchBatchAccept (batch : Nat) (s : State) : Out :=
  match s.sched.batches.find? (fun b => b.id == batch) with
  | none => .next s
  | some b =>
    let t := (s.group b.group).tenant
    let w := s.l1Waits b.core (fun _ => true)
    if w.isSome then .next (s.askFor w)
    else if !s.batchFree b then .next s
    else
      let s := s.writebackL1 b.core (fun _ => true)
      if (s.batchWaits t b).isSome then .next (s.askFor (s.batchWaits t b))
      else if !s.batchReady t b then .next s
      else .next (s.takeBatch t b)

/-! ### Queues (R328) -/

def queueKey (tenant level : Nat) : Nat := tenant * 8 + level

/-- The queue of a (tenant, level) pair; at first it stands at its own level. -/
def State.queue (s : State) (k : Nat) : Queue := spGet (fun k => ⟨k % 8, 0⟩) s.sched.queues k
def State.setQueue (s : State) (k : Nat) (q : Queue) : State :=
  { s with sched := { s.sched with queues := spSet (fun k => ⟨k % 8, 0⟩) s.sched.queues k q } }

/-- Saved groups of a launch. -/
def State.savedGroups (s : State) (launch : Nat) : List Nat :=
  (s.groups.filter (fun g => g.2.launch == launch && g.2.place == .saved)).map (fun g => g.1)

/-- A ready launch that still has groups to place or restore. -/
def State.queued (s : State) (l : Launch) : Bool :=
  l.live && l.status.isNone && l.ready.isSome && (decide (l.nextGroup < l.grid) || !(s.savedGroups l.id).isEmpty)

/-- The launches of a queue in identifier order. -/
def State.queueOf (s : State) (tenant level : Nat) : List Launch :=
  sortByKey (fun l => l.id) (s.launches.filter (fun l => s.queued l && l.tenant == tenant && l.prio == level))

/-- QUEUE_AGING (R328): the queue has waited AGEL of its effective level. -/
def execQueueAging (tenant : BitVec 6) (level : BitVec 3) (s : State) : Out :=
  let k := queueKey tenant.toNat level.toNat
  let q := s.queue k
  match s.queueOf tenant.toNat level.toNat with
  | [] => .next s
  | l :: _ =>
    let age := s.field (regAgel q.eff) 0 32
    let due := max (l.ready.getD 0) q.since + age
    if age ≠ 0 ∧ q.eff < 7 ∧ due ≤ s.now then .next (s.setQueue k ⟨q.eff + 1, due⟩) else .next s

end Sys2Proof.Machine
end

