-- ==== Sys2Proof/Machine/Placement.lean ====
section
/-! DEFINITION. Placement (14 R328 to R331): which gang is placed next, where it fits (01 R19, R20, 08 R202, R205, 12
R276, 15 R347), the dictionary load, and what a placed group begins with (05 R134). -/

namespace Sys2Proof.Machine

/-! ### What a core holds -/

/-- Groups of a core at a place. -/
def State.groupsAt (s : State) (core : Nat) (p : Place) : List Group :=
  (s.groups.filter (fun g => !isService g.1 && g.2.core == core && g.2.place == p)).map (fun g => g.2)

/-- Groups placed on a core: resident or parked (R332). -/
def State.placedOn (s : State) (core : Nat) : List Group := s.groupsAt core .resident ++ s.groupsAt core .parked

/-- The cores of a cluster. -/
def coresOf (cluster : Nat) : List Nat := (List.range 4).map (fun k => 4 * cluster + k)

/-- No group is placed on a cluster. -/
def State.clusterEmpty (s : State) (cluster : Nat) : Bool := (coresOf cluster).all (fun c => (s.placedOn c).isEmpty)

/-- The lowest aligned place between two bounds that meets none of the used runs (R20, R347). -/
def firstFit (used : List (Nat × Nat)) (lo hi size align : Nat) : Option Nat :=
  if size = 0 then some lo
  else
    leastBy (fun a => a) ((lo :: used.map (fun u => roundUp (u.1 + u.2) align)).filter (fun a =>
      decide (lo ≤ a) && decide (a + size ≤ hi) && used.all (fun u => !overlaps a size u.1 u.2)))

/-- Places of a group's windows in its core's files. -/
structure Windows where
  sem : Nat
  tag : Nat
  tile : Nat
  fmt : Nat
  deriving DecidableEq, Repr, Inhabited

/-- Free windows for a kernel (R20). -/
def State.windowsFor (s : State) (core : Nat) (k : Kernel) : Option Windows :=
  let gs := s.groupsAt core .resident
  let fit := fun (at_ : Group → Nat) (size : Kernel → Nat) (total : Nat) =>
    firstFit ((gs.filter (fun g => size g.kernel != 0)).map (fun g => (at_ g, size g.kernel))) 0 total (size k) 1
  match fit (fun g => g.semAt) Kernel.semWindow 256, fit (fun g => g.tagAt) Kernel.tagWindow 64,
        fit (fun g => g.tileAt) (fun k => k.tiles) 8, fit (fun g => g.fmtAt) Kernel.fmtWindow 64 with
  | some a, some b, some c, some d => some ⟨a, b, c, d⟩
  | _, _, _, _ => none

/-- Live threads of the resident groups of a core. -/
def State.threadsOn (s : State) (core : Nat) : Nat :=
  (s.threads.filter (fun t => t.2.live && !isService t.2.group && (s.group t.2.group).core == core
    && (s.group t.2.group).place == .resident)).length

/-- A core accepts a group of some threads that needs some blocks of each lane bank (R330); the slots of threads that exit
in this cycle are free from the next (R130). -/
def State.roomFor (s : State) (core threads : Nat) (need : Nat → Nat) : Bool :=
  s.coreOpen core && decide ((s.groupsAt core .resident).length < 16) && decide (s.threadsOn core + s.slotsLeaving core + threads ≤ 1024)
  && (List.range 32).all (fun l => decide (need l ≤ s.blocksFree core l))

/-- Blocks that entry frames need in a lane bank (R276). -/
def entryBlocks (k : Kernel) (lane : Nat) : Nat := k.demand * ((k.gsize + 31 - lane) / 32)

/-- The latches and the pattern store admit a kernel's group (R175, R262). -/
def State.sharesWell (s : State) (core launch : Nat) (k : Kernel) : Bool :=
  (!k.scales || (s.groupsAt core .resident).all (fun g => !g.kernel.scales))
  && (!k.pattern || (s.placedOn core).all (fun g => !g.kernel.pattern || g.launch == launch))

/-- A bank holds a kernel: the last load into it was of this image, whole (R40, R330). -/
def State.bankHolds (s : State) (core tenant : Nat) (k : Kernel) (b : Bool) : Bool :=
  let d := (s.core core).bank b
  d.kernel == some (kernelKey tenant k.base) && d.len == k.dictLen && !d.loading

/-- The bank for a kernel, and whether it has to be loaded: a bank bound to the kernel, else one with no placed group,
first one that still holds the kernel. -/
def State.bankFor (s : State) (core tenant : Nat) (k : Kernel) : Option (Bool × Bool) :=
  let free := fun (b : Bool) => !s.bankBound core b && !((s.core core).bank b).loading
  let holds := s.bankHolds core tenant k
  match [false, true].find? (fun b => s.bankBound core b && holds b), [false, true].find? (fun b => free b && holds b),
        [false, true].find? free with
  | some b, _, _ => some (b, false)
  | none, some b, _ => some (b, false)
  | none, none, some b => some (b, true)
  | none, none, none => none

/-- A group's place on a core. -/
structure Seat where
  windows : Windows
  bank : Bool
  load : Bool
  deriving DecidableEq, Repr, Inhabited

/-- Whether and where a group fits on a core. -/
def State.seat (s : State) (core launch tenant : Nat) (k : Kernel) (threads : Nat) (need : Nat → Nat) : Option Seat :=
  if s.roomFor core threads need && s.sharesWell core launch k then
    match s.windowsFor core k, s.bankFor core tenant k with
    | some w, some b => some ⟨w, b.1, b.2⟩
    | _, _ => none
  else none

/-- A new group of a launch. -/
def State.seatNew (s : State) (l : Launch) (core : Nat) : Option Seat :=
  s.seat core l.id l.tenant l.kernel l.kernel.gsize (entryBlocks l.kernel)

/-! ### What a gang needs of its cluster -/

/-- Bases of a free region in the halves of a cluster's window: a gang's region is free when its last group has ended or
when a context save holds it (R202, R355). -/
def State.regionFor (s : State) (cluster half : Nat) : Option (Nat × Nat) :=
  let gs := (s.groups.filter (fun g => g.2.region == some cluster && g.2.place != .ended)).map (fun g => g.2)
  match firstFit (gs.map (fun g => (g.scrBase0, g.scrHalf))) 0 (2 ^ 20) half 65536,
        firstFit (gs.map (fun g => (g.scrBase1, g.scrHalf))) 0 (2 ^ 20) half 65536 with
  | some a, some b => some (a, b)
  | _, _ => none

def State.fused (s : State) (cluster : Nat) : Bool := spGet (fun _ => false) s.sched.fused cluster

/-- The cluster is in a mode, or can change to it (R205, R330). -/
def State.modeOk (s : State) (cluster : Nat) (fuse : Bool) : Bool := s.fused cluster == fuse || s.clusterEmpty cluster

/-- The local lines of a core's L1 are written back and leave it. A group that comes to a core reads what its
prerequisites' completions, or its own accesses elsewhere, have made visible (R319, R326). -/
def State.freshL1 (s : State) (core : Nat) : State := (s.writebackL1 core (fun _ => true)).discardL1 core (fun _ => true)

/-- What that waits for, for the cores that take groups, or for a whole cluster whose mode changes. -/
def State.freshWaits (s : State) (cores : List Nat) (fuse : Bool) : Option WaitOn :=
  (cores.flatMap (fun c => if s.fused (clusterOf c) == fuse then [c] else coresOf (clusterOf c))).findSome? (fun c =>
    s.l1Waits c (fun _ => true))

/-- An engine command owns a line that would be written back (R311). -/
def State.freshOwned (s : State) (cores : List Nat) : Bool :=
  (cores.flatMap (fun c => coresOf (clusterOf c))).any (fun c => s.ownedDirty c (fun _ => true))

/-- No copy of a tracked line stays in a cluster's L1s: one in M is written back, and goes (R205, R363). -/
def State.dropCopies (s : State) (cluster : Nat) : State :=
  (coresOf cluster).foldl (fun s c => s.modCore c (fun k => { k with hints := [] }))
    { s with dir := s.dir.filter (fun q => !(coresOf cluster).contains (q.1 / 2 ^ 33)) }

/-- Put a cluster into a mode; a change writes back and invalidates its L1s. -/
def State.setMode (s : State) (cluster : Nat) (fuse : Bool) : State :=
  if s.fused cluster = fuse then s
  else
    let s := ((coresOf cluster).foldl (fun s c => s.freshL1 c) s).dropCopies cluster
    { s with sched := { s.sched with fused := spSet (fun _ => false) s.sched.fused cluster fuse } }

/-- The lowest free place in a tenant's save pool (R347). -/
def State.poolFit (s : State) (t size align : Nat) : Option Nat :=
  let base := s.field (regSvbase t) 16 48 * 65536
  firstFit ((s.sched.pool.filter (fun p => p.1 == t)).map (fun p => p.2)) base
    (base + s.field (regSvsize t) 0 32 * 65536) size align

def State.takePool (s : State) (t addr size : Nat) : State :=
  { s with sched := { s.sched with pool := s.sched.pool ++ [(t, addr, size)] } }

/-- A tenant's pool has room for some fixed parts, or is disabled. -/
def State.poolHas (s : State) (t size : Nat) : Nat → Bool
  | 0 => true
  | n + 1 =>
    !s.poolOn t || (match s.poolFit t size 65536 with
      | some a => (s.takePool t a size).poolHas t size n
      | none => false)

/-- An unplaced gang of a launch is placeable on a cluster (R330). -/
def State.placeableOn (s : State) (l : Launch) (cluster : Nat) : Bool :=
  s.modeOk cluster l.fuse && (s.regionFor cluster l.kernel.scrHalf).isSome
  && decide (l.gang ≤ ((coresOf cluster).filter (fun c => (s.seatNew l c).isSome)).length)
  && s.poolHas l.tenant (512 * l.kernel.gsize) l.gang

/-! ### Placing a group -/

/-- A group as it begins. -/
def newGroup (s : State) (l : Launch) (gid core : Nat) (p : Seat) (region : Nat × Nat) (fixed : Option Nat) : Group :=
  { Group.none with
    launch := l.id, gid := gid, core := core, member := gid % l.gang, tenant := l.tenant, prio := l.prio,
    kernel := l.kernel, place := .resident, sems := s.image? (groupKey l.id gid),
    semSat := s.sched.imageSat.contains (groupKey l.id gid), semBase := s.image? (groupKey l.id gid),
    satBase := s.sched.imageSat.contains (groupKey l.id gid), tags := lowMask l.kernel.tagWindow,
    tagBase := lowMask l.kernel.tagWindow,
    fmt := if l.kernel.tiles = 0 then [] else
      ((List.range 16).zip l.kernel.fmt).foldl (fun m q => spSet (fun _ => (0, 0)) m q.1 q.2) [],
    dbank := p.bank, scrBase0 := region.1, scrBase1 := region.2, scrHalf := l.kernel.scrHalf,
    region := if l.kernel.scrHalf = 0 then none else some (clusterOf core), fixedPart := fixed,
    semAt := p.windows.sem, tagAt := p.windows.tag, tileAt := p.windows.tile, fmtAt := p.windows.fmt }

/-- A thread as it begins (R134, R276). -/
def newThread (l : Launch) (key tid : Nat) : Thread :=
  { Thread.none with group := key, tid := tid, x := spSet (fun _ => 0) [] 1 l.args,
                     frames := [⟨l.kernel.demand, [], false⟩], pc := l.kernel.entry, live := true }

/-- Allocate a group's fixed part when its tenant's pool is enabled. -/
def State.takeFixed (s : State) (t size : Nat) : Option (State × Option Nat) :=
  if s.poolOn t then (s.poolFit t size 65536).map (fun a => (s.takePool t a size, some a)) else some (s, none)

/-- Load a bank for a kernel. -/
def State.bindBank (s : State) (core tenant : Nat) (k : Kernel) (p : Seat) (dict : Sparse (BitVec 384)) : State :=
  if p.load then
    s.modCore core (fun c => c.setBank p.bank ⟨k.dictLen, some (kernelKey tenant k.base), dict, false⟩)
  else s

/-- A flagged group finds every latch at 127 (R262). -/
def State.clearLatches (s : State) (core : Nat) (k : Kernel) : State :=
  if k.scales then s.modCore core (fun c => { c with latches := [] }) else s

/-- Place one group on a core. -/
def State.placeGroup (s : State) (l : Launch) (gid core : Nat) (region : Nat × Nat) (dict : Sparse (BitVec 384)) :
    Option State :=
  match s.seatNew l core, s.takeFixed l.tenant (512 * l.kernel.gsize) with
  | some p, some (s, fixed) =>
    let key := groupKey l.id gid
    let s := (s.bindBank core l.tenant l.kernel p dict).clearLatches core l.kernel
    let s := s.setGroup key (newGroup s l gid core p region fixed)
    let s := (List.range 8).foldl (fun s tb => s.mapTable key core tb (l.kernel.tmap.getD tb 0xFF)) s
    let tids := List.range l.kernel.gsize
    let s := tids.foldl (fun s k => s.setThread (threadKey key k) (newThread l key k)) s
    let s := { s with sched := { s.sched with images := spErase s.sched.images key,
                                              imageSat := s.sched.imageSat.filter (fun n => n != key) } }
    some (s.fileAll core key (tids.map (fun k => (k % 32, threadKey key k, l.kernel.entry))))
  | _, _ => none

/-- An offset among the scratchpad windows lies in a region. -/
def inRegion (cluster half : Nat) (region : Nat × Nat) (a : Nat) : Bool :=
  let at0 := cluster * 2 ^ 21 + region.1
  let at1 := cluster * 2 ^ 21 + 2 ^ 20 + region.2
  (decide (at0 ≤ a) && decide (a < at0 + half)) || (decide (at1 ≤ a) && decide (a < at1 + half))

/-- A region reads as zero when its gang is placed (R202): no write of an earlier gang is left to reach it. -/
def State.clearRegion (s : State) (cluster half : Nat) (region : Nat × Nat) : State :=
  { s with scr := s.scr.filter (fun q => !inRegion cluster half region q.1),
           cores := s.cores.map (fun (c : Nat × Core) => (c.1, { c.2 with writes := c.2.writes.filter (fun w =>
             !(isScr w.addr && inRegion cluster half region (w.addr - 2 ^ 60))) })) }

/-- Numbers from one on. -/
def countFrom (n : Nat) (l : List Nat) : List (Nat × Nat) := ((List.range l.length).map (fun k => n + k)).zip l

/-- Place a gang's groups on its cores, in order. -/
def placeAll (s : State) (l : Launch) (region : Nat × Nat) (dict : Sparse (BitVec 384)) :
    List (Nat × Nat) → Option State
  | [] => some s
  | (gid, core) :: rest =>
    match s.placeGroup l gid core region dict with
    | some s' => placeAll s' l region dict rest
    | none => none

/-- Cores that a gang may take: distinct, of one cluster, one per group (R17). -/
def gangCores (n : Nat) (cores : List Nat) : Bool :=
  cores.length == n && cores.eraseDups.length == n && cores.all (fun c => clusterOf c == clusterOf (cores.headD 0))
  && cores.all (fun c => decide (c < 768))

/-- Place one gang. -/
def State.placeGang (s : State) (l : Launch) (gid : Nat) (cores : List Nat) (dict : Sparse (BitVec 384)) : Option State :=
  let cluster := clusterOf (cores.headD 0)
  if !gangCores l.gang cores || !s.modeOk cluster l.fuse then none
  else match s.regionFor cluster l.kernel.scrHalf with
    | none => none
    | some r =>
      placeAll ((cores.foldl (fun s c => s.freshL1 c) (s.setMode cluster l.fuse)).clearRegion cluster l.kernel.scrHalf r) l
        r dict (countFrom gid cores)

/-- Place gangs one after another, each on the next cores of the list. -/
def placeGangs (s : State) (l : Launch) (gid : Nat) (cores : List Nat) (dict : Sparse (BitVec 384)) : Nat → Option State
  | 0 => some s
  | n + 1 =>
    match s.placeGang l gid (cores.take l.gang) dict with
    | some s' => placeGangs s' l (gid + l.gang) (cores.drop l.gang) dict n
    | none => none

/-! ### Cooperative launches (R331) -/

/-- Groups of a launch that a core can still take. -/
def coreTakes (s : State) (l : Launch) (core gid : Nat) : Nat → Nat
  | 0 => 0
  | n + 1 =>
    match s.placeGroup l gid core (0, 0) [] with
    | some s' => 1 + coreTakes s' l core (gid + 1) n
    | none => 0

/-- Gangs of a size that cores with some capacities can take. -/
def gangsOf (size : Nat) (caps : List Nat) : Nat :=
  ((List.range 65).filter (fun m => decide (size * m ≤ (caps.map (fun c => min c m)).sum))).foldl max 0

/-- Regions of a size that a cluster can still take. -/
def regionsLeft (s : State) (cluster half : Nat) (probe : Group) : Nat → Nat
  | 0 => 0
  | n + 1 =>
    match s.regionFor cluster half with
    | none => 0
    | some r =>
      1 + regionsLeft (s.setGroup (2 ^ 59 + n) { probe with place := .parked, region := some cluster, scrBase0 := r.1,
                                                            scrBase1 := r.2, scrHalf := half }) cluster half probe n

/-- Gangs of a launch that a cluster can take at once. -/
def State.clusterTakes (s : State) (l : Launch) (cluster : Nat) : Nat :=
  if s.modeOk cluster l.fuse then
    min (gangsOf l.gang ((coresOf cluster).map (fun c => coreTakes s l c 0 16)))
      (if l.kernel.scrHalf = 0 then 64 else regionsLeft s cluster l.kernel.scrHalf Group.none 16)
  else 0

/-- A cooperative launch can be placed whole. -/
def State.coopPlaceable (s : State) (l : Launch) : Bool :=
  decide (l.grid ≤ l.gang * ((List.range 192).map (s.clusterTakes l)).sum)
  && s.poolHas l.tenant (512 * l.kernel.gsize) l.grid

/-! ### Saved gangs (R333, R355) -/

/-- The groups that are restored together: of the gang, or of the whole launch when it is cooperative; every one of
them that has not ended is saved. -/
def State.restoreSet (s : State) (k : Nat) : Option (List Nat) :=
  let g := s.group k
  let la := s.launchOf k
  let mates := (s.groups.filter (fun q => q.2.launch == g.launch && !isService q.1 && q.2.place != .ended
    && (la.coop || q.2.gid / la.gang == g.gid / la.gang))).map (fun q => q.1)
  if mates.all (fun m => (s.group m).place == .saved) then some mates else none

/-- Blocks that the resident frames of a group need in a lane bank (R293). -/
def State.frameNeed (s : State) (k lane : Nat) : Nat :=
  (s.threads.map (fun t => if t.2.group = k ∧ t.2.live ∧ t.2.tid % 32 = lane then
    (t.2.frames.map (fun f => if f.spilled then 0 else f.size)).sum else 0)).sum

/-- A saved group fits on a core. -/
def State.seatSaved (s : State) (k core : Nat) : Option Seat :=
  let g := s.group k
  s.seat core g.launch g.tenant g.kernel (s.liveThreads k).length (s.frameNeed k)

/-- The accesses of a saved group have performed, and its operations have completed (R319). -/
def State.groupQuiet (s : State) (k : Nat) : Bool :=
  s.cores.all (fun c => c.2.writes.all (fun w => groupOfThread w.thread != k))
  && s.fab.ops.all (fun o => o.group != k)

/-- The gang index of a group. -/
def State.gangOf (s : State) (k : Nat) : Nat := (s.group k).gid / (s.launchOf k).gang

/-- Groups of one launch, gang by gang. -/
def State.inGangs (s : State) (ks : List Nat) : List (List Nat) :=
  ((ks.map s.gangOf).eraseDups).map (fun n => ks.filter (fun k => s.gangOf k == n))

/-- Where the region of a saved gang stands on a cluster: where it has stayed, or in a free place (R202). -/
def State.savedRegion (s : State) (ks : List Nat) (cluster : Nat) : Option (Nat × Nat) :=
  let g := s.group (ks.headD 0)
  match g.region with
  | some c => if c = cluster then some (g.scrBase0, g.scrBase1) else none
  | none => s.regionFor cluster g.scrHalf

/-- The groups of a saved gang in seats on a cluster, each on a core of its own; a region that no context save holds keeps
the gang on its cluster (R17). -/
def State.savedSeats (s : State) (cluster : Nat) : List Nat → List Nat → Option State
  | [], _ => some s
  | k :: rest, used =>
    (coresOf cluster).findSome? (fun c =>
      if used.contains c then none
      else match s.seatSaved k c with
        | some p => (s.modGroup k (fun g =>
            { g with place := .resident, core := c, dbank := p.bank, semAt := p.windows.sem, tagAt := p.windows.tag,
                     tileAt := p.windows.tile, fmtAt := p.windows.fmt })).savedSeats cluster rest (c :: used)
        | none => none)

/-- The state with a saved gang in its seats on a cluster, as far as the fit of another depends on it. -/
def State.savedPut (s : State) (ks : List Nat) (cluster : Nat) : Option State :=
  let fuse := (s.launchOf (ks.headD 0)).fuse
  match s.modeOk cluster fuse, s.savedRegion ks cluster with
  | true, some r =>
    let s := ks.foldl (fun s k => s.modGroup k (fun g =>
      { g with region := if g.scrHalf = 0 then none else some cluster, scrBase0 := r.1, scrBase1 := r.2 })) s
    { s with sched := { s.sched with fused := spSet (fun _ => false) s.sched.fused cluster fuse } }.savedSeats cluster ks []
  | _, _ => none

/-- A saved gang is placeable on a cluster. -/
def State.savedFits (s : State) (ks : List Nat) (cluster : Nat) : Bool := (s.savedPut ks cluster).isSome

/-- Saved gangs that are restored together fit together. -/
def State.savedAll (s : State) : List (List Nat) → Bool
  | [] => true
  | ks :: rest => match (List.range 192).findSome? (s.savedPut ks) with
    | some t => t.savedAll rest
    | none => false

/-- The page request of a save or restore is still open. -/
def State.poolHeld (s : State) (k : Nat) : Bool := (s.group k).poolReq.any (fun r => s.reqs.any (fun q => q.id == r.1))

/-- The saved groups of a launch that can be restored next: of its saved gangs the first that fits. -/
def State.restorable (s : State) (l : Launch) : Option (List Nat) :=
  ((s.savedGroups l.id).filterMap s.restoreSet).find? (fun ks =>
    !s.launchHeld l && ks.all (fun k => !s.poolHeld k)
    && s.savedAll (s.inGangs ks))

/-- They can go on: their earlier accesses have completed, and service results stand in their shadows (R319, R353). -/
def State.restoreReady (s : State) (ks : List Nat) : Bool :=
  ks.all (fun k => s.groupQuiet k && (s.group k).shadowDue.isEmpty)

/-! ### The choice (R329) -/

/-- A launch has an unplaced gang that is placeable. -/
def State.canPlaceNew (s : State) (l : Launch) : Bool :=
  decide (l.nextGroup < l.grid) && !s.launchHeld l &&
  (if l.coop then s.coopPlaceable l else (List.range 192).any (s.placeableOn l))

/-- A launch has a placeable gang, saved or unplaced. -/
def State.canPlace (s : State) (l : Launch) : Bool := (s.restorable l).isSome || s.canPlaceNew l

/-- The launch of a queue that is placed next. -/
def State.queuePick (s : State) (tenant level : Nat) : Option Launch :=
  match s.queueOf tenant level with
  | [] => none
  | l :: rest => if s.canPlace l then some l else if l.coop then none else rest.find? s.canPlace

/-- What is placed next: level, tenant, own level, launch, and whether the level's credits are reset. -/
structure Pick where
  level : Nat
  tenant : Nat
  own : Nat
  launch : Launch
  reset : Bool
  deriving DecidableEq, Repr, Inhabited

/-- A tenant's launch at an effective level, from its higher own level first. -/
def State.tenantPick (s : State) (t e : Nat) : Option (Nat × Launch) :=
  (List.range 8).reverse.findSome? (fun own =>
    if (s.queue (queueKey t own)).eff = e then (s.queuePick t own).map (fun l => (own, l)) else none)

/-- The credit that a tenant holds at a level. -/
def State.credit (s : State) (t e : Nat) : Nat := (spGet (fun _ => none) s.sched.credits (queueKey t e)).getD (s.weight t)

/-- Tenants in the order of the rotation of a level; before its first placement tenant 63 counts as last served. -/
def State.rotation (s : State) (e : Nat) : List Nat :=
  let last := spGet (fun _ => 63) s.sched.lastTenant e
  (List.range 64).map (fun k => (last + 1 + k) % 64)

/-- The choice at a level. -/
def State.pickAt (s : State) (e : Nat) : Option Pick :=
  let find := fun (rich : Bool) => (s.rotation e).findSome? (fun t =>
    if rich && s.credit t e == 0 then none
    else (s.tenantPick t e).map (fun p => (⟨e, t, p.1, p.2, !rich⟩ : Pick)))
  (find true).orElse (fun _ => find false)

/-- The next placement. -/
def State.pick (s : State) : Option Pick := (List.range 8).reverse.findSome? s.pickAt

/-- A placement has its price: the credit, the rotation, and the queue's level (R328, R329). -/
def State.payFor (s : State) (p : Pick) : State :=
  let base := if p.reset then s.sched.credits.filter (fun c => c.1 % 8 != p.level) else s.sched.credits
  let left := if p.reset then s.weight p.tenant - 1 else s.credit p.tenant p.level - 1
  let s := { s with sched := { s.sched with
    credits := spSet (fun _ => none) base (queueKey p.tenant p.level) (some left),
    lastTenant := spSet (fun _ => 63) s.sched.lastTenant p.level p.tenant } }
  s.setQueue (queueKey p.tenant p.own) ⟨p.own, s.now⟩

/-! ### The dictionary load of the hub (R330, R418) -/

/-- What reading a dictionary image meets. -/
inductive DictRead where
  | ok (m : Sparse (BitVec 384))
  | miss (va : DWord)
  | fail (status : Nat)
  deriving DecidableEq, Repr, Inhabited

/-- Read bundles of an image from index i. -/
def State.readDict (s : State) (t : Nat) (base : DWord) (i : Nat) : Nat → DictRead
  | 0 => .ok []
  | n + 1 =>
    match s.locsVa t needR (at64 base (48 * i)) 48 with
    | .ok ls =>
      let b := bundleOfBytes (ls.map s.byte)
      if !packedRight b then .fail 0x08
      else match s.readDict t base (i + 1) n with
        | .ok m => .ok (if b = 0 then m else (i, b) :: m)
        | e => e
    | .error (c, va) =>
      if c = notPresent then .miss va
      else .fail (if c = 0x0B then 0x0B else if c / 256 = 8 then 0x03 else 0x02)

/-- The image of a kernel. -/
def State.dictOf (s : State) (t : Nat) (k : Kernel) : DictRead := s.readDict t (at64 k.base k.dictOff) 0 k.dictLen

/-- The bytes of the image. -/
def dictRuns (k : Kernel) : List (DWord × Nat) := [(at64 k.base k.dictOff, 48 * k.dictLen)]

end Sys2Proof.Machine
end

