-- ==== Sys2Proof/Machine/Parking.lean ====
section
/-! DEFINITION. Parking (01 R29, 14 R332, 12 R293) and the placement step (14 R329, R330), which gives way to a parked
group that can run. -/

namespace Sys2Proof.Machine

/-! ### Waits (R29, R148, R313, R340, R383, R403) -/

/-- A wait of a group, with the reference cycle at which it began; `none` is a wait at BAR. -/
abbrev Wait := Option Hold × Nat

/-- The access is a TXCOMMIT's: the hub answers it and no LAUNCH batch does. -/
def State.commitAccess (s : State) (a : Nat) : Bool :=
  s.accesses.any (fun x => x.id == a && x.hub) && s.sched.batches.all (fun b => b.lanes.all (fun l => l.1 != a))

/-- What is awaited is the copy of a snapshot page. -/
def WaitOn.isCopy : WaitOn → Bool
  | .copy _ => true
  | .host _ _ => false

/-- A write of the core waits for a snapshot copy. -/
def State.copyPends (s : State) (core : Nat) : Bool :=
  (s.core core).writes.any (fun w => (s.pendWaits core w).any WaitOn.isCopy)
  || (s.l1Waits core (fun _ => true)).any WaitOn.isCopy

/-- A reason that makes a group a parking candidate. -/
def State.parksOn (s : State) (core : Nat) (h : Hold) : Bool :=
  match h with
  | .semwait _ _ => true
  | .tag _ _ => true
  | .page _ => true
  | .requestFull => true
  | .snapshotCopy _ => true
  | .copySource _ => true
  | .value a => s.commitAccess a
  | .fence => s.copyPends core
  | _ => false

/-- The waits of a group's runs, commands and threads. -/
def State.waitsOf (s : State) (k : Nat) : List Wait :=
  (s.runs.filter (fun r => r.group == k)).filterMap (fun r => r.held.bind (fun h =>
    if s.parksOn r.core h.1 then some (some h.1, h.2) else none))
  ++ (s.cmds.filter (fun c => c.group == k && !c.started && !s.waitMet c)).map (fun c =>
    (some (.semwait c.wsem c.wth), c.since))
  ++ ((s.liveThreads k).filter (fun tk => (s.thread tk).blocked == .bar)).map (fun tk => (none, (s.thread tk).blockedAt))

/-- The waits of 4,096 cycles, which make the group a candidate. -/
def State.longWaits (s : State) (k : Nat) : List Wait := (s.waitsOf k).filter (fun w => decide (w.2 + 4096 ≤ s.now))

/-- The group has waited 4,096 cycles. -/
def State.waitedLong (s : State) (k : Nat) : Bool := !(s.longWaits k).isEmpty

/-- WAIT_PARK_CANDIDATE (R29). -/
def execWaitParkCandidate (group : Nat) (s : State) : Out :=
  if (s.group group).place = .resident ∧ s.waitedLong group = true then
    .next (s.modGroup group (fun g =>
      { g with candidate := true, waitSince := (leastBy (fun n => n) ((s.waitsOf group).map (fun w => w.2))) }))
  else .next s

/-! ### Parked groups (R332) -/

/-- A wait for which a group was parked is satisfied. -/
def State.waitOver (s : State) (k : Nat) (h : Hold) : Bool :=
  match h with
  | .semwait sem thr => decide (thr ≤ ((s.group k).sem sem).toNat)
  | .tag all m => if all then m &&& ~~~(s.group k).tags == 0 else m &&& (s.group k).tags != 0
  | .page req => s.reqs.all (fun q => q.id != req)
  | .requestFull => decide (s.reqs.length < 4096)
  | .snapshotCopy page => !s.copyBit page
  | .value a => s.accesses.all (fun x => x.id != a || s.accessReady x)
  | .fence => (s.liveThreads k).all (fun tk => (s.thread tk).fences.all (s.fenceDone (s.group k).core tk))
  | _ => false

/-- A parked group can run. -/
def State.canRun (s : State) (k : Nat) : Bool :=
  (s.group k).place == .parked && ((s.launchOf k).status).isNone && (s.group k).parkedOn.any (s.waitOver k)

/-- Where a parked group fits on its core again. -/
def State.unparkSeat (s : State) (k : Nat) : Option Windows :=
  let g := s.group k
  if s.roomFor g.core (s.liveThreads k).length (s.frameNeed k)
     && (!g.kernel.scales || (s.groupsAt g.core .resident).all (fun h => !h.kernel.scales))
     && s.fused (clusterOf g.core) == (s.launchOf k).fuse
  then s.windowsFor g.core g.kernel else none

/-- Keys of the groups parked on a core. -/
def State.parkedOn (s : State) (core : Nat) : List Nat :=
  (s.groups.filter (fun g => g.2.core == core && g.2.place == .parked)).map (fun g => g.1)

/-- A parked group of the core that can run fits there: it is unparked before a new gang is placed. -/
def State.unparksFirst (s : State) (core : Nat) : Bool :=
  (s.parkedOn core).any (fun k => s.canRun k && (s.unparkSeat k).isSome)

/-- A group as it is when parked: its windows, threads and frames are free, the rest of it keeps its place. The waits that
made it a candidate are those whose end lets it run again. -/
def State.park (s : State) (k : Nat) : State :=
  let g := s.group k
  let holds := (s.longWaits k).filterMap (fun w => w.1)
  let s := s.freedGroup k
  let kept := if g.kernel.scales then (s.core g.core).latches else g.latches
  let s := s.modCore g.core (fun c =>
    { c with bins := c.bins.filter (fun b => b.group != k), latches := if g.kernel.scales then [] else c.latches })
  s.modGroup k (fun g => { g with place := .parked, candidate := false, waitSince := none, parkedOn := holds,
                                  latches := kept })

/-- An unplaced gang of a ready launch, at an effective level at or above the group's own, would become placeable on the
cluster; a gang of a cooperative launch is placeable only with the whole launch (R331). -/
def State.gangGains (s : State) (k : Nat) : Bool :=
  let t := s.park k
  let cluster := clusterOf (s.group k).core
  s.launches.any (fun l => s.queued l && decide (l.nextGroup < l.grid)
    && decide ((s.group k).prio ≤ (s.queue (queueKey l.tenant l.prio)).eff)
    && (if l.coop then !s.coopPlaceable l && t.coopPlaceable l
        else !s.placeableOn l cluster && t.placeableOn l cluster))

/-- The conditions of R332. -/
def State.parkable (s : State) (k : Nat) : Bool :=
  let g := s.group k
  g.place == .resident && g.candidate && s.waitedLong k && !(s.launchOf k).coop && ((s.launchOf k).status).isNone
  && !g.stopped && g.yieldReq.isNone && decide ((s.parkedOn g.core).length < 64)
  && s.cmds.all (fun c => c.group != k || !c.started)
  && ((s.parkedOn g.core).any s.canRun || s.gangGains k)

/-- PARK_GROUP (R332). -/
def execParkGroup (group : Nat) (s : State) : Out :=
  if s.parkable group then .next (s.park group) else .next s

/-- File the threads of a group that is resident again: those neither blocked nor in a run. -/
def State.fileFree (s : State) (k : Nat) : State :=
  ((s.liveThreads k).filter (fun tk => (s.thread tk).blocked == .no && !s.inRun tk)).foldl (fun s tk => s.release tk) s

/-- UNPARK_GROUP (R332). DESIGN CHOICE (log entry 39): staged bytes that stand above 64 KiB with those that other groups
have staged meanwhile are all put back, and the buffer has no free byte until they have been consumed. -/
def execUnparkGroup (group : Nat) (s : State) : Out :=
  match (if s.canRun group then s.unparkSeat group else none) with
  | none => .next s
  | some w =>
    let g := s.group group
    let s := if g.kernel.scales then s.modCore g.core (fun c => { c with latches := g.latches }) else s
    let s := s.modGroup group (fun g =>
      { g with place := .resident, parkedOn := [], semAt := w.sem, tagAt := w.tag, tileAt := w.tile, fmtAt := w.fmt })
    .next ((s.fileFree group).barCheck group)

/-! ### PLACE_GANG (R329, R330) -/

/-- Groups that a placement of a launch places: the whole grid when it is cooperative. -/
def Launch.step (l : Launch) : Nat := if l.coop then l.grid else l.gang

/-- The launch has groups placed. -/
def State.notePlaced (s : State) (l : Launch) : State :=
  s.modLaunch l.id (fun m => { m with nextGroup := m.nextGroup + l.step,
                                      firstPlaced := m.firstPlaced.orElse (fun _ => some s.now) })

/-- Place the chosen launch's next gang on some cores, with its dictionary. Before its first group no core keeps fetch
copies of its code stream (R418). -/
def State.placeWith (s : State) (p : Pick) (cores : List Nat) (dict : Sparse (BitVec 384)) : State :=
  let t := if p.launch.firstPlaced.isNone then s.dropStream p.launch.tenant p.launch.kernel else s
  match placeGangs t p.launch p.launch.nextGroup cores dict (p.launch.step / p.launch.gang) with
  | some s' => (s'.payFor p).notePlaced p.launch
  | none => s

/-- A dictionary load that fails leaves its bank with length 0 (R40, R43); DLOAD also begins so (R251). -/
def State.dropBank (s : State) (core : Nat) (b : Bool) : State :=
  s.modCore core (fun c => c.setBank b ⟨0, none, [], false⟩)

def State.dropBanks (s : State) (bs : List (Nat × Bool)) : State := bs.foldl (fun s b => s.dropBank b.1 b.2) s

/-- The banks that a placement loads. -/
def State.loadsInto (s : State) (l : Launch) (cores : List Nat) : List (Nat × Bool) :=
  cores.filterMap (fun c => ((s.seatNew l c).filter (fun p => p.load)).map (fun p => (c, p.bank)))

/-- Read the dictionary for a placement, and place. A load sets the length of its bank to 0 when it starts (R251), so one
that waits for a page, and may be refused, leaves it there (R40). -/
def State.placeLoading (s : State) (p : Pick) (cores : List Nat) : State :=
  let l := p.launch
  if (s.readsWait l.tenant (dictRuns l.kernel)).isSome then s.askFor (s.readsWait l.tenant (dictRuns l.kernel))
  else if s.readsOwned l.tenant (dictRuns l.kernel) then s
  else match s.dictOf l.tenant l.kernel with
    | .ok m => (s.markReads l.tenant (dictRuns l.kernel)).placeWith p cores m
    | .miss va =>
      let z := (s.dropBanks (s.loadsInto l cores)).raise l.tenant va .read
      z.1.modLaunch l.id (fun l => { l with condReq := z.2, badGid := l.nextGroup })
    | .fail st => (s.dropBanks (s.loadsInto l cores)).endLaunch l.id 0x03 l.nextGroup (BitVec.ofNat 64 st)

/-- What finding a kernel's code stream waits for, before its fetch copies go (R400, R418). -/
def State.streamWaits (s : State) (l : Launch) : Option WaitOn :=
  (pagesOf (at64 l.kernel.base l.kernel.codeOff) l.kernel.codeSize).findSome? (fun va =>
    s.leafWait hubTlb l.tenant false va.toNat)

/-- PLACE_GANG (R329, R330): the hub's free choice is only that of the cores. -/
def execPlaceGang (cores : List Nat) (s : State) : Out :=
  match (if s.mgmt.fatal.isSome then none else s.pick) with
  | none => .next s
  | some p =>
    let l := p.launch
    if (s.restorable l).isSome || s.launchHeld l || cores.any s.unparksFirst || cores.length != l.step
       || (placeGangs s l l.nextGroup cores [] (l.step / l.gang)).isNone || s.freshOwned cores then .next s
    else if (s.freshWaits cores l.fuse).isSome then .next (s.askFor (s.freshWaits cores l.fuse))
    else if l.firstPlaced.isNone && (s.streamWaits l).isSome then .next (s.askFor (s.streamWaits l))
    else if cores.any (fun c => (s.seatNew l c).any (fun p => p.load)) then .next (s.placeLoading p cores)
    else .next (s.placeWith p cores [])

end Sys2Proof.Machine
end

