-- ==== Sys2Proof/Machine/Context.lean ====
section
/-! DEFINITION. The context save area (15 R349 to R355): its sections, the save of a group and the restore of a gang. -/

namespace Sys2Proof.Machine

/-! ### Sections (R351, R354) -/

/-- A run or a trap's held set: threads by lane, count, and results. -/
structure RunSet where
  lanes : List (Nat × Nat)
  count : Nat
  flights : List Flight
  held : Bool
  deriving DecidableEq, Repr, Inhabited

/-- The sets of a group: those of its runs, then those of its traps. -/
def State.runSets (s : State) (k : Nat) : List RunSet :=
  (s.runs.filter (fun r => r.group == k)).map (fun r => ⟨r.lanes, r.count, r.flights, false⟩)
  ++ (s.traps.filter (fun r => r.group == k)).map (fun r => ⟨r.lanes, r.count, r.flights, true⟩)

/-- Kind and [23:16] of a record (R351). -/
def Dest.record : Dest → Nat × Nat
  | .v _ r => (1, r)
  | .x r => (2, r)
  | .p r => (3, r)
  | .b r => (4, r)
  | .loop0 => (5, 0)
  | .loop1 => (6, 0)
  | .sr n => (7, n)
  | .shape set field => (8, 32 * set + field)
  | .status => (9, 0)

/-- The lane whose place in a record holds a thread's value: that of a shape field stands in lane 0. -/
def State.recordLane (s : State) (f : Flight) (tk : Nat) : Nat :=
  match f.dest with
  | .shape _ _ => 0
  | _ => s.laneOf tk

/-- A flight record (R350, R351). -/
def State.recordBytes (s : State) (count : Nat) (f : Flight) : List Byte :=
  let vals := f.vals.map (fun v => (s.recordLane f v.1, v.2))
  let k := f.dest.record
  leBytes 8 (1 + k.1 % 16 * 2 ^ 12 + k.2 % 256 * 2 ^ 16 + (f.land - count) % 256 * 2 ^ 24
    + (maskOf (vals.map (fun v => v.1))).toNat * 2 ^ 32)
  ++ List.replicate 8 (0 : Byte)
  ++ (List.range 32).flatMap (fun i => leBytes 16 ((assoc vals i).getD 0).toNat)

/-- Bytes of a record, and of a run before its records. -/
def recordLen : Nat := 528
def runHead : Nat := 72

def State.runBytes (s : State) (r : RunSet) : List Byte :=
  leBytes 8 (r.lanes.length + r.flights.length % 65536 * 2 ^ 16 + (if r.held then 2 ^ 32 else 0))
  ++ (List.range 32).flatMap (fun i => match assoc r.lanes i with
    | some tk => leBytes 2 (s.thread tk).tid
    | none => leBytes 2 0xFFFF)
  ++ r.flights.flatMap (s.recordBytes r.count)

/-- The identifier that a mapped logical table is armed with (R191). Of a slot that is not Ready the identifier is saved
as 0, and of a table whose earlier check is still armed it is the armed one: R191 gives neither (DESIGN CHOICE, log entry
21). -/
def State.tableIdent (s : State) (g : Group) (tb : Nat) : Word :=
  let m := g.table tb
  match m.armed with
  | some w => w
  | none =>
    let t := (s.core g.core).slot m.byte.toNat
    if m.byte ≠ 0xFF ∧ t.state = .ready then tblIdent t.image else 0

/-- Values of the group-state section; their layout is a free value (log entry 16). -/
def groupFields (g : Group) : List Nat :=
  [g.launch, g.gid, g.kernel.semWindow, g.kernel.tagWindow, g.kernel.tiles, g.kernel.fmtWindow, if g.pbank then 1 else 0,
   if g.dbank then 1 else 0, (g.swap.getD 0).toNat, g.smask.toNat]
  ++ (List.range 4).map (fun n => (g.chan n).cid) ++ (List.range 4).map (fun n => (g.chan n).cdone)
  ++ [if g.semSat then 1 else 0]
  ++ (List.range g.kernel.tiles).map (fun n => match (g.tile n).token with
    | .m => 0
    | .mv => 1
    | .v => 2)
  ++ [if g.kernel.scales then 1 else 0]

/-- The group-state section. -/
def groupBytes (g : Group) : List Byte := bytesAt (Config.groupSection (groupFields g)) 0 512

/-- A truth value as a number. -/
def bit01 (b : Bool) : Nat := if b then 1 else 0

/-- The fields of an operation beside its opcode. -/
def CmdOp.fields : CmdOp → List Nat
  | .copy => []
  | .copyx => []
  | .tload => []
  | .pload bank => [bit01 bank]
  | .dload => []
  | .intake => []
  | .mma tile fa fb kb zf mid lb => [tile, fa, fb, kb, bit01 zf, bit01 mid, bit01 lb]
  | .accz tile => [tile]
  | .mst tile fmt => [tile, fmt]
  | .mld tile => [tile]
  | .msync => []
  | .mstat tile => [tile]
  | .scale side lb data => [bit01 side, bit01 lb, bit01 data.isSome] ++ (data.getD []).map (fun b => b.toNat)

/-- The operation of an engine, an opcode and fields. -/
def CmdOp.ofFields (siphon code : Nat) (a : List Nat) : CmdOp :=
  let f := fun (n : Nat) => a.getD n 0
  let b := fun (n : Nat) => f n % 2 == 1
  if siphon = 1 then
    match code with
    | 2 => .copyx
    | 3 => .tload
    | 4 => .pload (b 0)
    | 5 => .dload
    | 6 => .intake
    | _ => .copy
  else match code with
    | 0 => .scale (b 0) (b 1) (if b 2 then some ((a.drop 3).map (BitVec.ofNat 8)) else none)
    | 1 => .mma (f 0 % 8) (f 1 % 32) (f 2 % 32) (f 3) (b 4) (b 5) (b 6)
    | 2 => .accz (f 0 % 8)
    | 3 => .mst (f 0 % 8) (f 1 % 32)
    | 4 => .mld (f 0 % 8)
    | 6 => .mstat (f 0 % 8)
    | _ => .msync

/-- Values of a command's entry: everything captured at its issue; their layout is a free value (log entry 16). -/
def cmdFields (c : Cmd) : List Nat :=
  [bit01 c.op.isSiphon, c.op.code, c.wsem, c.wth, c.ssem, c.inc, c.ch, c.mask.toNat, c.xform, bit01 c.timed, c.xs.toNat,
   c.xd.toNat, c.ident, c.tag, c.scope, c.leader, c.shape.length] ++ c.shape.map (fun v => v.toNat) ++ c.op.fields

/-- A command with the values of an entry. -/
def Cmd.ofFields (c : Cmd) (a : List Nat) : Cmd :=
  let f := fun (n : Nat) => a.getD n 0
  { c with op := CmdOp.ofFields (f 0) (f 1) (a.drop (17 + f 16)), wsem := f 2 % 256, wth := f 3, ssem := f 4 % 256,
           inc := f 5, ch := f 6 % 4, mask := BitVec.ofNat 5 (f 7), xform := f 8, timed := f 9 == 1,
           inBuffer := f 9 == 1, xs := BitVec.ofNat 64 (f 10), xd := BitVec.ofNat 64 (f 11), ident := f 12,
           tag := f 13 % 64, scope := f 14 % 4, leader := f 15,
           shape := ((a.drop 17).take (f 16)).map (BitVec.ofNat 64) }

/-- A command's entry. -/
def cmdBytes (c : Cmd) : List Byte := bytesAt (Config.commandSection (cmdFields c)) 0 256

/-- Resident frames of a thread, with their depths, outermost first. -/
def Thread.residentFrames (t : Thread) : List (Nat × Frame) :=
  (((List.range t.frames.length).zip t.frames.reverse)).filter (fun f => !f.2.spilled)

/-- A resident frame with its entry; depth 0 has none and zeros stand there. R354 gives the on-chip entry of a spilled
frame no place, and such an entry is kept with the group (DESIGN CHOICE, log entry 16). -/
def savedFrame (t : Thread) (f : Nat × Frame) : List Byte :=
  leBytes 8 (t.tid + f.1 % 65536 * 2 ^ 16 + (f.2.size - 1) * 2 ^ 32)
  ++ (if f.1 = 0 then List.replicate 64 (0 : Byte) else entryBytes (t.entry f.1)) ++ frameBytes f.2

/-- The bytes of a gang's scratchpad region: the two halves. -/
def State.regionBytes (s : State) (g : Group) : List Byte :=
  (List.range g.scrHalf).map (fun a => s.byte (scrLoc (clusterOf g.core) (a + g.scrBase0)))
  ++ (List.range g.scrHalf).map (fun a => s.byte (scrLoc (clusterOf g.core) (2 ^ 20 + a + g.scrBase1)))

/-- No other group of the gang is placed. -/
def State.lastOfGang (s : State) (k : Nat) : Bool :=
  s.groups.all (fun q => q.1 == k || !(q.2.launch == (s.group k).launch && !isService q.1 && s.gangOf q.1 == s.gangOf k
    && (q.2.place == .resident || q.2.place == .parked)))

/-- The sections of a group, without the region of its gang. -/
def State.plainSections (s : State) (k : Nat) : List (List Byte) :=
  let g := s.group k
  let kn := g.kernel
  let latches := if g.place = .resident then (s.core g.core).latches else g.latches
  [ groupBytes g,
    (List.range kn.semWindow).flatMap (fun n => leBytes 2 (g.sem n).toNat),
    leBytes 8 g.tagBits.toNat ++ (List.range kn.tagWindow).map (fun n => BitVec.ofNat 8 (g.tagsOut n)),
    (List.range kn.tiles).flatMap (fun n => (List.range 4096).flatMap (fun e =>
      leBytes 4 (spGet (fun _ => (0 : Word)) (g.tile n).elems e).toNat)),
    (List.range kn.fmtWindow).flatMap (fun n =>
      let f := spGet (fun _ => ((0 : BitVec 5), (0 : BitVec 5))) g.fmt n
      [f.1.zeroExtend 8, f.2.zeroExtend 8]),
    (List.range 8).flatMap (fun sh => (g.shape sh).flatMap (fun v => leBytes 8 v.toNat)),
    if kn.scales then (List.range 4096).map (fun a => spGet (fun _ => 127) latches a) else [],
    if kn.pattern then (List.range 4096).map (fun a => spGet (fun _ => 0) (s.core g.core).patterns a) else [],
    (List.range 8).flatMap (fun tb =>
      [(g.table tb).byte, if (g.table tb).unusable then 1 else 0, 0, 0] ++ leBytes 4 (s.tableIdent g tb).toNat),
    (s.cmds.filter (fun c => c.group == k)).flatMap cmdBytes,
    g.stats.flatMap (fun r => r.flatMap (fun w => leBytes 8 w.toNat)),
    leBytes 8 g.stageA.length ++ g.stageA ++ leBytes 8 g.stageB.length ++ g.stageB,
    (s.runSets k).flatMap s.runBytes,
    (s.liveThreads k).flatMap (fun tk => (s.thread tk).residentFrames.flatMap (savedFrame (s.thread tk))) ]

/-- The sixteen sections. -/
def State.sections (s : State) (k : Nat) (region : Bool) : List (List Byte) :=
  s.plainSections k ++ [if region then s.regionBytes (s.group k) else [], []]

/-- Offset and size of each section from a position on; an absent one has both 0. -/
def layoutFrom (pos : Nat) : List (List Byte) → List (Nat × Nat)
  | [] => []
  | b :: bs =>
    if b.isEmpty then (0, 0) :: layoutFrom pos bs
    else (pos, b.length) :: layoutFrom (roundUp (pos + b.length) 64) bs

def layoutOf (secs : List (List Byte)) : List (Nat × Nat) := layoutFrom 0x100 secs

/-- The exact size of a context part. -/
def partSize (secs : List (List Byte)) : Nat :=
  roundUp ((layoutOf secs).foldl (fun m e => max m (e.1 + e.2)) 0x100) 64

/-- The writes of a context part: the directory, then the present sections. -/
def partWrites (base : DWord) (secs : List (List Byte)) : List (DWord × List Byte) :=
  (base, (layoutOf secs).flatMap (fun e => leBytes 8 e.1 ++ leBytes 8 e.2))
    :: (((layoutOf secs).zip secs).filter (fun e => e.1.2 != 0)).map (fun e => (at64 base e.1.1, e.2))

/-- The PC of a thread's next bundle, and what it is blocked on in its shadow: a run frozen on a page request counts as
blocked (R340). -/
def State.shadowPc (s : State) (tk : Nat) : DWord :=
  match s.runs.find? (fun r => r.lanes.any (fun l => l.2 == tk)) with
  | some r => r.pc
  | none => (s.thread tk).pc

def State.shadowBlock (s : State) (tk : Nat) : Blocked :=
  match s.runs.find? (fun r => r.lanes.any (fun l => l.2 == tk)) with
  | some r => match r.held with
    | some (.page _, _) => .page
    | some (.requestFull, _) => .page
    | _ => .no
  | none => (s.thread tk).blocked

def State.shadowWrites (s : State) (k : Nat) : List (DWord × List Byte) :=
  (s.liveThreads k).map (fun tk =>
    (shadowAddr (s.group k) (s.thread tk).tid,
     shadowBytes (s.thread tk) (s.shadowPc tk) (s.thread tk).trap.isSome (s.shadowBlock tk)))

/-! ### Saving (R353) -/

/-- A group that is to be saved may be: no bundle, started command, awaited value, fence or write to a scratchpad of it is
left. -/
def State.saveReady (s : State) (k : Nat) : Bool :=
  s.cmds.all (fun c => c.group != k || !c.started)
  && s.runs.all (fun r => r.group != k || (r.awaitsAny.isNone && r.ways.isNone))
  && s.threads.all (fun q => groupOfThread q.1 != k || (q.2.fences.isEmpty && q.2.drain.isNone))
  && (s.core (s.group k).core).writes.all (fun w => !(groupOfThread w.thread == k && isScr w.addr))

/-- A parked group of an island that is to be gated, when no group is resident there (R440). -/
def State.gateSaves (s : State) (k : Nat) : Bool :=
  let n := islandOf (s.group k).core
  s.field (regIslctl n) 15 1 == 1
  && s.groups.all (fun g => isService g.1 || islandOf g.2.core != n || g.2.place != .resident)

/-- A group is to be saved. -/
def State.saveDue (s : State) (k : Nat) : Bool :=
  ((s.group k).place == .resident && (s.group k).stopped)
  || ((s.group k).place == .parked && ((s.group k).yieldReq.isSome || s.gateSaves k))

/-- Results due at the count of each run are written before the set is taken (R350). -/
def State.landGroup (s : State) (k : Nat) : State :=
  (s.runs.filter (fun r => r.group == k)).foldl (fun s r => s.landDue r r.count) s

/-- The number that stands for the core of a saved group, which is on none. -/
def offCore : Nat := 2 ^ 20

/-- Waiting calls and refill requests of a group go with it: to its new core, at the tail (R285). -/
def State.moveWaits (s : State) (k old new : Nat) : State :=
  let mine := fun (tk : Nat) => groupOfThread tk == k
  let ws := (s.core old).waiters.filter (fun w => mine w.thread)
  let rs := (s.core old).refills.filter (fun r => mine r.thread)
  let s := s.modCore old (fun c => { c with waiters := c.waiters.filter (fun w => !mine w.thread),
                                            refills := c.refills.filter (fun r => !mine r.thread) })
  let at_ := s.coreCycles new
  s.modCore new (fun c => { c with waiters := c.waiters ++ ws.map (fun (w : Waiter) => { w with since := at_ }),
                                   refills := c.refills ++ rs.map (fun (r : RefillReq) => { r with since := at_ }) })

/-- What a group has of a core stands under another: its runs, traps, commands and frame waits. -/
def State.moveGroup (s : State) (k core : Nat) : State :=
  { s with runs := s.runs.map (fun (r : Run) => if r.group = k then { r with core := core, held := none, onBundle := none } else r),
           traps := s.traps.map (fun (r : TrapRec) => if r.group = k then { r with core := core } else r),
           cmds := s.cmds.map (fun (c : Cmd) => if c.group = k then { c with core := core } else c) }.moveWaits k
    (s.group k).core core

/-- A region that a save has written stands in no window any more, for every group of its gang. -/
def State.noRegion (s : State) (k : Nat) : State :=
  { s with groups := s.groups.map (fun (q : Nat × Group) =>
      if q.2.launch = (s.group k).launch ∧ isService q.1 = false ∧ s.gangOf q.1 = s.gangOf k
      then (q.1, { q.2 with region := none }) else q) }

/-- The group leaves its core. -/
def State.leaveCore (s : State) (k : Nat) (addr size : Nat) (region : Bool) : State :=
  let g := s.group k
  let s := ((s.freedGroup k).takePool g.tenant addr size).modCore g.core (fun c =>
    { c with bins := c.bins.filter (fun b => b.group != k),
             latches := if g.kernel.scales && g.place == .resident then [] else c.latches })
  let s := if region then s.noRegion k else s
  (s.moveGroup k offCore).modGroup k (fun g =>
    { g.semCycle with
      core := offCore, place := .saved, stopped := false, yieldReq := none, candidate := false, parkedOn := [],
      poolReq := none, contextPart := some (addr, size) })

/-- The pool cannot supply the part: the group keeps running, and is asked again at its next yield bundle. -/
def State.saveFails (s : State) (k : Nat) : State := s.modGroup k (fun g => { g with stopped := false })

/-- A group waits on a page of its pool, or its launch ends. -/
def State.poolStop (s : State) (k code : Nat) (va : DWord) (kind : AccKind) : State :=
  if code = notPresent then
    let z := s.raise (s.group k).tenant va kind
    z.1.modGroup k (fun g => { g with poolReq := z.2.map (fun n => (n, va)) })
  else s.endGroupLaunch k 0x02 va

/-- What the writes of a save wait for. -/
def State.saveWaits (s : State) (k : Nat) (ws : List (DWord × List Byte)) (ls : List (Nat × Byte)) : Option WaitOn :=
  ((s.poolWaits ls).orElse (fun _ => (ws.flatMap (fun w => pagesOf w.1 w.2.length)).findSome?
    (s.tenantMarkWaits (s.group k).tenant true))).orElse (fun _ => s.l1Waits (s.group k).core (fun _ => true))

/-- An engine command owns a line that a save writes (R311). -/
def State.saveOwned (s : State) (k : Nat) (ws : List (DWord × List Byte)) : Bool :=
  s.readsOwned (s.group k).tenant (ws.map (fun w => (w.1, w.2.length))) || s.ownedDirty (s.group k).core (fun _ => true)

/-- Save a group whose runs have stopped. -/
def State.saveGroup (s0 : State) (k : Nat) : State :=
  let s := s0.landGroup k
  let g := s.group k
  let secs := s.sections k (s.lastOfGang k)
  match (if s.poolOn g.tenant then s.poolFit g.tenant (partSize secs) 64 else none) with
  | none => s0.saveFails k
  | some a =>
    let ws := s.shadowWrites k ++ partWrites (BitVec.ofNat 64 a) secs
    match s.poolLocs g.tenant ws with
    | .error (c, va) => s0.poolStop k c va .write
    | .ok ls =>
      if (s.saveWaits k ws ls).isSome then s0.askFor (s.saveWaits k ws ls)
      else if s.saveOwned k ws then s0
      else
        let s := s.writebackL1 g.core (fun _ => true)
        let s := ls.foldl (fun s w => s.put w.1 [w.2]) s
        let s := (ws.flatMap (fun w => pagesOf w.1 w.2.length)).foldl (fun s va => s.markUsed g.tenant true va) s
        s.leaveCore k a (partSize secs) (s0.lastOfGang k)

/-- CONTEXT_SAVE (R353). -/
def execContextSave (group : Nat) (s : State) : Out :=
  if s.saveDue group && s.saveReady group && !s.poolHeld group
     && ((s.launchOf group).status).isNone then .next (s.saveGroup group) else .next s

/-! ### Restoring (R355) -/

/-- What the hub reads back: the sections, and the shadow of each thread. -/
structure SavedBytes where
  secs : List (List Byte)
  shadows : List (Nat × List Byte)
  deriving DecidableEq, Repr, Inhabited

/-- Read runs of virtual bytes, each where it translates. -/
def State.readRuns (s : State) (t : Nat) : List (DWord × Nat) → Except (Nat × DWord) (List (List Byte))
  | [] => .ok []
  | (va, n) :: rest =>
    match s.readVa t needR va n with
    | .error e => .error e
    | .ok bs => match s.readRuns t rest with
      | .error e => .error e
      | .ok more => .ok (bs :: more)

/-- Start of a group's context part. -/
def State.partBase (s : State) (k : Nat) : DWord := BitVec.ofNat 64 (((s.group k).contextPart.map (fun p => p.1)).getD 0)

/-- The sections as the directory in memory gives them: address and size (R354). -/
def State.partRuns (s : State) (k : Nat) : List (DWord × Nat) :=
  match s.readVa (s.group k).tenant needR (s.partBase k) 256 with
  | .ok dir => (List.range 16).map (fun n => (at64 (s.partBase k) (natAt dir (16 * n) 8), natAt dir (16 * n + 8) 8))
  | .error _ => []

/-- The runs of bytes that a restore reads: the directory, the sections, the shadows. -/
def State.restoreRuns (s : State) (k : Nat) : List (DWord × Nat) :=
  (s.partBase k, 256) :: s.partRuns k
  ++ (s.liveThreads k).map (fun tk => (shadowAddr (s.group k) (s.thread tk).tid, 256))

def State.readSaved (s : State) (k : Nat) : Except (Nat × DWord) SavedBytes :=
  match s.readRuns (s.group k).tenant (s.restoreRuns k) with
  | .error e => .error e
  | .ok bs => .ok ⟨(bs.drop 1).take 16, (s.liveThreads k).zip (bs.drop 17)⟩

def SavedBytes.sec (b : SavedBytes) (n : Nat) : List Byte := b.secs.getD n []

/-- Words of some bytes. -/
def wordsAt (bs : List Byte) (off n : Nat) : List Word :=
  (List.range n).map (fun k => BitVec.ofNat 32 (natAt bs (off + 4 * k) 4))
def dwordsAt (bs : List Byte) (off n : Nat) : List DWord :=
  (List.range n).map (fun k => BitVec.ofNat 64 (natAt bs (off + 8 * k) 8))

/-- The group-state section is as the save wrote it, whatever signals have clamped since. -/
def Group.sameState (g : Group) (bs : List Byte) : Bool := groupBytes { g with semSat := g.satBase } == bs

/-- A token by its code (R354). -/
def tokenOf (n : Nat) : Token := if n = 1 then .mv else if n = 2 then .v else .m

/-- The group with the values of a group-state section that the save did not write; what R354 lists there, but for the
group's own identity and its windows. -/
def Group.ofValues (g : Group) (a : List Nat) : Group :=
  let f := fun (n : Nat) => a.getD n 0
  { g with pbank := f 6 == 1, swap := if f 8 = 0 then Option.none else some (BitVec.ofNat 64 (f 8)), ymap := Option.none,
           smask := BitVec.ofNat 8 (f 9), satBase := f 18 == 1,
           chans := (List.range 4).foldl (fun m n => spSet (fun _ => Channel.zero) m n ⟨f (10 + n), f (14 + n), []⟩) [],
           tiles := (List.range g.kernel.tiles).foldl (fun m n => spSet (fun _ => Tile.zero) m n
             { g.tile n with token := tokenOf (f (19 + n)) }) g.tiles }

/-- Section 0 as it is read back. -/
def Group.readState (g : Group) (bs : List Byte) : Group :=
  if g.sameState bs then g else g.ofValues (Config.groupValues bs)

/-- The counts of a semaphore section (R354). -/
def countsOf (n : Nat) (bs : List Byte) : Sparse (BitVec 16) :=
  (List.range n).foldl (fun m k => spSet (fun _ => 0) m k (BitVec.ofNat 16 (natAt bs (2 * k) 2))) []

/-- The group with the counts of its section, to which the signals that its image took while it was saved are added
(R223). -/
def Group.onCounts (g : Group) (base : Sparse (BitVec 16)) : Group :=
  (g.semOps.foldl Group.semOp { g with sems := base, semSat := g.satBase }).semCycle

/-- Group state from the sections. -/
def Group.fromSections (g0 : Group) (b : SavedBytes) : Group :=
  let g := g0.readState (b.sec 0)
  let kn := g.kernel
  let tiles := (List.range kn.tiles).foldl (fun (m : Sparse Tile) n =>
    spSet (fun _ => Tile.zero) m n ⟨spSetN (fun _ => 0) [] 0 (wordsAt (b.sec 3) (16384 * n) 4096), (g.tile n).token⟩) []
  let fmt := (List.range kn.fmtWindow).foldl (fun (m : Sparse (BitVec 5 × BitVec 5)) n =>
    spSet (fun _ => (0, 0)) m n (((b.sec 4).getD (2 * n) 0).truncate 5, ((b.sec 4).getD (2 * n + 1) 0).truncate 5)) []
  let shapes := (List.range 8).foldl (fun (m : Sparse DWord) sh => (List.range 18).foldl (fun (m : Sparse DWord) f =>
    spSet shapeDefault m (32 * sh + f) (shapeKeep f (BitVec.ofNat 64 (natAt (b.sec 5) (144 * sh + 8 * f) 8)))) m) []
  let tmap := (List.range 8).foldl (fun (m : Sparse TableMap) tb =>
    let byte := (b.sec 8).getD (8 * tb) 0
    spSet (fun _ => TableMap.unmapped) m tb ⟨byte, (b.sec 8).getD (8 * tb + 1) 0 != 0,
      if byte = 0xFF then Option.none else some (BitVec.ofNat 32 (natAt (b.sec 8) (8 * tb + 4) 4))⟩) []
  let counts := (List.range kn.tagWindow).foldl (fun (m : Sparse Nat) n =>
    spSet (fun _ => 0) m n (natAt (b.sec 2) (8 + n) 1 % 64)) []
  let na := natAt (b.sec 11) 0 8
  { g.onCounts (countsOf kn.semWindow (b.sec 1)) with
           tags := BitVec.ofNat 64 (natAt (b.sec 2) 0 8), tagBase := BitVec.ofNat 64 (natAt (b.sec 2) 0 8),
           tagCount := counts, tiles := tiles, fmt := fmt, shapes := shapes,
           tmap := tmap,
           stats := (List.range ((b.sec 10).length / 64)).map (fun n => dwordsAt (b.sec 10) (64 * n) 8),
           stageA := ((b.sec 11).drop 8).take na,
           stageB := ((b.sec 11).drop (16 + na)).take (natAt (b.sec 11) (8 + na) 8) }

/-! ### Commands (R38) -/

/-- A command of an entry: as it issued when the entry is as the save wrote it, else with the values of the entry. -/
def State.cmdFrom (s : State) (k core : Nat) (c : Option Cmd) (i : Nat) (bs : List Byte) : Cmd :=
  let c := { c.getD { (default : Cmd) with id := s.ids + i, group := k, since := s.now } with
    core := core, issued := s.coreCycles core, place := (s.core core).seq }
  if cmdBytes c = bs then c else c.ofFields (Config.commandValues bs)

/-- The recorded commands go back to their engines in order. -/
def State.cmdsFrom (s : State) (k core : Nat) (bs : List Byte) : State :=
  let old := s.cmds.filter (fun c => c.group == k)
  let n := bs.length / 256
  { s with ids := s.ids + n,
           cmds := s.cmds.filter (fun c => c.group != k)
             ++ (List.range n).map (fun i => s.cmdFrom k core old[i]? i (bytesAt bs (256 * i) 256)) }

/-! ### Runs and traps (R350, R351) -/

/-- A run record: its lanes with their %tid, whether it is held for a trap, and its results' place and number. -/
structure RunRec where
  lanes : List (Nat × Nat)
  held : Bool
  at_ : Nat
  count : Nat
  deriving DecidableEq, Repr, Inhabited

/-- The run records of a section from an offset on. -/
def parseRuns (bs : List Byte) (off : Nat) : Nat → List RunRec
  | 0 => []
  | n + 1 =>
    if bs.length < off + runHead then []
    else
      let h := natAt bs off 8
      let lanes := (List.range 32).filterMap (fun i =>
        let tid := natAt bs (off + 8 + 2 * i) 2
        if tid = 0xFFFF then none else some (i, tid))
      ⟨lanes, h / 2 ^ 32 % 2 == 1, off + runHead, h / 2 ^ 16 % 65536⟩
        :: parseRuns bs (off + runHead + recordLen * (h / 2 ^ 16 % 65536)) n

/-- The destination that a record names. A v register lies in the thread's current frame. -/
def destOf (depth kind n : Nat) : Option Dest :=
  match kind with
  | 1 => some (.v depth n)
  | 2 => some (.x (n % 16))
  | 3 => some (.p (n % 16))
  | 4 => some (.b (n % 8))
  | 5 => some .loop0
  | 6 => some .loop1
  | 7 => some (.sr n)
  | 8 => some (.shape (n / 32 % 8) (n % 32))
  | 9 => some .status
  | _ => none

/-- A result of a record. The frame of a v register is that of the result which was saved there, if the record still names
its register: a record gives no depth. -/
def State.flightFrom (s : State) (lanes : List (Nat × Nat)) (count : Nat) (was : Option Flight) (bs : List Byte)
    (off : Nat) : Option Flight :=
  let c := natAt bs off 8
  let kind := c / 2 ^ 12 % 16
  let n := c / 2 ^ 16 % 256
  let kept := (was.filter (fun f => f.dest.record == (kind, n))).map (fun f => f.dest)
  let val := fun (i : Nat) => BitVec.ofNat 128 (natAt bs (off + 16 + 16 * i) 16)
  let depth := ((lanes.find? (fun l => c / 2 ^ (32 + l.1) % 2 == 1)).map (fun l => (s.thread l.2).depth)).getD 0
  (kept.orElse (fun _ => destOf depth kind n)).map (fun d =>
    ⟨d, count + c / 2 ^ 24 % 256,
     if kind = 8 then (lanes.head?.map (fun l => (l.2, val 0))).toList
     else (lanes.filter (fun l => c / 2 ^ (32 + l.1) % 2 == 1)).map (fun l => (l.2, val l.1)), none, 0⟩)

/-- The results of a run record. -/
def State.flightsFrom (s : State) (lanes : List (Nat × Nat)) (count : Nat) (was : List Flight) (bs : List Byte)
    (r : RunRec) : List Flight :=
  (List.range r.count).filterMap (fun i => s.flightFrom lanes count was[i]? bs (r.at_ + recordLen * i))

/-- The threads of a run record that exist. -/
def State.recLanes (s : State) (k : Nat) (r : RunRec) : List (Nat × Nat) :=
  (r.lanes.map (fun l => (l.1, threadKey k l.2))).filter (fun l => (s.thread l.2).live)

/-- The runs of the group, one for each record that is not held; each goes on at the PC of its threads' shadows. -/
def State.runsFrom (s : State) (k core : Nat) (bs : List Byte) : State :=
  let old := s.runs.filter (fun r => r.group == k)
  let rs := (parseRuns bs 0 bs.length).filter (fun r => !r.held)
  let runs := ((List.range rs.length).zip rs).map (fun q =>
    let was := (old[q.1]?).getD { (default : Run) with id := s.ids + q.1, group := k }
    let lanes := s.recLanes k q.2
    { was with core := core, lanes := lanes, pc := ((lanes.head?).map (fun l => (s.thread l.2).pc)).getD was.pc,
               flights := s.flightsFrom lanes was.count was.flights bs q.2, since := s.coreCycles core + 1 })
  { s with ids := s.ids + rs.length, runs := s.runs.filter (fun r => r.group != k) ++ runs.filter (fun r => !r.lanes.isEmpty) }

/-- The traps of the group take their lanes and results from the held records. -/
def State.trapsFrom (s : State) (k core : Nat) (bs : List Byte) : State :=
  let rs := (parseRuns bs 0 bs.length).filter (fun r => r.held)
  let old := s.traps.filter (fun r => r.group == k)
  { s with traps := s.traps.filter (fun r => r.group != k) ++ (old.zip rs).map (fun (q : TrapRec × RunRec) =>
      let lanes := s.recLanes k q.2
      { q.1 with core := core, lanes := lanes, flights := s.flightsFrom lanes q.1.count q.1.flights bs q.2 }) }

/-! ### Frames and threads (R278, R349) -/

/-- A resident frame of the section: %tid, depth, size, where its entry and registers stand. -/
structure FrameRec where
  tid : Nat
  depth : Nat
  size : Nat
  at_ : Nat
  deriving DecidableEq, Repr, Inhabited

def parseFrames (bs : List Byte) (off : Nat) : Nat → List FrameRec
  | 0 => []
  | n + 1 =>
    if bs.length < off + 72 then []
    else
      let h := natAt bs off 8
      let size := h / 2 ^ 32 % 16 + 1
      ⟨h % 65536, h / 2 ^ 16 % 65536, size, off + 8⟩ :: parseFrames bs (off + 72 + 64 * size) n

/-- A thread's frames and entries at the depth that its shadow gives: those of the section are resident, the others stay
where they are. -/
def Thread.framesFrom (t : Thread) (bs : List Byte) (rs : List FrameRec) (depth : Nat) : Thread :=
  let rec' := fun (d : Nat) => rs.find? (fun r => r.tid == t.tid && r.depth == d)
  { t with
    frames := (List.range (depth + 1)).map (fun i => match rec' (depth - i) with
      | some r => ⟨r.size, regsOf (bytesAt bs (r.at_ + 64) (64 * r.size)) r.size, false⟩
      | Option.none => { t.frameAt (depth - i) with spilled := true })
    entries := (List.range depth).map (fun i => match rec' (depth - i) with
      | some r => { entryOf (bytesAt bs r.at_ 64) with onChip := (t.entry (depth - i)).onChip }
      | Option.none => t.entry (depth - i)) }

/-- What a thread is blocked on by its code; one that waited for a page stands in a run. -/
def blockedOf (n : Nat) : Blocked :=
  match n with
  | 1 => .bar
  | 2 => .svc
  | 3 => .frame
  | 4 => .refill
  | 6 => .swap
  | _ => .no

/-- A thread from its shadow and the frames of its group. -/
def State.threadFrom (s : State) (tk : Nat) (bs frames : List Byte) : State :=
  s.modThread tk (fun t =>
    let t := (t.framesFrom frames (parseFrames frames 0 frames.length) (natAt bs 0xDE 2)).reload bs
    { t with pc := BitVec.ofNat 64 (natAt bs 0 8), rel := Rels.zero, blocked := blockedOf (natAt bs 0xDB 1 / 2 % 8),
             trap := if natAt bs 0xDB 1 % 2 = 1 then t.trap else none })

/-! ### The restore -/

/-- Bytes of a half of a window. -/
def State.fillRegion (s : State) (loc : Nat) (bs : List Byte) : State := s.setBytes loc bs

/-- Write one group back onto a core. -/
def State.restoreGroup (s : State) (k core : Nat) (p : Seat) (region : Nat × Nat) (dict : Sparse (BitVec 384))
    (b : SavedBytes) : State :=
  let g := s.group k
  let s := s.bindBank core g.tenant g.kernel p dict
  let s := if (b.sec 14).isEmpty then s
    else (s.fillRegion (scrLoc (clusterOf core) region.1) ((b.sec 14).take g.scrHalf)).fillRegion
      (scrLoc (clusterOf core) (2 ^ 20 + region.2)) (((b.sec 14).drop g.scrHalf).take g.scrHalf)
  let shares := (s.groupsAt core .resident).any (fun h => h.kernel.pattern && h.launch == g.launch)
  let s := s.modCore core (fun c =>
    { c with latches := if g.kernel.scales then spSetN (fun _ => 127) [] 0 (b.sec 6) else c.latches,
             patterns := if g.kernel.pattern && !shares then spSetN (fun _ => 0) [] 0 (b.sec 7) else c.patterns })
  let s := b.shadows.foldl (fun s q => s.threadFrom q.1 q.2 (b.sec 13)) s
  let s := ((((s.moveGroup k core).cmdsFrom k core (b.sec 9)).runsFrom k core (b.sec 12)).trapsFrom k core (b.sec 12))
  let s := match g.contextPart with
    | some part => s.freePool g.tenant part.1
    | none => s
  let s := s.modGroup k (fun g =>
    { g.fromSections b with
      core := core, place := .resident, dbank := p.bank, contextPart := none, scrBase0 := region.1, scrBase1 := region.2,
      region := if g.scrHalf = 0 then none else some (clusterOf core),
      semAt := p.windows.sem, tagAt := p.windows.tag, tileAt := p.windows.tile, fmtAt := p.windows.fmt, latches := [] })
  (s.fileFree k).barCheck k

/-- Dictionary of a saved group on a core: what is read, if it has to be. -/
def State.savedDict (s : State) (k : Nat) (p : Seat) : DictRead :=
  if p.load then s.dictOf (s.group k).tenant (s.group k).kernel else .ok []

/-- Restore the groups of one gang, each on its core. `none` when a core does not take its group; a page to wait for or
a failure answers the state that it leaves, with false. -/
def restoreAll (s0 s : State) (region : Nat × Nat) : List (Nat × Nat) → Option (State × Bool)
  | [] => some (s, true)
  | (k, core) :: rest =>
    match s.seatSaved k core with
    | none => none
    | some p =>
      match s.readSaved k, s.savedDict k p with
      | .error (c, va), _ => some (s0.poolStop k c va .read, false)
      | .ok _, .miss va =>
        let z := (if p.load then s0.dropBank core p.bank else s0).raise (s0.group k).tenant va .read
        some (z.1.modLaunch (s0.group k).launch (fun l => { l with condReq := z.2, badGid := (s0.group k).gid }), false)
      | .ok _, .fail st => some ((s0.dropBank core p.bank).endGroupLaunch k 0x03 (BitVec.ofNat 64 st), false)
      | .ok b, .ok m => restoreAll s0 ((s.freshL1 core).restoreGroup k core p region m b) region rest

/-- Restore gangs one after another. A region that comes back from a context part takes a free place, which holds nothing
of an earlier gang. -/
def restoreGangs (s0 s : State) : List (List Nat) → List Nat → Option (State × Bool)
  | [], _ => some (s, true)
  | ks :: rest, cores =>
    let mine := cores.take ks.length
    let cluster := clusterOf (mine.headD 0)
    let fuse := (s.launchOf (ks.headD 0)).fuse
    let g := s.group (ks.headD 0)
    if !gangCores ks.length mine || !s.modeOk cluster fuse then none
    else match s.savedRegion ks cluster with
      | none => none
      | some r =>
        let t := s.setMode cluster fuse
        let t := if g.region.isNone && g.scrHalf != 0 then t.clearRegion cluster g.scrHalf r else t
        match restoreAll s0 t r (ks.zip mine) with
        | some (s', true) => restoreGangs s0 s' rest (cores.drop ks.length)
        | x => x

/-- What a restore onto some cores waits for. -/
def State.restoreWaits (s : State) (ks cores : List Nat) : Option WaitOn :=
  (ks.findSome? (fun k => s.readsWait (s.group k).tenant (s.restoreRuns k ++ dictRuns (s.group k).kernel))).orElse (fun _ =>
    s.freshWaits cores (s.launchOf (ks.headD 0)).fuse)

/-- An engine command owns a line that the restore reads or writes back (R311). -/
def State.restoreOwned (s : State) (ks cores : List Nat) : Bool :=
  ks.any (fun k => s.readsOwned (s.group k).tenant (s.restoreRuns k ++ dictRuns (s.group k).kernel)) || s.freshOwned cores

/-- What the restore reads, by tenant: each part, and the dictionary that a core has to load. -/
def State.restoreReads (s : State) (ks cores : List Nat) : List (Nat × List (DWord × Nat)) :=
  (((s.inGangs ks).flatten).zip cores).map (fun q => ((s.group q.1).tenant, s.restoreRuns q.1 ++
    if (s.seatSaved q.1 q.2).any (fun p => p.load) then dictRuns (s.group q.1).kernel else []))

/-- CONTEXT_RESTORE (R333, R355): the chosen launch's saved gang, onto cores that the hub chooses. -/
def execContextRestore (group : Nat) (cores : List Nat) (s : State) : Out :=
  match (if s.mgmt.fatal.isSome then none else s.pick) with
  | none => .next s
  | some p =>
    match s.restorable p.launch with
    | none => .next s
    | some ks =>
      if !ks.contains group || cores.length != ks.length || cores.any s.unparksFirst || !s.restoreReady ks
         || s.restoreOwned ks cores then .next s
      else if (s.restoreWaits ks cores).isSome then .next (s.askFor (s.restoreWaits ks cores))
      else match restoreGangs s s (s.inGangs ks) cores with
        | none => .next s
        | some (s', true) =>
          .next (((s.restoreReads ks cores).foldl (fun t r => t.markReads r.1 r.2) s').payFor p)
        | some (s', false) => .next s'

/-! ### Pre-emption (R333) -/

/-- The state without some groups. -/
def State.without (s : State) (ks : List Nat) : State :=
  ks.foldl (fun s k => s.modGroup k (fun g => { g with place := .saved, region := none })) s

/-- Groups that have been asked to yield. -/
def State.yielding (s : State) : List Nat :=
  (s.groups.filter (fun g => g.2.yieldReq.isSome)).map (fun g => g.1)

/-- What a launch has to place or restore: each saved gang, and its next unplaced one. -/
def State.gangsDue (s : State) (l : Launch) : List (Option (List Nat)) :=
  (((s.savedGroups l.id).filterMap s.restoreSet).eraseDups.flatMap (fun ks => (s.inGangs ks).map some))
  ++ (if l.nextGroup < l.grid then [none] else [])

/-- A gang is placeable on some cluster; one of a cooperative launch only with the whole launch (R331). -/
def State.fitsNow (s : State) (l : Launch) : Option (List Nat) → Bool
  | some ks => (List.range 192).any (s.savedFits ks)
  | none => if l.coop then s.coopPlaceable l else (List.range 192).any (s.placeableOn l)

/-- A gang is placeable on a cluster once victims have left it: `was` is the state with them. A cooperative launch takes
what room it gains there, cluster by cluster. -/
def State.gainsOn (s was : State) (l : Launch) (cluster : Nat) : Option (List Nat) → Bool
  | some ks => s.savedFits ks cluster
  | none => if l.coop then decide (was.clusterTakes l cluster < s.clusterTakes l cluster) else s.placeableOn l cluster

/-- The groups that are victims together: of a gang, or of a cooperative launch. -/
def State.victimUnit (s : State) (k : Nat) : List Nat :=
  let g := s.group k
  (s.groups.filter (fun q => q.2.launch == g.launch && !isService q.1
    && (q.2.place == .resident || q.2.place == .parked)
    && ((s.launchOf k).coop || s.gangOf q.1 == s.gangOf k))).map (fun q => q.1)

/-- Resident groups below an own level that may be saved. -/
def State.lesser (s : State) (level : Nat) : List (Nat × Group) :=
  s.groups.filter (fun g => !isService g.1 && g.2.place == .resident && decide (g.2.prio < level) && s.poolOn g.2.tenant
    && g.2.yieldReq.isNone)

/-- Victims of a cluster below an own level, lowest level first, then the youngest launch. -/
def State.victimUnits (s : State) (cluster level : Nat) : List (List Nat) :=
  let ks := ((s.lesser level).filter (fun g => clusterOf g.2.core == cluster)).map (fun g => g.1)
  let key := fun (k : Nat) => (s.group k).prio * 2 ^ 65 + (2 ^ 64 - (s.group k).launch)
  (((sortByKey key ks).map s.victimUnit)).eraseDups

/-- The victims for a gang on a cluster: the shortest list whose removal lets it in. -/
def State.victims (s : State) (l : Launch) (gang : Option (List Nat)) (cluster : Nat) : Option (List Nat) :=
  let us := s.victimUnits cluster l.prio
  let was := s.without s.yielding
  ((List.range (us.length + 1)).find? (fun n =>
    (was.without (us.take n).flatten).gainsOn was l cluster gang)).map (fun n => (us.take n).flatten)

/-- The gangs for which the hub may pre-empt, those of the highest own level first: placeable on no cluster now, nor once the
groups already asked to yield have left. A cooperative launch presses only if removing every lesser group makes room for
it whole. -/
def State.pressing (s : State) : List (Launch × Option (List Nat)) :=
  let t := s.without s.yielding
  (sortByKey (fun l => (7 - l.prio) * 2 ^ 64 + l.id) (s.launches.filter s.queued)).flatMap (fun l =>
    ((s.gangsDue l).filter (fun g => !s.fitsNow l g && !t.fitsNow l g
      && (g.isSome || !l.coop || (t.without ((s.lesser l.prio).map (fun q => q.1))).coopPlaceable l))).map (fun g => (l, g)))

/-- PREEMPT (R333): yields are requested of the victims on a cluster. -/
def execPreempt (cluster : Nat) (s : State) : Out :=
  match (if s.mgmt.fatal.isSome then none else s.pressing.findSome? (fun p => s.victims p.1 p.2 cluster)) with
  | none => .next s
  | some ks => .next (ks.foldl (fun s k => s.modGroup k (fun g => { g with yieldReq := some s.now })) s)

/-- PREEMPT_DEADLINE (R333, R353). -/
def execPreemptDeadline (group : Nat) (s : State) : Out :=
  let g := s.group group
  if g.place == .resident && !g.stopped && g.yieldReq.any (fun t => decide (t + s.field regPredl 0 32 ≤ s.now)) then
    .next (s.modGroup group (fun g => { g with stopped := true }))
  else .next s

end Sys2Proof.Machine
end

