-- ==== Sys2Proof/Machine/Completion.lean ====
section
/-! DEFINITION. The end of a launch (14 R335 to R337): groups ended by a status, the completion record, and the launches
that depend on it (R326). -/

namespace Sys2Proof.Machine

/-! ### Ending at a status (R337) -/

/-- End a placed or saved group: commands that have not started go, and what it held; started commands run on. -/
def State.abortGroup (s : State) (k : Nat) : State :=
  let tks := s.liveThreads k
  let s := { s with cmds := s.cmds.filter (fun c => c.group != k || c.started) }
  let s := tks.foldl (fun s tk => s.endTx tk) s
  let s := (s.clearGroup k).modGroup k (fun g => { g with stageA := [], stageB := [], swap := none, ymap := none })
  if s.cmds.any (fun c => c.group == k) then s else s.endGroup k

/-- Keys of the groups of a launch that have not ended. -/
def State.openGroups (s : State) (launch : Nat) : List Nat :=
  (s.groups.filter (fun g => g.2.launch == launch && !isService g.1 && g.2.place != .ended)).map (fun g => g.1)

/-- Groups that were never placed count as ended. -/
def Launch.dropUnplaced (l : Launch) : Launch := { l with ended := l.ended + (l.grid - l.nextGroup), nextGroup := l.grid }

/-- LAUNCH_ABORT (R337): a launch with a status ends at once; its condition and its loads of code wait for no page any
more. -/
def execLaunchAbort (launch : Nat) (s : State) : Out :=
  match s.findLaunch launch with
  | none => .next s
  | some l =>
    if !l.live || l.status.isNone then .next s
    else
      let s := (s.openGroups launch).foldl (fun s k => s.abortGroup k) s
      let images := s.sched.images.filter (fun m => m.1 / 2 ^ 22 != launch)
      let sat := s.sched.imageSat.filter (fun k => k / 2 ^ 22 != launch)
      let s := { s with sched := { s.sched with images := images, imageSat := sat } }
      .next (s.modLaunch launch (fun l => { l.dropUnplaced with condReq := none }))

/-! ### Completion (R335, R336) -/

/-- The launch of a thread's key. -/
def launchOfThread (tk : Nat) : Nat := groupOfThread tk / 2 ^ 22

/-- Every group has ended, every operation has completed and every write has performed at system scope. -/
def State.launchDone (s : State) (l : Launch) : Bool :=
  l.live && l.ended == l.grid && s.outstanding l.id == 0
  && s.cores.all (fun c => c.2.writes.all (fun w => launchOfThread w.thread != l.id))
  && s.cmds.all (fun c => (s.group c.group).launch != l.id)

/-- The cores whose L1s may hold local lines of a launch. -/
def State.launchCores (s : State) (launch : Nat) : List Nat :=
  ((s.groups.filter (fun g => g.2.launch == launch)).map (fun g => g.2.core)).eraseDups

/-- What writing its lines back waits for. -/
def State.launchWaits (s : State) (launch : Nat) : Option WaitOn :=
  (s.launchCores launch).findSome? (fun c => s.l1Waits c (fun _ => true))

def Launch.statusCode (l : Launch) : Nat := l.status.getD 0

/-- The completion record (R336). -/
def completionBytes (l : Launch) (now : Nat) : List Byte :=
  leBytes 8 l.id ++ leBytes 4 l.statusCode ++ leBytes 4 (if l.status.isSome then l.badGid else 0) ++ leBytes 8 l.voids
  ++ leBytes 8 l.accepted ++ leBytes 8 (l.firstPlaced.getD 0) ++ leBytes 8 now
  ++ leBytes 8 (if l.status.isSome then l.detail.toNat else 0) ++ leBytes 8 (1 + l.statusCode * 2 ^ 32)

/-- Steps 4 and 5: the interrupt, and the launches that wait for this one. -/
def State.finishLaunch (s : State) (l : Launch) : State :=
  let s := if l.irq then s.send (.interrupt l.id) else s
  let s := s.modLaunch l.id (fun m => { m with live := false, done := some s.now })
  let deps := (s.launches.filter (fun m => m.live && m.waits.contains l.id)).map (fun m => m.id)
  let s := deps.foldl (fun s d => s.modLaunch d (fun m => { m with waits := m.waits.filter (fun w => w != l.id) })) s
  let s := deps.foldl (fun s d =>
    if l.statusCode ≠ 0 ∧ ((s.findLaunch d).any (fun m => m.psucc)) = true then
      s.endLaunch d 0x06 0 (BitVec.ofNat 64 l.id) else s) s
  s.settleReady

/-- Write the record and finish, or wait for its page or for a snapshot copy. -/
def State.completeLaunch (s : State) (l : Launch) : State :=
  if l.ctgt = 0 then s.finishLaunch l
  else
    match s.xlate l.tenant needW l.ctgt with
    | .ok (.here pa _) =>
      let w := (s.writeWaits pa 64).orElse (fun _ => s.tenantMarkWaits l.tenant true l.ctgt)
      if w.isSome then s.askFor w
      else if s.owned pa 64 then s
      else ((s.markUsed l.tenant true l.ctgt).put pa (completionBytes l s.now)).finishLaunch l
    | .ok _ => s.finishLaunch l
    | .bad c r =>
      if c = 0x0C ∧ r = 0 then
        let z := s.raise l.tenant l.ctgt .write
        z.1.modLaunch l.id (fun m => { m with recReq := z.2 })
      else s.finishLaunch l

/-- The page request of a launch's record is still open. -/
def State.recordHeld (s : State) (l : Launch) : Bool := l.recReq.any (fun n => s.reqs.any (fun q => q.id == n))

/-- LAUNCH_COMPLETE (R335). -/
def execLaunchComplete (launch : Nat) (s : State) : Out :=
  match s.findLaunch launch with
  | none => .next s
  | some l =>
    let cs := s.launchCores launch
    if !s.launchDone l || s.recordHeld l || cs.any (fun c => s.ownedDirty c (fun _ => true)) then .next s
    else if (s.launchWaits launch).isSome then .next (s.askFor (s.launchWaits launch))
    else .next ((cs.foldl (fun s c => s.writebackL1 c (fun _ => true)) s).completeLaunch l)

end Sys2Proof.Machine
end

