-- ==== Sys2Proof/Machine/Bus.lean ====
section
/-! DEFINITION. What reaches memory apart from a bundle: the fatal-error state and its dump (19 R450), the page-fail
table (16 R366 to R369), pending writes that perform (13 R301), evictions (16 R363). -/

namespace Sys2Proof.Machine

/-! ### The fatal-error state (R450) -/

/-- Dies of the base stacks all work. -/
def State.hbmWorks (s : State) : Bool := (List.range 12).all (fun k => s.dieState (11 + k) == 2)

/-- A launch's entry in the dump. -/
def dumpEntry (l : Launch) : List Byte := leBytes 8 l.id ++ leBytes 8 (l.tenant % 64 + l.prio % 8 * 256)

/-- Bytes of some registers, in order. -/
def State.regBytes (s : State) (offs : List Nat) : List Byte := offs.flatMap (fun o => leBytes 8 (s.readReg o).toNat)

/-- The live launches, highest identifier first. -/
def State.liveDown (s : State) : List Launch := (sortByKey (fun l => l.id) (s.launches.filter (fun l => l.live))).reverse

/-- The dump of R450. -/
def State.dumpBytes (s : State) (cause : Nat) (detail : DWord) : List Byte :=
  let head := leBytes 4 0x4C5A4455 ++ leBytes 2 1 ++ leBytes 1 cause ++ leBytes 1 0 ++ leBytes 8 s.now
    ++ leBytes 8 detail.toNat ++ leBytes 8 s.liveDown.length
    ++ s.regBytes ((List.range 23).map regDiest) ++ leBytes 40 0
    ++ s.regBytes ((List.range 128).map regIslctl)
    ++ s.regBytes ((List.range 32).map (fun m => regMon m 0x08)) ++ s.regBytes ((List.range 32).map (fun m => regMon m 0x10))
    ++ s.regBytes [regPfcnt, regTxlstat, regTxdoubt, regFbstray] ++ leBytes 224 0
  let es := (s.liveDown.take 4096).flatMap dumpEntry
  head ++ es ++ List.replicate (0x10000 - es.length) (0 : Byte)

/-- Where the dump goes, if it goes to device memory. -/
def State.dumpLoc (s : State) (len : Nat) : Option Nat :=
  if s.reg regDumpaddr = 0 || !s.hbmWorks then none
  else match s.paKind (s.reg regDumpaddr).toNat with
    | .dev off => if off + len ≤ devSize then some off else none
    | _ => none

/-- Firmware writes the dump as soon as no snapshot copy, host copy or engine command holds its lines (R311, R383, R400);
it gives up when the dump has nowhere to go. -/
def State.settleDump (s : State) : State :=
  if !s.mgmt.dumpDue then s
  else
    let done := { s with mgmt := { s.mgmt with dumpDue := false } }
    match s.dumpLoc s.mgmt.dump.length with
    | none => done
    | some off =>
      if (s.writeWaits off s.mgmt.dump.length).isSome then s.askFor (s.writeWaits off s.mgmt.dump.length)
      else if (linesOf off s.mgmt.dump.length).any (fun l => s.owned l 128) then s
      else done.put off s.mgmt.dump

/-- Enter the fatal-error state; its first cause stands. -/
def State.enterFatal (s : State) (cause : Nat) (detail : DWord) : State :=
  if s.mgmt.fatal.isSome then s
  else
    { s with mgmt := { s.mgmt with fatal := some cause, dump := s.dumpBytes cause detail, dumpDue := true } }.settleDump

/-- FATAL_ERROR (R450): one of the causes of the dump table arises. -/
def execFatalError (cause : BitVec 8) (detail : BitVec 64) (s : State) : Out :=
  if cause.toNat = 0 ∨ 6 < cause.toNat then .next s else .next (s.enterFatal cause.toNat detail)

/-! ### The page-fail table (R366 to R369) -/

/-- A location lies in a frame. -/
def inFrame (f loc : Nat) : Bool := !isScr loc && loc / 4096 == f

/-- A cached translation maps a frame. -/
def TlbEntry.onFrame (s : State) (e : TlbEntry) (f : Nat) : Bool :=
  e.leaf && match s.paKind (leafPa e.pte e.level 0) with
  | .dev off => decide (off / 4096 ≤ f) && decide (f < off / 4096 + 2 ^ (9 * e.level))
  | _ => false

/-- An entry of a core's order names memory; a semaphore write does not. -/
def PendWrite.isAccess (w : PendWrite) : Bool :=
  match w.act with
  | .sem _ _ => false
  | _ => true

/-- An entry of a core's order lies in a frame. -/
def PendWrite.onFrame (f : Nat) (w : PendWrite) : Bool := inFrame f w.addr && w.isAccess

/-- Every cached copy that a core holds of a frame goes: local lines and fetch copies. An ICINV there has nothing left to
drop, and no host is told of a write any more. -/
def Core.loseFrame (c : Core) (f : Nat) : Core :=
  { c with lines := c.lines.filter (fun q => !inFrame f q.1), writes := c.writes.filter (fun w => !w.onFrame f),
           code := c.code.filter (fun q => !inFrame f (64 * q.1)) }

/-- Settle every core. -/
def State.settleCores (s : State) : State := (s.runs.map (fun r => r.core)).eraseDups.foldl (fun s c => s.settleCore c) s

/-- The accesses that were translated onto a frame perform (R376): writes and atomics in their core's order, FSTs of this
package to itself, and open pieces of loads. -/
def State.flushFrame (s : State) (f : Nat) : State :=
  let cs := s.cores.map (fun c => c.1)
  let s := cs.foldl (fun s c => ((s.core c).writes.filter (fun w => w.onFrame f && w.len != 0)).foldl
    (fun s w => s.performWrite c w) s) s
  let s := (s.fab.ops.filter (fun o => o.target == s.globalNumber && (match o.kind with
    | .fst addr _ => inFrame f addr
    | _ => false))).foldl (fun s o => s.performFst o) s
  cs.foldl (fun s c => s.fixReads c (fun _ => true) (s.core c).seq (4096 * f) 4096) s

/-- Enter a frame: what was translated onto it performs, as a TLB invalidation would have it (R376), and at the same time
translations onto it and every cached copy of its lines go, dirty ones included. -/
def State.enterFrame (s : State) (f : Nat) : State :=
  let s := s.flushFrame f
  let cores := s.cores.map (fun (c : Nat × Core) => (c.1, c.2.loseFrame f))
  { s with pageFail := s.pageFail ++ [f], tlb := s.tlb.filter (fun e => !e.onFrame s f), cores := cores,
           dir := s.dir.filter (fun q => q.1 % 2 ^ 33 / 32 != f) }.settleCores

/-- A frame is to enter the table; entering a full one is fatal (R369). -/
def State.addFrame (s : State) (f : Nat) : State :=
  if s.pageFail.contains f || decide (devSize ≤ 4096 * f) then s
  else if 65536 ≤ s.pageFail.length then s.enterFatal 1 (BitVec.ofNat 64 f)
  else s.enterFrame f

/-- PFADD (R369). -/
def execPfadd (frame : BitVec 28) (s : State) : Out := .next (s.addFrame frame.toNat)

/-- Write zeros to a frame, line by line. -/
def State.zeroFrame (s : State) (f : Nat) : State :=
  (List.range 32).foldl (fun s k => s.put (4096 * f + 128 * k) (List.replicate 128 (0 : Byte))) s

/-- A transaction of this package has stores to a frame that have still to become visible, or a LAUNCH batch has a packet
there that the hub has still to read (R224, R376, R404). -/
def State.frameDue (s : State) (f : Nat) : Bool :=
  s.fab.parts.any (fun p => p.coord == s.globalNumber && p.writes.any (fun w => inFrame f w.2.1))
  || s.sched.batches.any (fun b => b.lanes.any (fun l => inFrame f l.2.2))

/-- PFDEL (R369): the frame is zeroed, then leaves the table. -/
def execPfdel (frame : BitVec 28) (s : State) : Out :=
  let f := frame.toNat
  if !s.pageFail.contains f || (linesOf (4096 * f) 4096).any (fun l => s.owned l 128) || s.frameDue f then .next s
  else if (s.writeWaits (4096 * f) 4096).isSome then .next (s.askFor (s.writeWaits (4096 * f) 4096))
  else .next { s.zeroFrame f with pageFail := s.pageFail.filter (fun g => g != f) }

/-! ### Uncorrectable errors (R367, R368) -/

/-- The virtual address of the access of a command that lies at a physical one: its element's, else its source's. -/
def State.cmdVa (s : State) (c : Cmd) (addr : Nat) : DWord :=
  let e := s.elem c c.progress
  let hit := match e.index with
    | .ok segs => segs.any (fun g => g.2.2.1 == addr)
    | _ => false
  if (c.op == .copy || c.op == .copyx) && hit then c.fieldAt 16 + BitVec.ofNat 64 (4 * (c.idx c.progress).2.1)
  else if c.op == .copy || c.op == .copyx then e.from_
  else c.xs

/-- What becomes of the access that met an error. -/
def State.errorMet (s : State) (addr : Nat) : ErrMet → State
  | .nothing => s
  | .thread g pc ident => s.endGroupLaunch g 0x07 (BitVec.ofNat 64 (0x0C + ident % 256 * 2 ^ 8 + 3 * 2 ^ 16 + pc % 2 ^ 32 * 2 ^ 32))
  | .command id =>
    match s.findCmd id with
    | none => s
    | some c => s.modCmd id (fun d => if d.finished then d else d.stop 0x02 (s.cmdVa c addr) (BitVec.ofNat 64 c.progress))
  | .windlass g va => s.endGroupLaunch g 0x02 (BitVec.ofNat 64 va)

/-- UNCORRECTABLE_ERROR (R368). -/
def execUncorrectableError (addr : Nat) (met : ErrMet) (s : State) : Out :=
  if devSize ≤ addr then .next s else .next ((s.errorMet addr met).addFrame (addr / 4096))

/-- SCRUB (R367): corrected data changes nothing that is read; what the scrub finds uncorrectable enters the table. -/
def execScrub (stack : Nat) (found : Option (BitVec 28)) (s : State) : Out :=
  match found with
  | none => .next s
  | some f => if stack < 12 then .next (s.addFrame f.toNat) else .next s

/-! ### Writes and evictions -/

/-- An entry has performed at a scope that is not the widest (R300, R301). -/
def State.raiseLevel (s : State) (core : Nat) (w : PendWrite) (level : Nat) : State :=
  s.modCore core (fun c => { c with writes := c.writes.map (fun v => if v.id = w.id then { v with level := level } else v) })

/-- WRITE_PERFORMS (R300, R301): an entry of a core's order performs at a wider scope or at every scope; fences, signals and
conditions that wait for it go on. -/
def execWritePerforms (core write : Nat) (s : State) : Out :=
  let s := s.settleCore core
  match (s.core core).writes.find? (fun w => w.id == write) with
  | none => .next s
  | some w =>
    let level := Config.performsTo s.turn
    if (level = 1 ∨ level = 2) ∧ s.levelReady core level w = true then
      .next (((s.raiseLevel core w level).settleCore core).sendSignals core)
    else if (s.pendWaits core w).isSome then .next (s.askFor (s.pendWaits core w))
    else if !s.writeReady core w then .next s
    else .next (((s.performWrite core w).settleCore core).sendSignals core).settleConds

/-- LINE_EVICTION (R363): the copy of a line that a core's L1 or LZ1-P holds goes, written back first. -/
def execLineEviction (core line : Nat) (s : State) : Out :=
  if 768 < core then .next s
  else if core = 768 then .next (s.dirSet 768 (128 * line) .i)
  else
    let o := s.l1Owner core (128 * line)
    if s.ownedDirty o (inLine line) then .next s
    else if (s.writebackWaits o (inLine line)).isSome then .next (s.askFor (s.writebackWaits o (inLine line)))
    else
      let t := ((s.writeback o (inLine line)).discardLines o (inLine line)).dirSet (s.l1Agent o) (128 * line) .i
      .next ((t.modCore o (fun c => { c with hints := spSet (fun _ => 0) c.hints line 0 })).settleCore core)

end Sys2Proof.Machine
end

