-- ==== Sys2Proof/Machine/Pages.lean ====
section
/-! DEFINITION. Page requests (16 R377) and shootdown (R375, R376). -/

namespace Sys2Proof.Machine

/-! ### The page-request queue (R377) -/

def State.queueSize (s : State) : Nat := 2 ^ min 12 (s.field regPrqbase 0 4)
def State.queueHead (s : State) : Nat := s.field regPrqhead 0 32
def State.queueTail (s : State) : Nat := s.field regPrqtail 0 32

/-- The physical address of the next entry. -/
def State.queueSlot (s : State) : Nat := s.field regPrqbase 12 52 * 4096 + 32 * (s.queueTail % s.queueSize)

/-- The code of an access kind in an entry. -/
def AccKind.code : AccKind → Nat
  | .read => 0
  | .write => 1
  | .exec => 2

/-- The 32 bytes of an entry. -/
def State.requestBytes (s : State) (q : PageReq) : List Byte :=
  leBytes 8 (q.vpn * 4096) ++ leBytes 2 q.num ++ leBytes 1 q.tenant ++ leBytes 1 q.kind.code
    ++ leBytes 2 (s.asid q.tenant) ++ leBytes 2 0 ++ leBytes 8 q.at_ ++ leBytes 8 0

/-- Interrupts of LZ1-P by what raises them: a launch by its identifier, then the request queue and the snapshot
domains. -/
def intrQueue : Nat := 2 ^ 64
def intrDomain (d : Nat) : Nat := 2 ^ 64 + 1 + d

/-- A request has been written: TAIL advances and LZ1-P is interrupted. -/
def State.posted (s : State) (q : PageReq) : State :=
  ({ s with reqs := s.reqs.map (fun (r : PageReq) => if r.id = q.id then { r with posted := true } else r) }.setField
    regPrqtail 0 32 ((s.queueTail + 1) % 2 ^ 32)).send (.interrupt intrQueue)

/-- PAGE_REQUEST_POST (R377). Outside device memory the entry stores nothing: only the snapshot drain may name another
endpoint (R393; log entry 17). -/
def execPageRequestPost (req : Nat) (s : State) : Out :=
  match s.reqs.find? (fun q => q.id == req && !q.posted) with
  | none => .next s
  | some q =>
    if (s.queueTail + 2 ^ 32 - s.queueHead) % 2 ^ 32 = s.queueSize then .next s
    else if s.hubOwned s.queueSlot 32 then .next s
    else if (s.hubWaits s.queueSlot 32).isSome then .next (s.askFor (s.hubWaits s.queueSlot 32))
    else .next ((s.hubPut s.queueSlot (s.requestBytes q)).posted q)

/-! ### Responses (R340, R377) -/

/-- A launch whose condition's read or load of code is refused, for the group that was to be placed or restored (R326,
R330, R336). One that already has a status only stops waiting. -/
def Launch.refuse (l : Launch) : Launch :=
  if l.status.isSome then { l with condReq := none }
  else if l.waitsCond then { l with condReq := none, status := some 0x08, detail := l.maddr }
  else { l with condReq := none, status := some 0x03, detail := 2 }

/-- A launch whose record's page is refused completes without a record (R335). -/
def Launch.noRecord (l : Launch) : Launch := { l with recReq := none, words := l.words.set 7 (l.words.getD 7 0 &&& 1) }

/-- What the refusal of a request does to a launch. -/
def Launch.refused (l : Launch) (req : Nat) : Launch :=
  let l := if l.condReq = some req then l.refuse else l
  if l.recReq = some req then l.noRecord else l

/-- The groups whose Windlass or save-area accesses had asked, with the address: of a spill, the group of the victim
(R279, R336). -/
def State.askers (s : State) (id : Nat) : List (Nat × DWord) :=
  let mine := fun (r : Option (Nat × DWord × Nat)) =>
    (r.filter (fun q => q.1 == id)).map (fun q => (groupOfThread q.2.2, q.2.1))
  (s.cores.flatMap (fun c => c.2.waiters.filterMap (fun w => mine w.req) ++ c.2.refills.filterMap (fun r => mine r.req)))
  ++ s.groups.filterMap (fun g => (g.2.poolReq.filter (fun q => q.1 == id)).map (fun q => (g.1, q.2)))

/-- Every waiter of a request takes its refusal. -/
def State.refuseReq (s : State) (q : PageReq) : State :=
  let runs := (s.runs.filter (fun r => r.held.any (fun h => h.1 == .page q.id))).map (fun r => r.id)
  let cmds := (s.cmds.filter (fun c => c.held == some q.id)).map (fun c => c.id)
  let asked := s.askers q.id
  let launches := s.launches.map (fun (l : Launch) => if l.live then l.refused q.id else l)
  let txs := s.fab.txs.map (fun (t : Tx) => if t.req = some q.id then { t with recorded := true, req := none } else t)
  let s := { s with refused := s.refused ++ [⟨q.tenant, q.vpn, q.kind, runs, cmds⟩], launches := launches,
                    fab := { s.fab with txs := txs } }
  asked.foldl (fun s a => s.endGroupLaunch a.1 0x02 a.2) s

/-- PRRESP_WRITE (R377): every waiter goes on, or is refused. -/
def execPrrespWrite (id : BitVec 16) (refuse : Bool) (s : State) : Out :=
  match s.reqs.find? (fun q => q.num == id.toNat && q.posted) with
  | none => .next s
  | some q =>
    let s := { s with reqs := s.reqs.filter (fun r => r.id != q.id) }
    let s := if refuse then s.refuseReq q else s
    .next (s.settleConds.settleTxs)

/-! ### Shootdown (R375, R376) -/

/-- A TLBINV write: it is ignored with ERR while one is in progress. -/
def State.startInval (s : State) (op : Nat) (asid : BitVec 16) (count : Nat) : State :=
  if s.inval.isSome then s.setField regTlbstat 1 1 1
  else { s.setField regTlbstat 0 1 1 with inval := some ⟨op, asid, s.field regTlbva 0 45, count⟩ }

/-- TLBINV_ASID (R375, OP 1). -/
def execTlbinvAsid (asid : BitVec 16) (s : State) : Out := .next (s.startInval 1 asid 0)
/-- TLBINV_RANGE (R375, OP 2): COUNT holds the pages less one. -/
def execTlbinvRange (asid : BitVec 16) (count : BitVec 24) (s : State) : Out := .next (s.startInval 2 asid (count.toNat + 1))
/-- TLBINV_ALL (R375, OP 3). -/
def execTlbinvAll (s : State) : Out := .next (s.startInval 3 0 0)

/-- An invalidation removes an entry. -/
def Inval.takes (v : Inval) (e : TlbEntry) : Bool :=
  if v.op = 1 then !e.glob && e.asid == v.asid
  else if v.op = 2 then
    let first := e.vpn / 2 ^ (9 * e.level) * 2 ^ (9 * e.level)
    (e.glob || e.asid == v.asid) && decide (first < v.first + v.count) && decide (v.first < first + 2 ^ (9 * e.level))
  else v.op == 3

/-- A location of device memory that an entry maps. -/
def TlbEntry.covers (s : State) (e : TlbEntry) (loc : Nat) : Bool :=
  e.leaf && match s.paKind (leafPa e.pte e.level 0) with
  | .dev off => !isScr loc && decide (off ≤ loc) && decide (loc < off + 2 ^ (12 + 9 * e.level))
  | _ => false

/-- An address of another package that an entry maps. -/
def TlbEntry.coversFar (s : State) (e : TlbEntry) (target addr : Nat) : Bool :=
  e.leaf && match s.paKind (leafPa e.pte e.level 0) with
  | .far n off => target % 4096 == n && decide (off ≤ addr) && decide (addr < off + 2 ^ (12 + 9 * e.level))
  | _ => false

/-- A remote operation was translated through an entry. -/
def OutOp.through (s : State) (e : TlbEntry) (o : OutOp) : Bool :=
  match o.kind with
  | .fst addr _ => if o.target = s.globalNumber then e.covers s addr else e.coversFar s o.target addr
  | .load addr _ _ => e.coversFar s o.target addr
  | .fsig _ _ => false

/-- A part of a transaction of this package that was translated through an entry, here or at another package (R404). -/
def TlbEntry.inTx (s : State) (e : TlbEntry) : Bool :=
  s.fab.parts.any (fun p => p.coord == s.globalNumber && p.writes.any (fun w => e.covers s w.2.1))
  || s.fab.txs.any (fun t => t.targets.any (fun n => match s.paKind (leafPa e.pte e.level 0) with
      | .far k _ => e.leaf && n % 4096 == k
      | _ => false))

/-- Every access that was translated through an entry has performed at system scope, dirty local lines apart. -/
def State.entryQuiet (s : State) (e : TlbEntry) : Bool :=
  s.cores.all (fun c => c.2.writes.all (fun w => !(w.isAccess && e.covers s w.addr)))
  && s.accesses.all (fun a => a.reads.all (fun r => r.2.all (fun p => p.fixed.isSome || p.remote.isSome || !e.covers s p.addr)))
  && s.fab.hostAsked.all (fun l => !e.covers s l.1)
  && s.fab.ops.all (fun o => !o.through s e)
  && s.sched.batches.all (fun b => b.lanes.all (fun l => !e.covers s l.2.2))
  && !e.inTx s
  && s.cores.all (fun c => !s.ownedDirty c.1 (fun loc => e.covers s loc))

/-- What writing back the dirty local lines that an entry maps waits for. -/
def State.entryWaits (s : State) (e : TlbEntry) : Option WaitOn :=
  s.cores.findSome? (fun c => s.writebackWaits c.1 (fun loc => e.covers s loc))

/-- Dirty local lines that an entry maps are written back. -/
def State.cleanEntry (s : State) (e : TlbEntry) : State :=
  (s.cores.map (fun c => c.1)).foldl (fun t c => t.writeback c (fun loc => e.covers s loc)) s

/-- TLB_INVALIDATION_DONE (R376). -/
def execTlbInvalidationDone (s : State) : Out :=
  match s.inval with
  | none => .next s
  | some v =>
    let gone := s.tlb.filter v.takes
    if !gone.all s.entryQuiet then .next s
    else if (gone.findSome? s.entryWaits).isSome then .next (s.askFor (gone.findSome? s.entryWaits))
    else
      let t := gone.foldl (fun t e => t.cleanEntry e) s
      .next ({ t with tlb := t.tlb.filter (fun e => !v.takes e), inval := none }.setField regTlbstat 0 1 0)

end Sys2Proof.Machine
end

