-- ==== Sys2Proof/Machine/Snapshots.lean ====
section
/-! DEFINITION. Snapshots (16 R379 to R384): domains, the cut, the copy before a write, the drain. -/

namespace Sys2Proof.Machine

/-- Pages of device memory (R379). -/
def devPages : Nat := 0xC00000

def State.domainOf (s : State) (page : Nat) : Option Nat := spGet (fun _ => none) s.snap.member page
def State.inPool (s : State) (page : Nat) : Bool := decide (s.poolFirst ≤ page) && decide (page < s.poolFirst + s.poolCount)
def State.setRes (s : State) (code : Nat) : State := s.setReg regSnres (BitVec.ofNat 64 code)

/-- Pages of a domain in ascending order. -/
def State.domPages (s : State) (d : Nat) : List Nat := (s.snap.member.filter (fun q => q.2 == some d)).map (fun q => q.1)

/-- The pool is invalid (R379). -/
def State.poolInvalid (s : State) : Bool :=
  s.poolCount != 0 && (decide (devPages < s.poolFirst + s.poolCount) || s.snap.member.any (fun q => q.2.isSome && s.inPool q.1))

/-- Run a command that the state of its domain admits; any other sets RES 1 (R381). -/
def State.domCmd (s : State) (d : Nat) (states : List Nat) (f : State → State) : State :=
  if states.contains (s.domState d) then f s else s.setRes 1

/-! ### Membership -/

/-- What forbids a change of membership of a range. -/
def State.rangeCode (s : State) (d first count : Nat) : Nat :=
  if devPages < first + count then 2
  else if s.snap.member.any (fun q => decide (first ≤ q.1) && decide (q.1 < first + count) && q.2.isSome && q.2 != some d)
    || (decide (count ≠ 0) && decide (first < s.poolFirst + s.poolCount) && decide (s.poolFirst < first + count)) then 3
  else 0

/-- Give the pages of a range a domain or none, or none of them. -/
def State.setMembers (s : State) (d first count : Nat) (dest : Option Nat) : State :=
  let code := s.rangeCode d first count
  let s := s.setRes code
  if code ≠ 0 then s
  else
    let pages := (List.range count).map (fun k => first + k)
    { s with snap := { s.snap with member := pages.foldl (fun m p => spSet (fun _ => none) m p dest) s.snap.member } }

/-- SNADD (R381). -/
def execSnadd (dom : BitVec 4) (first count : BitVec 24) (s : State) : Out :=
  .next (s.domCmd dom.toNat [0] (fun s => s.setMembers dom.toNat first.toNat count.toNat (some dom.toNat)))

/-- SNREM (R381). -/
def execSnrem (dom : BitVec 4) (first count : BitVec 24) (s : State) : Out :=
  .next (s.domCmd dom.toNat [0] (fun s => s.setMembers dom.toNat first.toNat count.toNat none))

/-! ### The cut (R382) -/

/-- Set or clear the copy bit of some pages; no write waits for a copy of them any more. -/
def State.setCopyBits (s : State) (pages : List Nat) (b : Bool) : State :=
  { s with snap := { s.snap with copyBit := pages.foldl (fun m p => spSet (fun _ => false) m p b) s.snap.copyBit,
                                 asked := s.snap.asked.filter (fun p => !pages.contains p) } }

/-- The cut of a domain at this instant. -/
def State.cut (s : State) (d : Nat) : State :=
  ((s.setCopyBits (s.domPages d) true).setReg (regSncut d) (BitVec.ofNat 64 s.now)).setDomState d 1

/-- SNAP (R381, R382). -/
def execSnap (dom : BitVec 4) (s : State) : Out :=
  .next (s.domCmd dom.toNat [0] (fun s => if s.poolInvalid then s.setRes 4 else (s.cut dom.toNat).setRes 0))

/-! ### The copy before a write (R383) -/

/-- The lowest free page of the pool. -/
def State.freePoolPage (s : State) : Option Nat :=
  ((List.range s.poolCount).map (fun k => s.poolFirst + k)).find? (fun p => s.snap.copies.all (fun c => c.2.1 != p))

/-- Copy the 64 KiB of a page: a base-die copy, which recalls the copies of its lines, into a page that no agent keeps copies
of (R12, R363). -/
def State.copyPage (s : State) (src dst : Nat) : State :=
  let moved := (s.mem.filter (fun q => q.1 / 2 ^ 16 == src)).map (fun (q : Nat × Byte) => (dst * 2 ^ 16 + q.1 % 2 ^ 16, q.2))
  { s with mem := s.mem.filter (fun q => decide (q.1 / 2 ^ 16 < dst)) ++ moved ++ s.mem.filter (fun q => decide (dst < q.1 / 2 ^ 16)),
           dir := s.dir.filter (fun q => q.1 % 2 ^ 33 / 512 != src && q.1 % 2 ^ 33 / 512 != dst) }

/-- COPY_BEFORE_WRITE (R383): the base die copies a page that a write waits for into a free pool page, and its copy bit
clears. -/
def execCopyBeforeWrite (page : Nat) (s : State) : Out :=
  match s.copyBit page && s.snap.asked.contains page, s.domainOf page, s.freePoolPage with
  | true, some d, some p =>
    let t := (s.copyPage page p).setCopyBits [page] false
    .next { t with snap := { t.snap with copies := t.snap.copies ++ [(page, p, d)] } }.settleTxs
  | _, _, _ => .next s

/-! ### The drain (R384) -/

/-- The pool page that holds a page's copy. -/
def State.poolCopy (s : State) (page : Nat) : Option Nat := (s.snap.copies.find? (fun c => c.1 == page)).map (fun c => c.2.1)

/-- The pages of a domain that are still to be sent. -/
def State.toSend (s : State) (d : Nat) : List Nat :=
  (s.domPages d).filter (fun p => (s.copyBit p || (s.poolCopy p).isSome) && !s.snap.sent.contains (p, d))

/-- A drain with nothing left to send or to be acknowledged has ended. -/
def State.drainEnd (s : State) (d : Nat) : State :=
  if s.domState d = 2 ∧ (s.toSend d).isEmpty ∧ s.snap.sent.all (fun q => q.2 != d) then
    ({ s.setDomState d 0 with snap := { s.snap with next := spErase s.snap.next d } }).send (.interrupt (intrDomain d))
  else s

/-- SNOUT (R381). -/
def execSnout (dom : BitVec 4) (s : State) : Out :=
  let d := dom.toNat
  .next (s.domCmd d [1] (fun s =>
    if s.reg regSntgt = 0 then s.setRes 6
    else { (s.setDomState d 2).setRes 0 with snap := { s.snap with next := spErase s.snap.next d } }.drainEnd d))

/-- Where a page is sent from: its copy, or its home. -/
def State.drainFrom (s : State) (page : Nat) : Nat := (s.poolCopy page).getD page

/-- Frame k of a page of the domain has failed, or that of its copy. -/
def State.drainFailed (s : State) (page k : Nat) : Bool :=
  s.pageFail.contains (16 * page + k) || s.pageFail.contains (16 * s.drainFrom page + k)

/-- The bytes that the target gets of a page: failed frames as zeros. -/
def State.drainBytes (s : State) (page : Nat) : List Byte :=
  (List.range 16).flatMap (fun k =>
    if s.drainFailed page k then List.replicate 4096 (0 : Byte) else s.bytes (s.drainFrom page * 2 ^ 16 + 4096 * k) 4096)

/-- A page of the domain has a failed frame. -/
def State.pageFailed (s : State) (page : Nat) : Bool := (List.range 16).any (s.drainFailed page)

/-- The target of a drain can be reached: the LZ1-N of its PCIe port works, or a port of the pod is up (R380). -/
def State.drainReaches (s : State) : Bool :=
  if s.field regSntkind 0 2 < 2 then s.dieState (9 + s.field regSntkind 0 2) == 2 else s.podUp s.pod

/-- What reading a page live waits for (R400). -/
def State.drainWaits (s : State) (page : Nat) : Option WaitOn :=
  if (s.poolCopy page).isSome then none else s.readWaits (page * 2 ^ 16) (2 ^ 16)

/-- An engine command owns a line of a page that is read live (R311). -/
def State.drainOwned (s : State) (page : Nat) : Bool :=
  (s.poolCopy page).isNone && (linesOf (page * 2 ^ 16) (2 ^ 16)).any (fun l => s.owned l 128)

/-- A page goes to the target that SNTKIND names: a PCIe port, where a read of its last address follows, or over the fabric
(R380). One that is read live loses its copy bit, and an agent's copy in M is written back (R363). -/
def State.sendPage (s : State) (d page : Nat) : State :=
  let kind := s.field regSntkind 0 2
  let dest := s.field regSntgt 16 48 * 2 ^ 16 + 2 ^ 16 * page
  let m := Msg.drainPage (if kind < 2 then some kind else none) d page dest (s.drainBytes page)
  let live := (s.poolCopy page).isNone
  let s := if s.pageFailed page then s.setField (regSnstat d) 53 1 1 else s
  let s := if kind < 2 then (s.send m).send (.drainRead kind (dest + 2 ^ 16 - 1)) else s.fabSend s.pod m
  let s := if live then (s.homeReads (page * 2 ^ 16) (2 ^ 16)).setCopyBits [page] false else s
  { s with snap := { s.snap with sent := s.snap.sent ++ [(page, d)], next := spPut s.snap.next d (page + 1) } }

/-- DRAIN_PAGE_SEND (R384): pages go in ascending order. -/
def execDrainPageSend (dom : BitVec 4) (s : State) : Out :=
  let d := dom.toNat
  if s.domState d ≠ 2 then .next s
  else match (s.toSend d).find? (fun p => decide (spGet (fun _ => 0) s.snap.next d ≤ p)) with
    | none => .next s
    | some p =>
      if !s.drainReaches || s.drainOwned p then .next s
      else if (s.drainWaits p).isSome then .next (s.askFor (s.drainWaits p))
      else .next (s.sendPage d p).settleTxs

/-- DRAIN_PAGE_ACK (R384): the target has every write of a page; its pool page is free. -/
def execDrainPageAck (dom : BitVec 4) (page : Nat) (s : State) : Out :=
  let d := dom.toNat
  if s.domState d ≠ 2 || !s.snap.sent.contains (page, d) then .next s
  else
    .next ({ s with snap := { s.snap with sent := s.snap.sent.filter (fun q => q != (page, d)),
                                          copies := s.snap.copies.filter (fun c => c.1 != page) } }.drainEnd d)

/-- A drain fails: the remaining copy bits stay set. -/
def State.drainFails (s : State) (d : Nat) : State :=
  if s.domState d ≠ 2 then s
  else
    { (s.setDomState d 1).setField (regSnstat d) 52 1 1 with
      snap := { s.snap with sent := s.snap.sent.filter (fun q => q.2 != d), next := spErase s.snap.next d } }.send
      (.interrupt (intrDomain d))

/-- DRAIN_TARGET_FAIL (R381). -/
def execDrainTargetFail (dom : BitVec 4) (s : State) : Out := .next (s.drainFails dom.toNat)

/-! ### Stop and pool -/

/-- SNSTOP (R381). -/
def execSnstop (dom : BitVec 4) (s : State) : Out :=
  let d := dom.toNat
  .next (s.domCmd d [1, 2] (fun s =>
    let t := ((s.setCopyBits (s.domPages d) false).setDomState d 0).setRes 0
    { t with snap := { t.snap with copies := t.snap.copies.filter (fun c => c.2.2 != d),
                                   sent := t.snap.sent.filter (fun q => q.2 != d), next := spErase t.snap.next d } }.settleTxs))

/-- SNPOOL_WRITE (R380): ignored with RES 4 while any domain is not Idle. -/
def execSnpoolWrite (value : BitVec 64) (s : State) : Out :=
  if (List.range 16).all (fun d => s.domState d == 0) then .next (s.setReg regSnpool (value &&& 0xFFFFFFFFFFFF))
  else .next (s.setRes 4)

end Sys2Proof.Machine
end

