-- ==== Sys2Proof/Machine/Dies.lean ====
section
/-! DEFINITION. Dies and islands (19 R432 to R441): enumeration, isolation and rejoin, clocks, gating. -/

namespace Sys2Proof.Machine

/-! ### Enumeration (R432 to R434) -/

/-- Bring-up order of the dies: the base stacks, then dies 0 to 10. -/
def dieOrder : List Nat := (List.range 12).map (fun k => 11 + k) ++ List.range 11

/-- The kind that a die's table must give (R432, R433). -/
def dieKind (d : Nat) : Nat := if d < 8 then 1 else if d = 8 then 2 else if d < 11 then 3 else 4

/-- The class that R10 assigns: 0 peer, 1 I/O-coherent, 3 none. -/
def dieClass (d : Nat) : Nat := if d < 9 then 0 else if d < 11 then 1 else 3

/-- A capability table passes (R433). -/
def tablePasses (d : Nat) (t : List Byte) : Bool :=
  t.length == 64 && natAt t 0 4 == 0x4C5A4350 && natAt t 4 1 == dieKind d
  && (dieClass d == 3 || natAt t 7 1 / 2 ^ dieClass d % 2 == 1)

/-- Isolations of a die since package reset. -/
def State.isolations (s : State) (d : Nat) : Nat := s.field (regDiest d) 8 8

/-- The home slice of an index (R362). -/
def State.homeOf (s : State) (h : Nat) : Nat := spGet (fun k => k) s.hmap h

/-- The home slice of the line of an address (R362). -/
def State.homeSlice (s : State) (pa : Nat) : Nat := s.homeOf (homeIndex pa)

/-- Rewrite the home-map entries that name a die (R365, step 3). -/
def State.spreadHomes (s : State) (d : Nat) : State :=
  let dies := (List.range 8).filter (fun k => k != d && !([3, 4, 5].contains (s.dieState k)))
  let slices := dies.flatMap (fun k => (List.range 64).map (fun j => 64 * k + j))
  let hs := (List.range 512).filter (fun h => s.homeOf h / 64 == d)
  if slices.isEmpty then s
  else
    let hmap := ((List.range hs.length).zip hs).foldl (fun m q =>
      spSet (fun k => k) m q.2 (slices.getD (q.1 % slices.length) 0)) s.hmap
    { s with hmap := hmap }

/-- The home-map entries of a die that returns (R437). -/
def State.returnHomes (s : State) (d : Nat) : State :=
  { s with hmap := s.hmap.filter (fun q => q.1 / 64 != d) }

/-- The effect of a failed die: at boot on the package (R434). -/
def State.dieFails (s : State) (d : Nat) : State :=
  let s := s.setDieState d 5
  if d < 8 then s.spreadHomes d
  else if s.isolations d ≠ 0 then s
  else if d = 8 then s.enterFatal 3 (BitVec.ofNat 64 d)
  else if 11 ≤ d then s.enterFatal 2 (BitVec.ofNat 64 d)
  else s

/-- The next die of the bring-up starts to enumerate. -/
def State.nextDie (s : State) : State :=
  match dieOrder.find? (fun d => s.dieState d == 0) with
  | none => s
  | some d => if dieOrder.any (fun k => s.dieState k == 1) then s else s.setDieState d 1

/-- What the hub assigns a die whose table has passed (R11): ranges and message queues that the firmware chooses, as many
queues as the table asks for, and the class of R10. -/
def grantOf (turn d : Nat) (t : List Byte) : DieGrant :=
  ⟨Config.dieRanges d, Config.dieQueue turn d, natAt t 8 2, dieClass d⟩

def State.setGrant (s : State) (d : Nat) (g : Option DieGrant) : State :=
  { s with mgmt := { s.mgmt with grants := spSet (fun _ => none) s.mgmt.grants d g } }

/-- The package keeps the capability table that a die showed (R433). -/
def State.setCaps (s : State) (d : Nat) (table : List (BitVec 8)) : State :=
  { s with mgmt := { s.mgmt with caps := spSet (fun _ => []) s.mgmt.caps d table } }

/-- A die's table is judged (R433): a die that passes is active and gets what R11 assigns, and its homes come back after an
isolation (R362); any other has failed. -/
def State.judgeDie (s : State) (d : Nat) (table : List (BitVec 8)) : State :=
  if tablePasses d table then
    let t := ((s.setDieState d 2).setField (regDiest d) 4 2 (dieClass d)).setGrant d (some (grantOf s.turn d table))
    if d < 8 ∧ s.isolations d ≠ 0 then t.returnHomes d else t
  else (s.setGrant d none).dieFails d

/-- DIE_ENUMERATE (R433): the capability table is read and judged, and the next die follows. -/
def execDieEnumerate (die : BitVec 8) (table : List (BitVec 8)) (s : State) : Out :=
  let d := die.toNat
  if 22 < d || !(s.dieState d == 1 || (s.dieState d == 0 && d == 11)) then .next s
  else .next ((s.setCaps d table).judgeDie d table).nextDie

/-- PACKAGE_RESET (R432): everything but module flash takes its reset value, and the bring-up begins. -/
def execPackageReset (s : State) : Out :=
  let r := { State.reset with agenda := s.agenda, turn := s.turn, outbox := s.outbox,
                              mgmt := { State.reset.mgmt with flash := s.mgmt.flash } }
  .next r.nextDie

/-! ### Core reset -/

/-- Core cycles of an island's cores since package reset. -/
def State.rawCycles (s : State) (core : Nat) : Nat :=
  (s.now * 70 - spGet (fun _ => 0) s.mgmt.lostTicks (islandOf core)) / 70

/-- %ctime of a core counts from now. -/
def State.restartCount (s : State) (core : Nat) : State :=
  { s with mgmt := { s.mgmt with coreReset := spSet (fun _ => 0) s.mgmt.coreReset core (s.rawCycles core) } }

/-- Core reset: its stores are empty, and no table slot has an owner (R185, R440). -/
def State.resetCore (s : State) (core : Nat) : State :=
  let s := s.clearService core
  let s := { s with runs := s.runs.filter (fun r => r.core != core), accesses := s.accesses.filter (fun a => a.core != core),
                    cores := spErase s.cores core, dir := s.dir.filter (fun q => q.1 / 2 ^ 33 != core) }
  (((s.setReg (regTabown core false) 0).setReg (regTabown core true) 0)).restartCount core

/-- Nothing of a core is under way any more. -/
def State.coreQuiet (s : State) (core : Nat) : Bool :=
  (s.placedOn core).isEmpty && s.cmds.all (fun c => c.core != core || !c.started) && (s.core core).writes.isEmpty

/-- What writing back the dirty local lines of some cores waits for. -/
def State.cleanWaits (s : State) (cores : List Nat) : Option WaitOn :=
  cores.findSome? (fun c => s.writebackWaits c (fun _ => true))

/-- An engine command owns a line that would be written back (R311). -/
def State.cleanOwned (s : State) (cores : List Nat) : Bool := cores.any (fun c => s.ownedDirty c (fun _ => true))

/-- Write back the local lines of some cores, and reset the cores. -/
def State.flushReset (s : State) (cores : List Nat) : State :=
  let s := cores.foldl (fun s c => s.writeback c (fun _ => true)) s
  cores.foldl (fun s c => s.resetCore c) s

/-! ### Isolation (R436, R437) -/

/-- Some die is Isolating or Enumerating. -/
def State.dieBusy (s : State) : Bool := (List.range 23).any (fun d => s.dieState d == 1 || s.dieState d == 3)

/-- The cores of a die. -/
def dieCores (d : Nat) : List Nat := (List.range 96).map (fun k => 96 * d + k)

/-- The groups of a die: placed there, or with a started command issued from it. -/
def State.groupsOnDie (s : State) (d : Nat) : List Nat :=
  (s.groups.filter (fun g => !isService g.1 && dieOf g.2.core == d
    && (g.2.place == .resident || g.2.place == .parked || s.cmds.any (fun c => c.group == g.1 && c.started)))).map
    (fun g => g.1)

/-- Launches with a group on an isolated die end with status 0x04; the record names the lowest %gid. -/
def State.endOnDie (s : State) (d : Nat) : State :=
  (sortByKey (fun k => (s.group k).gid) (s.groupsOnDie d)).foldl
    (fun s k => s.endGroupLaunch k 0x04 (BitVec.ofNat 64 d)) s

/-- The ports of an LZ1-N go down, and a drain aimed at its PCIe port fails. -/
def State.portsDown (s : State) (d : Nat) : State :=
  let s := (List.range 8).foldl (fun s k => s.setPort (BitVec.ofNat 4 (8 * (d - 9) + k)) 0 0) s
  if s.field regSntkind 0 2 = d - 9 then (List.range 16).foldl (fun s dom => s.drainFails dom) s else s

/-- Isolation of a die begins. -/
def State.isolate (s : State) (d : Nat) : State :=
  let s := (s.setDieState d 3).setField (regDiest d) 8 8 (min 255 (s.isolations d + 1))
  if d < 8 then s.endOnDie d
  else if d = 8 then { s with mgmt := { s.mgmt with hartsRunning := false } }
  else s.portsDown d

/-- A DIECMD write (R436). -/
def State.dieCommand (s : State) (op d : Nat) : State :=
  if s.dieBusy then s
  else if op = 1 ∧ d ≤ 10 ∧ s.dieState d = 2 then s.isolate d
  else if op = 2 ∧ d ≤ 22 ∧ s.dieState d = 4 then s.setDieState d 1
  else s

/-- DIE_ISOLATE (R437). -/
def execDieIsolate (die : BitVec 8) (s : State) : Out := .next (s.dieCommand 1 die.toNat)

/-- DIE_REJOIN (R436). -/
def execDieRejoin (die : BitVec 8) (s : State) : Out := .next (s.dieCommand 2 die.toNat)

/-- DIE_INTERNAL_ERROR (R436). -/
def execDieInternalError (die : BitVec 8) (s : State) : Out :=
  if die.toNat ≤ 10 ∧ s.dieState die.toNat = 2 then .next (s.isolate die.toNat) else .next s

/-- Every step of R437 before the last can be done. -/
def State.isolationReady (s : State) (d : Nat) : Bool :=
  d < 8 → ((dieCores d).all s.coreQuiet && !s.cleanOwned (dieCores d))

/-- A frame may hold a line that an isolated die has lost (R365): one whose home it was, or which it held in M. -/
def State.mayLose (s : State) (d f : Nat) : Bool :=
  (List.range 32).any (fun k =>
    let loc := 4096 * f + 128 * k
    (decide (d < 8) && s.homeSlice loc / 64 == d)
    || s.dir.any (fun q => q.2 == .m && q.1 % 2 ^ 33 == loc / 128
      && (if d < 8 then decide (q.1 / 2 ^ 33 < 768) && dieOf (q.1 / 2 ^ 33) == d else q.1 / 2 ^ 33 == 768)))

/-- ISOLATION_COMPLETE (R436): lines are written back, lost ones enter the page-fail table, homes move, and the die is
held in reset. -/
def execIsolationComplete (die : BitVec 8) (lost : List (BitVec 28)) (s : State) : Out :=
  let d := die.toNat
  if 10 < d ∨ s.dieState d ≠ 3 ∨ !s.isolationReady d then .next s
  else if d < 8 ∧ (s.cleanWaits (dieCores d)).isSome = true then .next (s.askFor (s.cleanWaits (dieCores d)))
  else
    let lost := lost.filter (fun f => s.mayLose d f.toNat)
    let s := if d < 8 then (s.flushReset (dieCores d)).spreadHomes d
      else if d = 8 then { s with dir := s.dir.filter (fun q => q.1 / 2 ^ 33 != 768) }
      else s
    let s := if d ≤ 8 then lost.foldl (fun s f => s.addFrame f.toNat) s else s
    .next (s.setDieState d 4)

/-! ### Islands (R438 to R441) -/

/-- The cores of a compute island. -/
def islandCores (n : Nat) : List Nat := (List.range 8).map (fun k => 96 * (n / 12) + 8 * (n % 12) + k)

/-- FREQ as it acts. -/
def clampFreq (f : Nat) : Nat := max 20 (min 70 f)

/-- The clock an island is to run at: the throttle limit is that of the compute islands. -/
def State.islandTarget (s : State) (n : Nat) : Nat :=
  let f := clampFreq (s.field (regIslctl n) 0 7)
  if n < 96 then min f s.mgmt.throttle else f

def State.islandState (s : State) (n : Nat) : Nat := s.field (regIslctl n) 13 2
def State.setIslandState (s : State) (n v : Nat) : State := s.setField (regIslctl n) 13 2 v
def State.islandGate (s : State) (n : Nat) : Bool := s.field (regIslctl n) 15 1 == 1

/-- A running island whose clock is to change is changing. -/
def State.noteClock (s : State) (n : Nat) : State :=
  if s.islandTarget n ≠ s.islandClock n ∧ s.islandState n = 0 then s.setIslandState n 1 else s

/-- Write FREQ. -/
def State.setFreq (s : State) (n f : Nat) : State := (s.setField (regIslctl n) 0 7 f).noteClock n

/-- Set GATE of a compute island: gating begins. -/
def State.gateOn (s : State) (n : Nat) : State :=
  if s.islandGate n then s
  else { (s.setField (regIslctl n) 15 1 1).setIslandState n 1 with
         mgmt := { s.mgmt with waking := s.mgmt.waking.filter (fun k => k != n) } }

/-- Clear GATE: the island is ungated; the cores of a gated one start as after core reset. -/
def State.gateOff (s : State) (n : Nat) : State :=
  if !s.islandGate n then s
  else
    let t := if s.islandState n = 2 then (islandCores n).foldl (fun s c => s.restartCount c) s else s
    { (t.setField (regIslctl n) 15 1 0).setIslandState n 1 with mgmt := { t.mgmt with waking := t.mgmt.waking ++ [n] } }

/-- ISLAND_FREQ_WRITE (R439): islands 96 to 127 ignore it. -/
def execIslandFreqWrite (island freq : BitVec 7) (s : State) : Out :=
  if island.toNat < 96 then .next (s.setFreq island.toNat freq.toNat) else .next s

/-- ISLAND_GATE (R440). -/
def execIslandGate (island : BitVec 7) (s : State) : Out :=
  if island.toNat < 96 then .next (s.gateOn island.toNat) else .next s

/-- ISLAND_UNGATE (R440). -/
def execIslandUngate (island : BitVec 7) (s : State) : Out :=
  if island.toNat < 96 then .next (s.gateOff island.toNat) else .next s

/-- The cores of an island are idle: no group, no service. -/
def State.islandIdle (s : State) (n : Nat) : Bool :=
  (islandCores n).all (fun c => s.coreQuiet c && (s.core c).svcQueue.isEmpty && (s.core c).service.isNone)

/-- ISLAND_GATED (R440). -/
def execIslandGated (island : BitVec 7) (s : State) : Out :=
  let n := island.toNat
  if 96 ≤ n || !s.islandGate n || s.islandState n == 2 || !s.islandIdle n || s.cleanOwned (islandCores n) then .next s
  else if (s.cleanWaits (islandCores n)).isSome then .next (s.askFor (s.cleanWaits (islandCores n)))
  else .next ((s.flushReset (islandCores n)).setIslandState n 2)

/-- ISLAND_CHANGE_COMPLETE (R440): CUR takes its value; an island that is not being gated is on. -/
def execIslandChangeComplete (island : BitVec 7) (s : State) : Out :=
  let n := island.toNat
  if s.islandState n ≠ 1 then .next s
  else
    let s := s.setField (regIslctl n) 16 7 (s.islandTarget n)
    if s.islandGate n then .next s
    else .next { s.setIslandState n 0 with mgmt := { s.mgmt with waking := s.mgmt.waking.filter (fun k => k != n) } }

/-- THROTTLE (R441): one step of 25 MHz. -/
def execThrottle (lower : Bool) (s : State) : Out :=
  let t := if lower then max 20 (s.mgmt.throttle - 1) else min 70 (s.mgmt.throttle + 1)
  .next ((List.range 96).foldl (fun s n => s.noteClock n) { s with mgmt := { s.mgmt with throttle := t } })

end Sys2Proof.Machine
end

