-- ==== Sys2Proof/Machine/Signature.lean ====
section
/-! DEFINITION. The signatures of a firmware image (19 R442): ECDSA over P-384 (FIPS 186) and LMS (RFC 8554) with the two
parameter sets that R442 names. The manual does not restate the standards (log entry 10, PRESUMED). -/

namespace Sys2Proof.Machine

/-! ### P-384 -/

def p384P : Nat := 2 ^ 384 - 2 ^ 128 - 2 ^ 96 + 2 ^ 32 - 1
def p384N : Nat := 0xFFFFFFFFFFFFFFFFFFFFFFFFFFFFFFFFFFFFFFFFFFFFFFFFC7634D81F4372DDF581A0DB248B0A77AECEC196ACCC52973
def p384B : Nat := 0xB3312FA7E23EE7E4988E056BE3F82D19181D9C6EFE8141120314088F5013875AC656398D8A2ED19D2A85C8EDD3EC2AEF
def p384G : Option (Nat × Nat) :=
  some (0xAA87CA22BE8B05378EB1C71EF320AD746E1D3B628BA79B9859F741E082542A385502F25DBF55296C3A545E3872760AB7,
        0x3617DE4A96262C6F5D9E98BF9292DC29F8F41DBD289A147CE9DA3113B5F0B8C00A60B1CE1D7E819D7A431D7C90EA0E5F)

/-- Power modulo m, over the low `n` bits of the exponent. -/
def powMod (m : Nat) : Nat → Nat → Nat → Nat
  | 0, _, _ => 1 % m
  | n + 1, x, e =>
    let r := powMod m n (x * x % m) (e / 2)
    if e % 2 = 1 then x * r % m else r

/-- Inverse modulo a prime below 2^384. -/
def invMod (m x : Nat) : Nat := powMod m 384 x (m - 2)

/-- The third point of a line of some slope through two points. -/
def p384Third (slope : Nat) (p q : Nat × Nat) : Nat × Nat :=
  let x := (slope * slope + 2 * p384P - p.1 - q.1) % p384P
  (x, (slope * (p.1 + p384P - x) + p384P - p.2) % p384P)

/-- Sum of two points; `none` is the point at infinity. -/
def p384Add (p q : Option (Nat × Nat)) : Option (Nat × Nat) :=
  match p, q with
  | none, q => q
  | p, none => p
  | some p, some q =>
    if p.1 = q.1 then
      if (p.2 + q.2) % p384P = 0 then none
      else some (p384Third ((3 * p.1 * p.1 + p384P - 3) * invMod p384P (2 * p.2 % p384P) % p384P) p q)
    else some (p384Third ((q.2 + p384P - p.2) * invMod p384P ((q.1 + p384P - p.1) % p384P) % p384P) p q)

/-- Multiple of a point, over the low `n` bits of the factor. -/
def p384Mul : Nat → Nat → Option (Nat × Nat) → Option (Nat × Nat)
  | 0, _, _ => none
  | n + 1, k, p =>
    let r := p384Mul n (k / 2) (p384Add p p)
    if k % 2 = 1 then p384Add p r else r

/-- ECDSA P-384 verification over a SHA-384 hash: public key as an uncompressed point, signature r then s, message. -/
def ecdsaVerifies (key sig msg : List Byte) : Bool :=
  let x := beNat (bytesAt key 1 48)
  let y := beNat (bytesAt key 49 48)
  let r := beNat (bytesAt sig 0 48)
  let s := beNat (bytesAt sig 48 48)
  let w := invMod p384N s
  let sum := p384Add (p384Mul 384 (beNat (sha384 msg) * w % p384N) p384G) (p384Mul 384 (r * w % p384N) (some (x, y)))
  key.headD 0 == 4 && decide (x < p384P) && decide (y < p384P)
  && y * y % p384P == (x * x * x + (p384P - 3) * x + p384B) % p384P
  && r != 0 && s != 0 && decide (r < p384N) && decide (s < p384N)
  && (match sum with
      | none => false
      | some q => q.1 % p384N == r)

/-! ### LMS -/

/-- A hash chain of LM-OTS: steps `j` up to 14 on element `i` of a one-time key. -/
def lmotsChain (pre : List Byte) (i : Nat) : Nat → Nat → List Byte → List Byte
  | 0, _, v => v
  | n + 1, j, v => lmotsChain pre i n (j + 1) (sha256 (pre ++ beBytes 2 i ++ beBytes 1 j ++ v))

/-- The four-bit digits of some bytes, upper first. -/
def digits4 (bs : List Byte) : List Nat := bs.flatMap (fun b => [b.toNat / 16, b.toNat % 16])

/-- The one-time public key that a signature of LMOTS_SHA256_N32_W4 stands for (RFC 8554, 4.6): `ots` begins at its C. -/
def lmotsKey (pre ots msg : List Byte) : List Byte :=
  let q := sha256 (pre ++ beBytes 2 0x8181 ++ ots.take 32 ++ msg)
  let ds := digits4 q
  let ds := ds ++ (digits4 (beBytes 2 ((ds.map (fun d => 15 - d)).sum * 16))).take 3
  sha256 (pre ++ beBytes 2 0x8080 ++
    ((List.range 67).zip ds).flatMap (fun k => lmotsChain pre k.1 (15 - k.2) k.2 (bytesAt ots (32 + 32 * k.1) 32)))

/-- The root that a path of authentication leads to, from a node. -/
def lmsRoot (ident : List Byte) : Nat → List Byte → List (List Byte) → List Byte
  | _, v, [] => v
  | node, v, p :: ps =>
    lmsRoot ident (node / 2)
      (sha256 (ident ++ beBytes 4 (node / 2) ++ beBytes 2 0x8383 ++ (if node % 2 = 1 then p ++ v else v ++ p))) ps

/-- LMS verification (RFC 8554, 5.4.2) for LMS_SHA256_M32_H15 with LMOTS_SHA256_N32_W4: public key, signature, message. -/
def lmsVerifies (key sig msg : List Byte) : Bool :=
  let ident := bytesAt key 8 16
  let q := beNat (bytesAt sig 0 4)
  let pre := ident ++ beBytes 4 q
  let leaf := sha256 (ident ++ beBytes 4 (2 ^ 15 + q) ++ beBytes 2 0x8282 ++ lmotsKey pre (sig.drop 8) msg)
  beNat (bytesAt key 0 4) == 7 && beNat (bytesAt key 4 4) == 3 && beNat (bytesAt sig 4 4) == 3
  && beNat (bytesAt sig 2184 4) == 7 && decide (q < 2 ^ 15) && sig.length == 2668 && key.length == 56
  && lmsRoot ident (2 ^ 15 + q) leaf ((List.range 15).map (fun k => bytesAt sig (2188 + 32 * k) 32)) == bytesAt key 24 32

end Sys2Proof.Machine
end

