-- ==== Sys2Proof/Machine/Firmware.lean ====
section
/-! DEFINITION. Firmware images, boot, the pod boot leader, the side-band port and the monitors (19 R442 to R449). -/

namespace Sys2Proof.Machine

/-! ### Images (R442, R443) -/

def imageType (bs : List Byte) : Nat := natAt bs 6 2
def imageSize (bs : List Byte) : Nat := natAt bs 0x10 8
def imagePayload (bs : List Byte) : List Byte := bs.drop 0x1000
def zeroAt (bs : List Byte) (off n : Nat) : Bool := (bytesAt bs off n).all (fun b => b == 0)

/-- The header of an image is well-formed. -/
def imageHeader (bs : List Byte) : Bool :=
  natAt bs 0 4 == 0x4C5A4657 && natAt bs 4 2 == 1 && decide (1 ≤ imageType bs) && decide (imageType bs ≤ 3)
  && zeroAt bs 0x0C 4 && zeroAt bs 0x18 8 && zeroAt bs 0x111 15 && zeroAt bs 0xBC4 1084
  && decide (1 ≤ imageSize bs) && decide (imageSize bs ≤ 2 ^ 28) && bs.length == 0x1000 + imageSize bs

/-- An image is accepted (R443). -/
def accepted (bs : List Byte) : Bool :=
  let msg := bytesAt bs 0 0x50
  imageHeader bs && decide (Config.fusedSvn (imageType bs) ≤ natAt bs 8 4)
  && sha384 (bytesAt bs 0xB0 97) == Config.fusedKeyHash 0
  && sha384 (bytesAt bs 0x120 56) == Config.fusedKeyHash 1
  && ecdsaVerifies (bytesAt bs 0xB0 97) (bytesAt bs 0x50 96) msg
  && lmsVerifies (bytesAt bs 0x120 56) (bytesAt bs 0x158 2668) msg
  && sha384 (imagePayload bs) == bytesAt bs 0x20 48

/-- An accepted image of a type. -/
def acceptedAs (type : Nat) (bs : List Byte) : Bool := accepted bs && imageType bs == type

def State.setMgmt (s : State) (f : Mgmt → Mgmt) : State := { s with mgmt := f s.mgmt }

/-- Enumeration is over. -/
def State.enumerated (s : State) : Bool := (List.range 23).all (fun d => s.dieState d != 0 && s.dieState d != 1)

/-- The hub firmware runs: enumeration is over and a hub image has been accepted (R444). -/
def State.firmwareRuns (s : State) : Bool := s.enumerated && s.mgmt.hubImage.isSome

/-- The hub firmware loads the service store, once per package reset (R356, R444, R447). -/
def State.loadService (s : State) (bs : List Byte) : State :=
  if s.mgmt.serviceLoads || !s.firmwareRuns || !acceptedAs 2 bs then s
  else s.setMgmt (fun m => { m with serviceStore := some (imagePayload bs), serviceLoads := true })

/-- The hub firmware loads the LZ1-P boot image and releases the harts (R444). -/
def State.loadHarts (s : State) (bs : List Byte) : State :=
  if s.firmwareRuns && acceptedAs 3 bs then
    s.setMgmt (fun m => { m with hartImage := some bs, hartsRunning := s.dieState 8 == 2 && m.fatal.isNone })
  else s

/-- FIRMWARE_VERIFY (R443, R444): once enumeration is over an accepted image is installed by its type; a rejected one is
discarded. -/
def execFirmwareVerify (image : List (BitVec 8)) (s : State) : Out :=
  if s.enumerated && acceptedAs 1 image then .next (s.setMgmt (fun m => { m with hubImage := some image }))
  else .next ((s.loadService image).loadHarts image)

/-! ### Boot (R444) -/

/-- The hub image that the strap's source gives: module flash, the pod boot leader's, or the side-band port's. -/
def State.bootImage (s : State) (given : List Byte) : Option (List Byte) :=
  if Config.bootsrc = 0 then s.mgmt.flash
  else if Config.bootsrc = 1 then
    s.mgmt.hubImage.orElse (fun _ => if s.mgmt.role = .leader then s.mgmt.flash else none)
  else some given

/-- BOOT (R444). -/
def execBoot (hub : List (BitVec 8)) (service : List (BitVec 8)) (hart : List (BitVec 8)) (s : State) : Out :=
  match (if s.enumerated && s.mgmt.fatal.isNone then s.bootImage hub else none) with
  | none => .next s
  | some bs =>
    if !acceptedAs 1 bs then .next s
    else
      let s := (s.setMgmt (fun m => { m with hubImage := some bs })).setReg regFbid (BitVec.ofNat 64 (Config.bootFbid % 2 ^ 18))
      .next ((s.loadService service).loadHarts hart)

/-! ### The pod boot leader (R445): its messages travel the fabric (R394, R434) -/

/-- Reference cycles in a second (R5). -/
def second : Nat := 1750000000

/-- This package takes part as a candidate. -/
def State.bootCandidate (s : State) : Bool := Config.bootKey.prio != 0xFF && s.mgmt.flash.any (acceptedAs 1)

/-- A key wins over another. -/
def keyLess (a b : BootKey) : Bool := decide (a.prio < b.prio) || (a.prio == b.prio && decide (a.serial < b.serial))

/-- Become or stay a follower; the watch for a LEASE starts. -/
def Mgmt.follow (m : Mgmt) (now : Nat) : Mgmt := { m with role := .follower, lastLease := now }

/-- A message of a term arrives: a partial image of a lower term is discarded, the leader of a lower one steps down, and a
higher term than any seen is noted. -/
def Mgmt.hearTerm (m : Mgmt) (now term : Nat) : Mgmt :=
  let m := if m.partTerm < term then { m with part := [], partLen := 0 } else m
  let m := if m.role = .leader ∧ m.ownTerm < term then m.follow now else m
  if m.term < term then { m with term := term, leader := none, lastLease := now } else m

def State.noteTerm (s : State) (term : Nat) : State := s.setMgmt (fun m => m.hearTerm s.now term)

/-- A claimant steps down. -/
def State.stepDown (s : State) (yes : Bool) : State :=
  if s.mgmt.role = .claimant ∧ yes = true then s.setMgmt (fun m => m.follow s.now) else s

/-- CLAIM (R445). -/
def execClaim (term sender : Nat) (key : BootKey) (s : State) : Out :=
  if Config.bootsrc ≠ 1 ∨ sender = s.globalNumber ∨ s.fabricOn = false then .next s
  else
    let yes := decide (s.mgmt.ownTerm < term) || (term == s.mgmt.ownTerm && keyLess key Config.bootKey)
    .next ((s.stepDown yes).noteTerm term)

/-- LEASE (R445): the leader of the highest term is known by it. -/
def execLease (term sender : Nat) (s : State) : Out :=
  if Config.bootsrc ≠ 1 ∨ sender = s.globalNumber ∨ s.fabricOn = false then .next s
  else
    let s := (s.stepDown (decide (s.mgmt.ownTerm < term))).noteTerm term
    if term = s.mgmt.term ∧ s.mgmt.role = .follower then
      .next (s.setMgmt (fun m => { m with leader := some sender, lastLease := s.now }))
    else .next s

/-- A follower takes part of an image from the leader of the highest term. -/
def State.fromLeader (s : State) (term sender : Nat) : Bool :=
  s.mgmt.role == .follower && term == s.mgmt.term && s.mgmt.leader == some sender

/-- LOAD (R445). -/
def execLoad (term sender off : Nat) (bytes : List (BitVec 8)) (s : State) : Out :=
  if Config.bootsrc ≠ 1 ∨ s.fabricOn = false then .next s
  else
    let s := s.noteTerm term
    if !s.fromLeader term sender then .next s
    else
      .next (s.setMgmt (fun m => { m with partTerm := term, partLen := max m.partLen (off + bytes.length),
                                          part := spSetN (fun _ => none) m.part off (bytes.map some) }))

/-- The partial image, if no byte of it is missing. -/
def Mgmt.partImage (m : Mgmt) : Option (List Byte) :=
  let bs := spGetN (fun _ => none) m.part 0 m.partLen
  if bs.all (fun b => b.isSome) then some (bs.map (fun b => b.getD 0)) else none

/-- DONE (R445): the image is verified whole, then activated or discarded. -/
def execDone (term sender : Nat) (s : State) : Out :=
  if Config.bootsrc ≠ 1 ∨ s.fabricOn = false then .next s
  else
    let s := s.noteTerm term
    if !s.fromLeader term sender then .next s
    else
      let s' := match s.mgmt.partImage with
        | some bs => if acceptedAs 1 bs then s.setMgmt (fun m => { m with hubImage := some bs }) else s
        | none => s
      .next (s'.setMgmt (fun m => { m with part := [], partLen := 0 }))

/-- LEASE_TIMEOUT (R445): a candidate that has seen no LEASE of the highest term for 2 s claims the next. -/
def execLeaseTimeout (s : State) : Out :=
  let m := s.mgmt
  if Config.bootsrc ≠ 1 || !s.fabricOn || m.role != .follower || !s.bootCandidate
     || decide (s.now < m.lastLease + 2 * second) then .next s
  else
    .next ((s.setMgmt (fun m => { m with role := .claimant, term := m.term + 1, ownTerm := m.term + 1, leader := none,
                                         claimAt := s.now })).fabSend s.pod (.claim (m.term + 1) Config.bootKey))

/-- CLAIM_TIMEOUT (R445): an unchallenged claimant leads, and sends its image from offset 0. -/
def execClaimTimeout (s : State) : Out :=
  let m := s.mgmt
  if m.role ≠ .claimant ∨ s.fabricOn = false ∨ s.now < m.claimAt + second then .next s
  else
    let s := (s.setMgmt (fun m => { m with role := .leader, lastLease := s.now })).fabSend s.pod (.lease m.ownTerm)
    .next ((s.fabSend s.pod (.bootLoad m.ownTerm 0 (m.flash.getD []))).fabSend s.pod (.bootDone m.ownTerm))

/-- LEASE_PERIOD (R445): a leader's LEASE every 500 ms. -/
def execLeasePeriod (s : State) : Out :=
  if s.mgmt.role ≠ .leader ∨ s.fabricOn = false ∨ s.now < s.mgmt.lastLease + second / 2 then .next s
  else .next ((s.setMgmt (fun m => { m with lastLease := s.now })).fabSend s.pod (.lease s.mgmt.ownTerm))

/-! ### Monitors (R448, R449) -/

/-- The bin of a sample. -/
def monBin (v base shift : Nat) : Nat := if v < base then 0 else min ((v - base) / 2 ^ shift + 1) 15

/-- A count that stops at all ones. -/
def State.countReg (s : State) (off : Nat) : State :=
  s.setReg off (BitVec.ofNat 64 (min (2 ^ 64 - 1) ((s.reg off).toNat + 1)))

/-- MONITOR_SAMPLE (R448): MIN, MAX, COUNT and the bin change together. -/
def execMonitorSample (mon : BitVec 5) (value : BitVec 64) (s : State) : Out :=
  let m := mon.toNat
  let cfg := regMon m 0
  if s.field cfg 0 1 = 0 ∨ s.field cfg 32 8 = 0 ∨ 7 < s.field cfg 32 8 then .next s
  else
    let lo := if value.toNat < (s.reg (regMon m 0x08)).toNat then value else s.reg (regMon m 0x08)
    let hi := if (s.reg (regMon m 0x10)).toNat < value.toNat then value else s.reg (regMon m 0x10)
    let b := monBin value.toNat (s.field cfg 16 16) (s.field cfg 8 8)
    .next ((((s.setReg (regMon m 0x08) lo).setReg (regMon m 0x10) hi).countReg (regMon m 0x18)).countReg
      (regMon m (0x20 + 8 * b)))

/-- Clear a monitor. -/
def State.clearMonitor (s : State) (m : Nat) : State :=
  ((List.range 18).foldl (fun s k => s.setReg (regMon m (0x10 + 8 * k)) 0) s).setReg (regMon m 0x08) 0xFFFFFFFFFFFFFFFF

/-- MONITOR_CLEAR (R448). -/
def execMonitorClear (mon : BitVec 5) (s : State) : Out := .next (s.clearMonitor mon.toNat)

/-- A write of MONCFG. -/
def State.writeMonitor (s : State) (m : Nat) (v : DWord) : State :=
  let s := s.writeReg (regMon m 0) v
  if v.getLsbD 1 then s.clearMonitor m else s

/-! ### The side-band port (R446, R447) -/

/-- MGMT_DIE (R447): as a DIECMD write. -/
def execMgmtDie (op : BitVec 4) (die : BitVec 8) (s : State) : Out := .next (s.dieCommand op.toNat die.toNat)

/-- MGMT_ISLAND (R447): any island; GATE is for compute islands only (R439). -/
def execMgmtIsland (island freq : BitVec 7) (gate : Bool) (s : State) : Out :=
  let n := island.toNat
  let s := s.setFreq n freq.toNat
  if 96 ≤ n then .next s else .next (if gate then s.gateOn n else s.gateOff n)

/-- MGMT_MONITOR (R447): configures a monitor or reads it whole. -/
def execMgmtMonitor (mon : BitVec 5) (cfg : Option (BitVec 64)) (s : State) : Out :=
  match cfg with
  | some v => .next (s.writeMonitor mon.toNat v)
  | none => .next (s.send (.mgmt (s.regBytes ((List.range 20).map (fun k => regMon mon.toNat (8 * k))))))

/-- MGMT_KEY_SLOT (R447): a wrap that fails to unwrap leaves the slot unchanged. -/
def execMgmtKeySlot (slot : BitVec 8) (tenant : BitVec 6) (wrapped : List (BitVec 8)) (s : State) : Out :=
  match unwrapKey Config.keyWrapKey wrapped with
  | none => .next s
  | some k => .next (s.setMgmt (fun m => { m with keys := spSet (fun _ => none) m.keys slot.toNat (some (tenant.toNat, k)) }))

/-- MGMT_SERVICE_STORE (R447). -/
def execMgmtServiceStore (image : List (BitVec 8)) (s : State) : Out := .next (s.loadService image)

/-- MGMT_IMAGE (R447): an image is verified before it replaces the one in module flash. -/
def execMgmtImage (image : List (BitVec 8)) (s : State) : Out :=
  if accepted image then .next (s.setMgmt (fun m => { m with flash := some image })) else .next s

/-- MGMT_DUMP (R447). -/
def execMgmtDump (s : State) : Out := .next (s.send (.mgmt s.mgmt.dump))

/-- The head of an SPDM 1.3 message (DSP0274; log entry 32, PRESUMED): version and response code. -/
def spdmHead (code : Nat) : List Byte := [0x13, BitVec.ofNat 8 (code % 128)]

/-- An SPDM answer to a request whose other bytes the standard and the device fix. -/
def State.spdm (s : State) (code arg : Nat) : State := s.send (.spdm code (spdmHead code ++ Config.spdmBytes code arg))

/-- The VERSION response (DSP0274; log entry 32): one entry, 1.3. -/
def spdmVersion : List Byte := [0x10, 0x04, 0, 0, 0, 1, 0x00, 0x13]

/-- GET_VERSION (R446). -/
def execGetVersion (s : State) : Out := .next (s.send (.spdm 0x84 spdmVersion))
/-- GET_CAPABILITIES (R446). -/
def execGetCapabilities (s : State) : Out := .next (s.spdm 0xE1 0)
/-- The ALGORITHMS response (DSP0274; log entry 32): of the offered algorithms ECDSA P-384 (bit 7) and SHA-384 (bit 1) are
selected, and no other; the measurement fields are the device's. -/
def spdmAlgorithms (p384 sha384 : Bool) : List Byte :=
  let m := Config.spdmBytes 0xE3 0
  spdmHead 0xE3 ++ [0, 0] ++ leBytes 2 36 ++ bytesAt m 0 6 ++ leBytes 4 (if p384 then 0x80 else 0)
    ++ leBytes 4 (if sha384 then 2 else 0) ++ bytesAt m 6 12 ++ leBytes 4 0

/-- NEGOTIATE_ALGORITHMS (R446): ECDSA P-384 with SHA-384 is what the device supports. -/
def execNegotiateAlgorithms (offersP384 offersSha384 : Bool) (s : State) : Out :=
  .next (s.send (.spdm 0xE3 (spdmAlgorithms offersP384 offersSha384)))
/-- GET_DIGESTS (R446). -/
def execGetDigests (s : State) : Out := .next (s.spdm 0x81 0)
/-- GET_CERTIFICATE (R446). -/
def execGetCertificate (slot off len : Nat) (s : State) : Out :=
  .next (s.spdm 0x82 (slot * 2 ^ 32 + off % 2 ^ 16 * 2 ^ 16 + len % 2 ^ 16))
/-- CHALLENGE (R446). -/
def execChallenge (slot nonce : Nat) (s : State) : Out := .next (s.spdm 0x83 (slot * 2 ^ 256 + nonce % 2 ^ 256))

/-- The hash and security version of an image. -/
def imageMeasure (bs : List Byte) : List Byte := bytesAt bs 0x20 48 ++ bytesAt bs 8 4

/-- A measurement (R446). -/
def State.measurement (s : State) (index : Nat) : List Byte :=
  if index = 1 then Config.spdmBytes 0xE0 1
  else if index = 2 then (s.mgmt.hubImage.map imageMeasure).getD []
  else if index = 3 then (s.mgmt.serviceStore.map sha384).getD []
  else if index = 4 then (s.mgmt.hartImage.map (fun bs => bytesAt bs 0x20 48)).getD []
  else if index = 5 then s.regBytes ((List.range 23).map regDiest)
  else []

/-- GET_MEASUREMENTS (R446): index 0 asks for their number, 0xFF for all. -/
def execGetMeasurements (index : Nat) (s : State) : Out :=
  let bs := if index = 0 then [5] else if index = 0xFF then [1, 2, 3, 4, 5].flatMap s.measurement else s.measurement index
  .next (s.send (.spdm 0xE0 bs))

end Sys2Proof.Machine
end

