-- ==== Sys2Proof/Machine/Registers.lean ====
section
/-! DEFINITION. Writes and reads of hub register space (19 R430, R431), and the accesses of LZ1-P harts, hosts, attached
devices and the switch-resident directory (13 R318, 16 R364, 17 R399, R400). -/

namespace Sys2Proof.Machine

/-! ### Register writes -/

/-- TABOWN: bit 6 of each byte is reserved (R327). -/
def tabownMask : DWord := 0xBFBFBFBFBFBFBFBF

/-- Write owners of eight slots of a core (R185). -/
def State.writeTabown (s : State) (core : Nat) (hi : Bool) (v : DWord) : State :=
  let s := s.setReg (regTabown core hi) (v &&& tabownMask)
  (List.range 8).foldl (fun s k => s.syncOwner core (if hi then 8 + k else k)) s

/-- TABOWN_WRITE (R185). -/
def execTabownWrite (core : Nat) (hi : Bool) (value : BitVec 64) (s : State) : Out :=
  if core < 768 then .next (s.writeTabown core hi value) else .next s

/-- A TLBINV write (R375): other OPs do nothing. -/
def State.writeTlbinv (s : State) (v : DWord) : Out :=
  let op := v.toNat % 16
  let asid := BitVec.ofNat 16 (v.toNat / 2 ^ 4)
  if op = 1 then execTlbinvAsid asid s
  else if op = 2 then execTlbinvRange asid (BitVec.ofNat 24 (v.toNat / 2 ^ 20)) s
  else if op = 3 then execTlbinvAll s
  else .next s

/-- A SNCMD write (R380): a reserved OP sets RES 5. -/
def State.writeSncmd (s : State) (v : DWord) : Out :=
  let op := v.toNat % 16
  let dom := BitVec.ofNat 4 (v.toNat / 2 ^ 4)
  let first := BitVec.ofNat 24 (v.toNat / 2 ^ 8)
  let count := BitVec.ofNat 24 (v.toNat / 2 ^ 32)
  if op = 1 then execSnadd dom first count s
  else if op = 2 then execSnrem dom first count s
  else if op = 3 then execSnap dom s
  else if op = 4 then execSnout dom s
  else if op = 5 then execSnstop dom s
  else .next (s.setRes 5)

/-- An ISLCTL write (R439): the management controller owns islands 96 to 127. -/
def State.writeIsland (s : State) (n : Nat) (v : DWord) : State :=
  if 96 ≤ n then s
  else
    let s := s.setFreq n (v.toNat % 2 ^ 7)
    if v.getLsbD 15 then s.gateOn n else s.gateOff n

/-- Clear the bits of a field where ones are written. -/
def State.clearBits (s : State) (off lo n : Nat) (v : DWord) : State :=
  s.setReg off (s.reg off &&& ~~~(v &&& (lowMask n <<< lo)))

/-- A register without behaviour of its own (R6); the entry of the own endpoint ignores writes (R393); what waits for want
of a port goes on when one is opened. -/
def State.plainWrite (s : State) (off : Nat) (v : DWord) : State :=
  if off = regFbep s.pkg then s
  else
  let s := s.writeReg off v
  if inBank off (regFbport 0) 8 16 || inBank off (regFbroute 0) 8 64 then s.flushForwards else s

/-- An aligned 8-byte write to hub register space at an offset (R430). -/
def State.hubWrite (s : State) (off : Nat) (v : DWord) : Out :=
  if 0x4000000 ≤ off then .next s
  else if lwBase ≤ off ∧ off < lwBase + 0x40000 then
    execLaunchWindowWrite (BitVec.ofNat 6 ((off - lwBase) / 0x1000)) (BitVec.ofNat 5 (off / 128)) (BitVec.ofNat 7 off)
      (leBytes 8 v.toNat) s
  else if inBank off (regTabown 0 false) 8 1536 then
    .next (s.writeTabown ((off - regTabown 0 false) / 16) (off % 16 == 8) v)
  else if off = regDiecmd then .next (s.dieCommand (v.toNat / 2 ^ 8 % 16) (v.toNat % 256))
  else if off = regPfadd then execPfadd (BitVec.ofNat 28 v.toNat) s
  else if off = regPfdel then execPfdel (BitVec.ofNat 28 v.toNat) s
  else if off = regTlbinv then s.writeTlbinv v
  else if off = regTlbstat then .next (s.clearBits off 1 1 v)
  else if off = regPrresp then execPrrespWrite (BitVec.ofNat 16 v.toNat) (v.getLsbD 16) s
  else if off = regSncmd then s.writeSncmd v
  else if off = regSnpool then execSnpoolWrite v s
  else if inBank off (regSnstat 0) 8 16 then .next (s.clearBits off 52 4 v)
  else if inBank off islBase 8 128 then .next (s.writeIsland ((off - islBase) / 8) v)
  else if inBank off monBase 0x100 32 then .next (s.writeMonitor ((off - monBase) / 0x100) v)
  else .next (s.plainWrite off v)

/-- REGISTER_WRITE (R6, R431): an access that is not aligned and of 8 bytes is ignored. -/
def execRegisterWrite (off size : Nat) (value : BitVec 64) (s : State) : Out :=
  if size = 8 ∧ off % 8 = 0 then s.hubWrite off value else .next s

/-! ### Reads and writes at a physical address -/

/-- Answer an agent. -/
def State.reply (s : State) (agent : Nat) (bs : List Byte) : State := s.send (.readReply agent bs)

/-- A read of hub register space. -/
def State.hubLoad (s : State) (agent off len : Nat) : Out :=
  if len ≠ 8 ∨ off % 8 ≠ 0 ∨ 0x4000000 ≤ off then .next (s.reply agent (List.replicate len (0 : Byte)))
  else if lwBase ≤ off ∧ off < lwBase + 0x40000 then
    execLaunchWindowRead (BitVec.ofNat 6 ((off - lwBase) / 0x1000)) (BitVec.ofNat 5 (off / 128)) (BitVec.ofNat 7 off) 8 s
  else .next (s.reply agent (leBytes 8 (s.readReg off).toNat))

/-- A write to hub register space. -/
def State.hubStore (s : State) (off : Nat) (bs : List Byte) : Out :=
  if bs.length = 8 ∧ off % 8 = 0 then s.hubWrite off (BitVec.ofNat 64 (leNat bs)) else .next s

/-- A run of device memory that exists and has no failed frame. -/
def State.runOk (s : State) (loc len : Nat) : Bool :=
  len != 0 && decide (loc + len ≤ devSize)
  && (List.range ((loc + len - 1) / 4096 - loc / 4096 + 1)).all (fun k => !s.pageFail.contains (loc / 4096 + k))

/-- A line of the run is owned by an engine command: the access waits (R311). -/
def State.runOwned (s : State) (loc len : Nat) : Bool := (linesOf loc len).any (fun l => s.owned l 1)

/-- What an access to the run waits for: a snapshot copy before a write (R383), the directory of a host-shared range
(R400). -/
def State.runWaits (s : State) (write : Bool) (loc len : Nat) : Option WaitOn :=
  if write then
    (((List.range ((loc + len - 1) / 2 ^ 16 - loc / 2 ^ 16 + 1)).find? (fun k => s.copyBit (loc / 2 ^ 16 + k))).map (fun k =>
      WaitOn.copy (loc / 2 ^ 16 + k))).orElse (fun _ => s.writeWaits loc len)
  else s.readWaits loc len

/-- Write a run at the home, line by line. -/
def State.putRun (s : State) (loc : Nat) (bs : List Byte) : State :=
  (linesOf loc bs.length).foldl (fun s l =>
    let a := max l loc
    s.put a ((bs.drop (a - loc)).take (l + 128 - a))) s

/-- The answer to a read of device memory: a host's travels the fabric (R394, R399), an attached device's its port. -/
def State.busReply (s : State) (agent : Nat) (bs : List Byte) : State :=
  if agent = 0 then s.fabSend s.pod (.readReply agent bs) else s.reply agent bs

/-- An access of an agent that holds no copies (R364). -/
def State.busAccess (s : State) (agent loc : Nat) : BusOp → Out
  | .read len =>
    if !s.runOk loc len || s.runOwned loc len then .next s
    else if (s.runWaits false loc len).isSome then .next (s.askFor (s.runWaits false loc len))
    else .next ((s.homeReads loc len).busReply agent (s.bytes loc len))
  | .write bs =>
    if !s.runOk loc bs.length || s.runOwned loc bs.length then .next s
    else if (s.runWaits true loc bs.length).isSome then .next (s.askFor (s.runWaits true loc bs.length))
    else .next (s.putRun loc bs)

/-- HOST_ACCESS (R399, R431): device memory through the endpoint number, or registers through BAR 0; without an LZ1-N that
works there is neither fabric nor PCIe (R434). -/
def execHostAccess (addr : Nat) (op : BusOp) (s : State) : Out :=
  if !s.fabricOn then .next s
  else match s.paKind addr, op with
  | .dev loc, op => s.busAccess 0 loc op
  | .reg off, .read len => s.hubLoad 0 off len
  | .reg off, .write bs => s.hubStore off bs
  | _, _ => .next s

/-- PCIE_MEMORY_REQUEST (R364): a device on a PCIe port; the port needs its LZ1-N. -/
def execPcieMemoryRequest (port addr : Nat) (op : BusOp) (s : State) : Out :=
  if 2 ≤ port ∨ s.dieState (9 + port) ≠ 2 then .next s
  else match s.paKind addr with
    | .dev loc => s.busAccess (1 + port) loc op
    | _ => .next s

/-! ### LZ1-P harts (R318) -/

/-- The agent number of LZ1-P's caches in the directory. -/
def hartAgent : Nat := 768

/-- The result of an atomic on a value of some bits. -/
def amoResult (op : AmoOp) (w : Nat) (old new : Nat) : Nat :=
  let sgn := fun (x : Nat) => (BitVec.ofNat w x).toInt
  match op with
  | .swap => new
  | .add => (old + new) % 2 ^ w
  | .xor => old ^^^ new
  | .and => old &&& new
  | .or => old ||| new
  | .min => if sgn new < sgn old then new else old
  | .max => if sgn old < sgn new then new else old
  | .minu => Nat.min old new
  | .maxu => Nat.max old new

/-- A hart's write: LZ1-P's caches hold the lines in M, and no other hart keeps a reservation there. -/
def State.hartPut (s : State) (hart loc : Nat) (bs : List Byte) : State :=
  let t := (linesOf loc bs.length).foldl (fun s l => s.dirSet hartAgent l .m) (s.putRun loc bs)
  { t with mgmt := { t.mgmt with reserved := t.mgmt.reserved.filter (fun r =>
      r.1 == hart || !overlaps r.2.1 r.2.2 loc bs.length) } }

/-- A hart reads for its caches. -/
def State.hartRead (s : State) (loc len : Nat) : State := (linesOf loc len).foldl (fun s l => s.dirRead hartAgent l) s

/-- A hart's reservation is replaced or dropped. -/
def State.reserve (s : State) (hart : Nat) (r : Option (Nat × Nat)) : State :=
  { s with mgmt := { s.mgmt with reserved := s.mgmt.reserved.filter (fun q => q.1 != hart)
      ++ (r.map (fun q => (hart, q.1, q.2))).toList } }

/-- A store-conditional finds its reservation and LZ1-P's copy of the line; it may fail all the same (R318). -/
def State.reservedBy (s : State) (hart loc len : Nat) : Bool :=
  s.mgmt.reserved.any (fun r => r.1 == hart && decide (r.2.1 ≤ loc) && decide (loc + len ≤ r.2.1 + r.2.2))
  && s.copyOf hartAgent loc != .i && !Config.scFails s.turn

/-- An atomic's operand: a word or doubleword at its natural alignment. -/
def atomicOk (loc len : Nat) : Bool := (len == 4 || len == 8) && loc % len == 0

/-- Reservations whose line another agent has taken are gone. -/
def State.dropReserved (s : State) : State :=
  { s with mgmt := { s.mgmt with reserved := s.mgmt.reserved.filter (fun r => s.copyOf hartAgent r.2.1 != .i) } }

/-- A hart's access to device memory. Each acts in one step and in its hart's order, so that fences and the .aq and .rl
bits hold of themselves (R318, log entry 33). A store-conditional answers 0 when it stores. -/
def State.hartMemory (s : State) (hart agent loc : Nat) : HartOp → Out
  | .fence _ => .next s
  | .load len =>
    if !s.runOk loc len || s.runOwned loc len then .next s
    else if (s.runWaits false loc len).isSome then .next (s.askFor (s.runWaits false loc len))
    else .next ((s.hartRead loc len).reply agent (s.bytes loc len))
  | .store bs =>
    if !s.runOk loc bs.length || s.runOwned loc bs.length then .next s
    else if (s.runWaits true loc bs.length).isSome then .next (s.askFor (s.runWaits true loc bs.length))
    else .next (s.hartPut hart loc bs)
  | .lr len _ _ =>
    if !atomicOk loc len || !s.runOk loc len || s.runOwned loc len then .next s
    else if (s.runWaits false loc len).isSome then .next (s.askFor (s.runWaits false loc len))
    else .next (((s.hartRead loc len).reserve hart (some (loc, len))).reply agent (s.bytes loc len))
  | .sc len v _ _ =>
    if !atomicOk loc len || !s.runOk loc len || s.runOwned loc len then .next s
    else if !s.reservedBy hart loc len then .next ((s.reserve hart none).reply agent (leBytes len 1))
    else if (s.runWaits true loc len).isSome then .next (s.askFor (s.runWaits true loc len))
    else .next (((s.hartPut hart loc (leBytes len v.toNat)).reserve hart none).reply agent (leBytes len 0))
  | .amo op len v _ _ =>
    if !atomicOk loc len || !s.runOk loc len || s.runOwned loc len then .next s
    else if (s.runWaits true loc len).isSome then .next (s.askFor (s.runWaits true loc len))
    else
      let old := s.bytes loc len
      .next ((s.hartPut hart loc (leBytes len (amoResult op (8 * len) (leNat old) (v.toNat % 2 ^ (8 * len))))).reply agent
        old)

/-- The word that a read of hub register space has just answered. -/
def State.hubWord (s : State) (off : Nat) : Nat :=
  if lwBase ≤ off ∧ off < lwBase + 0x40000 then
    let c := s.cell (cellKey (BitVec.ofNat 6 ((off - lwBase) / 0x1000)) (BitVec.ofNat 5 (off / 128)))
    leNat (if off % 128 < 0x40 then spGetN (fun _ => 0) c.packet (off % 128) 8
      else spGetN (fun _ => 0) c.result (off % 128 - 0x40) 8)
  else (s.readReg off).toNat

/-- A read of hub register space takes a packet, for which the hub has to wait. -/
def State.hubLoadWaits (s : State) (off : Nat) : Bool :=
  decide (lwBase ≤ off) && decide (off < lwBase + 0x40000) && decide (0x40 ≤ off % 128) &&
  (let k := cellKey (BitVec.ofNat 6 ((off - lwBase) / 0x1000)) (BitVec.ofNat 5 (off / 128))
   !(s.cell k).taken && !s.canTake ((off - lwBase) / 0x1000) (s.cell k).words)

/-- A hart's access to hub register space (R431): an atomic of 8 aligned bytes reads and writes the register; no reservation
is held there (log entry 33). -/
def State.hartRegister (s : State) (agent off : Nat) : HartOp → Out
  | .fence _ => .next s
  | .load len => s.hubLoad agent off len
  | .store bs => s.hubStore off bs
  | .lr len _ _ => s.hubLoad agent off len
  | .sc len _ _ _ => .next (s.reply agent (leBytes len 1))
  | .amo op len v _ _ =>
    match s.hubLoad agent off len with
    | .next t =>
      if len ≠ 8 ∨ s.hubLoadWaits off = true then .next t
      else t.hubStore off (leBytes 8 (amoResult op 64 (t.hubWord off) v.toNat))
    | o => o

/-- HART_ACCESS (R318, R431): a running hart's access to device memory or to hub register space; in the fatal-error state no
hart issues (R450). -/
def execHartAccess (hart addr : Nat) (op : HartOp) (s : State) : Out :=
  if 24 ≤ hart ∨ s.dieState 8 ≠ 2 ∨ s.mgmt.hartsRunning = false ∨ s.mgmt.fatal.isSome = true then .next s
  else match s.paKind addr with
    | .dev loc => s.hartMemory hart (3 + hart) loc op
    | .reg off => s.hartRegister (3 + hart) off op
    | _ => .next s

/-! ### The switch-resident directory (R400) -/

/-- What a host may hold of a line changes. -/
def State.setHostLine (s : State) (l level : Nat) : State :=
  { s with fab := { s.fab with hostLines := spSet (fun _ => 2) s.fab.hostLines l level } }

/-- HOST_SNOOP (R400): device copies are recalled and the line is returned; an owned line waits. A host may hold it then. -/
def execHostSnoop (line : Nat) (s : State) : Out :=
  let l := lineOf line
  if !s.fabricOn || !s.hostShared l || !s.runOk l 128 || s.owned l 1 then .next s
  else .next (((s.dirDrop l).setHostLine l 2).fabSend s.pod (.snoopReply l (s.bytes l 128)))

/-- DIRECTORY_RESPONSE (R400): no host holds the line any more, or a modified copy has been written back; what waited for
it goes on. -/
def execDirectoryResponse (ask : DirAsk) (s : State) : Out :=
  let l := lineOf ask.line
  if !s.fabricOn || !s.fab.hostAsked.contains (l, ask.inval) then .next s
  else
    let t := { s with fab := { s.fab with hostAsked := s.fab.hostAsked.filter (fun k => k != (l, ask.inval)) } }
    .next (((t.setHostLine l (if ask.inval then 0 else min 1 (t.hostLevel l))).settleCores).settleConds)

end Sys2Proof.Machine
end

