-- ==== Sys2Proof/Machine/Dispatch.lean ====
section
/-! DEFINITION. One arm per instruction, each a direct call of its meaning. -/

namespace Sys2Proof.Machine

def exec (i : Instr) (s : State) : Host.Outcome State Fault Refusal :=
  match i with
  | .br tests file => Sys2Proof.Machine.execBr tests file s
  | .call b dem carry mark => Sys2Proof.Machine.execCall b dem carry mark s
  | .calli x carry mark => Sys2Proof.Machine.execCalli x carry mark s
  | .ret carry => Sys2Proof.Machine.execRet carry s
  | .unwind x => Sys2Proof.Machine.execUnwind x s
  | .unwindMark => Sys2Proof.Machine.execUnwindMark s
  | .reform => Sys2Proof.Machine.execReform s
  | .bar => Sys2Proof.Machine.execBar s
  | .exit => Sys2Proof.Machine.execExit s
  | .loop x epi rot => Sys2Proof.Machine.execLoop x epi rot s
  | .loopL1 x => Sys2Proof.Machine.execLoopL1 x s
  | .lend1 => Sys2Proof.Machine.execLend1 s
  | .trap code pred sense => Sys2Proof.Machine.execTrap code pred sense s
  | .svc num => Sys2Proof.Machine.execSvc num s
  | .brk code => Sys2Proof.Machine.execBrk code s
  | .add xd xa xb g => Sys2Proof.Machine.execAdd xd xa xb g s
  | .sub xd xa xb g => Sys2Proof.Machine.execSub xd xa xb g s
  | .mul xd xa xb g => Sys2Proof.Machine.execMul xd xa xb g s
  | .mulh xd xa xb g => Sys2Proof.Machine.execMulh xd xa xb g s
  | .mulhu xd xa xb g => Sys2Proof.Machine.execMulhu xd xa xb g s
  | .min xd xa xb g => Sys2Proof.Machine.execMin xd xa xb g s
  | .max xd xa xb g => Sys2Proof.Machine.execMax xd xa xb g s
  | .minu xd xa xb g => Sys2Proof.Machine.execMinu xd xa xb g s
  | .maxu xd xa xb g => Sys2Proof.Machine.execMaxu xd xa xb g s
  | .and xd xa xb g => Sys2Proof.Machine.execAnd xd xa xb g s
  | .or xd xa xb g => Sys2Proof.Machine.execOr xd xa xb g s
  | .xor xd xa xb g => Sys2Proof.Machine.execXor xd xa xb g s
  | .andn xd xa xb g => Sys2Proof.Machine.execAndn xd xa xb g s
  | .sll xd xa xb g => Sys2Proof.Machine.execSll xd xa xb g s
  | .srl xd xa xb g => Sys2Proof.Machine.execSrl xd xa xb g s
  | .sra xd xa xb g => Sys2Proof.Machine.execSra xd xa xb g s
  | .addImm xd xa imm g => Sys2Proof.Machine.execAddImm xd xa imm g s
  | .mulImm xd xa imm g => Sys2Proof.Machine.execMulImm xd xa imm g s
  | .andImm xd xa imm g => Sys2Proof.Machine.execAndImm xd xa imm g s
  | .orImm xd xa imm g => Sys2Proof.Machine.execOrImm xd xa imm g s
  | .xorImm xd xa imm g => Sys2Proof.Machine.execXorImm xd xa imm g s
  | .sllImm xd xa imm g => Sys2Proof.Machine.execSllImm xd xa imm g s
  | .srlImm xd xa imm g => Sys2Proof.Machine.execSrlImm xd xa imm g s
  | .sraImm xd xa imm g => Sys2Proof.Machine.execSraImm xd xa imm g s
  | .sh1add xd xa xb g => Sys2Proof.Machine.execSh1add xd xa xb g s
  | .sh2add xd xa xb g => Sys2Proof.Machine.execSh2add xd xa xb g s
  | .sh3add xd xa xb g => Sys2Proof.Machine.execSh3add xd xa xb g s
  | .clz xd xa g => Sys2Proof.Machine.execClz xd xa g s
  | .ctz xd xa g => Sys2Proof.Machine.execCtz xd xa g s
  | .popc xd xa g => Sys2Proof.Machine.execPopc xd xa g s
  | .bext xd xa xb g => Sys2Proof.Machine.execBext xd xa xb g s
  | .bextu xd xa xb g => Sys2Proof.Machine.execBextu xd xa xb g s
  | .bins xd xa xb g => Sys2Proof.Machine.execBins xd xa xb g s
  | .cmpeq pd xa xb g => Sys2Proof.Machine.execCmpeq pd xa xb g s
  | .cmpne pd xa xb g => Sys2Proof.Machine.execCmpne pd xa xb g s
  | .cmplt pd xa xb g => Sys2Proof.Machine.execCmplt pd xa xb g s
  | .cmpltu pd xa xb g => Sys2Proof.Machine.execCmpltu pd xa xb g s
  | .cmple pd xa xb g => Sys2Proof.Machine.execCmple pd xa xb g s
  | .cmpleu pd xa xb g => Sys2Proof.Machine.execCmpleu pd xa xb g s
  | .cmpeqImm pd xa imm g => Sys2Proof.Machine.execCmpeqImm pd xa imm g s
  | .cmpneImm pd xa imm g => Sys2Proof.Machine.execCmpneImm pd xa imm g s
  | .cmpltImm pd xa imm g => Sys2Proof.Machine.execCmpltImm pd xa imm g s
  | .cmpltuImm pd xa imm g => Sys2Proof.Machine.execCmpltuImm pd xa imm g s
  | .cmpgtImm pd xa imm g => Sys2Proof.Machine.execCmpgtImm pd xa imm g s
  | .cmpgtuImm pd xa imm g => Sys2Proof.Machine.execCmpgtuImm pd xa imm g s
  | .sel xd pn sense xa xb g => Sys2Proof.Machine.execSel xd pn sense xa xb g s
  | .limm imm => Sys2Proof.Machine.execLimm imm s
  | .adr xd imm g => Sys2Proof.Machine.execAdr xd imm g s
  | .tgtLabel bd imm g => Sys2Proof.Machine.execTgtLabel bd imm g s
  | .tgtReg bd xa g => Sys2Proof.Machine.execTgtReg bd xa g s
  | .getsr xd sr g => Sys2Proof.Machine.execGetsr xd sr g s
  | .setsr sr xa g => Sys2Proof.Machine.execSetsr sr xa g s
  | .semset sem xa g => Sys2Proof.Machine.execSemset sem xa g s
  | .semadd sem xa g => Sys2Proof.Machine.execSemadd sem xa g s
  | .semwait sem xa g => Sys2Proof.Machine.execSemwait sem xa g s
  | .tagwa xa g => Sys2Proof.Machine.execTagwa xa g s
  | .tagwl xa g => Sys2Proof.Machine.execTagwl xa g s
  | .tagff xd xa g => Sys2Proof.Machine.execTagff xd xa g s
  | .tsel tb xa g => Sys2Proof.Machine.execTsel tb xa g s
  | .pswap g => Sys2Proof.Machine.execPswap g s
  | .ftset ft xa g => Sys2Proof.Machine.execFtset ft xa g s
  | .sqrd xd w g => Sys2Proof.Machine.execSqrd xd w g s
  | .resumeSlots xa xb g => Sys2Proof.Machine.execResumeSlots xa xb g s
  | .dswap xa g => Sys2Proof.Machine.execDswap xa g s
  | .vadd o => Sys2Proof.Machine.execVadd o s
  | .vsub o => Sys2Proof.Machine.execVsub o s
  | .vmul o => Sys2Proof.Machine.execVmul o s
  | .vmulh o => Sys2Proof.Machine.execVmulh o s
  | .vmad o => Sys2Proof.Machine.execVmad o s
  | .vdot4 o => Sys2Proof.Machine.execVdot4 o s
  | .vmin o => Sys2Proof.Machine.execVmin o s
  | .vmax o => Sys2Proof.Machine.execVmax o s
  | .vabs o => Sys2Proof.Machine.execVabs o s
  | .vand o => Sys2Proof.Machine.execVand o s
  | .vor o => Sys2Proof.Machine.execVor o s
  | .vxor o => Sys2Proof.Machine.execVxor o s
  | .vandn o => Sys2Proof.Machine.execVandn o s
  | .vshl o => Sys2Proof.Machine.execVshl o s
  | .vshr o => Sys2Proof.Machine.execVshr o s
  | .vclz o => Sys2Proof.Machine.execVclz o s
  | .vpopc o => Sys2Proof.Machine.execVpopc o s
  | .vmov o => Sys2Proof.Machine.execVmov o s
  | .vcmpeq o => Sys2Proof.Machine.execVcmpeq o s
  | .vcmpne o => Sys2Proof.Machine.execVcmpne o s
  | .vcmplt o => Sys2Proof.Machine.execVcmplt o s
  | .vcmple o => Sys2Proof.Machine.execVcmple o s
  | .vsel vd pn sense va vb g => Sys2Proof.Machine.execVsel vd pn sense va vb g s
  | .vfadd o => Sys2Proof.Machine.execVfadd o s
  | .vfsub o => Sys2Proof.Machine.execVfsub o s
  | .vfmul o => Sys2Proof.Machine.execVfmul o s
  | .vfma o => Sys2Proof.Machine.execVfma o s
  | .vfmin o => Sys2Proof.Machine.execVfmin o s
  | .vfmax o => Sys2Proof.Machine.execVfmax o s
  | .vfabs vd va g => Sys2Proof.Machine.execVfabs vd va g s
  | .vfneg vd va g => Sys2Proof.Machine.execVfneg vd va g s
  | .vhadd o => Sys2Proof.Machine.execVhadd o s
  | .vhsub o => Sys2Proof.Machine.execVhsub o s
  | .vhmul o => Sys2Proof.Machine.execVhmul o s
  | .vhfma o => Sys2Proof.Machine.execVhfma o s
  | .vbadd o => Sys2Proof.Machine.execVbadd o s
  | .vbsub o => Sys2Proof.Machine.execVbsub o s
  | .vbmul o => Sys2Proof.Machine.execVbmul o s
  | .vbfma o => Sys2Proof.Machine.execVbfma o s
  | .vcvtf o rnd => Sys2Proof.Machine.execVcvtf o rnd s
  | .vcvts o => Sys2Proof.Machine.execVcvts o s
  | .vcvtx vd va fmt pos g => Sys2Proof.Machine.execVcvtx vd va fmt pos g s
  | .vftoi vd va unsig rnd sat g => Sys2Proof.Machine.execVftoi vd va unsig rnd sat g s
  | .vitof vd va unsig rnd g => Sys2Proof.Machine.execVitof vd va unsig rnd g s
  | .vcvth vd va vb bf rnd sat g => Sys2Proof.Machine.execVcvth vd va vb bf rnd sat g s
  | .vnps vd va plane g => Sys2Proof.Machine.execVnps vd va plane g s
  | .vnpm vd va plane g => Sys2Proof.Machine.execVnpm vd va plane g s
  | .vshfl vd va vb width g => Sys2Proof.Machine.execVshfl vd va vb width g s
  | .vperm vd va pat g => Sys2Proof.Machine.execVperm vd va pat g s
  | .vmatch vd va key g => Sys2Proof.Machine.execVmatch vd va key g s
  | .vballot vd pn inv g => Sys2Proof.Machine.execVballot vd pn inv g s
  | .vvote pd pn mode quorum g => Sys2Proof.Machine.execVvote pd pn mode quorum g s
  | .vscan vd va op excl ty g => Sys2Proof.Machine.execVscan vd va op excl ty g s
  | .vred vd va op ty g => Sys2Proof.Machine.execVred vd va op ty g s
  | .vbcast vd va lane g => Sys2Proof.Machine.execVbcast vd va lane g s
  | .vaccrd vd tile half row g => Sys2Proof.Machine.execVaccrd vd tile half row g s
  | .vaccwr tile half row data g => Sys2Proof.Machine.execVaccwr tile half row data g s
  | .tokv tile g => Sys2Proof.Machine.execTokv tile g s
  | .tokm tile g => Sys2Proof.Machine.execTokm tile g s
  | .vxtov vd xa hi g => Sys2Proof.Machine.execVxtov vd xa hi g s
  | .vvtox xd va zero g => Sys2Proof.Machine.execVvtox xd va zero g s
  | .fev vd va tb g => Sys2Proof.Machine.execFev vd va tb g s
  | .fevE2 vd va tb g => Sys2Proof.Machine.execFevE2 vd va tb g s
  | .fevL2 vd va tb g => Sys2Proof.Machine.execFevL2 vd va tb g s
  | .fevRc vd va tb g => Sys2Proof.Machine.execFevRc vd va tb g s
  | .fevRs vd va tb g => Sys2Proof.Machine.execFevRs vd va tb g s
  | .fevPd vd va tb g => Sys2Proof.Machine.execFevPd vd va tb g s
  | .fseg vd va tb g => Sys2Proof.Machine.execFseg vd va tb g s
  | .fdom pd va tb g => Sys2Proof.Machine.execFdom pd va tb g s
  | .ldZ8 o => Sys2Proof.Machine.execLdZ8 o s
  | .ldS8 o => Sys2Proof.Machine.execLdS8 o s
  | .ldZ16 o => Sys2Proof.Machine.execLdZ16 o s
  | .ldS16 o => Sys2Proof.Machine.execLdS16 o s
  | .ld32 o => Sys2Proof.Machine.execLd32 o s
  | .ld64 o => Sys2Proof.Machine.execLd64 o s
  | .ld128 o => Sys2Proof.Machine.execLd128 o s
  | .ldA16 o => Sys2Proof.Machine.execLdA16 o s
  | .ldsZ8 o => Sys2Proof.Machine.execLdsZ8 o s
  | .ldsS8 o => Sys2Proof.Machine.execLdsS8 o s
  | .ldsZ16 o => Sys2Proof.Machine.execLdsZ16 o s
  | .ldsS16 o => Sys2Proof.Machine.execLdsS16 o s
  | .lds32 o => Sys2Proof.Machine.execLds32 o s
  | .lds64 o => Sys2Proof.Machine.execLds64 o s
  | .lds128 o => Sys2Proof.Machine.execLds128 o s
  | .ldsA16 o => Sys2Proof.Machine.execLdsA16 o s
  | .st8 o => Sys2Proof.Machine.execSt8 o s
  | .st16 o => Sys2Proof.Machine.execSt16 o s
  | .st32 o => Sys2Proof.Machine.execSt32 o s
  | .st64 o => Sys2Proof.Machine.execSt64 o s
  | .st128 o => Sys2Proof.Machine.execSt128 o s
  | .stA16 o => Sys2Proof.Machine.execStA16 o s
  | .sts8 o => Sys2Proof.Machine.execSts8 o s
  | .sts16 o => Sys2Proof.Machine.execSts16 o s
  | .sts32 o => Sys2Proof.Machine.execSts32 o s
  | .sts64 o => Sys2Proof.Machine.execSts64 o s
  | .sts128 o => Sys2Proof.Machine.execSts128 o s
  | .stsA16 o => Sys2Proof.Machine.execStsA16 o s
  | .atomAdd o => Sys2Proof.Machine.execAtomAdd o s
  | .atomMin o => Sys2Proof.Machine.execAtomMin o s
  | .atomMax o => Sys2Proof.Machine.execAtomMax o s
  | .atomMinu o => Sys2Proof.Machine.execAtomMinu o s
  | .atomMaxu o => Sys2Proof.Machine.execAtomMaxu o s
  | .atomAnd o => Sys2Proof.Machine.execAtomAnd o s
  | .atomOr o => Sys2Proof.Machine.execAtomOr o s
  | .atomXor o => Sys2Proof.Machine.execAtomXor o s
  | .atomExch o => Sys2Proof.Machine.execAtomExch o s
  | .atomCas o => Sys2Proof.Machine.execAtomCas o s
  | .atomFaddF32 o => Sys2Proof.Machine.execAtomFaddF32 o s
  | .atomFaddBf16X2 o => Sys2Proof.Machine.execAtomFaddBf16X2 o s
  | .atomsAdd o => Sys2Proof.Machine.execAtomsAdd o s
  | .atomsMin o => Sys2Proof.Machine.execAtomsMin o s
  | .atomsMax o => Sys2Proof.Machine.execAtomsMax o s
  | .atomsMinu o => Sys2Proof.Machine.execAtomsMinu o s
  | .atomsMaxu o => Sys2Proof.Machine.execAtomsMaxu o s
  | .atomsAnd o => Sys2Proof.Machine.execAtomsAnd o s
  | .atomsOr o => Sys2Proof.Machine.execAtomsOr o s
  | .atomsXor o => Sys2Proof.Machine.execAtomsXor o s
  | .atomsExch o => Sys2Proof.Machine.execAtomsExch o s
  | .atomsCas o => Sys2Proof.Machine.execAtomsCas o s
  | .atomsFaddF32 o => Sys2Proof.Machine.execAtomsFaddF32 o s
  | .atomsFaddBf16X2 o => Sys2Proof.Machine.execAtomsFaddBf16X2 o s
  | .pref xb off hint g => Sys2Proof.Machine.execPref xb off hint g s
  | .clean xb off g => Sys2Proof.Machine.execClean xb off g s
  | .inval xb off g => Sys2Proof.Machine.execInval xb off g s
  | .icinv xb g => Sys2Proof.Machine.execIcinv xb g s
  | .fenceAcq g => Sys2Proof.Machine.execFenceAcq g s
  | .fenceRel g => Sys2Proof.Machine.execFenceRel g s
  | .fenceAr g => Sys2Proof.Machine.execFenceAr g s
  | .fenceSc g => Sys2Proof.Machine.execFenceSc g s
  | .fenceCp g => Sys2Proof.Machine.execFenceCp g s
  | .drain g => Sys2Proof.Machine.execDrain g s
  | .fst o => Sys2Proof.Machine.execFst o s
  | .fsig xb inc g => Sys2Proof.Machine.execFsig xb inc g s
  | .launch data xb g => Sys2Proof.Machine.execLaunch data xb g s
  | .acqProm xb g => Sys2Proof.Machine.execAcqProm xb g s
  | .txbegin data xb g => Sys2Proof.Machine.execTxbegin data xb g s
  | .txst o => Sys2Proof.Machine.execTxst o s
  | .txcommit data g => Sys2Proof.Machine.execTxcommit data g s
  | .txabort g => Sys2Proof.Machine.execTxabort g s
  | .mma o => Sys2Proof.Machine.execMma o s
  | .accz h tile => Sys2Proof.Machine.execAccz h tile s
  | .mst h tile xa xb fmt => Sys2Proof.Machine.execMst h tile xa xb fmt s
  | .mld h tile xa xb => Sys2Proof.Machine.execMld h tile xa xb s
  | .msync h => Sys2Proof.Machine.execMsync h s
  | .mstat h tile xa => Sys2Proof.Machine.execMstat h tile xa s
  | .scla lb xa => Sys2Proof.Machine.execScla lb xa s
  | .sclb lb xa => Sys2Proof.Machine.execSclb lb xa s
  | .sclz side lb => Sys2Proof.Machine.execSclz side lb s
  | .copy o => Sys2Proof.Machine.execCopy o s
  | .copyx o => Sys2Proof.Machine.execCopyx o s
  | .tload o => Sys2Proof.Machine.execTload o s
  | .pload o => Sys2Proof.Machine.execPload o s
  | .dload o => Sys2Proof.Machine.execDload o s
  | .intake o => Sys2Proof.Machine.execIntake o s
  | .shset sh field xs => Sys2Proof.Machine.execShset sh field xs s
  | .shseti sh field imm => Sys2Proof.Machine.execShseti sh field imm s
  | .bundleIssue core => Sys2Proof.Machine.execBundleIssue core s
  | .binAged core bin => Sys2Proof.Machine.execBinAged core bin s
  | .loadValueArrives flight => Sys2Proof.Machine.execLoadValueArrives flight s
  | .swapCommit group => Sys2Proof.Machine.execSwapCommit group s
  | .pageRequestPost req => Sys2Proof.Machine.execPageRequestPost req s
  | .prrespWrite id refuse => Sys2Proof.Machine.execPrrespWrite id refuse s
  | .waitParkCandidate group => Sys2Proof.Machine.execWaitParkCandidate group s
  | .parkGroup group => Sys2Proof.Machine.execParkGroup group s
  | .unparkGroup group => Sys2Proof.Machine.execUnparkGroup group s
  | .groupEnd group => Sys2Proof.Machine.execGroupEnd group s
  | .siphonCommandStart core => Sys2Proof.Machine.execSiphonCommandStart core s
  | .timedCopyStartTime cmd => Sys2Proof.Machine.execTimedCopyStartTime cmd s
  | .matrixCommandStart core => Sys2Proof.Machine.execMatrixCommandStart core s
  | .commandRetire cmd => Sys2Proof.Machine.execCommandRetire cmd s
  | .frameGrant core lane => Sys2Proof.Machine.execFrameGrant core lane s
  | .spillTimeout core lane => Sys2Proof.Machine.execSpillTimeout core lane s
  | .refill core lane => Sys2Proof.Machine.execRefill core lane s
  | .writePerforms core write => Sys2Proof.Machine.execWritePerforms core write s
  | .lineEviction core line => Sys2Proof.Machine.execLineEviction core line s
  | .promotionAtVictim prom => Sys2Proof.Machine.execPromotionAtVictim prom s
  | .promotionAck prom => Sys2Proof.Machine.execPromotionAck prom s
  | .launchWindowWrite tenant cell off bytes => Sys2Proof.Machine.execLaunchWindowWrite tenant cell off bytes s
  | .launchWindowRead tenant cell off len => Sys2Proof.Machine.execLaunchWindowRead tenant cell off len s
  | .launchBatchAccept batch => Sys2Proof.Machine.execLaunchBatchAccept batch s
  | .memoryConditionPoll launch => Sys2Proof.Machine.execMemoryConditionPoll launch s
  | .queueAging tenant level => Sys2Proof.Machine.execQueueAging tenant level s
  | .placeGang cores => Sys2Proof.Machine.execPlaceGang cores s
  | .preempt cluster => Sys2Proof.Machine.execPreempt cluster s
  | .preemptDeadline group => Sys2Proof.Machine.execPreemptDeadline group s
  | .contextSave group => Sys2Proof.Machine.execContextSave group s
  | .contextRestore group cores => Sys2Proof.Machine.execContextRestore group cores s
  | .launchComplete launch => Sys2Proof.Machine.execLaunchComplete launch s
  | .launchAbort launch => Sys2Proof.Machine.execLaunchAbort launch s
  | .tabownWrite core hi value => Sys2Proof.Machine.execTabownWrite core hi value s
  | .registerWrite off size value => Sys2Proof.Machine.execRegisterWrite off size value s
  | .serviceEntry core => Sys2Proof.Machine.execServiceEntry core s
  | .serviceDeadline core => Sys2Proof.Machine.execServiceDeadline core s
  | .pfadd frame => Sys2Proof.Machine.execPfadd frame s
  | .pfdel frame => Sys2Proof.Machine.execPfdel frame s
  | .uncorrectableError addr met => Sys2Proof.Machine.execUncorrectableError addr met s
  | .scrub stack found => Sys2Proof.Machine.execScrub stack found s
  | .tlbinvAsid asid => Sys2Proof.Machine.execTlbinvAsid asid s
  | .tlbinvRange asid count => Sys2Proof.Machine.execTlbinvRange asid count s
  | .tlbinvAll => Sys2Proof.Machine.execTlbinvAll s
  | .tlbInvalidationDone => Sys2Proof.Machine.execTlbInvalidationDone s
  | .snadd dom first count => Sys2Proof.Machine.execSnadd dom first count s
  | .snrem dom first count => Sys2Proof.Machine.execSnrem dom first count s
  | .snap dom => Sys2Proof.Machine.execSnap dom s
  | .snout dom => Sys2Proof.Machine.execSnout dom s
  | .snstop dom => Sys2Proof.Machine.execSnstop dom s
  | .snpoolWrite value => Sys2Proof.Machine.execSnpoolWrite value s
  | .copyBeforeWrite page => Sys2Proof.Machine.execCopyBeforeWrite page s
  | .drainPageSend dom => Sys2Proof.Machine.execDrainPageSend dom s
  | .drainPageAck dom page => Sys2Proof.Machine.execDrainPageAck dom page s
  | .drainTargetFail dom => Sys2Proof.Machine.execDrainTargetFail dom s
  | .linkRetrain port lanes => Sys2Proof.Machine.execLinkRetrain port lanes s
  | .linkFail port => Sys2Proof.Machine.execLinkFail port s
  | .remoteLoadRequest src id addr len => Sys2Proof.Machine.execRemoteLoadRequest src id addr len s
  | .remoteLoadResponse id bytes => Sys2Proof.Machine.execRemoteLoadResponse id bytes s
  | .fstApply src id addr data => Sys2Proof.Machine.execFstApply src id addr data s
  | .fstAck id => Sys2Proof.Machine.execFstAck id s
  | .fsigApply src id handle inc => Sys2Proof.Machine.execFsigApply src id handle inc s
  | .fsigForward src id handle inc hops => Sys2Proof.Machine.execFsigForward src id handle inc hops s
  | .targetLost pkg => Sys2Proof.Machine.execTargetLost pkg s
  | .txStage msg handle place data => Sys2Proof.Machine.execTxStage msg handle place data s
  | .txStageAck handle msg doom => Sys2Proof.Machine.execTxStageAck handle msg doom s
  | .txPrepare msg handle => Sys2Proof.Machine.execTxPrepare msg handle s
  | .txVote handle msg no => Sys2Proof.Machine.execTxVote handle msg no s
  | .txVoteTimeout handle => Sys2Proof.Machine.execTxVoteTimeout handle s
  | .txDecision msg handle commit => Sys2Proof.Machine.execTxDecision msg handle commit s
  | .txApplyAck handle msg => Sys2Proof.Machine.execTxApplyAck handle msg s
  | .txPartTimeout coord handle => Sys2Proof.Machine.execTxPartTimeout coord handle s
  | .txRecovery coord handle commit => Sys2Proof.Machine.execTxRecovery coord handle commit s
  | .hostAccess addr op => Sys2Proof.Machine.execHostAccess addr op s
  | .hostSnoop line => Sys2Proof.Machine.execHostSnoop line s
  | .packageReset => Sys2Proof.Machine.execPackageReset s
  | .dieEnumerate die table => Sys2Proof.Machine.execDieEnumerate die table s
  | .dieIsolate die => Sys2Proof.Machine.execDieIsolate die s
  | .dieRejoin die => Sys2Proof.Machine.execDieRejoin die s
  | .dieInternalError die => Sys2Proof.Machine.execDieInternalError die s
  | .isolationComplete die lost => Sys2Proof.Machine.execIsolationComplete die lost s
  | .islandFreqWrite island freq => Sys2Proof.Machine.execIslandFreqWrite island freq s
  | .islandGate island => Sys2Proof.Machine.execIslandGate island s
  | .islandGated island => Sys2Proof.Machine.execIslandGated island s
  | .islandUngate island => Sys2Proof.Machine.execIslandUngate island s
  | .throttle lower => Sys2Proof.Machine.execThrottle lower s
  | .fatalError cause detail => Sys2Proof.Machine.execFatalError cause detail s
  | .boot hub service hart => Sys2Proof.Machine.execBoot hub service hart s
  | .firmwareVerify image => Sys2Proof.Machine.execFirmwareVerify image s
  | .claim term sender key => Sys2Proof.Machine.execClaim term sender key s
  | .lease term sender => Sys2Proof.Machine.execLease term sender s
  | .load term sender off bytes => Sys2Proof.Machine.execLoad term sender off bytes s
  | .done term sender => Sys2Proof.Machine.execDone term sender s
  | .leaseTimeout => Sys2Proof.Machine.execLeaseTimeout s
  | .claimTimeout => Sys2Proof.Machine.execClaimTimeout s
  | .leasePeriod => Sys2Proof.Machine.execLeasePeriod s
  | .mgmtDie op die => Sys2Proof.Machine.execMgmtDie op die s
  | .mgmtIsland island freq gate => Sys2Proof.Machine.execMgmtIsland island freq gate s
  | .mgmtMonitor mon cfg => Sys2Proof.Machine.execMgmtMonitor mon cfg s
  | .mgmtKeySlot slot tenant wrapped => Sys2Proof.Machine.execMgmtKeySlot slot tenant wrapped s
  | .mgmtServiceStore image => Sys2Proof.Machine.execMgmtServiceStore image s
  | .mgmtImage image => Sys2Proof.Machine.execMgmtImage image s
  | .mgmtDump => Sys2Proof.Machine.execMgmtDump s
  | .getVersion => Sys2Proof.Machine.execGetVersion s
  | .getCapabilities => Sys2Proof.Machine.execGetCapabilities s
  | .negotiateAlgorithms offersP384 offersSha384 => Sys2Proof.Machine.execNegotiateAlgorithms offersP384 offersSha384 s
  | .getDigests => Sys2Proof.Machine.execGetDigests s
  | .getCertificate slot off len => Sys2Proof.Machine.execGetCertificate slot off len s
  | .challenge slot nonce => Sys2Proof.Machine.execChallenge slot nonce s
  | .getMeasurements index => Sys2Proof.Machine.execGetMeasurements index s
  | .monitorSample mon value => Sys2Proof.Machine.execMonitorSample mon value s
  | .monitorClear mon => Sys2Proof.Machine.execMonitorClear mon s
  | .linkUp port width => Sys2Proof.Machine.execLinkUp port width s
  | .fsigAck id void => Sys2Proof.Machine.execFsigAck id void s
  | .hartAccess hart addr op => Sys2Proof.Machine.execHartAccess hart addr op s
  | .pcieMemoryRequest port addr op => Sys2Proof.Machine.execPcieMemoryRequest port addr op s
  | .directoryResponse ask => Sys2Proof.Machine.execDirectoryResponse ask s
  | .islandChangeComplete island => Sys2Proof.Machine.execIslandChangeComplete island s

end Sys2Proof.Machine
end

