-- ==== Sys2Proof/Machine/Step.lean ====
section
/-! DEFINITION. One step of the package. While a bundle is being issued, a step runs its next slot, and the last slot's
step also ends the bundle (log entry 4). Otherwise a step is the next event: the head of the agenda, else the one that
`Config.nextEvent` gives (log entry 2). An event first lets reference cycles pass (log entry 3). -/

namespace Sys2Proof.Machine

/-- A step that has changed memory has the conditions of waiting launches evaluated (R326). -/
def State.noteWrites (t : State) (before : Sparse Byte) : State :=
  if t.launches.any Launch.waitsCond && t.mem != before then t.settleConds else t

/-- What agents do of themselves once a step has made it possible: signals leave (R316), transactions go on (R405), service
records and results are written (R353, R357), the dump is written (R450), reservations that are lost end (R318), and runs whose stall or freeze has
ended are candidates again (R104). -/
def State.settle (s : State) : State :=
  let waiting := (s.fab.ops.filter (fun o => o.isSig && o.sent.isNone)).map (fun o => o.core)
  ((((waiting.eraseDups.foldl (fun s c => s.sendSignals c) s).settleTxs).writeSvcRecords.settleShadows).settleDump.dropReserved).freeHolds

/-- The end of a step that began with some memory. -/
def State.endStep (t : State) (before : Sparse Byte) : State := (t.noteWrites before).settle

/-- When every slot of the bundle has acted the bundle ends. -/
def State.endSlots (s : State) : State :=
  match s.issue with
  | none => s
  | some q => if q.slots.isEmpty then s.finishIssue else s

/-- The slot's word is taken from the latch and named as the acting one. -/
def State.takeSlot (s : State) (q : Issue) (w : SlotWord) (rest : List SlotWord) : State :=
  { s with issue := some { q with slots := rest, cur := w.pos } }

/-- Run one slot of the latched bundle. -/
def stepSlot (s : State) (q : Issue) (w : SlotWord) (rest : List SlotWord) : Host.Outcome State Fault Refusal :=
  match decodeAt w.pos w.bits with
  | none => .fault .noIssue
  | some i =>
    match exec i (s.takeSlot q w rest) with
    | .next t => .next (t.endSlots.endStep s.mem)
    | .fault f => .fault f
    | .refused r => .refused r

/-- The event of a step. -/
def State.event (s : State) : Instr := (s.agenda.head?).getD (Config.nextEvent s.turn)

/-- A cycle of some cores has begun: semaphores, tags and channels are read as they stand now (R27), and tiles go from the
matrix engine to the vector engine (R181). -/
def State.beginCycles (s before : State) : State :=
  ((s.groups.filter (fun g => (g.2.place == .resident || g.2.place == .parked)
    && s.coreCycles g.2.core != before.coreCycles g.2.core)).map (fun g => g.1)).foldl
      (fun s k => (s.modGroup k Group.semCycle).settleTokens k) s

/-- Time passes and the event leaves the agenda; pieces of outstanding loads are read meanwhile (R112, R305). -/
def State.tick (s : State) : State :=
  (({ s with agenda := s.agenda.tail, turn := s.turn + 1 }.advance (Config.elapsed s.turn)).beginCycles s).readSome

/-- Run an event. A slot operation is no event: it acts only within a bundle, so BUNDLE_ISSUE of core 0 stands for it. -/
def runEvent (i : Instr) (s : State) : Host.Outcome State Fault Refusal :=
  match (if (encode i).isSome then exec (.bundleIssue 0) s else exec i s) with
  | .next t => .next (t.endStep s.mem)
  | .fault f => .fault f
  | .refused r => .refused r

/-- One step. -/
def step (s : State) : Host.Outcome State Fault Refusal :=
  match s.issue with
  | some q =>
    match q.slots with
    | w :: rest => stepSlot s q w rest
    | [] => .next (s.finishIssue.endStep s.mem)
  | none => runEvent s.event s.tick

/-! ### Placing a bundle for the next step (log entries 12, 13) -/

/-- The thread that a placed bundle runs in. -/
def placedThread (tid : Nat) : Thread :=
  { Thread.none with group := groupKey 1 0, tid := tid, frames := [⟨16, [], false⟩], live := true }

/-- The group of a placed bundle: windows of full size and every flag set. -/
def placedGroup : Group :=
  { Group.none with
    launch := 1, core := 0, place := .resident, tags := 0xFFFFFFFFFFFFFFFF,
    kernel := { Kernel.none with gsize := 32, sems := 256, tags := 64, tiles := 8, scales := true, pattern := true } }

/-- The run of a placed bundle. -/
def placedLanes : List (Nat × Nat) := (List.range 32).map (fun k => (k, threadKey (groupKey 1 0) k))

/-- The state with a group of 32 threads on core 0 that is issuing a bundle: the given number's slots stand in the latch. -/
def State.withFetchWord (s : State) (nbits w : Nat) : State :=
  let b : BitVec 384 := BitVec.ofNat 384 (w % 2 ^ nbits)
  let g := groupKey 1 0
  let s := s.setGroup g placedGroup
  let s := (List.range 32).foldl (fun s k => s.setThread (threadKey g k) (placedThread k)) s
  let s := s.startRun 0 g placedLanes 0 0 []
  let r : Run := (s.findRun (s.ids - 1)).getD default
  let is := match decodeBundle b with
    | .ok l => l
    | .error _ => []
  let h := headerOf b
  { s with issue := some { blankIssue s r with bundle := b, seqPc := 2, scope := h.sc.toNat, loopEnd := h.e,
                                               yieldB := h.y, leaf := placedLanes.map (fun l => (l.1, 4)),
                                               slots := slotWords b is } }

end Sys2Proof.Machine
end

