-- ==== Sys2Proof/Safety.lean ====
section
/-! DEFINITION. What counts as a safe run, and the conditions under which statements say that an instruction completes. -/

namespace Sys2Proof

/-- The step answers a next state. -/
def Steps (s t : Machine.State) : Prop := Machine.step s = .next t

/-- A run of `n` steps ends in a next state: no fault and no refusal stops it. -/
def SafeRun (n : Nat) (s : Machine.State) : Prop := ∃ t, Host.Core.run core n s = .next t

/-- The instruction answers a next state. -/
def Completes (i : Instr) (s : Machine.State) : Prop := ∃ t, Machine.exec i s = .next t

namespace Machine

/-- No precise condition keeps a slot from acting (R339): BUNDLE_ISSUE has found every condition of the bundle absent, or
the slot's own check finds none. -/
def Unbarred (q : Issue) (c : Option Cond) : Prop := q.cleared = true ∨ c = none

/-- No hold keeps a slot from acting (R114): BUNDLE_ISSUE has found every hold absent, or the slot's own check finds
none. -/
def Unheld (q : Issue) (h : Option Hold) : Prop := q.cleared = true ∨ h = none

/-- Memory and the scratchpads are in canonical form. -/
def State.canonical (s : State) : Prop := Memory.wf s.mem = true ∧ spWf scrDefault s.scr = true

/-- Memory changes only by accessed and dirty marks: bits 6 and 7 get set of an entry of device memory, aligned to 8 bytes
or named by a cached translation (R373). -/
def State.onlyMarks (s t : State) : Prop :=
  ∀ a, t.byte a = s.byte a ∨ (isScr a = false ∧ (a % 8 = 0 ∨ ∃ e ∈ s.tlb, s.paKind e.at_ = .dev a) ∧
    ∃ m ∈ [(0x40 : Byte), 0x80, 0xC0], t.byte a = s.byte a ||| m)

/-- An L1 member has room for n more lines, so that bringing them in evicts none (R205). -/
abbrev State.hasRoom (s : State) (o n : Nat) : Prop := (s.l1Locals o).length + (s.l1Copies o).length + n ≤ l1Lines

/-- A register that an instruction names as a destination, as a result in flight names it for a thread (R111): a v
register by its frame depth and physical index. -/
def destIs (t : Thread) (n : DestName) (d : Dest) : Prop :=
  match n with
  | .v r => d = t.destV r
  | .x r => d = .x r
  | .p r => d = .p r
  | .b r => d = .b r
  | .sr r => d = .sr r

/-- The slot operations whose whole effect is results put in flight (R108): they change no register, no memory and
nothing else at issue. -/
def registerSlot (i : Instr) : Bool :=
  match i with
  | .add _ _ _ _ => true
  | .sub _ _ _ _ => true
  | .mul _ _ _ _ => true
  | .mulh _ _ _ _ => true
  | .mulhu _ _ _ _ => true
  | .min _ _ _ _ => true
  | .max _ _ _ _ => true
  | .minu _ _ _ _ => true
  | .maxu _ _ _ _ => true
  | .and _ _ _ _ => true
  | .or _ _ _ _ => true
  | .xor _ _ _ _ => true
  | .andn _ _ _ _ => true
  | .sll _ _ _ _ => true
  | .srl _ _ _ _ => true
  | .sra _ _ _ _ => true
  | .addImm _ _ _ _ => true
  | .mulImm _ _ _ _ => true
  | .andImm _ _ _ _ => true
  | .orImm _ _ _ _ => true
  | .xorImm _ _ _ _ => true
  | .sllImm _ _ _ _ => true
  | .srlImm _ _ _ _ => true
  | .sraImm _ _ _ _ => true
  | .sh1add _ _ _ _ => true
  | .sh2add _ _ _ _ => true
  | .sh3add _ _ _ _ => true
  | .bext _ _ _ _ => true
  | .bextu _ _ _ _ => true
  | .bins _ _ _ _ => true
  | .cmpeq _ _ _ _ => true
  | .cmpne _ _ _ _ => true
  | .cmplt _ _ _ _ => true
  | .cmpltu _ _ _ _ => true
  | .cmple _ _ _ _ => true
  | .cmpleu _ _ _ _ => true
  | .cmpeqImm _ _ _ _ => true
  | .cmpneImm _ _ _ _ => true
  | .cmpltImm _ _ _ _ => true
  | .cmpltuImm _ _ _ _ => true
  | .cmpgtImm _ _ _ _ => true
  | .cmpgtuImm _ _ _ _ => true
  | .clz _ _ _ => true
  | .ctz _ _ _ => true
  | .popc _ _ _ => true
  | .sel _ _ _ _ _ _ => true
  | .adr _ _ _ => true
  | .tgtLabel _ _ _ => true
  | .tgtReg _ _ _ => true
  | .getsr _ _ _ => true
  | .setsr _ _ _ => true
  | .tagff _ _ _ => true
  | .vadd _ => true
  | .vsub _ => true
  | .vmul _ => true
  | .vmulh _ => true
  | .vmad _ => true
  | .vdot4 _ => true
  | .vmin _ => true
  | .vmax _ => true
  | .vabs _ => true
  | .vand _ => true
  | .vor _ => true
  | .vxor _ => true
  | .vandn _ => true
  | .vshl _ => true
  | .vshr _ => true
  | .vclz _ => true
  | .vpopc _ => true
  | .vmov _ => true
  | .vcmpeq _ => true
  | .vcmpne _ => true
  | .vcmplt _ => true
  | .vcmple _ => true
  | .vsel _ _ _ _ _ _ => true
  | .vfadd _ => true
  | .vfsub _ => true
  | .vfmul _ => true
  | .vfma _ => true
  | .vfmin _ => true
  | .vfmax _ => true
  | .vfabs _ _ _ => true
  | .vfneg _ _ _ => true
  | .vhadd _ => true
  | .vhsub _ => true
  | .vhmul _ => true
  | .vhfma _ => true
  | .vbadd _ => true
  | .vbsub _ => true
  | .vbmul _ => true
  | .vbfma _ => true
  | .vcvtx _ _ _ _ _ => true
  | .vftoi _ _ _ _ _ _ => true
  | .vitof _ _ _ _ _ => true
  | .vcvth _ _ _ _ _ _ _ => true
  | .vnps _ _ _ _ => true
  | .vnpm _ _ _ _ => true
  | .vshfl _ _ _ _ _ => true
  | .vperm _ _ _ _ => true
  | .vmatch _ _ _ _ => true
  | .vballot _ _ _ _ => true
  | .vvote _ _ _ _ _ => true
  | .vscan _ _ _ _ _ _ => true
  | .vred _ _ _ _ _ => true
  | .vbcast _ _ _ _ => true
  | .vxtov _ _ _ _ => true
  | .vvtox _ _ _ _ => true
  | _ => false

end Machine

end Sys2Proof
end

