-- ==== Sys2Proof/Certificates/Slice0/Obligations.lean ====
section
/-! DEFINITION. The statements for the provers. Where a statement rests on a choice of this model its docstring names the
log entry. -/

open Sys2Proof Sys2Proof.Machine

/-- One slot word of every family, written out bit by bit from the encoding tables of chapter 2 and the decoding
chapters, decodes to the instruction it stands for, and the bundle of the worked example decodes to its four slots. -/
def Obligations.DecodesWorkedWords : Prop :=
  decodeSlot .br 0x2890#64 = some (.br [⟨5, false, 1⟩] false)
  ∧ decodeSlot .br 0x20258#64 = some (.loop 5 2 2)
  ∧ decodeSlot .br 0x40B#64 = some (.svc 0x40)
  ∧ decodeSlot .s 0x02A18B81#64 = some (.add 3 4 5 ⟨false, 2, 7⟩)
  ∧ decodeSlot .s 0xFCA18391#64 = some (.addImm 3 4 (-7) ⟨false, 0, 7⟩)
  ∧ decodeSlot .s 0x019203A4#64 = some (.cmplt 4 2 3 ⟨false, 0, 7⟩)
  ∧ decodeSlot .s 0x021803B6#64 = some (.semadd 4 3 ⟨false, 0, 7⟩)
  ∧ decodeSlot .v 0x001816140801#64 = some (.vadd ⟨10, 11, .reg 12, 0, false, ⟨false, 0, 4⟩⟩)
  ∧ decodeSlot .v 0x1C5452500E1B#64 = some (.vfma ⟨40, 41, 42, 1, ⟨false, 0, 7⟩⟩)
  ∧ decodeSlot .f 0x614180E1#64 = some (.fev 12 10 3 ⟨false, 0, 7⟩)
  ∧ decodeSlot .m 0x00104B0A038C#64 = some (.ld32 ⟨20, 6, 9, true, 2, 0, ⟨false, 0, 7⟩⟩)
  ∧ decodeSlot .c 0x00002A8040C00003#64 = some (.tload ⟨⟨0, 0, 3, 1⟩, 1, 0, 4, 5⟩)
  ∧ decodeBundle 0x00104B0A038C00181614080102A18B8100000000000028900000208B#384 = .ok
      [(0, .br [⟨5, false, 1⟩] false), (1, .add 3 4 5 ⟨false, 2, 7⟩),
       (3, .vadd ⟨10, 11, .reg 12, 0, false, ⟨false, 0, 4⟩⟩), (7, .ld32 ⟨20, 6, 9, true, 2, 0, ⟨false, 0, 7⟩⟩)]

/-- For every well-formed slot operation, with every operand at every value that the encoding admits, decoding the
word that the encoder gives for it, in the slot kind that the encoder gives, answers that instruction: no bit of an
encoding is dropped. -/
def Obligations.EncodedInstructionDecodes : Prop :=
  ∀ (i : Instr) (k : SlotKind) (w : BitVec 64), i.wf = true → encode i = some (k, w) → decodeSlot k w = some i

/-- A bundle of 48 bytes, lowest address first, has as bit k bit k mod 8 of byte k/8: parcel n lies little-endian at
byte offset 2n. A bundle packed from a header and the present slots in ascending PRES order, each within its width and
together at most 22 parcels, has that header and those slots; with the reserved bits of its header 0 it passes the
packing checks: the slots stand one after the other from parcel 2 on. -/
def Obligations.BundleBytesPackAndUnpack : Prop :=
  (∀ (bs : List Byte) (k : Nat), bs.length = 48 → k < 384 →
    (bundleOfBytes bs).getLsbD k = (bs.getD (k / 8) 0).getLsbD (k % 8))
  ∧ (∀ (h : Header) (slots : List (Nat × BitVec 64)),
    slots.map (fun q => q.1) = presentSlots h.pres → parcelsOf (presentSlots h.pres) ≤ 22 →
    (∀ q ∈ slots, q.2.toNat < 2 ^ (16 * (kindOf q.1).parcels)) →
    headerOf (packBundle h slots) = h ∧ slotsOf (packBundle h slots) = slots
      ∧ (h.reserved = 0 → packedRight (packBundle h slots) = true))

/-- When the legality checks of a bundle pass, they answer every present slot that the mask does not skip, in PRES
order, with the instruction that its bits decode to, and each of these is one that the group allows; the bundle has no
header fault of R66. -/
def Obligations.LegalBundleNamesItsSlots : Prop :=
  ∀ (ok : Instr → Bool) (skip : BitVec 13) (b : BitVec 384) (is : List (Nat × Instr)), legalBundle ok skip b = .ok is →
    headerIllegal b = false
    ∧ is.map (fun q => q.1) = ((slotsOf b).filter (fun q => !skip.getLsbD q.1)).map (fun q => q.1)
    ∧ ∀ (k : Nat) (i : Instr), (k, i) ∈ is →
        ok i = true ∧ ∃ w, (k, w) ∈ slotsOf b ∧ skip.getLsbD k = false ∧ decodeAt k w = some i

/-- While a bundle is being issued and its next slot decodes to an instruction i, i is well formed and the step is
exec of i at the state in which the slot has left the latch and is named as the acting one. After it, the bundle ends
if no slot is left, the conditions of waiting launches are evaluated if memory changed, and what agents do of
themselves once they can is done: endStep (log entries 4, 8 and 25). A fault or a refusal of exec is that of the step.
A latch without a slot ends the bundle, and a slot that decodes to no instruction, which BUNDLE_ISSUE never latches,
is a fault. -/
def Obligations.StepRunsLatchedSlot : Prop :=
  ∀ (s : State) (q : Issue), s.issue = some q →
    (q.slots = [] → step s = .next (s.finishIssue.endStep s.mem))
    ∧ ∀ (w : SlotWord) (rest : List SlotWord), q.slots = w :: rest →
        (decodeAt w.pos w.bits = none → step s = .fault .noIssue)
        ∧ ∀ i, decodeAt w.pos w.bits = some i →
            i.wf = true
            ∧ step s = (match exec i { s with issue := some { q with slots := rest, cur := w.pos } } with
              | .next t => .next (t.endSlots.endStep s.mem)
              | .fault f => .fault f
              | .refused r => .refused r)

/-- While no bundle is being issued, the step is exec of the next event, at the state in which the event has left the
agenda, the turn has risen by 1, the time that the free value gives has passed, the cycles that begin have begun
(beginCycles), and pieces of outstanding loads have been read as the free value readsNow has it; after it, endStep
evaluates the conditions of waiting launches if memory changed and does what agents do of themselves once they can.
The event is the head of the agenda, else the one that the free value Config.nextEvent gives; a slot operation there
stands for BUNDLE_ISSUE of core 0 (log entries 2, 3, 8 and 25). -/
def Obligations.StepRunsEvent : Prop :=
  ∀ (s : State), s.issue = none →
    let ev := (s.agenda.head?).getD (Config.nextEvent s.turn)
    let i := if (encode ev).isSome then .bundleIssue 0 else ev
    let at_ := ((State.advance { s with agenda := s.agenda.tail, turn := s.turn + 1 } (Config.elapsed s.turn)).beginCycles s).readSome
    step s = (match exec i at_ with
      | .next t => .next (t.endStep at_.mem)
      | .fault f => .fault f
      | .refused r => .refused r)

/-- For a group that is no service context, when both bytes of the item at the PC lie in device memory, and for an
escape its 48 further bytes too: an item below the dictionary length of the group's bank is that bundle of the bank,
with PC + 2 next; item 0xFFFF is the literal bundle of the 48 bytes after it, with PC + 50 next; items 0xFFF0 to
0xFFFE are an illegal instruction at the code item; every other item is a dictionary-index fault. In the service
context the bundle at PC 48 i is bundle i of the service store, with PC + 48 next; a PC that names no bundle of it
gives the dictionary-index fault (log entry 38). -/
def Obligations.FetchReadsItemAndLiteral : Prop :=
  (∀ (s : State) (core g : Nat) (pc : DWord) (ls more : List Nat),
    let item := leNat (ls.map (s.codeByte core))
    let bank := (s.core core).bank (s.group g).dbank
    isService g = false → s.codeLocs g pc 2 = .ok ls →
    (bank.len ≤ item → item = 0xFFFF → s.codeLocs g (pc + 2) 48 = .ok more) →
    s.fetch core g pc =
      if item < bank.len then .bundle (spGet (fun _ => 0) bank.bundles item) (pc + 2) pc 2 ls
      else if item = 0xFFFF then .bundle (bundleOfBytes (more.map (s.codeByte core))) (pc + 50) pc 50 (ls ++ more)
      else if 0xFFF0 ≤ item then .fault 0x03 0 14 0
      else .fault 0x02 0 15 0)
  ∧ (∀ (s : State) (core g : Nat) (pc : DWord), isService g = true →
      (∀ i < 512, pc = BitVec.ofNat 64 (48 * i) → s.fetch core g pc
        = .bundle (bundleOfBytes (bytesAt (s.mgmt.serviceStore.getD []) (48 * i) 48)) (pc + 48) pc 0 [])
      ∧ ((∀ i < 512, pc ≠ BitVec.ofNat 64 (48 * i)) → s.fetch core g pc = .fault 0x02 0 15 0))

/-- Of a group that is no service context, a fetch whose item, or whose literal bundle after an escape, has a byte
that translates to no device memory of this package is fetch fault 0x01 at that byte. The reason is that of the
translation failure, or 4 where the permission check fails, or 5 where the byte translates to memory of another
package, a host or a hub register. Of a leaf that lacks a permission and leads outside this package's device memory,
the model reports reason 4 (log entry 20). -/
def Obligations.FetchFaultsAtItsBytes : Prop :=
  ∀ (s : State) (core g : Nat) (pc : DWord) (r : Nat) (va : DWord), isService g = false →
    (s.codeLocs g pc 2 = .error (r, va) → s.fetch core g pc = .fault 0x01 r 15 va)
    ∧ (∀ ls, s.codeLocs g pc 2 = .ok ls → leNat (ls.map (s.codeByte core)) = 0xFFFF →
        ((s.core core).bank (s.group g).dbank).len ≤ 2048 → s.codeLocs g (pc + 2) 48 = .error (r, va) →
        s.fetch core g pc = .fault 0x01 r 15 va)
    ∧ (s.codeSite g va = .error r ↔
        (∃ site, s.xlateFor g needX va = .ok site ∧ (∀ pa l, site ≠ .here pa l) ∧ r = 5)
        ∨ ∃ c k, s.xlateFor g needX va = .bad c k ∧ r = (if c = 0x08 then (if k = 5 then 5 else 4) else k))

/-- After package reset no bundle is being issued and no run, thread, group, launch, command, access, page request,
trap, cached translation, failed frame or message exists; every byte of memory reads 0; TENCFG reads 1, AGEL 0xF4240,
PREDL and SRVDL 0x4E20, FBLOSS 0x1AB3F0, ISLCTL a CUR and FREQ of 70 with the other named fields 0, DIEST.STATE 0; the
elapsed reference time is 0, and every core is Core.reset. That a byte which nothing has written reads 0 is the
model's choice (log entry 1), and so are the values of Core.reset, for which the manual gives none (log entry 5). -/
def Obligations.ResetState : Prop :=
  State.reset.issue = none ∧ State.reset.runs = [] ∧ State.reset.threads = [] ∧ State.reset.groups = []
  ∧ State.reset.launches = [] ∧ State.reset.cmds = [] ∧ State.reset.accesses = [] ∧ State.reset.reqs = []
  ∧ State.reset.traps = [] ∧ State.reset.tlb = [] ∧ State.reset.pageFail = [] ∧ State.reset.outbox = []
  ∧ State.reset.now = 0 ∧ State.reset.agenda = []
  ∧ (∀ a, State.reset.byte a = 0)
  ∧ (∀ t, t < 64 → State.reset.reg (regTencfg t) = 1)
  ∧ (∀ l, l < 8 → State.reset.reg (regAgel l) = 0xF4240)
  ∧ State.reset.reg regPredl = 0x4E20 ∧ State.reset.reg regSrvdl = 0x4E20 ∧ State.reset.reg regFbloss = 0x1AB3F0
  ∧ (∀ n, n < 128 → State.reset.field (regIslctl n) 16 7 = 70 ∧ State.reset.field (regIslctl n) 0 7 = 70
      ∧ State.reset.field (regIslctl n) 15 1 = 0 ∧ State.reset.field (regIslctl n) 13 2 = 0)
  ∧ (∀ d, d < 23 → State.reset.dieState d = 0)
  ∧ (∀ c, State.reset.core c = Core.reset)

/-- The state after reset has its memory and its scratchpads in canonical form: addresses strictly rising, and no
entry equal to what an unlisted address reads as. -/
def Obligations.ResetMemoryIsCanonical : Prop :=
  State.reset.canonical

/-- From every state whose memory and scratchpads are in canonical form, whatever instruction or event runs, a step
that answers a next state answers one whose memory and scratchpads are in canonical form: equal memories stay equal
data. -/
def Obligations.StepsKeepMemoryCanonical : Prop :=
  ∀ (s t : State), s.canonical → step s = .next t → t.canonical

/-- After bytes are written from a location on, each location of that run reads its byte of the data and every other
location, of memory and of every scratchpad, reads as before. -/
def Obligations.ReadAfterWriteOfBytes : Prop :=
  ∀ (s : State) (loc : Nat) (bs : List Byte) (a : Nat),
    (s.setBytes loc bs).byte a = if loc ≤ a ∧ a < loc + bs.length then bs.getD (a - loc) 0 else s.byte a

/-- A lane participates in a slot exactly when it is active, the guard's predicate as it stands at issue, with p0 read
as 1, differs from the sense bit, and the guard's leaf is 7 or the leaf that the lane chose in this bundle's tree. In
a bundle without a tree the leaf of every lane is 4. A guard of (!p0) never passes. -/
def Obligations.GuardedSlotParticipants : Prop :=
  ∀ (s : State) (q : Issue) (g : Guard) (l : Nat × Nat) (is : List (Nat × Instr)),
    (l ∈ participants s q g ↔ l ∈ q.lanes
      ∧ ((if g.pred = 0 then true else (s.thread l.2).p.getLsbD g.pred.toNat) ^^ g.sense) = true
      ∧ (g.leaf = 7 ∨ g.leaf.toNat = q.leafOf l.1))
    ∧ ((∀ j ∈ is, isTree j.2 = false) → l ∈ q.lanes → ({ q with leaf := treeLeaves s q is } : Issue).leafOf l.1 = 4)
    ∧ (g.sense = true → g.pred = 0 → participants s q g = [])

/-- Putting results of latency L in flight changes the run of the bundle only, and of it only the list of results in
flight, which grows at its end. Every added result lands at the bundle's count plus L, waits for no access, and
carries for its destination exactly the threads and values given for it; every value given is in one of them, and no
two of them have one destination. -/
def Obligations.ResultsPutInFlight : Prop :=
  ∀ (s : State) (q : Issue) (lat : Nat) (vals : List (Nat × Dest × QWord)), ∃ fs : List Flight,
    s.fly q lat vals = s.modRun q.run (fun r => { r with flights := r.flights ++ fs })
    ∧ (∀ f ∈ fs, f.land = q.count + lat ∧ f.wait = none ∧ ∀ tk v, (tk, v) ∈ f.vals ↔ (tk, f.dest, v) ∈ vals)
    ∧ (∀ tk d v, (tk, d, v) ∈ vals → ∃ f ∈ fs, f.dest = d ∧ (tk, v) ∈ f.vals)
    ∧ (fs.map (fun f => f.dest)).Nodup

/-- Landing a value in an x register makes that register read it and leaves every other x register; x0 reads 0 and
takes nothing. The same for predicates, where p0 reads 1 and takes nothing, for b registers, and for the v registers
of the current frame by physical index. Status bits are ORed into %status. Nothing else of the thread changes. -/
def Obligations.LandedResultChangesItsRegister : Prop :=
  ∀ (t : Thread) (v : QWord) (r k : Nat),
    t.readX 0 = 0 ∧ t.readP 0 = true
    ∧ (t.land (.x r) v).readX k = (if k = r ∧ r ≠ 0 then v.truncate 64 else t.readX k)
    ∧ { t.land (.x r) v with x := t.x } = t
    ∧ (r < 16 → (t.land (.p r) v).readP k = (if k = r ∧ r ≠ 0 then v.getLsbD 0 else t.readP k))
    ∧ { t.land (.p r) v with p := t.p } = t
    ∧ (t.land (.b r) v).readB k = (if k = r then v.truncate 64 else t.readB k)
    ∧ { t.land (.b r) v with b := t.b } = t
    ∧ t.land .status v = { t with status := t.status ||| v.truncate 8 }
    ∧ (∀ (f : Frame) (fs : List Frame), t.frames = f :: fs →
        spGet (fun _ => 0) (t.land (.v t.depth r) v).frame.regs k
            = (if k = r then v.truncate 32 else spGet (fun _ => 0) t.frame.regs k)
          ∧ (t.land (.v t.depth r) v).frame.size = f.size
          ∧ { t.land (.v t.depth r) v with frames := t.frames } = t)

/-- When the results of a run that are due by a count have landed, an x register of a thread reads what it read before
if no result for it is due by that count; and if some result for it is due and every other due result for it lands at
an earlier count, it reads that result. -/
def Obligations.ResultReadOnlyFromItsCount : Prop :=
  ∀ (s : State) (r : Run) (n tk x : Nat), x ≠ 0 →
    ((∀ f ∈ r.flights, f.land ≤ n → f.dest = .x x → tk ∉ f.vals.map (fun v => v.1)) →
      ((s.landDue r n).thread tk).readX x = (s.thread tk).readX x)
    ∧ (∀ (pre post : List Flight) (f : Flight) (v : QWord), r.flights = pre ++ f :: post →
        f.land ≤ n → f.dest = .x x → f.vals.map (fun u => u.1) = [tk] → (tk, v) ∈ f.vals →
        (∀ h ∈ pre ++ post, h.land ≤ n → h.dest = .x x → tk ∈ h.vals.map (fun u => u.1) → h.land < f.land) →
        ((s.landDue r n).thread tk).readX x = v.truncate 64)
    ∧ (∀ f, (∃ u ∈ (s.landDue r n).runs, u.id = r.id ∧ f ∈ u.flights) →
        (∃ u ∈ s.runs, u.id = r.id ∧ f ∈ u.flights) ∧ n < f.land)

/-- The slot operations of registerSlot (scalar arithmetic, compares, selection, ADR, TGT, GETSR, SETSR, TAGFF, and
the vector slots but VCVTF, VCVTS and the tile and token slots) that no frame-bound condition bars complete, and the
only change they make is that the run of the bundle has further results in flight. These land later than the bundle's
count, in participating threads only, and only in a register that the instruction names as a destination or in the
sticky bits of %status: no register, flag, special register, accumulator, group, memory byte or other run changes at
issue. -/
def Obligations.RegisterSlotsOnlyPutResultsInFlight : Prop :=
  ∀ (i : Instr) (s : State) (q : Issue), registerSlot i = true → s.issue = some q → Unbarred q (frameCond s q i) →
    ∃ fs : List Flight, exec i s = .next (s.modRun q.run (fun r => { r with flights := r.flights ++ fs }))
      ∧ ∀ f ∈ fs, q.count < f.land ∧ ∀ u ∈ f.vals,
          (∃ l ∈ participants s q ((guardIn i).getD Guard.always), l.2 = u.1)
          ∧ (f.dest = .status ∨ ∃ d ∈ destsOf i, destIs (s.thread u.1) d f.dest)

/-- In every passing lane, ADD, SUB and MUL write the wrapped sum, difference and product of xa and xb, MULH and MULHU
bits [127:64] of the signed and unsigned product (see MultiplyHighIsHighHalf), MIN, MAX, MINU and MAXU the signed and
unsigned minimum and maximum, AND, OR, XOR and ANDN the bitwise results, SLL, SRL and SRA xa shifted by xb[5:0], and
SH1ADD, SH2ADD and SH3ADD xa shifted left by 1, 2 or 3 plus xb. The multiplies land at latency 3 and the others at 1;
x0 takes nothing (flyX). Nothing else changes. -/
def Obligations.ScalarRegisterForms : Prop :=
  ∀ (s : State) (q : Issue) (d a b : BitVec 4) (g : Guard), s.issue = some q →
    exec (.add d a b g) s = .next (s.flyX q g 1 d (fun l => xOf s l a + xOf s l b))
    ∧ exec (.sub d a b g) s = .next (s.flyX q g 1 d (fun l => xOf s l a - xOf s l b))
    ∧ exec (.mul d a b g) s = .next (s.flyX q g 3 d (fun l => xOf s l a * xOf s l b))
    ∧ exec (.mulh d a b g) s = .next (s.flyX q g 3 d (fun l => mulHigh (xOf s l a) (xOf s l b)))
    ∧ exec (.mulhu d a b g) s = .next (s.flyX q g 3 d (fun l => mulHighU (xOf s l a) (xOf s l b)))
    ∧ exec (.min d a b g) s = .next (s.flyX q g 1 d (fun l => if (xOf s l b).toInt < (xOf s l a).toInt then xOf s l b else xOf s l a))
    ∧ exec (.max d a b g) s = .next (s.flyX q g 1 d (fun l => if (xOf s l a).toInt < (xOf s l b).toInt then xOf s l b else xOf s l a))
    ∧ exec (.minu d a b g) s = .next (s.flyX q g 1 d (fun l => if (xOf s l b).toNat < (xOf s l a).toNat then xOf s l b else xOf s l a))
    ∧ exec (.maxu d a b g) s = .next (s.flyX q g 1 d (fun l => if (xOf s l a).toNat < (xOf s l b).toNat then xOf s l b else xOf s l a))
    ∧ exec (.and d a b g) s = .next (s.flyX q g 1 d (fun l => xOf s l a &&& xOf s l b))
    ∧ exec (.or d a b g) s = .next (s.flyX q g 1 d (fun l => xOf s l a ||| xOf s l b))
    ∧ exec (.xor d a b g) s = .next (s.flyX q g 1 d (fun l => xOf s l a ^^^ xOf s l b))
    ∧ exec (.andn d a b g) s = .next (s.flyX q g 1 d (fun l => xOf s l a &&& ~~~(xOf s l b)))
    ∧ exec (.sll d a b g) s = .next (s.flyX q g 1 d (fun l => (xOf s l a) <<< ((xOf s l b).toNat % 64)))
    ∧ exec (.srl d a b g) s = .next (s.flyX q g 1 d (fun l => (xOf s l a) >>> ((xOf s l b).toNat % 64)))
    ∧ exec (.sra d a b g) s = .next (s.flyX q g 1 d (fun l => (xOf s l a).sshiftRight ((xOf s l b).toNat % 64)))
    ∧ exec (.sh1add d a b g) s = .next (s.flyX q g 1 d (fun l => ((xOf s l a) <<< 1) + xOf s l b))
    ∧ exec (.sh2add d a b g) s = .next (s.flyX q g 1 d (fun l => ((xOf s l a) <<< 2) + xOf s l b))
    ∧ exec (.sh3add d a b g) s = .next (s.flyX q g 1 d (fun l => ((xOf s l a) <<< 3) + xOf s l b))

/-- The value that MULH writes is bits [127:64] of the 128-bit product of the sign-extended operands, and that of
MULHU is those of the product of the zero-extended operands; together with the low half that MUL writes, each product
is exact. -/
def Obligations.MultiplyHighIsHighHalf : Prop :=
  ∀ (a b : DWord),
    mulHigh a b = (a.signExtend 128 * b.signExtend 128).extractLsb' 64 64
    ∧ mulHighU a b = (a.zeroExtend 128 * b.zeroExtend 128).extractLsb' 64 64
    ∧ (a.zeroExtend 128 * b.zeroExtend 128) = mulHighU a b ++ (a * b)

/-- LIMM gives S0 of its bundle the upper 25 bits of its immediate and does nothing else. ADD, MUL, AND, OR and XOR
with an immediate use the sign-extended 9-bit immediate, or under LIMM the sign-extended 34-bit value made of LIMM's
25 bits and the 9 bits; the shifts by an immediate use their 6-bit amount. MUL lands at latency 3 and the others at 1.
ADR writes to xd, and TGT with a label to its b register, the address of the bundle's item plus twice the immediate;
TGT with a register copies all 64 bits of xa to its b register. -/
def Obligations.ScalarImmediateForms : Prop :=
  ∀ (s : State) (q : Issue) (d a : BitVec 4) (bd : BitVec 3) (imm : BitVec 9) (sh : BitVec 6) (up : BitVec 25) (g : Guard),
    s.issue = some q →
    let I : DWord := match q.ext with
      | none => imm.signExtend 64
      | some e => (e ++ imm).signExtend 64
    exec (.limm up) s = .next { s with issue := some { q with ext := some up } }
    ∧ exec (.addImm d a imm g) s = .next (s.flyX q g 1 d (fun l => xOf s l a + I))
    ∧ exec (.mulImm d a imm g) s = .next (s.flyX q g 3 d (fun l => xOf s l a * I))
    ∧ exec (.andImm d a imm g) s = .next (s.flyX q g 1 d (fun l => xOf s l a &&& I))
    ∧ exec (.orImm d a imm g) s = .next (s.flyX q g 1 d (fun l => xOf s l a ||| I))
    ∧ exec (.xorImm d a imm g) s = .next (s.flyX q g 1 d (fun l => xOf s l a ^^^ I))
    ∧ exec (.sllImm d a sh g) s = .next (s.flyX q g 1 d (fun l => (xOf s l a) <<< sh.toNat))
    ∧ exec (.srlImm d a sh g) s = .next (s.flyX q g 1 d (fun l => (xOf s l a) >>> sh.toNat))
    ∧ exec (.sraImm d a sh g) s = .next (s.flyX q g 1 d (fun l => (xOf s l a).sshiftRight sh.toNat))
    ∧ exec (.adr d imm g) s = .next (s.flyX q g 1 d (fun _ => q.pc + 2 * I))
    ∧ exec (.tgtLabel bd imm g) s = .next (s.flyB q g 1 bd (fun _ => q.pc + 2 * I))
    ∧ exec (.tgtReg bd a g) s = .next (s.flyB q g 1 bd (fun l => xOf s l a))

/-- With pos = xb[5:0] and w = min(xb[14:8], 64 - pos), BEXTU writes xa[pos+w-1:pos] zero-extended, BEXT the same
sign-extended (0 when w is 0), and BINS writes xd as it stands at issue with its bits pos to pos+w-1 replaced by the
low w bits of xa. All land at latency 1 in the passing lanes. -/
def Obligations.BitFieldSlots : Prop :=
  ∀ (s : State) (q : Issue) (d a b : BitVec 4) (g : Guard), s.issue = some q →
    ∃ fu fs fi : Nat × Nat → DWord,
      exec (.bextu d a b g) s = .next (s.flyX q g 1 d fu)
      ∧ exec (.bext d a b g) s = .next (s.flyX q g 1 d fs)
      ∧ exec (.bins d a b g) s = .next (s.flyX q g 1 d fi)
      ∧ ∀ (l : Nat × Nat) (k : Nat), k < 64 →
          let pos := (xOf s l b).toNat % 64
          let w := min ((xOf s l b).toNat / 256 % 128) (64 - pos)
          (fu l).getLsbD k = (decide (k < w) && (xOf s l a).getLsbD (pos + k))
          ∧ (fs l).getLsbD k = (decide (w ≠ 0) && (xOf s l a).getLsbD (pos + min k (w - 1)))
          ∧ (fi l).getLsbD k = (if pos ≤ k ∧ k < pos + w then (xOf s l a).getLsbD (k - pos) else (xOf s l d).getLsbD k)

/-- In every passing lane CLZ writes the number of leading zeros of xa and CTZ that of trailing zeros, each 0 to 64:
the bits counted are 0, and when the count n is below 64 the next bit is 1. POPC writes the number of 1 bits. All land
at latency 1. -/
def Obligations.BitCountSlots : Prop :=
  ∀ (s : State) (q : Issue) (d a : BitVec 4) (g : Guard), s.issue = some q →
    ∃ nc nt np : Nat × Nat → Nat,
      exec (.clz d a g) s = .next (s.flyX q g 1 d (fun l => BitVec.ofNat 64 (nc l)))
      ∧ exec (.ctz d a g) s = .next (s.flyX q g 1 d (fun l => BitVec.ofNat 64 (nt l)))
      ∧ exec (.popc d a g) s = .next (s.flyX q g 1 d (fun l => BitVec.ofNat 64 (np l)))
      ∧ ∀ l, nc l ≤ 64 ∧ (∀ k, k < nc l → (xOf s l a).getLsbD (63 - k) = false)
          ∧ (nc l < 64 → (xOf s l a).getLsbD (63 - nc l) = true)
          ∧ nt l ≤ 64 ∧ (∀ k, k < nt l → (xOf s l a).getLsbD k = false)
          ∧ (nt l < 64 → (xOf s l a).getLsbD (nt l) = true)
          ∧ np l = ((List.range 64).filter (fun k => (xOf s l a).getLsbD k)).length

/-- In every passing lane the register forms CMPEQ, CMPNE, CMPLT, CMPLTU, CMPLE and CMPLEU write to the destination
predicate whether xa stands in that relation to xb, signed or unsigned as the opcode says; the immediate forms CMPEQ,
CMPNE, CMPLT, CMPLTU, CMPGT and CMPGTU compare with the sign-extended immediate, which an unsigned compare reads as an
unsigned 64-bit value. The predicate lands at latency 1. -/
def Obligations.CompareSlots : Prop :=
  ∀ (s : State) (q : Issue) (p a b : BitVec 4) (imm : BitVec 9) (g : Guard), s.issue = some q →
    let A := fun (l : Nat × Nat) => xOf s l a
    let B := fun (l : Nat × Nat) => xOf s l b
    let I : DWord := match q.ext with
      | none => imm.signExtend 64
      | some e => (e ++ imm).signExtend 64
    exec (.cmpeq p a b g) s = .next (s.flyP q g 1 p (fun l => decide (A l = B l)))
    ∧ exec (.cmpne p a b g) s = .next (s.flyP q g 1 p (fun l => decide (A l ≠ B l)))
    ∧ exec (.cmplt p a b g) s = .next (s.flyP q g 1 p (fun l => decide ((A l).toInt < (B l).toInt)))
    ∧ exec (.cmpltu p a b g) s = .next (s.flyP q g 1 p (fun l => decide ((A l).toNat < (B l).toNat)))
    ∧ exec (.cmple p a b g) s = .next (s.flyP q g 1 p (fun l => decide ((A l).toInt ≤ (B l).toInt)))
    ∧ exec (.cmpleu p a b g) s = .next (s.flyP q g 1 p (fun l => decide ((A l).toNat ≤ (B l).toNat)))
    ∧ exec (.cmpeqImm p a imm g) s = .next (s.flyP q g 1 p (fun l => decide (A l = I)))
    ∧ exec (.cmpneImm p a imm g) s = .next (s.flyP q g 1 p (fun l => decide (A l ≠ I)))
    ∧ exec (.cmpltImm p a imm g) s = .next (s.flyP q g 1 p (fun l => decide ((A l).toInt < I.toInt)))
    ∧ exec (.cmpltuImm p a imm g) s = .next (s.flyP q g 1 p (fun l => decide ((A l).toNat < I.toNat)))
    ∧ exec (.cmpgtImm p a imm g) s = .next (s.flyP q g 1 p (fun l => decide (I.toInt < (A l).toInt)))
    ∧ exec (.cmpgtuImm p a imm g) s = .next (s.flyP q g 1 p (fun l => decide (I.toNat < (A l).toNat)))

/-- In every passing lane SEL writes xd with xa when the selecting predicate, as it stands at issue and with p0 read
as 1, differs from the sense bit, and with xb otherwise, at latency 1. -/
def Obligations.SelWritesTheChosenSource : Prop :=
  ∀ (s : State) (q : Issue) (d n a b : BitVec 4) (sense : Bool) (g : Guard), s.issue = some q →
    exec (.sel d n sense a b g) s = .next (s.flyX q g 1 d (fun l =>
      if ((if n = 0 then true else (s.thread l.2).p.getLsbD n.toNat) ^^ sense) = true then xOf s l a else xOf s l b))

/-- GETSR writes to xd in every passing lane, at latency 1, the special register as it stands when the bundle acts
(%tags and the channels as they stood when the core's cycle began), zero-extended, by every number of the table: each
thread its own thread, lane, loop, status, AMAX, SATCNT, RCTR, depth and frame registers, and the group's, core's and
launch's registers alike for every lane. SETSR writes xa, at latency 1, to each passing lane's own register, and
%smask, which the group holds, from the leader lane only. When its result lands, a writable register takes its low
bits and no other register changes. -/
def Obligations.SpecialRegisterSlots : Prop :=
  ∀ (s : State) (q : Issue) (d a : BitVec 4) (sr : BitVec 9) (g : Guard), s.issue = some q →
    exec (.getsr d sr g) s = .next (s.flyX q g 1 d (fun l => srRead s q l sr.toNat))
    ∧ exec (.setsr sr a g) s = .next (s.fly q 1
        ((if sr = 0x051 then (participants s q g).take 1 else participants s q g).map (fun l =>
          (l.2, .sr sr.toNat, (xOf s l a).zeroExtend 128))))
    ∧ (∀ l : Nat × Nat, let t := s.thread l.2
        let gr := s.group q.group
        let la := s.launchOf q.group
        srRead s q l 0x000 = BitVec.ofNat 64 t.tid
        ∧ srRead s q l 0x001 = BitVec.ofNat 64 (t.tid % 32)
        ∧ srRead s q l 0x002 = BitVec.ofNat 64 gr.gid
        ∧ srRead s q l 0x003 = BitVec.ofNat 64 gr.kernel.gsize
        ∧ srRead s q l 0x004 = BitVec.ofNat 64 la.grid
        ∧ srRead s q l 0x005 = BitVec.ofNat 64 (gr.member * 256 + gr.kernel.gang)
        ∧ srRead s q l 0x006 = BitVec.ofNat 64 q.core
        ∧ srRead s q l 0x007 = BitVec.ofNat 64 gr.launch
        ∧ srRead s q l 0x008 = la.seed
        ∧ srRead s q l 0x009 = la.args
        ∧ srRead s q l 0x00A = BitVec.ofNat 64 (gr.prio * 256 + gr.tenant)
        ∧ srRead s q l 0x010 = BitVec.ofNat 64 s.now
        ∧ srRead s q l 0x011 = BitVec.ofNat 64 (s.coreCycles q.core)
        ∧ srRead s q l 0x020 = t.loop.lc0.zeroExtend 64
        ∧ srRead s q l 0x021 = t.loop.lc1.zeroExtend 64
        ∧ srRead s q l 0x022 = t.loop.ec.zeroExtend 64
        ∧ srRead s q l 0x023 = t.loop.rrb.zeroExtend 64
        ∧ srRead s q l 0x030 = gr.tagBase &&& BitVec.ofNat 64 (2 ^ gr.kernel.tagWindow - 1)
        ∧ srRead s q l 0x040 = BitVec.ofNat 64 (spGet (fun _ => Channel.zero) gr.chanBase 0).cid
        ∧ srRead s q l 0x041 = BitVec.ofNat 64 (spGet (fun _ => Channel.zero) gr.chanBase 1).cid
        ∧ srRead s q l 0x042 = BitVec.ofNat 64 (spGet (fun _ => Channel.zero) gr.chanBase 2).cid
        ∧ srRead s q l 0x043 = BitVec.ofNat 64 (spGet (fun _ => Channel.zero) gr.chanBase 3).cid
        ∧ srRead s q l 0x044 = BitVec.ofNat 64 (spGet (fun _ => Channel.zero) gr.chanBase 0).cdone
        ∧ srRead s q l 0x045 = BitVec.ofNat 64 (spGet (fun _ => Channel.zero) gr.chanBase 1).cdone
        ∧ srRead s q l 0x046 = BitVec.ofNat 64 (spGet (fun _ => Channel.zero) gr.chanBase 2).cdone
        ∧ srRead s q l 0x047 = BitVec.ofNat 64 (spGet (fun _ => Channel.zero) gr.chanBase 3).cdone
        ∧ srRead s q l 0x050 = t.status.zeroExtend 64
        ∧ srRead s q l 0x051 = gr.smask.zeroExtend 64
        ∧ srRead s q l 0x052 = t.amax.zeroExtend 64
        ∧ srRead s q l 0x053 = t.satcnt.zeroExtend 64
        ∧ srRead s q l 0x054 = t.rctr
        ∧ srRead s q l 0x060 = BitVec.ofNat 64 t.entries.length
        ∧ srRead s q l 0x061 = BitVec.ofNat 64 t.frame.size
        ∧ srRead s q l 0x062 = BitVec.ofNat 64 (256 - s.blocksHeld q.core l.1)
        ∧ srRead s q l 0x070 = (s.core q.core).binovf
        ∧ srRead s q l 0x071 = BitVec.ofNat 64 ((if gr.swap.isSome then 2 else 0) + (if gr.dbank then 1 else 0))
        ∧ srRead s q l 0x072 = (if gr.pbank then 1 else 0)
        ∧ srRead s q l 0x073 = BitVec.ofNat 64 gr.stats.length
        ∧ srRead s q l 0x080 = BitVec.ofNat 64 (leNat ((List.range 8).map (fun k => (spGet (fun _ => TableMap.unmapped) gr.tmap k).byte))))
    ∧ (∀ (t : Thread) (v : QWord),
        t.land (.sr 0x020) v = { t with loop := { t.loop with lc0 := v.truncate 64 |>.truncate 32 } }
        ∧ t.land (.sr 0x021) v = { t with loop := { t.loop with lc1 := v.truncate 64 |>.truncate 32 } }
        ∧ t.land (.sr 0x022) v = { t with loop := { t.loop with ec := v.truncate 64 |>.truncate 8 } }
        ∧ t.land (.sr 0x050) v = { t with status := v.truncate 64 |>.truncate 8 }
        ∧ t.land (.sr 0x052) v = { t with amax := (v.truncate 64).truncate 33 &&& 0x17FFFFFFF }
        ∧ t.land (.sr 0x053) v = { t with satcnt := v.truncate 64 |>.truncate 32 }
        ∧ t.land (.sr 0x054) v = { t with rctr := v.truncate 64 })
    ∧ ∀ (k : Nat) (u : Nat × QWord),
        s.landOne k (.sr 0x051) u = s.modGroup k (fun gr => { gr with smask := u.2.truncate 8 })

/-- SEMSET makes a write of the core's order that sets the semaphore to xa of the leader lane, read as signed; SEMADD
one that adds the exact sum of xa over the passing lanes, read as signed. Without a passing lane neither does
anything. The write acts in its issue step when no fence of a passing lane, no release that they follow and no earlier
semaphore write of the group stands before it, and else is pending (log entry 8); it changes no byte of memory, no
thread and no other group. When it acts, it takes its place among the updates of the core's cycle in the order of R27,
and the counts are those at the start of the cycle with every update applied in turn: a set gives the value clamped to
0 to 0xFFFF, an addition the clamped sum, and one above 0xFFFF sets the saturation condition; no other semaphore
changes. SEMWAIT issues, and changes nothing, once the count at the start of the cycle is at least the clamped xa of
the leader lane or no lane passes, and otherwise holds its run. -/
def Obligations.SemaphoreSlots : Prop :=
  ∀ (s : State) (q : Issue) (n : BitVec 8) (a : BitVec 4) (g : Guard), s.issue = some q →
    let clamp := fun (v : Int) => (max 0 (min v 65535)).toNat
    let tks := (participants s q g).map (fun l => l.2)
    let sum := ((participants s q g).map (fun l => (xOf s l a).toInt)).sum
    let rank := fun (set : Bool) => (if set then 1 else 3) + (if q.cur = 1 then 0 else 1)
    exec (.semset n a g) s = .next (match leader s q g with
        | none => s
        | some tk => s.storeSem q.core q.group tks ⟨rank true, n.toNat, true, ((s.thread tk).readX a.toNat).toInt⟩)
    ∧ exec (.semadd n a g) s = .next (if participants s q g = [] then s
        else s.storeSem q.core q.group tks ⟨rank false, n.toNat, false, sum⟩)
    ∧ (∀ o : SemOp,
        let rel := tks.foldl (fun r tk => r.join (s.thread tk).rel) Rels.zero
        let w : PendWrite := ⟨s.ids, (s.core q.core).seq, tks.head?.getD 0, 0, .sem o q.group, rel, .nc, 0⟩
        let z := s.push q.core w.thread 0 .nc rel w.act
        let t := s.storeSem q.core q.group tks o
        (z.writeReady q.core w = true → t.groups = (s.modGroup q.group (fun gr => gr.semWrite o)).groups)
        ∧ (z.writeReady q.core w = false → t.groups = s.groups ∧ (t.core q.core).writes = (s.core q.core).writes ++ [w])
        ∧ t.mem = s.mem ∧ t.scr = s.scr ∧ t.threads = s.threads)
    ∧ (∀ (gr : Group) (o : SemOp), let ops := (gr.semWrite o).semOps
        gr.semWrite o = ops.foldl Group.semOp { gr with sems := gr.semBase, semSat := gr.satBase, semOps := ops }
        ∧ ∃ l r, gr.semOps = l ++ r ∧ ops = l ++ o :: r ∧ (∀ p ∈ l, p.rank ≤ o.rank)
          ∧ (∀ p, r.head? = some p → o.rank < p.rank))
    ∧ (∀ (gr : Group) (o : SemOp) (k : Nat), ((gr.semOp o).sem k).toNat
          = (if k = o.sem then clamp (if o.set then o.v else (gr.sem k).toNat + o.v) else (gr.sem k).toNat)
        ∧ (gr.semOp o).semSat = (gr.semSat || (!o.set && decide (65535 < ((gr.sem o.sem).toNat : Int) + o.v)))
        ∧ (gr.semOp o).semOps = gr.semOps)
    ∧ ((q.cleared = true ∨ ∀ tk, leader s q g = some tk →
          clamp ((s.thread tk).readX a.toNat).toInt ≤ ((s.group q.group).semStart n.toNat).toNat) →
        exec (.semwait n a g) s = .next s)
    ∧ (∀ tk, q.cleared = false → leader s q g = some tk →
        ((s.group q.group).semStart n.toNat).toNat < clamp ((s.thread tk).readX a.toNat).toInt →
        exec (.semwait n a g) s
          = .next (s.hold q.run (.semwait n.toNat (clamp ((s.thread tk).readX a.toNat).toInt))))

/-- The tags are those at the start of the core's cycle. With m the bits of the leader lane's xa within the tag
window: TAGWA issues, and changes nothing, once every tag of m is set, TAGWL once one is set or m is empty, and each
holds its run otherwise, with the tags of m and which of the two waits they name; without a passing lane both issue.
TAGFF writes in every passing lane, at latency 1, the lowest tag number of the window that is set in both the lane's
xa and %tags, or 64. -/
def Obligations.CopyTagSlots : Prop :=
  ∀ (s : State) (q : Issue) (d a : BitVec 4) (g : Guard), s.issue = some q →
    let tags := (s.group q.group).tagBase
    let win := (s.group q.group).kernel.tagWindow
    let m := fun (tk k : Nat) => decide (k < win) && ((s.thread tk).readX a.toNat).getLsbD k
    ((q.cleared = true ∨ ∀ tk, leader s q g = some tk → ∀ k, m tk k = true → tags.getLsbD k = true) →
      exec (.tagwa a g) s = .next s)
    ∧ (∀ tk k, q.cleared = false → leader s q g = some tk → m tk k = true → tags.getLsbD k = false →
      exec (.tagwa a g) s = .next (s.hold q.run (.tag true ((s.thread tk).readX a.toNat &&& lowMask win))))
    ∧ ((q.cleared = true ∨ ∀ tk, leader s q g = some tk → (∀ k, m tk k = false) ∨ ∃ k, m tk k = true ∧ tags.getLsbD k = true) →
      exec (.tagwl a g) s = .next s)
    ∧ (∀ tk k, q.cleared = false → leader s q g = some tk → m tk k = true → (∀ j, m tk j = true → tags.getLsbD j = false) →
      exec (.tagwl a g) s = .next (s.hold q.run (.tag false ((s.thread tk).readX a.toNat &&& lowMask win))))
    ∧ ∃ n : Nat × Nat → Nat, exec (.tagff d a g) s = .next (s.flyX q g 1 d (fun l => BitVec.ofNat 64 (n l)))
        ∧ ∀ l, n l ≤ 64
            ∧ (∀ k, k < n l → (m l.2 k && tags.getLsbD k) = false)
            ∧ (n l < 64 → (m l.2 (n l) && tags.getLsbD (n l)) = true)

/-- With a passing lane: TSEL maps the logical table to bits [7:0] of the leader lane's xa, drops an armed identity
check and records the mapping as unusable when the slot lies outside the tenant's partition, 0xFF being unmapped;
PSWAP flips the active pattern bank; FTSET writes the format-table entry with the codes xa[4:0] and xa[12:8] of the
leader lane. SQRD writes word w of the oldest record, or 0 when there is none, to xd in every passing lane at latency
1, and w = 7 removes the record. Without a passing lane they change nothing, but for SQRD's empty result. Nothing else
of the group or the machine changes. -/
def Obligations.GroupSettingSlots : Prop :=
  ∀ (s : State) (q : Issue) (tb : BitVec 3) (ft d a : BitVec 4) (w : BitVec 3) (g : Guard), s.issue = some q →
    (leader s q g = none → exec (.tsel tb a g) s = .next s ∧ exec (.pswap g) s = .next s
        ∧ exec (.ftset ft a g) s = .next s)
    ∧ (∀ tk, leader s q g = some tk →
        let v := (s.thread tk).readX a.toNat
        let gr := s.group q.group
        let byte : Byte := v.truncate 8
        exec (.tsel tb a g) s = .next (s.modGroup q.group (fun _ => gr.setTable tb.toNat
            ⟨byte, byte != 0xFF && (decide (15 < byte.toNat)
              || ((s.core q.core).slot byte.toNat).owner != some gr.tenant), none⟩))
        ∧ exec (.pswap g) s = .next (s.modGroup q.group (fun _ => { gr with pbank := !gr.pbank }))
        ∧ exec (.ftset ft a g) s = .next (s.modGroup q.group (fun _ =>
            { gr with fmt := spSet (fun _ => (0, 0)) gr.fmt ft.toNat (v.extractLsb' 0 5, v.extractLsb' 8 5) })))
    ∧ (let z := s.flyX q g 1 d (fun _ => ((s.group q.group).stats.headD []).getD w.toNat 0)
       exec (.sqrd d w g) s = .next (if w = 7 ∧ (leader s q g).isSome then
          z.modGroup q.group (fun gr => { gr with stats := gr.stats.drop 1 }) else z))

/-- With w and the signedness that TYPE gives, VADD, VSUB, VMUL, VMULH, VMAD, VMIN, VMAX and VABS write to each
element of vd of each participant the exact value of the elements of va, of source b (vb, or IMM8 sign-extended and
replicated) and of vd as they stand at issue, wrapped to w bits or, with SAT, saturated (narrow); VDOT4 adds to the
32-bit accumulator vd the four products of bytes. Multiplies land at latency 4, the others at 2. They complete when no
participant names a register beyond its frame; nothing else changes. -/
def Obligations.VectorElementArithmetic : Prop :=
  ∀ (s : State) (q : Issue) (o : AOp), s.issue = some q →
    let C := fun (i : Instr) (t : State) => Unbarred q (frameCond s q i) → exec i s = .next t
    let w := typeWidth o.ty.toNat
    let sg := typeSigned o.ty.toNat
    let V := fun (l : Nat × Nat) (r : BitVec 8) (n j : Nat) => elemVal sg n (elemAt (vOf s l r) n j)
    let b := fun (l : Nat × Nat) (n : Nat) => srcWord s l n o.b
    let E := fun (l : Nat × Nat) (f : Int → Int → Int → Int) =>
      fromElems w (fun j => narrow o.sat sg w (f (V l o.va w j) (elemVal sg w (elemAt (b l w) w j)) (V l o.vd w j)))
    C (.vadd o) (s.flyV q o.g 2 o.vd.toNat (fun l => E l (fun a b c => a + b)))
    ∧ C (.vsub o) (s.flyV q o.g 2 o.vd.toNat (fun l => E l (fun a b c => a - b)))
    ∧ C (.vmul o) (s.flyV q o.g 4 o.vd.toNat (fun l => E l (fun a b c => a * b)))
    ∧ C (.vmulh o) (s.flyV q o.g 4 o.vd.toNat (fun l => E l (fun a b c => a * b / 2 ^ w)))
    ∧ C (.vmad o) (s.flyV q o.g 4 o.vd.toNat (fun l => E l (fun a b c => c + a * b)))
    ∧ C (.vmin o) (s.flyV q o.g 2 o.vd.toNat (fun l => E l (fun a b c => min a b)))
    ∧ C (.vmax o) (s.flyV q o.g 2 o.vd.toNat (fun l => E l (fun a b c => max a b)))
    ∧ C (.vabs o) (s.flyV q o.g 2 o.vd.toNat (fun l => E l (fun a b c => max a (-a))))
    ∧ C (.vdot4 o) (s.flyV q o.g 4 o.vd.toNat (fun l => BitVec.ofNat 32 (narrow o.sat sg 32 (elemVal sg 32 (vOf s l o.vd).toNat
        + (V l o.va 8 0 * elemVal sg 8 (elemAt (b l 8) 8 0) + V l o.va 8 1 * elemVal sg 8 (elemAt (b l 8) 8 1)
          + V l o.va 8 2 * elemVal sg 8 (elemAt (b l 8) 8 2) + V l o.va 8 3 * elemVal sg 8 (elemAt (b l 8) 8 3))))))

/-- For each element width w of 1, 8, 16 and 32 bits, element j of the word built from elements is the value given for
j, cut to w bits. Narrowing without SAT gives the value modulo 2^w, and with SAT the nearest value of the element
type, so that reading it back with the type's signedness gives the clamped value. -/
def Obligations.PackedElementsAreSeparate : Prop :=
  (∀ (w j : Nat) (f : Nat → Nat), w ∈ [1, 8, 16, 32] → j < 32 / w → elemAt (fromElems w f) w j = f j % 2 ^ w)
  ∧ ∀ (sat sg : Bool) (w : Nat) (t : Int), w ∈ [8, 16, 32] →
      let lo : Int := if sg then -(2 ^ (w - 1)) else 0
      let hi : Int := if sg then 2 ^ (w - 1) - 1 else 2 ^ w - 1
      narrow sat sg w t < 2 ^ w
      ∧ (sat = true → elemVal sg w (narrow sat sg w t) = max lo (min hi t))
      ∧ (sat = false → (elemVal sg w (narrow sat sg w t) - t) % 2 ^ w = 0)
      ∧ lo ≤ elemVal sg w (narrow sat sg w t) ∧ elemVal sg w (narrow sat sg w t) ≤ hi

/-- VAND, VOR, VXOR and VANDN write the bitwise results of va and source b; VSHL and VSHR shift each element of va by
raw(b) modulo the element width, or by IMM8, VSHR arithmetically for signed types; VCLZ and VPOPC count leading zeros
and ones of each element; VMOV copies va, or writes IMM8 sign-extended and replicated. All land at latency 2 in the
participants, and complete when no participant names a register beyond its frame. -/
def Obligations.VectorBitSlots : Prop :=
  ∀ (s : State) (q : Issue) (o : AOp), s.issue = some q →
    let C := fun (i : Instr) (t : State) => Unbarred q (frameCond s q i) → exec i s = .next t
    let w := typeWidth o.ty.toNat
    let sg := typeSigned o.ty.toNat
    let b := fun (l : Nat × Nat) => srcWord s l w o.b
    let raw := fun (l : Nat × Nat) (j : Nat) => elemAt (vOf s l o.va) w j
    let n := fun (l : Nat × Nat) (j : Nat) => match o.b with
      | .reg r => elemAt (vOf s l r) w j % w
      | .imm i => i.toNat
    C (.vand o) (s.flyV q o.g 2 o.vd.toNat (fun l => vOf s l o.va &&& b l))
    ∧ C (.vor o) (s.flyV q o.g 2 o.vd.toNat (fun l => vOf s l o.va ||| b l))
    ∧ C (.vxor o) (s.flyV q o.g 2 o.vd.toNat (fun l => vOf s l o.va ^^^ b l))
    ∧ C (.vandn o) (s.flyV q o.g 2 o.vd.toNat (fun l => vOf s l o.va &&& ~~~(b l)))
    ∧ C (.vshl o) (s.flyV q o.g 2 o.vd.toNat (fun l => fromElems w (fun j => raw l j * 2 ^ n l j)))
    ∧ C (.vshr o) (s.flyV q o.g 2 o.vd.toNat (fun l =>
        fromElems w (fun j => (elemVal sg w (raw l j) / 2 ^ n l j % 2 ^ w).toNat)))
    ∧ C (.vclz o) (s.flyV q o.g 2 o.vd.toNat (fun l =>
        fromElems w (fun j => leadingZeros (BitVec.ofNat 32 (raw l j)) w)))
    ∧ C (.vpopc o) (s.flyV q o.g 2 o.vd.toNat (fun l =>
        fromElems w (fun j => countOnes (BitVec.ofNat 32 (raw l j)) w)))
    ∧ C (.vmov o) (s.flyV q o.g 2 o.vd.toNat (fun l => match o.b with
        | .reg _ => vOf s l o.va
        | .imm i => fromElems w (fun _ => (i.signExtend 32).toNat)))

/-- For an integer TYPE, VCMPEQ, VCMPNE, VCMPLT and VCMPLE write to the predicate of each participant whether the
relation holds between va and source b for every element. For .f32 they compare the two numbers, -0 equal to +0; a NaN
makes EQ, LT and LE false and NE true, and sets invalid for LT and LE, while EQ and NE set it for a signalling NaN
only. They land at latency 2 and complete when no participant names a register beyond its frame. -/
def Obligations.VectorCompareSlots : Prop :=
  ∀ (s : State) (q : Issue) (o : QOp), s.issue = some q →
    let C := fun (i : Instr) (t : State) => Unbarred q (frameCond s q i) → exec i s = .next t
    let w := typeWidth o.ty.toNat
    let sg := typeSigned o.ty.toNat
    let a := fun (l : Nat × Nat) (j : Nat) => elemVal sg w (elemAt (vOf s l o.va) w j)
    let b := fun (l : Nat × Nat) (j : Nat) => elemVal sg w (elemAt (srcWord s l w o.b) w j)
    let x := fun (l : Nat × Nat) => dec fmtFp32 (vOf s l o.va).toNat
    let y := fun (l : Nat × Nat) => dec fmtFp32 (srcWord s l 32 o.b).toNat
    C (.vcmpeq o) (if o.ty = 6 then
        (s.flyP q o.g 2 o.pd (fun l => numEq (x l) (y l))).flyStatus q o.g 2 (fun l => if (x l).isSnan || (y l).isSnan then flagNV else flagNone)
      else s.flyP q o.g 2 o.pd (fun l => (List.range (32 / w)).all (fun j => decide (a l j = b l j))))
    ∧ C (.vcmpne o) (if o.ty = 6 then
        (s.flyP q o.g 2 o.pd (fun l => !numEq (x l) (y l))).flyStatus q o.g 2 (fun l => if (x l).isSnan || (y l).isSnan then flagNV else flagNone)
      else s.flyP q o.g 2 o.pd (fun l => (List.range (32 / w)).all (fun j => decide (a l j ≠ b l j))))
    ∧ C (.vcmplt o) (if o.ty = 6 then
        (s.flyP q o.g 2 o.pd (fun l => numLt (x l) (y l))).flyStatus q o.g 2 (fun l => if (x l).isNan || (y l).isNan then flagNV else flagNone)
      else s.flyP q o.g 2 o.pd (fun l => (List.range (32 / w)).all (fun j => decide (a l j < b l j))))
    ∧ C (.vcmple o) (if o.ty = 6 then
        (s.flyP q o.g 2 o.pd (fun l => numLt (x l) (y l) || numEq (x l) (y l))).flyStatus q o.g 2 (fun l => if (x l).isNan || (y l).isNan then flagNV else flagNone)
      else s.flyP q o.g 2 o.pd (fun l => (List.range (32 / w)).all (fun j => decide (a l j ≤ b l j))))
    ∧ (∀ u v : Machine.Num, u.isNan || v.isNan → numEq u v = false ∧ numLt u v = false)
    ∧ numEq (dec fmtFp32 0x80000000) (dec fmtFp32 0) = true

/-- In each participant VSEL writes vd with va when the selecting predicate, as it stands at issue and with p0 read as
1, differs from the sense bit, and with vb otherwise, at latency 2; it completes when no participant names a register
beyond its frame. -/
def Obligations.VselWritesTheChosenSource : Prop :=
  ∀ (s : State) (q : Issue) (vd va vb : BitVec 8) (n : BitVec 4) (sense : Bool) (g : Guard), s.issue = some q →
    Unbarred q (frameCond s q (.vsel vd n sense va vb g)) →
    exec (.vsel vd n sense va vb g) s = .next (s.flyV q g 2 vd.toNat (fun l =>
      if ((if n = 0 then true else (s.thread l.2).p.getLsbD n.toNat) ^^ sense) = true then vOf s l va else vOf s l vb))

/-- In each participant VFADD, VFSUB, VFMUL and VFMA write to vd the exact sum, difference, product, or product of va
and vb plus vd as it stands at issue, rounded once under RND to FP32 without saturation, and VFMIN and VFMAX
minimumNumber and maximumNumber; VFABS and VFNEG clear or flip the sign of va, and deliver the canonical NaN for a NaN
without any status bit. The status bits raised are ORed into %status with the result, at latency 4. They complete when
no participant names a register beyond its frame; nothing else changes. -/
def Obligations.FloatSlots : Prop :=
  ∀ (s : State) (q : Issue) (o : FOp) (vd va : BitVec 8) (g : Guard), s.issue = some q →
    let C := fun (i : Instr) (t : State) => Unbarred q (frameCond s q i) → exec i s = .next t
    let m := modeOf o.rnd
    let W := fun (l : Nat × Nat) (f : Nat → Nat → Nat → Nat × Flags) =>
      (BitVec.ofNat 32 (f (vOf s l o.va).toNat (vOf s l o.vb).toNat (vOf s l o.vd).toNat).1,
        (f (vOf s l o.va).toNat (vOf s l o.vb).toNat (vOf s l o.vd).toNat).2)
    let nan := fun (l : Nat × Nat) => (dec fmtFp32 (vOf s l va).toNat).isNan
    C (.vfadd o) (s.flyVF q o.g 4 o.vd.toNat (fun l => W l (fun a b c => fpAdd fmtFp32 m a b)))
    ∧ C (.vfsub o) (s.flyVF q o.g 4 o.vd.toNat (fun l => W l (fun a b c => fpSub fmtFp32 m a b)))
    ∧ C (.vfmul o) (s.flyVF q o.g 4 o.vd.toNat (fun l => W l (fun a b c => fpMul fmtFp32 m a b)))
    ∧ C (.vfma o) (s.flyVF q o.g 4 o.vd.toNat (fun l => W l (fun a b c => fpFma fmtFp32 m a b c)))
    ∧ C (.vfmin o) (s.flyVF q o.g 4 o.vd.toNat (fun l => W l (fun a b c => fpMin fmtFp32 a b)))
    ∧ C (.vfmax o) (s.flyVF q o.g 4 o.vd.toNat (fun l => W l (fun a b c => fpMax fmtFp32 a b)))
    ∧ C (.vfabs vd va g) (s.flyV q g 4 vd.toNat (fun l => if nan l then 0x7FC00000 else vOf s l va &&& 0x7FFFFFFF))
    ∧ C (.vfneg vd va g) (s.flyV q g 4 vd.toNat (fun l => if nan l then 0x7FC00000 else vOf s l va ^^^ 0x80000000))

/-- In each participant VHADD, VHSUB, VHMUL and VHFMA act on both FP16 halves of the lane, VBADD, VBSUB, VBMUL and
VBFMA on both BF16 halves: each half of vd takes the exact result of the halves of va, vb and, for the multiply-adds,
vd as it stands at issue, rounded once under RND without saturation; the status bits of both halves are ORed. They
land at latency 4 and complete when no participant names a register beyond its frame. -/
def Obligations.HalfSlots : Prop :=
  ∀ (s : State) (q : Issue) (o : FOp), s.issue = some q →
    let C := fun (i : Instr) (t : State) => Unbarred q (frameCond s q i) → exec i s = .next t
    let m := modeOf o.rnd
    let H := fun (l : Nat × Nat) (f : Nat → Nat → Nat → Nat × Flags) (j : Nat) =>
      f (elemAt (vOf s l o.va) 16 j) (elemAt (vOf s l o.vb) 16 j) (elemAt (vOf s l o.vd) 16 j)
    let W := fun (l : Nat × Nat) (f : Nat → Nat → Nat → Nat × Flags) =>
      (fromElems 16 (fun j => (H l f j).1), (H l f 0).2 ||| (H l f 1).2)
    C (.vhadd o) (s.flyVF q o.g 4 o.vd.toNat (fun l => W l (fun a b c => fpAdd fmtFp16 m a b)))
    ∧ C (.vhsub o) (s.flyVF q o.g 4 o.vd.toNat (fun l => W l (fun a b c => fpSub fmtFp16 m a b)))
    ∧ C (.vhmul o) (s.flyVF q o.g 4 o.vd.toNat (fun l => W l (fun a b c => fpMul fmtFp16 m a b)))
    ∧ C (.vhfma o) (s.flyVF q o.g 4 o.vd.toNat (fun l => W l (fun a b c => fpFma fmtFp16 m a b c)))
    ∧ C (.vbadd o) (s.flyVF q o.g 4 o.vd.toNat (fun l => W l (fun a b c => fpAdd fmtBf16 m a b)))
    ∧ C (.vbsub o) (s.flyVF q o.g 4 o.vd.toNat (fun l => W l (fun a b c => fpSub fmtBf16 m a b)))
    ∧ C (.vbmul o) (s.flyVF q o.g 4 o.vd.toNat (fun l => W l (fun a b c => fpMul fmtBf16 m a b)))
    ∧ C (.vbfma o) (s.flyVF q o.g 4 o.vd.toNat (fun l => W l (fun a b c => fpFma fmtBf16 m a b c)))

/-- Rounding the magnitude m * 2^e (m not 0) into a format with a sign gives k * 2^qe with quantum qe, which is at
least the format's smallest quantum. When qe is above e, with d = qe - e: k is floor(m / 2^d) or one more, k is exact
exactly when the result is not inexact, RZ keeps the floor, RD and RU take the neighbour toward their infinity, and
RNE takes the nearer one and the even one on a tie. -/
def Obligations.RoundingPicksTheNeighbourOfItsMode : Prop :=
  ∀ (f : Fmt) (mode : Mode) (neg : Bool) (m : Nat) (e : Int), f.isE8m0 = false → m ≠ 0 →
    let r := rndMag f mode neg m e
    let k := r.1
    let d := (r.2.1 - e).toNat
    r.2.1 = max ((Nat.log2 m : Int) + e) f.emin - f.prec + 1
    ∧ (r.2.1 ≤ e → k = m * 2 ^ (e - r.2.1).toNat ∧ r.2.2 = false)
    ∧ (e < r.2.1 →
        (r.2.2 = false ↔ k * 2 ^ d = m)
        ∧ (k = m / 2 ^ d ∨ k = m / 2 ^ d + 1)
        ∧ (mode = .rz → k = m / 2 ^ d)
        ∧ (mode = .rd → k = if neg ∧ m % 2 ^ d ≠ 0 then m / 2 ^ d + 1 else m / 2 ^ d)
        ∧ (mode = .ru → k = if ¬ neg ∧ m % 2 ^ d ≠ 0 then m / 2 ^ d + 1 else m / 2 ^ d)
        ∧ (mode = .rne → 2 * (m % 2 ^ d) < 2 ^ d → k = m / 2 ^ d)
        ∧ (mode = .rne → 2 ^ d < 2 * (m % 2 ^ d) → k = m / 2 ^ d + 1)
        ∧ (mode = .rne → 2 * (m % 2 ^ d) = 2 ^ d → k % 2 = 0))

/-- In each participant VCVTF and VCVTS write to the named element of vd the encoding of va in the destination format,
under RND or under stochastic rounding with the lane's draw, keep every other bit of vd, and, with .amx, update AMAX
and SATCNT of the lane at once; VCVTS also advances the lane's RCTR. VCVTX writes FP32 of the named element of va
under RNE; VFTOI, VITOF and VCVTH write the integer of va, FP32 of the integer va, and the pair of 16-bit encodings of
va and vb. Status bits come with the result at latency 4; all complete when no participant names a register beyond its
frame. -/
def Obligations.ConversionSlots : Prop :=
  ∀ (s : State) (q : Issue) (o : CvtOp) (rnd : BitVec 2) (vd va vb : BitVec 8) (fmt : BitVec 5) (pos : BitVec 3)
    (u sat bf : Bool) (g : Guard), s.issue = some q →
    let C := fun (i : Instr) (t : State) => Unbarred q (frameCond s q i) → exec i s = .next t
    let X := fun (l : Nat × Nat) (r : BitVec 8) => dec fmtFp32 (vOf s l r).toNat
    let N := fun (mode : Nat × Nat → Mode) (step : Thread → Thread) =>
      let f := cvtFmt o.fmt
      let z := fun (l : Nat × Nat) => enc f (X l o.va) (mode l) o.sat
      (participants s q o.g).foldl (fun s' l => s'.modThread l.2 (fun t =>
          step (if o.amx then { t with amax := amaxUpdate t.amax (vOf s l o.va),
                                       satcnt := if (z l).range ∧ t.satcnt ≠ 0xFFFFFFFF then t.satcnt + 1 else t.satcnt }
                else t)))
        (s.flyVF q o.g 4 o.vd.toNat (fun l =>
          (insertElem (vOf s l o.vd) f.width o.pos.toNat (z l).bits, (z l).flags)))
    C (.vcvtf o rnd) (N (fun _ => modeOf rnd) id)
    ∧ C (.vcvts o) (N (fun l => .sr (srDraw s q l)) (fun t => { t with rctr := t.rctr + 1 }))
    ∧ C (.vcvtx vd va fmt pos g) (s.flyVF q g 4 vd.toNat (fun l =>
        let z := enc fmtFp32 (dec (cvtFmt fmt) (elemAt (vOf s l va) (cvtFmt fmt).width pos.toNat)) .rne false
        (BitVec.ofNat 32 z.bits, z.flags)))
    ∧ C (.vftoi vd va u rnd sat g) (s.flyVF q g 4 vd.toNat (fun l => cvtInt (X l va) u (modeOf rnd) sat))
    ∧ C (.vitof vd va u rnd g) (s.flyVF q g 4 vd.toNat (fun l =>
        let z := enc fmtFp32 (numOfInt (elemVal (!u) 32 (vOf s l va).toNat)) (modeOf rnd) false
        (BitVec.ofNat 32 z.bits, z.flags)))
    ∧ C (.vcvth vd va vb bf rnd sat g) (s.flyVF q g 4 vd.toNat (fun l =>
        let f := if bf then fmtBf16 else fmtFp16
        let z0 := enc f (X l va) (modeOf rnd) sat
        let z1 := enc f (X l vb) (modeOf rnd) sat
        (BitVec.ofNat 32 (z0.bits + z1.bits * 2 ^ 16), z0.flags ||| z1.flags)))

/-- In each participant VNPS writes to bit n of vd bit 7 - p of byte n mod 4 of register va + floor(n/4), for n = 0 to
31. VNPM sets bit 7 - p of byte n mod 4 of register vd + floor(n/4) to bit n of va and keeps every other bit of the
eight registers. Both land at latency 2 and complete when no participant names a register beyond its frame. -/
def Obligations.PlaneSlots : Prop :=
  ∀ (s : State) (q : Issue) (vd va : BitVec 8) (p : BitVec 3) (g : Guard), s.issue = some q →
    let C := fun (i : Instr) (t : State) => Unbarred q (frameCond s q i) → exec i s = .next t
    ∃ (fs : Nat × Nat → Word) (fm : Nat → Nat × Nat → Word),
      C (.vnps vd va p g) (s.flyV q g 2 vd.toNat fs)
      ∧ C (.vnpm vd va p g) ((List.range 8).foldl (fun z k => z.flyV q g 2 (vd.toNat + k) (fm k)) s)
      ∧ ∀ l : Nat × Nat,
          (∀ n, n < 32 → (fs l).getLsbD n
            = ((s.thread l.2).readV (va.toNat + n / 4)).getLsbD (8 * (n % 4) + (7 - p.toNat)))
          ∧ ∀ k b j, k < 8 → b < 4 → j < 8 → (fm k l).getLsbD (8 * b + j)
            = if j = 7 - p.toNat then (vOf s l va).getLsbD (4 * k + b)
              else ((s.thread l.2).readV (vd.toNat + k)).getLsbD (8 * b + j)

/-- VSHFL gives each participant va of the lane of its sub-group of N that the index names, and VPERM va of the lane
that the active pattern names, or 0 when its bit 7 is set; a source lane that does not participate gives the lane its
own va and sets OWN. VMATCH writes the mask of the participants whose key equals the lane's own, VBALLOT that of the
participants whose predicate is 1 (0 in the inverted form), and VVOTE whether the number of participants with
predicate 1 is at least, at most or equal to the quorum or their number. All read their sources at issue, land at
latency 5 and complete when no participant names a register beyond its frame. -/
def Obligations.LaneExchangeSlots : Prop :=
  ∀ (s : State) (q : Issue) (vd va : BitVec 8) (vb : VSrc) (w : BitVec 3) (pat quorum : BitVec 6) (pd pn : BitVec 4)
    (key : Option (BitVec 5 × BitVec 3)) (inv : Bool) (mode : BitVec 2) (g : Guard), s.issue = some q →
    let C := fun (i : Instr) (t : State) => Unbarred q (frameCond s q i) → exec i s = .next t
    let P := participants s q g
    let from_ := fun (l : Nat × Nat) (src : Nat) => match assoc P src with
      | some tk => ((s.thread tk).readV va.toNat, flagNone)
      | none => (vOf s l va, flagOWN)
    let index := fun (l : Nat × Nat) => match vb with
      | .reg r => (vOf s l r).toNat
      | .imm i => i.toNat
    let k := fun (l : Nat × Nat) => match key with
      | none => (vOf s l va).toNat
      | some (pos, n) => (vOf s l va).toNat / 2 ^ pos.toNat % 2 ^ (4 * (n.toNat + 1))
    let mask := fun (f : Nat × Nat → Bool) => maskOf ((P.filter f).map (fun p => p.1))
    let one := fun (p : Nat × Nat) => (s.thread p.2).readP pn.toNat
    let c := (P.filter one).length
    C (.vshfl vd va vb w g) (s.flyVF q g 5 vd.toNat (fun l =>
        from_ l (l.1 - l.1 % 2 ^ w.toNat + index l % 2 ^ w.toNat)))
    ∧ C (.vperm vd va pat g) (s.flyVF q g 5 vd.toNat (fun l =>
        let e := s.pattern q.core (s.group q.group).pbank pat.toNat l.1
        if e.getLsbD 7 then (0, flagNone) else from_ l (e.toNat % 32)))
    ∧ C (.vmatch vd va key g) (s.flyV q g 5 vd.toNat (fun l => mask (fun p => k p == k l)))
    ∧ C (.vballot vd pn inv g) (s.flyV q g 5 vd.toNat (fun _ => mask (fun p => one p != inv)))
    ∧ C (.vvote pd pn mode quorum g) (s.flyP q g 5 pd (fun _ =>
        if mode = 0 then decide (quorum.toNat ≤ c) else if mode = 1 then decide (c ≤ quorum.toNat)
        else c == P.length))

/-- For each element, VSCAN gives each participant the fold of va over the participants on lower lanes, with its own
unless exclusive, and VRED gives every participant the fold over all of them. A fold of no lanes gives the identity of
the operation and type; otherwise it starts from the first value and applies the operation to each later one in turn
(a lone .f32 value is delivered as it stands, a NaN as the canonical NaN): wrapping addition, or the minimum or
maximum of the type; for .f32 addition under RNE, minimumNumber and maximumNumber. Each lane ORs in the status bits of
its own fold. They land at latency 5 and complete when no participant names a register beyond its frame. -/
def Obligations.ScanAndReduceSlots : Prop :=
  ∀ (s : State) (q : Issue) (vd va : BitVec 8) (op : BitVec 2) (excl : Bool) (ty : BitVec 3) (g : Guard), s.issue = some q →
    let C := fun (i : Instr) (t : State) => Unbarred q (frameCond s q i) → exec i s = .next t
    let P := participants s q g
    let w := typeWidth ty.toNat
    let sg := typeSigned ty.toNat
    let step := fun (a b : Nat) =>
      if ty = 6 then (if op = 0 then fpAdd fmtFp32 .rne a b else if op = 1 then fpMin fmtFp32 a b else fpMax fmtFp32 a b)
      else if op = 0 then ((a + b) % 2 ^ w, flagNone)
      else if op = 1 then (if elemVal sg w b < elemVal sg w a then b else a, flagNone)
      else (if elemVal sg w b < elemVal sg w a then a else b, flagNone)
    let F := fun (S : List Nat) => match S with
      | [] => (foldIdentity op.toNat ty.toNat, flagNone)
      | [x] => (if ty = 6 ∧ (dec fmtFp32 x).isNan = true then 0x7FC00000 else x, flagNone)
      | x :: xs => xs.foldl (fun a y => ((step a.1 y).1, a.2 ||| (step a.1 y).2)) (x, flagNone)
    let fold := fun (ls : List (Nat × Nat)) =>
      let r := fun (j : Nat) => F (ls.map (fun p => elemAt (vOf s p va) w j))
      (fromElems w (fun j => (r j).1), (List.range (32 / w)).foldl (fun f j => f ||| (r j).2) flagNone)
    (op ≠ 3 → C (.vscan vd va op excl ty g) (s.flyVF q g 5 vd.toNat (fun l =>
        fold (P.filter (fun p => decide (p.1 < l.1) || (!excl && p.1 == l.1))))))
    ∧ (op ≠ 3 → C (.vred vd va op ty g) (s.flyVF q g 5 vd.toNat (fun _ => fold P)))
    ∧ foldIdentity 0 ty.toNat = 0
    ∧ foldIdentity 1 6 = 0x7F800000 ∧ foldIdentity 2 6 = 0xFF800000
    ∧ (ty.toNat ≤ 5 → foldIdentity 1 ty.toNat = (if sg then 2 ^ (w - 1) - 1 else 2 ^ w - 1)
        ∧ foldIdentity 2 ty.toNat = (if sg then 2 ^ (w - 1) else 0))

/-- VBCAST writes to vd of each participant va of lane n as it stands at issue, or the lane's own va when lane n is
not a participant, at latency 5, and sets no status bit; it completes when no participant names a register beyond its
frame. -/
def Obligations.VbcastSendsOneLane : Prop :=
  ∀ (s : State) (q : Issue) (vd va : BitVec 8) (n : BitVec 5) (g : Guard), s.issue = some q →
    Unbarred q (frameCond s q (.vbcast vd va n g)) →
    exec (.vbcast vd va n g) s = .next (s.flyV q g 5 vd.toNat (fun l =>
      match assoc (participants s q g) n.toNat with
      | some tk => (s.thread tk).readV va.toNat
      | none => vOf s l va))

/-- In each participant VXTOV writes to vd the low or the high word of x register xa, and VVTOX writes to xd the word
va sign-extended or zero-extended; a write to x0 is discarded (flyX). Both land at latency 2 and complete when no
participant names a register beyond its frame. -/
def Obligations.MoveSlots : Prop :=
  ∀ (s : State) (q : Issue) (v : BitVec 8) (x : BitVec 4) (b : Bool) (g : Guard), s.issue = some q →
    let C := fun (i : Instr) (t : State) => Unbarred q (frameCond s q i) → exec i s = .next t
    C (.vxtov v x b g) (s.flyV q g 2 v.toNat (fun l => (xOf s l x).extractLsb' (if b then 32 else 0) 32))
    ∧ C (.vvtox x v b g) (s.flyX q g 2 x (fun l => if b then (vOf s l v).zeroExtend 64 else (vOf s l v).signExtend 64))
    ∧ ∀ f, s.flyX q g 2 0 f = s

/-- With the tile's token in state V, no register beyond a frame named: VACCRD writes to vd of each participant, at
latency 5, the element of row va[5:0] and column 32 x half + lane, and VACCWR writes vb of each participant to that
element at issue, in ascending lanes, and nothing else of the tile. With the token in state M and a participant, both
are token fault 0x0A; in state MV they hold their run. TOKV with a participant takes a tile in state M to V, or to MV
while a matrix command of the group on the tile is outstanding, and leaves MV and V; TOKM takes any state to M. The
elements do not change. -/
def Obligations.TileSlots : Prop :=
  ∀ (s : State) (q : Issue) (vd row data : BitVec 8) (tile : BitVec 3) (half : Bool) (g : Guard), s.issue = some q →
    let T := (s.group q.group).tile tile.toNat
    let at_ := fun (l : Nat × Nat) => 64 * ((vOf s l row).toNat % 64) + (if half then 32 else 0) + l.1
    let P := participants s q g
    let rd := Instr.vaccrd vd tile half row g
    let wr := Instr.vaccwr tile half row data g
    (q.cleared = true ∨ (frameCond s q rd = none ∧ (T.token = .v ∨ P = [])) →
      exec rd s = .next (s.flyV q g 5 vd.toNat (fun l => spGet (fun _ => 0) T.elems (at_ l))))
    ∧ (q.cleared = true ∨ (frameCond s q wr = none ∧ (T.token = .v ∨ P = [])) →
      exec wr s = .next (s.modGroup q.group (fun gr => gr.setTile tile.toNat
        { T with elems := P.foldl (fun m l => spSet (fun _ => 0) m (at_ l) (vOf s l data)) T.elems })))
    ∧ (∀ i ∈ [rd, wr], q.cleared = false → frameCond s q i = none → P ≠ [] →
        (T.token = .m → exec i s = .next (s.takeCond q (Cond.plain q 0x0A 0 q.cur)))
        ∧ (T.token = .mv → exec i s = .next (s.hold q.run (.token tile.toNat))))
    ∧ exec (.tokv tile g) s = .next (if P = [] ∨ T.token ≠ .m then s else s.modGroup q.group (fun gr =>
        gr.setTile tile.toNat { T with token := if s.tileBusy q.group tile.toNat then .mv else .v }))
    ∧ exec (.tokm tile g) s = .next (if P = [] then s else s.modGroup q.group (fun gr =>
        gr.setTile tile.toNat { T with token := .m }))

/-- When no register beyond a frame is named and the logical table resolves to a Ready image (or no lane participates,
or BUNDLE_ISSUE has found every condition absent): FEV writes the table function of va to vd of each participant, with
its status bits, FEV.E2, .L2, .RC, .RS and .PD their reductions, FSEG the clamped key or all ones for a NaN or an
input outside the domain under the gap policy, and FDOM whether x is no NaN, in the domain and in no gap segment. All
land at latency 8. With a participant, the use disarms the identifier check of the table; nothing else changes. A
table that resolves to a fault is table fault 0x0B with its reason, and one that is Loading holds the run. The table
function gives a NaN the canonical NaN, with NV if it signals; outside the domain under the gap policy the gap value
with DOM; in a gap segment the gap value with GAP (a NaN canonical); else three fused steps on the coefficients of the
segment at x minus its origin, with the bits of the four steps. The segment is the key clamped to 0 to n - 1: in bit
mode the bits of x shifted right, less the base, in linear mode x times inv plus koff rounded down; outside the domain
the edge segment. Special inputs of the reductions give what R194 lists, and a reduced evaluation folds the table
value, unless it is the gap value, in one rounding. -/
def Obligations.FunctionSlots : Prop :=
  (∀ (s : State) (q : Issue) (vd va : BitVec 8) (pd : BitVec 4) (tb : BitVec 3) (g : Guard), s.issue = some q →
    let img := s.image q tb
    let x := fun (l : Nat × Nat) => (vOf s l va).toNat
    let P := participants s q g
    let C := fun (i : Instr) (t : State) =>
      (q.cleared = true ∨ (frameCond s q i = none ∧ (P = [] ∨ ∃ im, s.resolve q.group q.core tb.toNat = .ready im)) →
        exec i s = .next (if P = [] then t else t.modGroup q.group (fun gr =>
          gr.setTable tb.toNat { gr.table tb.toNat with armed := none })))
      ∧ (q.cleared = false → frameCond s q i = none → P ≠ [] →
          (∀ n, s.resolve q.group q.core tb.toNat = .loading n → exec i s = .next (s.hold q.run (.table n)))
          ∧ (∀ r, s.resolve q.group q.core tb.toNat = .fault r → ∃ c, c.cause = 0x0B ∧ c.reason = r ∧ c.ident = q.cur
              ∧ exec i s = .next (s.takeCond q c)))
    let E := fun (f : List Byte → Nat → Nat × Flags) =>
      s.flyVF q g 8 vd.toNat (fun l => (BitVec.ofNat 32 (f img (x l)).1, (f img (x l)).2))
    let nan := fun (l : Nat × Nat) => (dec fmtFp32 (x l)).isNan
    C (.fev vd va tb g) (E evPlain)
    ∧ C (.fevE2 vd va tb g) (E evE2)
    ∧ C (.fevL2 vd va tb g) (E evL2)
    ∧ C (.fevRc vd va tb g) (E evRc)
    ∧ C (.fevRs vd va tb g) (E evRs)
    ∧ C (.fevPd vd va tb g) (E evPd)
    ∧ C (.fseg vd va tb g) (s.flyV q g 8 vd.toNat (fun l =>
        if nan l || (!tblIndom img (x l) && tblPolicy img == 1) then 0xFFFFFFFF else BitVec.ofNat 32 (tblSegment img (x l))))
    ∧ C (.fdom pd va tb g) (s.flyP q g 8 pd (fun l => !nan l && tblIndom img (x l) && !segGap img (tblSegment img (x l)))))
  ∧ (∀ (img : List Byte) (x : Nat),
      let F := fun (off : Nat) => natAt img off 4
      let D := fun (b : Nat) => dec fmtFp32 b
      let fma := fun (a b c : Nat) => fpFma fmtFp32 .rne a b c
      let n := natAt img 0 2
      let inD := (numLt (D (F 4)) (D x) || numEq (D (F 4)) (D x)) && (numLt (D x) (D (F 8)) || numEq (D x) (D (F 8)))
      let key : Int := if natAt img 2 1 = 0 then ((x / 2 ^ (F 0x10 % 32) : Nat) : Int) - F 0x14
        else (cvtInt (D (fma x (F 0x10) (F 0x14)).1) false .rd true).1.toInt
      let k : Int := if inD = true then key else if numLt (D x) (D (F 4)) = true then 0 else n - 1
      let seg := (min (max k 0) (n - 1)).toNat
      let S := fun (off : Nat) => F (32 + 32 * seg + off)
      let gap := if (D (F 0xC)).isNan = true then 0x7FC00000 else F 0xC
      let u := fpSub fmtFp32 .rne x (S 0)
      let t2 := fma (S 0x10) u.1 (S 0xC)
      let t1 := fma t2.1 u.1 (S 8)
      let t0 := fma t1.1 u.1 (S 4)
      tblKey img x = key ∧ tblIndom img x = inD ∧ tblSegment img x = seg ∧ segGap img seg = (S 0x14 % 2 == 1)
      ∧ evPlain img x = ((tablefn img x).1, (tablefn img x).2.1)
      ∧ tablefn img x = (if (D x).isNan = true then (0x7FC00000, if (D x).isSnan = true then flagNV else flagNone, false)
          else if inD = false ∧ natAt img 3 1 % 2 = 1 then (gap, flagDOM, true)
          else if S 0x14 % 2 = 1 then (gap, flagGAP, true)
          else (t0.1, u.2 ||| t2.2 ||| t1.2 ||| t0.2, false)))
  ∧ (∀ (img : List Byte) (x : Nat), let N := ((0x7FC00000 : Nat), flagNone)
      (∀ sg, dec fmtFp32 x = .nan sg → evE2 img x = N ∧ evL2 img x = N ∧ evRc img x = N ∧ evRs img x = N ∧ evPd img x = N)
      ∧ (∀ neg, dec fmtFp32 x = .inf neg → evE2 img x = (if neg then 0 else 0x7F800000, flagNone)
          ∧ evL2 img x = (if neg then (0x7FC00000, flagNV) else (0x7F800000, flagNone))
          ∧ evRc img x = (if neg then 0x80000000 else 0, flagNone)
          ∧ evRs img x = (if neg then (0x7FC00000, flagNV) else (0, flagNone)) ∧ evPd img x = (0x7FC00000, flagNV))
      ∧ (∀ neg e, dec fmtFp32 x = .fin neg 0 e → evL2 img x = (0xFF800000, flagNone)
          ∧ evRc img x = (if neg then 0xFF800000 else 0x7F800000, flagNone)
          ∧ evRs img x = (if neg then 0xFF800000 else 0x7F800000, flagNone))
      ∧ (∀ m e, dec fmtFp32 x = .fin true m e → m ≠ 0 → evL2 img x = (0x7FC00000, flagNV) ∧ evRs img x = (0x7FC00000, flagNV))
      ∧ (∀ neg m e, dec fmtFp32 x = .fin neg m e →
          let enc := fun (v : Machine.Num) => numEnc fmtFp32 (v, flagNone) .rne
          let back := fun (y : Nat) (f : Machine.Num → Machine.Num) =>
            let r := tablefn img y
            if r.2.2 then (r.1, r.2.1) else ((enc (f (dec fmtFp32 r.1))).1, r.2.1 ||| (enc (f (dec fmtFp32 r.1))).2)
          let l : Int := Nat.log2 m
          let odd := (l + e) % 2
          (numLt (.fin false 1 8) (.fin neg m e) = true → evE2 img x = (0x7F800000, flagOF ||| flagNX))
          ∧ (numLt (.fin neg m e) (.fin true 1 8) = true → evE2 img x = (0, flagUF ||| flagNX))
          ∧ (numLt (.fin false 1 8) (.fin neg m e) = false → numLt (.fin neg m e) (.fin true 1 8) = false →
              evE2 img x = back (fracOf neg m e (nearest neg m e)) (numScale false (nearest neg m e)))
          ∧ evPd img x = evPlain img (fracOf neg m e (nearest neg m e))
          ∧ (m ≠ 0 → evRc img x = back (enc (.fin false m (-l))).1 (numScale neg (-(l + e)))
            ∧ (neg = false → evRs img x = back (enc (.fin false m (odd - l))).1 (numScale false (-((l + e - odd) / 2)))))))

/-- Resolving a logical table answers, by the first that holds: reason 0 when its byte is 0xFF, reason 1 when it was
recorded unusable or its slot's owner is not the group's tenant, reason 2 for an Empty and 3 for a Failed slot,
Loading for a Loading slot, reason 4 when an armed identifier differs from the image's, and otherwise the image. -/
def Obligations.TableResolution : Prop :=
  ∀ (s : State) (group core tb : Nat),
    let g := s.group group
    let m := g.table tb
    let t := (s.core core).slot m.byte.toNat
    s.resolve group core tb =
      if m.byte = 0xFF then .fault 0
      else if m.unusable = true ∨ t.owner ≠ some g.tenant then .fault 1
      else if t.state = .empty then .fault 2
      else if t.state = .failed then .fault 3
      else if t.state = .loading then .loading m.byte.toNat
      else if ∃ i, m.armed = some i ∧ i ≠ tblIdent t.image then .fault 4
      else .ready t.image

/-- With no frame-bound and no memory condition of the bundle, every load of both spaces completes: it opens, in each
participant, the reads of its size at the effective address, as one access, whose words land in DATA at L_LD of the
kernel, or at latency 5 from the scratchpad, zero- or sign-extended for the forms of 1 and 2 bytes; .A16 forms read
whole. Every store completes: in each participant, in ascending order, it stores the first bytes of DATA on at the
effective address. The effective address is xb plus the offset times the size, plus, in an indexed form, the sign-
extended index register times the size. The hint of the slot goes with each access. A slot without a participant does
nothing. -/
def Obligations.LoadStoreSlots : Prop :=
  ∀ (s : State) (q : Issue) (o : MOp), s.issue = some q →
    let C := fun (i : Instr) (t : State) =>
      Unbarred q ((frameCond s q i).orElse (fun _ => memSlotCond s q i)) → exec i s = .next t
    let P := participants s q o.g
    let ea := fun (size : Nat) (l : Nat × Nat) => xOf s l o.xb
      + (if o.ix then (vOf s l o.vi).signExtend 64 * BitVec.ofNat 64 size else 0) + o.off.signExtend 64 * BitVec.ofNat 64 size
    let L := fun (size words : Nat) (x : Ext) (whole scr : Bool) => s.startLoad q P (ea size) size words
      (if scr then 5 else (s.group q.group).kernel.lload) x whole scr o.hint.toNat o.data.toNat
    let S := fun (size : Nat) (whole scr : Bool) => P.foldl (fun z l => z.storeLane q l.2 (ea size l)
      (((List.range 4).flatMap (fun k => leBytes 4 ((s.thread l.2).readV (o.data.toNat + k)).toNat)).take size) whole scr o.hint.toNat) s
    C (.ldZ8 o) (L 1 1 (.zero 1) false false)
    ∧ C (.ldS8 o) (L 1 1 (.sign 1) false false)
    ∧ C (.ldZ16 o) (L 2 1 (.zero 2) false false)
    ∧ C (.ldS16 o) (L 2 1 (.sign 2) false false)
    ∧ C (.ld32 o) (L 4 1 (.words) false false)
    ∧ C (.ld64 o) (L 8 2 (.words) false false)
    ∧ C (.ld128 o) (L 16 4 (.words) false false)
    ∧ C (.ldA16 o) (L 16 4 (.words) true false)
    ∧ C (.ldsZ8 o) (L 1 1 (.zero 1) false true)
    ∧ C (.ldsS8 o) (L 1 1 (.sign 1) false true)
    ∧ C (.ldsZ16 o) (L 2 1 (.zero 2) false true)
    ∧ C (.ldsS16 o) (L 2 1 (.sign 2) false true)
    ∧ C (.lds32 o) (L 4 1 (.words) false true)
    ∧ C (.lds64 o) (L 8 2 (.words) false true)
    ∧ C (.lds128 o) (L 16 4 (.words) false true)
    ∧ C (.ldsA16 o) (L 16 4 (.words) true true)
    ∧ C (.st8 o) (S 1 false false)
    ∧ C (.st16 o) (S 2 false false)
    ∧ C (.st32 o) (S 4 false false)
    ∧ C (.st64 o) (S 8 false false)
    ∧ C (.st128 o) (S 16 false false)
    ∧ C (.stA16 o) (S 16 true false)
    ∧ C (.sts8 o) (S 1 false true)
    ∧ C (.sts16 o) (S 2 false true)
    ∧ C (.sts32 o) (S 4 false true)
    ∧ C (.sts64 o) (S 8 false true)
    ∧ C (.sts128 o) (S 16 false true)
    ∧ C (.stsA16 o) (S 16 true true)
    ∧ (P = [] → ∀ size words x whole scr, L size words x whole scr = s ∧ S size whole scr = s)

/-- The pieces of an access of len bytes at an address are runs that follow one another and cover each of its bytes
once. Each has 1, 2, 4 or 8 bytes, divides its address, lies in one 8-byte unit, and no larger power of two that
divides the address fits in what is left of the access within the unit. A .A16 access is one piece of its 16 bytes.
The worked examples: ld.32 at offset 2 has pieces of bytes 2-3 and 4-5; st.64 at offset 28 of bytes 28-31 and 32-35;
st.128 at offset 0 of bytes 0-7 and 8-15. -/
def Obligations.AccessPieces : Prop :=
  (∀ (a len : Nat),
    (piecesOf a len false).flatMap (fun p => (List.range p.2).map (fun k => p.1 + k)) = List.range len
    ∧ (∀ p ∈ piecesOf a len false,
        p.2 ∈ [1, 2, 4, 8] ∧ (a + p.1) % p.2 = 0 ∧ (a + p.1) / 8 = (a + p.1 + p.2 - 1) / 8 ∧ p.1 + p.2 ≤ len
        ∧ ∀ n ∈ [2, 4, 8], p.2 < n → (a + p.1) % n = 0 → min (len - p.1) (8 - (a + p.1) % 8) < n)
    ∧ piecesOf a len true = [(0, len)])
  ∧ piecesOf 2 4 false = [(0, 2), (2, 2)] ∧ piecesOf 28 8 false = [(0, 4), (4, 4)] ∧ piecesOf 0 16 false = [(0, 8), (8, 8)]

/-- A memory slot that makes an access (loads, stores, atomics, CLEAN, INVAL, ICINV, FST, TXST, LAUNCH, TXBEGIN)
answers a next state: the condition that stands, taken, or else its effect. The effect leaves every register of every
thread and the state of every group unchanged at issue: values reach registers as results in flight. A load from the
scratchpad, and an atomic on it, changes no byte of memory at issue. A load, atomic, FST, TXST, LAUNCH or TXBEGIN in
global space changes memory only by setting the A and D bits of page-table entries: what it writes is pending (log
entry 8); so does a store or ICINV while the L1 members have room for the lines that the lanes may bring in, so that
none is evicted. A scratchpad store changes only bytes at the locations of its lanes. -/
def Obligations.MemorySlotFrame : Prop :=
  ∀ (i : Instr) (s : State) (q : Issue) (a : MemAcc), s.issue = some q → memAcc i = some a →
    let cond := (frameCond s q i).orElse (fun _ => memSlotCond s q i)
    let P := participants s q ((guardIn i).getD Guard.always)
    (∀ c, q.cleared = false → cond = some c → exec i s = .next (s.takeCond q c))
    ∧ (Unbarred q cond → ∃ t, exec i s = .next t
        ∧ t.threads = s.threads ∧ t.groups = s.groups
        ∧ (a.scr = true → a.kind ∈ [.load, .atom] → ∀ p, t.byte p = s.byte p)
        ∧ (a.scr = false → a.kind ∈ [.load, .atom, .fst, .txst, .hub] → s.onlyMarks t)
        ∧ (a.scr = false → a.kind ∈ [.store, .code] → (∀ m, s.hasRoom m (4 * P.length)) → s.onlyMarks t)
        ∧ (a.scr = true → a.kind = .store → memSlotCond s q i = none → (s.group q.group).scrHalf % 16 = 0 → ∀ p,
            (∀ l ∈ P, ∀ k, k < a.size →
              (s.group q.group).scrAt (clusterOf q.core) (a.ea s l + BitVec.ofNat 64 k).toNat ≠ some p) →
            t.byte p = s.byte p))

/-- A thread's store outside local lines and its own member scratchpad adds pieces to the core's order that hold its
bytes at their addresses; no byte that other agents read changes, and later reads by threads of its core give the
bytes stored. One to the own scratchpad or a local line performs in its issue step if nothing stands before it. When
WRITE_PERFORMS names a write that nothing holds back, it performs: exactly its bytes change where its attribute is not
local, and for a local page what its core reads there, while the L1 has room; it is no longer pending, or, where hosts
hold its line, is left to be told to them. The free value may have it perform first for its cluster or die: cores
there then read it, others the byte at the home. No thread changes. When LOAD_VALUE_ARRIVES names an access that has
all it needs, each open piece is read in turn and takes the bytes that stand, and when all have theirs the waiting
results take their values and the access ends; one that waits asks for what it waits for. Pending writes, the order
they perform in, and pieces read one by one are the model's reading of chapter 13 (log entry 8). -/
def Obligations.PendingWrites : Prop :=
  (∀ (s : State) (core tk loc : Nat) (attr : Attr) (whole : Bool) (bs : List Byte), bs ≠ [] → attr ≠ .lcl →
    (∀ k, k < bs.length → ownScr core (loc + k) = false) →
    let t := s.store core tk loc attr whole bs
    (∀ a, t.byte a = s.byte a)
    ∧ ∃ ws : List PendWrite, (t.core core).writes = (s.core core).writes ++ ws
      ∧ ws.flatMap (fun w => w.bytes) = bs
      ∧ ws.flatMap (fun w => (List.range w.bytes.length).map (fun k => w.addr + k)) = (List.range bs.length).map (fun k => loc + k)
      ∧ (∀ w ∈ ws, w.thread = tk ∧ (s.core core).seq ≤ w.seq ∧ w.seq < (t.core core).seq ∧ w.after = (s.thread tk).rel
          ∧ w.attr = attr ∧ w.level = 0)
      ∧ (isScr loc = false → isScr (loc + bs.length) = false → ∀ k, k < bs.length → ∀ reader,
          t.readByte attr core reader (t.core core).seq (loc + k) = bs.getD k 0))
  ∧ (∀ (s : State) (core tk loc : Nat) (attr : Attr) (bs : List Byte), bs ≠ [] → (ownScr core loc = true ∨ attr = .lcl) →
      let w : PendWrite := ⟨s.ids, (s.core core).seq, tk, loc, .bytes bs, (s.thread tk).rel, attr, 0⟩
      let z := s.pend core tk loc attr true bs
      (z.core core).writes = (s.core core).writes ++ [w] ∧ z.mem = s.mem ∧ z.scr = s.scr
      ∧ s.store core tk loc attr true bs = if z.writeReady core w = true then z.performWrite core w else z)
  ∧ (∀ (s : State) (core : Nat) (w : PendWrite),
      let t := s.performWrite core w
      (∀ bs, w.act = .bytes bs → w.attr ≠ .lcl → (w.attr = .wb → s.hasRoom (s.l1Owner core w.addr) 1) → ∀ a,
        t.byte a = if w.addr ≤ a ∧ a < w.addr + bs.length then bs.getD (a - w.addr) 0 else s.byte a)
      ∧ (∀ bs, w.act = .bytes bs → w.attr = .lcl → bs.length ≤ 16 → (∀ m, s.hasRoom m 2) → ∀ a,
        t.byte a = s.byte a
        ∧ (w.addr ≤ a → a < w.addr + bs.length → t.localByte core a = bs.getD (a - w.addr) 0)
        ∧ (¬(w.addr ≤ a ∧ a < w.addr + bs.length) →
            (lineOf a ∉ linesOf w.addr bs.length ∨ s.holdsLine (s.l1Owner core a) a = true) →
            t.localByte core a = s.localByte core a))
      ∧ ((∃ scope, w.act = .code scope) ∨ w.act = .told → ∀ a, t.byte a = s.byte a)
      ∧ (s.toTell w = false → ∀ v ∈ (t.core core).writes, v.id ≠ w.id)
      ∧ (s.toTell w = true → ∀ v ∈ (t.core core).writes, v.id = w.id → v.act = .told)
      ∧ t.threads = s.threads ∧ ((∀ o g, w.act ≠ .sem o g) → t.groups = s.groups))
  ∧ (∀ (s : State) (core id : Nat), let z := s.settleCore core
      ((z.core core).writes.find? (fun v => v.id == id) = none → exec (.writePerforms core id) s = .next z)
      ∧ (∀ w : PendWrite, (z.core core).writes.find? (fun v => v.id == id) = some w →
          let n := Config.performsTo z.turn
          let narrow := (n = 1 ∨ n = 2) ∧ z.levelReady core n w = true
          (narrow → exec (.writePerforms core id) s = .next (((z.raiseLevel core w n).settleCore core).sendSignals core))
          ∧ (¬ narrow → z.pendWaits core w = none → z.writeReady core w = true → exec (.writePerforms core id) s
              = .next ((((z.performWrite core w).settleCore core).sendSignals core).settleConds))
          ∧ (∀ x, ¬ narrow → z.pendWaits core w = some x → exec (.writePerforms core id) s = .next (z.askFor (some x)))))
  ∧ (∀ (s : State) (core : Nat) (w : PendWrite) (n : Nat), let t := s.raiseLevel core w n
      t.mem = s.mem ∧ t.scr = s.scr ∧ t.threads = s.threads ∧ t.groups = s.groups
      ∧ (t.core core).writes.map (fun v => v.id) = (s.core core).writes.map (fun v => v.id)
      ∧ ∀ v ∈ (t.core core).writes, v.id = w.id → v.level = n)
  ∧ (∀ (s : State) (core a : Nat),
      let sees := fun (b : Byte) => ∃ c ∈ s.cores, c.1 ≠ core ∧ ∃ v ∈ c.2.writes,
        v.level ≠ 0 ∧ inScope v.level c.1 core = true ∧ v.byteAt a = some b
      ((∀ b, ¬ sees b) → s.viewByte core a = s.byte a) ∧ ((∃ b, sees b) → sees (s.viewByte core a)))
  ∧ (∀ (s : State) (id : Nat) (a : Access), s.accesses.find? (fun b => b.id == id) = some a →
      let z := s.readPieces a (fun _ _ => true)
      (s.accessReady a = false → exec (.loadValueArrives id) s = .next (s.askFor (s.accessWaits a)))
      ∧ (s.accessReady a = true → ∀ b, z.accesses.find? (fun b => b.id == id) = some b →
          ((b.hub = true ∨ ∀ r ∈ b.reads, ∀ p ∈ r.2, p.fixed.isSome = true) →
            exec (.loadValueArrives id) s = .next ((z.arriveAll b).settleCore b.core))
          ∧ (b.hub = false → (∃ r ∈ b.reads, ∃ p ∈ r.2, p.fixed = none) → exec (.loadValueArrives id) s = .next z))
      ∧ (∀ (tk at_ : Nat) (p : ReadPiece), ((assoc a.reads tk).getD []).find? (fun p => p.at_ == at_) = some p →
          let fixed := fun (o : ReadPiece) => if o.fixed = none ∧ o.remote = none then
            { o with fixed := some ((List.range o.len).map (fun k => s.readByte o.attr a.core tk a.seq (o.addr + k))) } else o
          (s.pieceReady a tk p = false → s.readPiece id tk at_ = s)
          ∧ (s.pieceReady a tk p = true → (s.readPiece id tk at_).accesses = s.accesses.map (fun b =>
              if b.id = id then { b with reads := b.reads.map (fun r =>
                if r.1 = tk then (tk, r.2.map (fun o => if o.at_ = at_ then fixed o else o)) else r) } else b))))

/-- With no condition of the bundle, every atomic of both spaces completes: for its participants in ascending order it
makes an entry of the core's order at the word of each, with DATA and DATA+1 of the lane, and one access whose pieces
take the old words, in flight to DATA at L_LD, or at latency 5 in the scratchpad. An entry waits while an earlier one
of its core that meets its word is pending, so that lanes act in turn. When it acts, in one step, it takes the word as
it stands, at the home or in the local line of its core, as the old word, and writes the new word: the sum, signed or
unsigned minimum or maximum, bitwise result, DATA, the RNE sum of R212 as FP32 or as two BF16 halves, or for CAS
DATA+1 if the old word is DATA and otherwise no write. Exactly those 4 bytes change, and no copy of the line is taken
at the home. That an atomic acts when its entry performs, and the order of entries, are the reading of chapter 13 in
log entry 8. -/
def Obligations.AtomicSlots : Prop :=
  ∀ (s : State) (q : Issue) (o : IxOp), s.issue = some q →
    let C := fun (i : Instr) (t : State) =>
      Unbarred q ((frameCond s q i).orElse (fun _ => memSlotCond s q i)) → exec i s = .next t
    let P := participants s q o.g
    let ea := fun (z : State) (l : Nat × Nat) => xOf z l o.xb + (vOf z l o.vi).signExtend 64 * 4 + o.off.signExtend 64 * 4
    let lane : Bool → AtomOp → State → Nat × Nat → State × List (Nat × List ReadPiece) := fun scr op z l =>
      match z.atomLoc q (ea z l) scr with
      | none => (z, [])
      | some p =>
        let y := if scr then z else z.markRange q.group true (ea z l) 4
        (y.push q.core l.2 p.1 p.2 (z.thread l.2).rel
           (.atom op (vOf z l o.data) ((z.thread l.2).readV (o.data.toNat + 1)) s.ids),
         [(l.2, [(⟨0, p.1, 4, p.2, none, some y.ids⟩ : ReadPiece)])])
    let A := fun (scr : Bool) (op : AtomOp) =>
      let r := P.foldl (fun (acc : State × List (Nat × List ReadPiece)) l =>
        ((lane scr op acc.1 l).1, acc.2 ++ (lane scr op acc.1 l).2)) (s.nextId, [])
      if P = [] then s
      else ({ r.1 with accesses := r.1.accesses
          ++ [⟨s.ids, q.core, q.run, q.group, (s.core q.core).seq, .words, r.2, none, false⟩] } : State).flyWait
        q (if scr then 5 else (s.group q.group).kernel.lload) s.ids 0 (P.map (fun l => (l.2, (s.thread l.2).destV o.data.toNat, 0)))
    C (.atomAdd o) (A false .add)
    ∧ C (.atomMin o) (A false .minS)
    ∧ C (.atomMax o) (A false .maxS)
    ∧ C (.atomMinu o) (A false .minU)
    ∧ C (.atomMaxu o) (A false .maxU)
    ∧ C (.atomAnd o) (A false .and)
    ∧ C (.atomOr o) (A false .or)
    ∧ C (.atomXor o) (A false .xor)
    ∧ C (.atomExch o) (A false .exch)
    ∧ C (.atomCas o) (A false .cas)
    ∧ C (.atomFaddF32 o) (A false .faddF32)
    ∧ C (.atomFaddBf16X2 o) (A false .faddBf16)
    ∧ C (.atomsAdd o) (A true .add)
    ∧ C (.atomsMin o) (A true .minS)
    ∧ C (.atomsMax o) (A true .maxS)
    ∧ C (.atomsMinu o) (A true .minU)
    ∧ C (.atomsMaxu o) (A true .maxU)
    ∧ C (.atomsAnd o) (A true .and)
    ∧ C (.atomsOr o) (A true .or)
    ∧ C (.atomsXor o) (A true .xor)
    ∧ C (.atomsExch o) (A true .exch)
    ∧ C (.atomsCas o) (A true .cas)
    ∧ C (.atomsFaddF32 o) (A true .faddF32)
    ∧ C (.atomsFaddBf16X2 o) (A true .faddBf16)
    ∧ (∀ (z : State) (core : Nat) (v w : PendWrite), v ∈ (z.core core).writes → v.seq < w.seq → w.meets v.addr v.len = true →
        z.writeReady core w = false)
    ∧ (∀ (z : State) (core : Nat) (w : PendWrite) (op : AtomOp) (d e : Word) (access : Nat),
        let r := z.atomStep core w op d e access
        let W := fun (rd : State → Nat → Byte) => (BitVec.ofNat 32 (leNat ((List.range 4).map (fun k => rd z (w.addr + k)))) : Word)
        let put := fun (old new : Byte → Prop) (x : Option Word) (p : Nat) => match x with
          | some n => if w.addr ≤ p ∧ p < w.addr + 4 then new ((leBytes 4 n.toNat).getD (p - w.addr) 0) else ∀ b, old b → new b
          | none => ∀ b, old b → new b
        (w.attr ≠ .lcl → let old := W (fun z a => z.byte a)
          r.accesses = (z.fillAnswer access w.id (leBytes 4 old.toNat)).accesses ∧ r.threads = z.threads ∧ r.cores = z.cores
          ∧ ∀ p, put (fun b => z.byte p = b) (fun b => r.byte p = b) (op.new old d e) p)
        ∧ (w.attr = .lcl → w.addr % 4 = 0 → z.holdsLine (z.l1Owner core w.addr) w.addr = true →
          (∀ k < 4, (spFind (z.core (z.l1Owner core w.addr)).lines (w.addr + k)).isSome = true) → let old := W (fun z a => z.localByte core a)
          r.accesses = (z.fillAnswer access w.id (leBytes 4 old.toNat)).accesses ∧ r.threads = z.threads
          ∧ (∀ p, r.byte p = z.byte p)
          ∧ ∀ p, put (fun b => z.localByte core p = b) (fun b => r.localByte core p = b) (op.new old d e) p))
    ∧ ∀ a d e : Word, AtomOp.new .add a d e = (some (a + d) : Option Word)
        ∧ AtomOp.new .minS a d e = (some (if d.toInt < a.toInt then d else a) : Option Word)
        ∧ AtomOp.new .maxS a d e = (some (if a.toInt < d.toInt then d else a) : Option Word)
        ∧ AtomOp.new .minU a d e = (some (if d.toNat < a.toNat then d else a) : Option Word)
        ∧ AtomOp.new .maxU a d e = (some (if a.toNat < d.toNat then d else a) : Option Word)
        ∧ AtomOp.new .and a d e = (some (a &&& d) : Option Word)
        ∧ AtomOp.new .or a d e = (some (a ||| d) : Option Word)
        ∧ AtomOp.new .xor a d e = (some (a ^^^ d) : Option Word)
        ∧ AtomOp.new .exch a d e = (some d : Option Word)
        ∧ AtomOp.new .cas a d e = (if a = d then some e else none : Option Word)
        ∧ AtomOp.new .faddF32 a d e = (some (BitVec.ofNat 32 (fpAdd fmtFp32 .rne a.toNat d.toNat).1) : Option Word)
        ∧ AtomOp.new .faddBf16 a d e = (some (fromElems 16 (fun j => (fpAdd fmtBf16 .rne (elemAt a 16 j) (elemAt d 16 j)).1)) : Option Word)

/-- PREF brings the line of each participant to the core's L1, as a local line or as a copy of a tracked one, where no
command owns it, no host holds it modified and the hint does not bypass L1 (log entry 8), and has no condition. With
no condition, CLEAN writes the dirty bytes of each participant's line back and keeps it, INVAL also discards it, and
ICINV is an entry of the core's order that, when it acts, at once if nothing stands before it, drops the fetch block
from the cores of the bundle's scope. A fence with a participant takes the next place of the core's order and is
pending in each participant's thread with the bundle's scope; a release wider than core also stamps the thread's later
writes for that scope. DRAIN marks the threads to wait for remote operations sent so far. ACQ.PROM sends a promotion
to the core that bits [9:0] of the leader's xb name, if another core of the package, and acts as an acquire. The
victim notes what it has accepted; once that has performed at the promotion's scope, it writes its dirty local lines
back, gives up its local lines, and its acknowledgement ends the promotion. LINE_EVICTION writes a line of an L1 back
and drops it. The core's order, fence places, stamps and L1 as a set of lines with room are the reading of log entry
8. -/
def Obligations.CacheOrderSlots : Prop :=
  ∀ (s : State) (q : Issue) (xb : BitVec 4) (off : BitVec 10) (hint : BitVec 3) (g : Guard), s.issue = some q →
    let C := fun (i : Instr) (t : State) =>
      Unbarred q ((frameCond s q i).orElse (fun _ => memSlotCond s q i)) → exec i s = .next t
    let P := participants s q g
    let va := fun (l : Nat × Nat) => xOf s l xb + off.signExtend 64
    exec (.pref xb off hint g) s = .next (P.foldl (fun z l => match z.siteOf q.group needR (va l) with
        | some (.here pa attr) =>
          if 3 < hint.toNat ∨ isScr pa = true ∨ z.owned pa 1 = true ∨ (z.readWaits pa 1).isSome = true then z
          else (if attr = .wb ∧ (hint = 1 ∨ hint = 2) then z.noteHint q.core pa hint.toNat else z).readCopy q.core pa
            (if attr = .wb ∧ hint = 3 then .nc else attr)
        | _ => z) s)
    ∧ (∀ (z : State) (pa : Nat), z.readCopy q.core pa .lcl = (if z.localRoom q.core pa 1 = true then z.fillLine q.core pa else z)
        ∧ (z.copyOf (z.l1Agent q.core) pa = .i → isScr pa = false → z.hasRoom (z.l1Owner q.core pa) 1 →
            z.readCopy q.core pa .wb = z.dirRead (z.l1Agent q.core) pa))
    ∧ (∀ drop : Bool, C (if drop then .inval xb off g else .clean xb off g) (P.foldl (fun z l =>
        let z := z.markRange q.group false (va l) 1
        match z.lineAt q (va l) with
        | none => z
        | some a =>
          let w := z.writebackL1 q.core (fun p => lineOf p == a)
          let o := w.l1Agent q.core
          if drop then (w.discardL1 q.core (fun p => lineOf p == a)).dirSet o a .i
          else if w.copyOf o a = .m then w.dirSet o a .s else w) s))
    ∧ C (.icinv xb g) (P.foldl (fun z l =>
        let z := z.markRange q.group false (xOf s l xb) 1
        match z.siteOf q.group needR (xOf s l xb) with
        | some (.here pa _) => z.storeCode q.core l.2 q.scope pa
        | _ => z) s)
    ∧ (∀ (z : State) (core tk scope pa : Nat),
        let w : PendWrite := ⟨z.ids, (z.core core).seq, tk, pa, .code scope, (z.thread tk).rel, .nc, 0⟩
        let y := z.push core tk pa .nc w.after w.act
        z.storeCode core tk scope pa = (if y.writeReady core w = true then y.performWrite core w else y)
        ∧ ∀ k, ((y.performWrite core w).core k).code = (if inScope scope core k = true
            then (z.core k).code.filter (fun b => b.1 != pa / 64) else (z.core k).code))
    ∧ exec (.fenceAcq g) s = .next (s.fence q P .acq none)
    ∧ exec (.fenceRel g) s = .next (s.fence q P .rel none)
    ∧ exec (.fenceAr g) s = .next (s.fence q P .ar none)
    ∧ exec (.fenceSc g) s = .next (s.fence q P .sc none)
    ∧ exec (.fenceCp g) s = .next (s.fence q P .cp none)
    ∧ (∀ (k : FenceKind) (prom : Option Nat), (P = [] → s.fence q P k prom = s)
        ∧ (P ≠ [] → (P.map (fun l => l.2)).Nodup →
            let n := (s.core q.core).seq + 1
            let t := s.fence q P k prom
            let r := fun (tk : Nat) => (s.thread tk).rel
            (t.core q.core).seq = n ∧ t.mem = s.mem ∧ t.scr = s.scr
            ∧ (∀ tk, tk ∈ P.map (fun l => l.2) → t.thread tk = { s.thread tk with
                fences := (s.thread tk).fences ++ [⟨k, q.scope, n, prom⟩],
                rel := if q.scope = 0 ∨ k = .acq ∨ k = .cp then r tk else if q.scope = 1 then { r tk with cluster := n }
                  else if q.scope = 2 then { r tk with die := n } else if q.scope = 5 then { r tk with system := n }
                  else { r tk with wide := n } })
            ∧ (∀ tk, tk ∉ P.map (fun l => l.2) → t.thread tk = s.thread tk)))
    ∧ exec (.drain g) s = .next (P.foldl (fun z l => z.modThread l.2 (fun t => { t with drain := some s.ids })) s)
    ∧ (leader s q g = none → exec (.acqProm xb g) s = .next s)
    ∧ (∀ tk, leader s q g = some tk →
        let victim := ((s.thread tk).readX xb.toNat).toNat % 1024
        exec (.acqProm xb g) s = .next (if victim < 768 ∧ victim ≠ q.core then
            State.fence { s.nextId with fab := { s.fab with proms := s.fab.proms ++
              [⟨s.ids, q.core, victim, q.scope, P.map (fun l => l.2), false, 0⟩] } } q P .acq (some s.ids)
          else s.fence q P .acq none))
    ∧ (∀ id : Nat, exec (.promotionAtVictim id) s = .next { s with fab := { s.fab with proms := s.fab.proms.map (fun r =>
        if r.id = id ∧ r.reached = false then { r with reached := true, upTo := (s.core r.victim).seq } else r) } })
    ∧ (∀ (id : Nat) (p : Promotion), s.fab.proms.find? (fun r => r.id == id && r.reached) = some p →
        let all := fun (_ : Nat) => true
        let t := (s.writebackL1 p.victim all).discardL1 p.victim all
        s.victimDone p = true → s.ownedDirty p.victim all = false → s.l1Waits p.victim all = none →
        exec (.promotionAck id) s = .next (State.settleCore
          { t with fab := { t.fab with proms := t.fab.proms.filter (fun r => r.id != id) } } p.core))
    ∧ (∀ p : Promotion, (∀ w ∈ (s.core p.victim).writes, p.upTo ≤ w.seq ∨ w.len = 0) → s.victimDone p = true)
    ∧ (∀ (core line : Nat), core < 768 → let o := s.l1Owner core (128 * line)
        s.ownedDirty o (inLine line) = false → s.writebackWaits o (inLine line) = none →
        exec (.lineEviction core line) s = .next
          (((((s.writeback o (inLine line)).discardLines o (inLine line)).dirSet (s.l1Agent o) (128 * line) .i).modCore o
            (fun c => { c with hints := spSet (fun _ => 0) c.hints line 0 })).settleCore core))
    ∧ (∀ line : Nat, exec (.lineEviction 768 line) s = .next (s.dirSet 768 (128 * line) .i))

/-- With no condition FST sends in each participant 16 bytes of DATA to the package that its address names, and LAUNCH
gives 0 to the lanes with address 0 and queues the other lanes' packets for the hub. FSIG makes one operation per
participant, sent when the thread's earlier writes have performed, or counts a void delivery when no message can carry
its handle. FST_APPLY writes its 16 bytes once, and completes the operation of this package or acknowledges; FST_ACK
and FSIG_ACK complete theirs; FSIG_APPLY adds the increment to the semaphore named, or is delivered to void;
FSIG_FORWARD sends a signal of another pod on with its hop count, at most 8, or holds it while no port toward that pod
is up. A remote load is answered with the bytes at the home, and its response gives its piece its bytes. A message
that was taken before only shows that its sender can be reached. With no working LZ1-N loads and acknowledgements are
not taken. LINK_UP of a working LZ1-N, LINK_RETRAIN and LINK_FAIL set a port's width and state. -/
def Obligations.FabricSlotsAndMessages : Prop :=
  ∀ (s : State) (q : Issue) (o : IxOp) (data : BitVec 8) (xb : BitVec 4) (inc : BitVec 10) (g : Guard), s.issue = some q →
    let C := fun (i : Instr) (t : State) =>
      Unbarred q ((frameCond s q i).orElse (fun _ => memSlotCond s q i)) → exec i s = .next t
    let P := participants s q g
    let bytes16 := fun (l : Nat × Nat) (r : BitVec 8) => BitVec.ofNat 128 (leNat (((List.range 4).flatMap (fun k =>
      leBytes 4 ((s.thread l.2).readV (r.toNat + k)).toNat)).take 16))
    C (.fst o) ((participants s q o.g).foldl (fun z l =>
        z.fstLane q l.2 (xOf s l o.xb + (vOf s l o.vi).signExtend 64 * 16 + o.off.signExtend 64 * 16) (bytes16 l o.data)) s)
    ∧ exec (.fsig xb inc g) s = .next ((P.foldl (fun z l => z.fsigLane q l.2 (xOf s l xb) inc.toNat) s).sendSignals q.core)
    ∧ (let named := P.filter (fun l => xOf s l xb != 0)
       let zero := fun (k : Nat) => (P.filter (fun l => xOf s l xb == 0)).map (fun l =>
         (l.2, (s.thread l.2).destV (data.toNat + k), (0 : QWord)))
       let lat := (s.group q.group).kernel.lload
       let z := ((named.foldl (fun z l => z.markRange q.group false (xOf s l xb) 64) s).fly q lat (zero 0)).fly q lat (zero 1)
       C (.launch data xb g) (if named = [] then z else (z.askHub q named 2 data []).joinBatch q (named.map (fun l =>
         (z.ids, l.2, match s.siteOf q.group needR (xOf s l xb) with
           | some (.here pa _) => pa
           | _ => 0)))))
    ∧ (∀ (src id addr : Nat) (v : QWord), addr % 16 = 0 → addr + 16 ≤ devSize → s.owned addr 16 = false →
        s.writeWaits addr 16 = none →
        (src ≠ s.globalNumber → s.fabricOn = true → s.dup src id = false → exec (.fstApply src id addr v) s
          = .next (((s.put addr (leBytes 16 v.toNat)).hear src id).fabReply src (.fstAck src id)))
        ∧ (src ≠ s.globalNumber → s.dup src id = true → exec (.fstApply src id addr v) s = .next (s.ignore src id))
        ∧ (∀ op, src = s.globalNumber →
            s.fab.ops.find? (fun p => p.id == id && p.target == src && p.kind == .fst addr v) = some op →
            s.canFix op.core (fun k => k == op.thread) op.place addr 16 = true →
            exec (.fstApply src id addr v) s = .next ((((s.fixReads op.core (fun k => k == op.thread) op.place addr 16).put addr
              (leBytes 16 v.toNat)).dropOp id).settleCore op.core)))
    ∧ (∀ (id : Nat) (op : OutOp) (addr : Nat) (v : QWord),
        s.fabricOn = true → s.fab.ops.find? (fun p => p.id == id && p.target != s.globalNumber) = some op → op.kind = .fst addr v →
        exec (.fstAck id) s = .next (((s.dropOp id).ackFrom op.target).settleCore op.core))
    ∧ (∀ (src id n : Nat) (h : DWord), sigPkg h = s.globalNumber →
        (src ≠ s.globalNumber → s.fabricOn = true → s.dup src id = false → exec (.fsigApply src id h n) s
          = .next (match (s.hear src id).applySignal h n with
            | some z => z.fabReply src (.fsigAck src id false)
            | none => ((s.hear src id).strayEvent h).fabReply src (.fsigAck src id true)))
        ∧ (src ≠ s.globalNumber → s.dup src id = true → exec (.fsigApply src id h n) s = .next (s.ignore src id))
        ∧ (∀ op, src = s.globalNumber →
            s.fab.ops.find? (fun p => p.id == id && p.kind == .fsig h n && p.sent.isSome) = some op →
            exec (.fsigApply src id h n) s = .next (match s.applySignal h n with
              | some z => (z.dropOp id).settleCore op.core
              | none => (((s.countVoid op.launch).strayEvent h).dropOp id).settleCore op.core)))
    ∧ (∀ (id : Nat) (void : Bool) (op : OutOp), s.fabricOn = true →
        s.fab.ops.find? (fun p => p.id == id && p.isSig && p.sent.isSome && p.target != s.globalNumber) = some op →
        let z := (s.dropOp id).ackFrom op.target
        exec (.fsigAck id void) s = .next ((if void then z.countVoid op.launch else z).settleCore op.core))
    ∧ (∀ (src id n hops : Nat) (h : DWord), sigPkg h ≠ s.globalNumber → s.fabricOn = true →
        s.fab.seen.contains (src, id, hops + 1) = false → let z := s.sawHop src id (hops + 1)
        (8 ≤ hops ∨ z.unroutable h = true →
            exec (.fsigForward src id h n hops) s = .next ((z.strayEvent h).fabReply src (.fsigAck src id true)))
        ∧ (hops < 8 → z.unroutable h = false → z.podUp (sigPkg h / 4096) = true →
            exec (.fsigForward src id h n hops) s = .next (z.send (.fsig (sigPkg h) id h n (hops + 1))))
        ∧ (hops < 8 → z.unroutable h = false → z.podUp (sigPkg h / 4096) = false →
            exec (.fsigForward src id h n hops) s
              = .next { z with fab := { z.fab with forwards := z.fab.forwards ++ [⟨src, id, h, n, hops, z.now⟩] } }))
    ∧ (∀ (src id addr len : Nat), s.fabricOn = true → s.dup src id = false → addr + len ≤ devSize →
        s.owned addr len = false → s.readWaits addr len = none →
        exec (.remoteLoadRequest src id addr len) s = .next (((((linesOf addr len).foldl (fun z l => z.homeRead l) s).hear
          src id)).fabReply src (.loadReply src id (s.bytes addr len))))
    ∧ (∀ (src id addr len n hops : Nat) (h : DWord), (s.dup src id = true →
          exec (.remoteLoadRequest src id addr len) s = .next (s.ignore src id))
        ∧ (s.fab.seen.contains (src, id, hops + 1) = true → exec (.fsigForward src id h n hops) s = .next s))
    ∧ (∀ (id addr len access : Nat) (op : OutOp) (bs : List Byte), s.fab.ops.find? (fun p => p.id == id) = some op →
        op.kind = .load addr len access → bs.length = len → s.fabricOn = true →
        exec (.remoteLoadResponse id bs) s
          = .next ((((s.dropOp id).ackFrom op.target).fillAnswer access id bs).settleCore op.core))
    ∧ (s.fabricOn = false → ∀ (src id addr len : Nat) (void : Bool) (bs : List Byte),
        exec (.remoteLoadRequest src id addr len) s = .next s ∧ exec (.remoteLoadResponse id bs) s = .next s
        ∧ exec (.fstAck id) s = .next s ∧ exec (.fsigAck id void) s = .next s)
    ∧ (∀ (port : BitVec 4) (width : BitVec 2), width ≠ 0 → s.dieState (9 + port.toNat / 8) = 2 →
        exec (.linkUp port width) s = .next (s.setPort port width.toNat 2).flushForwards)
    ∧ (∀ (port : BitVec 4) (lanes : Nat), s.field (regFbport port.toNat) 0 2 ≠ 0 → 1 ≤ lanes → lanes ≤ 4 →
        exec (.linkRetrain port lanes) s = .next (s.setPort port (if lanes = 4 then 3 else if 2 ≤ lanes then 2 else 1) 2))
    ∧ (∀ port : BitVec 4, exec (.linkFail port) s = .next (s.setPort port 0 0))

/-- With no condition of the bundle TXBEGIN opens a transaction of each participant's thread and gives DATA its
handle, or a refusal; TXST stages the 16 bytes of DATA with the thread's transaction; TXCOMMIT makes the transaction
whose handle DATA names await its stores, or answers 0x80000005; TXABORT discards the thread's transaction. A store
that would reach a 17th target, or be the 4,097th, dooms the transaction with 0x80000013, and a doomed one sends
nothing more. As a target the package stages a store of another coordinator and acknowledges it, dooming it with
0x80000011 without room and 0x80000010 if the part was discarded, while a store of a part that a later message closed
stages nothing; it votes yes and locks the blocks of the part, or no: 0x80000012 if one is locked, 0x80000010 if it no
longer holds the part (log entry 22); on a decision it applies a prepared part, each 16 bytes at their address, or
drops it, and acknowledges; recovery does the same for a prepared part. A message taken before changes nothing but
that its sender was heard. As the coordinator it counts an acknowledged store, a vote in time and an applied decision,
a refused store or a no vote dooming the transaction, and so does a vote missing or late at the end of VOTE or a lost
target. A transaction whose stores are all acknowledged asks its targets to prepare, or without a target is decided to
commit with outcome 0; with every vote it is decided to commit, doomed while voting to abort; a decision is announced
once its log entry is written. A part not prepared whose coordinator has sent nothing for FBLOSS cycles is discarded.
-/
def Obligations.TransactionSlotsAndMessages : Prop :=
  ∀ (s : State) (q : Issue) (o : IxOp) (data : BitVec 8) (xb : BitVec 4) (g : Guard), s.issue = some q →
    let C := fun (i : Instr) (t : State) =>
      Unbarred q ((frameCond s q i).orElse (fun _ => memSlotCond s q i)) → exec i s = .next t
    let P := participants s q g
    C (.txbegin data xb g) (if P = [] then s else
        let r := P.foldl (fun (acc : State × List (Nat × QWord)) l =>
          let z := acc.1.markRange q.group false (xOf s l xb) 64
          let w := z.txBegin q l.2 (match z.siteOf q.group needR (xOf s l xb) with
            | some (.here pa attr) => z.readRun attr q.core l.2 pa 64
            | _ => [])
          (w.1, acc.2 ++ [(l.2, w.2.zeroExtend 128)])) (s, [])
        r.1.askHub q P 1 data r.2)
    ∧ (∀ (z : State) (tk : Nat) (bs : List Byte),
        let r := z.txBegin q tk bs
        ((z.openTx tk).isSome = true → r = (z, 0x80000001))
        ∧ (z.openTx tk = none → z.fab.stray.contains tk = true → r.2 = 0x80000004 ∧ r.1.fab.txs = z.fab.txs)
        ∧ (z.openTx tk = none → z.fab.stray.contains tk = false → txDescBad bs = true → r = (z, 0x80000002))
        ∧ (z.openTx tk = none → z.fab.stray.contains tk = false → txDescBad bs = false → z.logBase ≠ 0 →
            (z.fab.txs.filter (fun t => !t.phase.isDecided)).length < 65536 →
            r.2 = z.freshHandle ∧ ∃ t : Tx, r.1.fab.txs = z.fab.txs ++ [t] ∧ t.handle = z.freshHandle ∧ t.thread = tk
              ∧ t.phase = .open_ ∧ t.targets = [] ∧ t.doomed = none
              ∧ t.vote = (if natAt bs 0x10 4 = 0 then 1024 else natAt bs 0x10 4)))
    ∧ (∀ (tk : Nat) (ea : DWord) (v : QWord) (t : Tx) (target addr : Nat),
        let z := s.markRange q.group true ea 16
        z.openTx tk = some t → z.siteOf q.group needW ea = some (.pkg (target % 4096) addr) →
        target / 4096 = z.pod → target ≠ z.globalNumber →
        (t.doomed.isSome = true → s.txStore q tk ea v = z)
        ∧ (t.doomed = none → (target ∉ t.targets ∧ 16 ≤ t.targets.length) ∨ 4096 ≤ t.stores →
            s.txStore q tk ea v = z.modTx t.handle (fun t => t.doom 0x80000013))
        ∧ (t.doomed = none → (target ∈ t.targets ∨ t.targets.length < 16) → t.stores < 4096 →
            s.txStore q tk ea v = (z.modTx t.handle (fun t => { t with stores := t.stores + 1, targets :=
              (if t.targets.contains target then t.targets else t.targets ++ [target]) })).txSend t.handle target
                (fun id => .txStage target id t.handle t.stores addr v)))
    ∧ (∀ (z : State) (coord seq addr : Nat) (h : Word) (v : QWord) (p : Part), z.findPart coord h = some p →
        let r := z.stagePart coord h seq addr v
        (p.gone = true → r = (z, some 0x80000010))
        ∧ (p.gone = false → Config.txRoom z.turn = false → r = (z, some 0x80000011))
        ∧ (p.gone = false → Config.txRoom z.turn = true → (∀ w ∈ p.writes, w.2.1 = addr → w.1 ≤ seq) →
            let ws := p.writes.filter (fun w => w.2.1 != addr) ++ [(seq, addr, v)]
            r = (z.setPart coord h (some { p with writes := ws, last := z.now }), none))
        ∧ (p.gone = true → z.votePart coord h = (z, some 0x80000010))
        ∧ (p.gone = false → p.prepared = true → z.votePart coord h = (z, none))
        ∧ (p.gone = false → p.prepared = false →
            ((∃ l ∈ z.fab.locks, ∃ w ∈ p.writes, l.1 = w.2.1 / 64) → z.votePart coord h = (z, some 0x80000012))
            ∧ ((∀ l ∈ z.fab.locks, ∀ w ∈ p.writes, l.1 ≠ w.2.1 / 64) →
                ∃ y : State, z.votePart coord h = (y, none) ∧ y.findPart coord h = some { p with prepared := true, last := z.now }
                  ∧ (∀ w ∈ p.writes, (w.2.1 / 64, coord, h) ∈ y.fab.locks) ∧ (∀ l ∈ z.fab.locks, l ∈ y.fab.locks)
                  ∧ y.mem = z.mem)))
    ∧ (∀ (z : State) (coord : Nat) (h : Word), z.findPart coord h = none → z.votePart coord h = (z, some 0x80000010))
    ∧ C (.txst o) ((participants s q o.g).foldl (fun z l =>
        z.txStore q l.2 (xOf s l o.xb + (vOf s l o.vi).signExtend 64 * 16 + o.off.signExtend 64 * 16) (data16 s l o.data)) s)
    ∧ (Unbarred q (frameCond s q (.txcommit data g)) → exec (.txcommit data g) s = .next (if P = [] then s else
        (P.foldl (fun z l => match z.openTx l.2 with
          | some t => if t.handle = vOf s l data then z.modTx t.handle (fun t => { t with phase := .staging s.ids })
            else z.answerHub s.ids l.2 0x80000005
          | none => z.answerHub s.ids l.2 0x80000005) (s.askHub q P 1 data [])).settleTxs))
    ∧ exec (.txabort g) s = .next (P.foldl (fun z l => z.abortTx l.2) s)
    ∧ (∀ (coord id seq addr : Nat) (h : Word) (v : QWord), coord ≠ s.globalNumber →
        (s.fabricOn = true → s.dup coord id = false → addr % 16 = 0 → addr + 16 ≤ devSize →
          let r := (s.hear coord id).stagePart coord h seq addr v
          let shut := s.fab.closed.any (fun c => c.1 == coord && c.2.1 == h && decide (id < c.2.2))
          exec (.txStage ⟨coord, id⟩ h ⟨seq, addr⟩ v) s = .next (if shut = true
            then (s.hear coord id).fabReply coord (.txStageAck coord id h none)
            else r.1.fabReply coord (.txStageAck coord id h r.2)))
        ∧ (s.fabricOn = true → s.dup coord id = false →
          let r := (s.hear coord id).votePart coord h
          exec (.txPrepare ⟨coord, id⟩ h) s = .next (r.1.fabReply coord (.txVote coord id h r.2)))
        ∧ (∀ commit : Bool, let r := s.decidePart coord h commit
          (s.fabricOn = true → s.dup coord id = false →
            (r.2 = true → exec (.txDecision ⟨coord, id⟩ h commit) s
              = .next ((((r.1.hear coord id).ackFrom coord).notePartEnd coord h id).fabReply coord (.txApplyAck coord id h)))
            ∧ (r.2 = false → exec (.txDecision ⟨coord, id⟩ h commit) s = .next (r.1.noteHeard coord)))
          ∧ (s.fabricOn = true → (s.findPart coord h).any (fun p => p.prepared) = true →
            (r.2 = true → exec (.txRecovery coord h commit) s
              = .next ((r.1.ackFrom coord).fabReply coord (.txApplyAck coord 0 h)))
            ∧ (r.2 = false → exec (.txRecovery coord h commit) s = .next r.1))
          ∧ (s.dup coord id = true → exec (.txDecision ⟨coord, id⟩ h commit) s = .next (s.ignore coord id)))
        ∧ (s.dup coord id = true → exec (.txStage ⟨coord, id⟩ h ⟨seq, addr⟩ v) s = .next (s.ignore coord id)
            ∧ exec (.txPrepare ⟨coord, id⟩ h) s = .next (s.ignore coord id)))
    ∧ (∀ (coord : Nat) (h : Word) (p : Part), s.findPart coord h = some p →
        (p.prepared = true → s.partOwned p = false → s.partFollows p = true → s.partWaits p = none → s.decidePart coord h true
          = ((p.writes.foldl (fun z w => z.put w.2.1 (leBytes 16 w.2.2.toNat)) ((s.partPlaces p).foldl (fun z w =>
              z.fixReads w.2.1 (fun k => k == w.1) w.2.2.1 w.2.2.2 16) s)).closePart p.coord p.handle, true))
        ∧ s.decidePart coord h false = (s.closePart coord h, true))
    ∧ (∀ (h : Word) (t : Tx) (id target : Nat), s.findTx h = some t → t.sent id target = true → s.fabricOn = true →
        target ≠ s.globalNumber →
        (t.phase.isDecided = false → ∀ d : Option Word, exec (.txStageAck h ⟨target, id⟩ d) s
          = .next ((s.ackFrom target).modTx h (fun t => match d with
              | some w => (t.ackFrom id target).doom w
              | none => t.ackFrom id target)).settleTxs)
        ∧ (∀ a since, t.phase = .voting a since → ∀ d : Option Word, exec (.txVote h ⟨target, id⟩ d) s
          = .next ((s.ackFrom target).modTx h (fun t => match d with
              | some w => (t.ackFrom id target).doom w
              | none => if since + t.vote * 1024 < s.now then (t.ackFrom id target).doom 0x80000010
                        else { t.ackFrom id target with votes := t.votes ++ [target] })).settleTxs)
        ∧ (t.phase.isDecided = true → exec (.txApplyAck h ⟨target, id⟩) s
          = .next (({ s.ackFrom target with fab := { (s.ackFrom target).fab with
              stale := s.fab.stale.filter (fun e => e != (h, target)) } } : State).modTx h (fun t => t.quit target)).settleTxs))
    ∧ (∀ (h : Word) (t : Tx) (a since : Nat), s.findTx h = some t → t.phase = .voting a since →
        (∃ n ∈ t.targets, n ∉ t.votes) → since + t.vote * 1024 ≤ s.now →
        exec (.txVoteTimeout h) s = .next (s.modTx h (fun t => t.doom 0x80000010)).settleTxs)
    ∧ (∀ (z : State) (t : Tx) (a since : Nat),
        (t.phase = .staging a → t.doomed = none →
          (t.out ≠ [] → z.settleTx t = z)
          ∧ (t.out = [] → t.targets = [] → z.settleTx t = z.decideTx t true 0)
          ∧ (t.out = [] → t.targets ≠ [] → z.settleTx t = z.prepareAll t a))
        ∧ (t.phase = .voting a since → t.doomed = none → (∀ n ∈ t.targets, n ∈ t.votes) →
            z.settleTx t = z.decideTx t true 0)
        ∧ (∀ w, t.phase = .voting a since → t.doomed = some w → z.settleTx t = z.decideTx t false w)
        ∧ ∀ commit w, (z.writeLog t w).2 = true → z.decideTx t commit w = (z.writeLog t w).1.announce t commit w)
    ∧ (∀ (coord : Nat) (h : Word) (p : Part), s.findPart coord h = some p → p.prepared = false → p.gone = false →
        s.lossDue (max p.last (spGet (fun _ => 0) s.fab.heard coord)) = true → coord ≠ s.globalNumber →
        exec (.txPartTimeout coord h) s = .next (s.setPart coord h (some { p with gone := true, writes := [] })))
    ∧ (∀ pkg : Nat, s.targetSilent pkg = true → pkg ≠ s.globalNumber → ∃ z : State, exec (.targetLost pkg) s = .next z.settleTxs
        ∧ pkg ∈ z.fab.lost ∧ (∀ f ∈ z.fab.forwards, sigPkg f.handle ≠ pkg)
        ∧ ∀ t ∈ z.fab.txs, pkg ∈ t.targets → t.phase.isDecided = false →
            t.doomed.isSome = true ∧ t.lost = true ∧ t.awaits pkg = false)

/-- The slots of both engines issue one command each, from the leader lane, with their wait and signal semaphores,
thresholds and increments, operands as they stand, and the bundle's scope and place; a C slot also takes the next
identifier of its channel and counts its tag, whose bit clears, and a copy captures its shape set, mask, transform and
start time. PLOAD loads the bank that is not active. MMA, ACCZ, MST, MLD, MSTAT, SCLA and SCLB do so when none of
their checks of R257 fails, and take the condition that fails otherwise; SCLA and SCLB read their 1,024 bytes at
issue. SHSET and SHSETI write a field of a shape set, cut to its width, at count b + 3. Without an active lane nothing
issues, once the checks of the bundle are over. -/
def Obligations.EngineSlots : Prop :=
  ∀ (s : State) (q : Issue) (tk : Nat) (h : Sync) (m : MmaOp) (c : CopyOp) (o : LoadOp) (tile : BitVec 3)
    (xa xb : BitVec 4) (fmt field : BitVec 5) (sh : BitVec 3) (imm : BitVec 16) (side lb : Bool),
    s.issue = some q →
    (q.lanes = [] →
      (∀ i ∈ [Instr.msync h, .sclz side lb, .copy c, .copyx c, .tload o, .pload o, .dload o, .intake o, .shset sh field xa,
        .shseti sh field imm], exec i s = .next s)
      ∧ (q.cleared = true → ∀ i ∈ [Instr.mma m, .accz h tile, .mst h tile xa xb fmt, .mld h tile xa xb, .mstat h tile xa,
        .scla lb xa, .sclb lb xa], exec i s = .next s))
    ∧ ((q.lanes.head?).map (fun l => l.2) = some tk →
    let x := fun (r : BitVec 4) => (s.thread tk).readX r.toNat
    let pair := mmaPair s q m.fa m.fb
    let X := fun (op : CmdOp) (h : Sync) (u v : DWord) => s.addCmd (blankCmd s q op h tk u v)
    let K := fun (cond : Option Cond) (i : Instr) (t : State) =>
      (Unbarred q cond → exec i s = .next t)
      ∧ ∀ bad, q.cleared = false → cond = some bad → exec i s = .next (s.takeCond q bad)
    let L := fun (op : CmdOp) (o : LoadOp) (f : Cmd → Cmd) =>
      let z := s.modGroup q.group (fun gr => (gr.takeTag o.tag.toNat).takeIdent o.ch.toNat)
      z.addCmd (f { blankCmd z q op o.h tk (x o.xs) (x o.xd) with
        ch := o.ch.toNat, tag := o.tag.toNat, ident := ((z.group q.group).chan o.ch.toNat).cid })
    K (mmaCond s q m) (.mma m) (X (.mma m.tile.toNat pair.1 pair.2 (m.kb.toNat + 1) m.zf m.mid m.lb) m.h (x m.xa) (x m.xb))
    ∧ K (tileCond s q tile) (.accz h tile) (X (.accz tile.toNat) h 0 0)
    ∧ K (moveCond s q tile xa xb fmt.toNat true) (.mst h tile xa xb fmt) (X (.mst tile.toNat fmt.toNat) h (x xa) (x xb))
    ∧ K (moveCond s q tile xa xb 0 false) (.mld h tile xa xb) (X (.mld tile.toNat) h (x xa) (x xb))
    ∧ exec (.msync h) s = .next (X .msync h 0 0)
    ∧ K (tileCond s q tile) (.mstat h tile xa) (X (.mstat tile.toNat) h (x xa) 0)
    ∧ K (scaleCond s q xa) (.scla lb xa) (X (.scale false lb (some (s.scrBytes q.core q.group q.seq0 (x xa) 1024)))
        ⟨0, 0, 0, 0⟩ (x xa) 0)
    ∧ K (scaleCond s q xa) (.sclb lb xa) (X (.scale true lb (some (s.scrBytes q.core q.group q.seq0 (x xa) 1024)))
        ⟨0, 0, 0, 0⟩ (x xa) 0)
    ∧ exec (.sclz side lb) s = .next (X (.scale side lb none) ⟨0, 0, 0, 0⟩ 0 0)
    ∧ (let shape := (s.group q.group).shape c.sh.toNat
       let late := c.timed && decide (s.now < (shape.getD 15 0).toNat)
       let cap := fun (z : Cmd) => { z with shape := shape, mask := c.mask, xform := c.xform.toNat, timed := late, inBuffer := late }
       exec (.copy c) s = .next (L .copy c.c cap) ∧ exec (.copyx c) s = .next (L .copyx c.c cap))
    ∧ exec (.tload o) s = .next (L .tload o id)
    ∧ exec (.pload o) s = .next (L (.pload (!(s.group q.group).pbank)) o id)
    ∧ exec (.dload o) s = .next (L .dload o id)
    ∧ exec (.intake o) s = .next (L .intake o id)
    ∧ exec (.shset sh field xa) s = .next (s.fly q 3 [(tk, .shape sh.toNat field.toNat,
        (x xa &&& lowMask (shapeWidth field.toNat)).zeroExtend 128)])
    ∧ exec (.shseti sh field imm) s = .next (s.fly q 3 [(tk, .shape sh.toNat field.toNat,
        ((if 5 ≤ field.toNat ∧ field.toNat ≤ 13 then imm.signExtend 64 else imm.zeroExtend 64)
          &&& lowMask (shapeWidth field.toNat)).zeroExtend 128)])
    ∧ (∀ (gr : Group) (n ch : Nat), n < 64 →
        let g' := (gr.takeTag n).takeIdent ch
        g'.tagsOut n = gr.tagsOut n + 1 ∧ g'.tags.getLsbD n = false
        ∧ (g'.chan ch).cid = (gr.chan ch).cid + 1 ∧ (g'.chan ch).cdone = (gr.chan ch).cdone
        ∧ ∀ k, k ≠ n → g'.tags.getLsbD k = gr.tags.getLsbD k ∧ g'.tagsOut k = gr.tagsOut k))

/-- BR gives each active lane as leaf the index of its first test whose predicate differs from the sense bit, or 4,
and a lane with a leaf below 4 goes to its b register with bit 0 taken as 0. LOOP and LOOP.L1 put a loop state in
flight for each active lane, as R120 and R124 give it, and LOOP traps as frame-bound where the rotation exceeds a
frame. LEND1 goes back to LS1 while LC1 is above 0. REFORM files the run. BAR blocks the lanes, EXIT ends them, SVC
posts a request and blocks them, or gives x1 all ones while no service store is on. TRAP traps when a test is 1 in
some lane, and does nothing else; BRK traps always. CALL and CALLI push the frames, RET and UNWIND pop them, DSWAP
arms or withdraws, and RESUME.SLOTS restores the trapped run, when none of their own conditions holds. A granted call
leaves its thread the captured entry, a new frame with the carried registers, and loop state and stage predicates 0. A
pop takes the frames and entries from its thread, and nothing while the entry that it returns to must first be read
back from memory; both leave other threads and memory alone. -/
def Obligations.BranchSlots : Prop :=
  ∀ (s : State) (q : Issue) (tests : List Test) (file mark sense : Bool) (xa xb pred dem : BitVec 4) (epi code : BitVec 8)
    (rot carry breg : BitVec 3) (num : BitVec 16) (g : Guard), s.issue = some q →
    let L := q.lanes
    let T := fun (l : Nat × Nat) (x : Test) => (s.thread l.2).readP x.pred.toNat != x.sense
    let n := fun (r : BitVec 4) (l : Nat × Nat) => ((xOf s l r).truncate 32 : Word)
    let lp := fun (l : Nat × Nat) => (s.thread l.2).loop
    let F := fun (i : Instr) (needs : Wl) (cond : Option Cond) (t : State) =>
      (q.cleared = true ∨ (s.wlStop q needs = none ∧ cond = none) → exec i s = .next t)
      ∧ ∀ bad, q.cleared = false → s.wlStop q needs = none → cond = some bad → exec i s = .next (s.takeCond q bad)
    exec (.br tests file) s = .next (L.foldl (fun z l => match tests.find? (T l) with
        | some x => z.way l.1 (.go ((s.thread l.2).readB x.breg.toNat &&& 0xFFFFFFFFFFFFFFFE))
        | none => z)
      { s with issue := some { q with leaf := L.map (fun l => (l.1, (tests.findIdx? (T l)).getD 4)),
                                      file := q.file || file } })
    ∧ exec .reform s = .next { s with issue := some { q with file := true } }
    ∧ (let t := s.fly q 1 (L.map (fun l => (l.2, .loop0, loop0Val
        { lp l with lc0 := if n xa l = 0 then 0 else n xa l - 1, ec := if n xa l = 0 then 0 else epi, rrb := 0, rot := rot,
                    ls0 := q.seqPc } (if n xa l = 0 then 0 else 1))))
       let fits := ∀ l ∈ L, rotSize rot.toNat ≤ (s.thread l.2).vCount
       (q.cleared = true ∨ fits → exec (.loop xa epi rot) s = .next t)
       ∧ (q.cleared = false → ¬ fits → exec (.loop xa epi rot) s = .next (s.takeCond q (Cond.plain q 0x05 0 0))))
    ∧ exec (.loopL1 xa) s = .next (s.fly q 1 (L.map (fun l => (l.2, .loop1, loop1Val
        { lp l with lc1 := if n xa l = 0 then 0 else n xa l - 1, ls1 := q.seqPc }))))
    ∧ exec .lend1 s = .next (L.foldl (fun z l =>
        if (lp l).lc1 = 0 then z.way l.1 (.go q.seqPc)
        else (z.fly q 1 [(l.2, .loop1, loop1Val { lp l with lc1 := (lp l).lc1 - 1 })]).way l.1 (.go (lp l).ls1)) s)
    ∧ (Unbarred q (statusCond s q) →
        exec .bar s = .next (L.foldl (fun z l => z.way l.1 (.block .bar q.seqPc)) s)
        ∧ (isService q.group = false →
            exec .exit s = .next ((L.foldl (fun z l => z.endThread l.2) ((s.landShapes q.run).leaveRun q.run L)).barCheck q.group))
        ∧ (isService q.group = true → (q.cleared = true ∨ s.recordHold q.core = none) → exec .exit s = .next (s.exitService q))
        ∧ (∀ w, isService q.group = true → q.cleared = false → s.recordHold q.core = some w →
            exec .exit s = .next (s.hold q.run w)))
    ∧ (let hit := L.filter (fun l => (s.thread l.2).readP pred.toNat != sense)
       (hit = [] → exec (.trap code pred sense) s = .next s)
       ∧ (hit ≠ [] → q.cleared = false → exec (.trap code pred sense) s = .next (s.takeCond q
          { Cond.plain q 0x0F 0 0 with lanes := hit.map (fun l => l.1), info := code.zeroExtend 64 })))
    ∧ (q.cleared = false →
        exec (.brk code) s = .next (s.takeCond q { Cond.plain q 0x10 0 0 with info := code.zeroExtend 64 }))
    ∧ (s.serviceOn = true → (q.cleared = true ∨ s.serviceFull q.core = false) →
        exec (.svc num) s = .next (L.foldl (fun z l => z.way l.1 (.block .svc q.seqPc)) (s.postService q num)))
    ∧ (s.serviceOn = false → exec (.svc num) s = .next { s.fly q 1 (L.map (fun l => (l.2, .x 1, 0xFFFFFFFFFFFFFFFF))) with
        issue := some { q with file := true } })
    ∧ F (.call breg dem carry mark) (callNeeds s q (fun _ => dem.toNat + 1)) none (L.foldl (fun z l =>
        z.callLane q l ((s.thread l.2).readB breg.toNat &&& 0xFFFFFFFFFFFFFFFE) (dem.toNat + 1) carry.toNat mark) s)
    ∧ (q.cleared = true → exec (.calli xa carry mark) s = .next (s.calliLanes q xa carry mark))
    ∧ (q.cleared = false → ∀ bad, (calliRead s q xa).orElse (fun _ => calliCond s q xa) = some bad →
        exec (.calli xa carry mark) s = .next (s.takeCond q bad))
    ∧ F (.ret carry) (.ok []) (retCond s q) (L.foldl (fun z l => z.popLane q l 1 ((s.thread l.2).carried carry.toNat)) s)
    ∧ F (.unwind xa) (.ok []) (unwindCond s q xa) (L.foldl (fun z l =>
        if (xOf s l xa).toNat = 0 then z.way l.1 (.go q.seqPc) else z.popLane q l (xOf s l xa).toNat []) s)
    ∧ (let read := L.foldl (fun z l => z.readMarks l) s
       (q.cleared = true ∨ (s.wlStop q (markNeeds s q) = none ∧ markCond s q = none) →
          exec .unwindMark s = .next (L.foldl (fun z l => z.unwindToMark q l (markOf s l)) read))
       ∧ ∀ bad, q.cleared = false → s.wlStop q (markNeeds s q) = none → markCond s q = some bad →
          exec .unwindMark s = .next (read.takeCond q bad))
    ∧ (∀ tk, leader s q g = some tk → Unbarred q (dswapCond s q g) →
        let a := (s.thread tk).readX xa.toNat
        (a = 0 → exec (.dswap xa g) s = .next (s.withdrawSwap q.group))
        ∧ (a ≠ 0 → exec (.dswap xa g) s = .next (match (s.withdrawSwap q.group).readMap q tk a with
            | none => (s.withdrawSwap q.group).markMap q tk a
            | some m => ((s.withdrawSwap q.group).markMap q tk a).modGroup q.group (fun g => { g with swap := some a, ymap := some m }))))
    ∧ (∀ tk (r : TrapRec) (bs : List Byte), leader s q g = some tk → s.trapOf L = some r →
        s.blockRead q tk ((s.thread tk).readX xb.toNat) (blockLen (resumeMask ((s.thread tk).readX xa.toNat))) = .ok bs →
        resumeStop s q xa xb g = none →
        exec (.resumeSlots xa xb g) s = .next ((s.markPages q.group ((s.thread tk).readX xb.toNat) bs.length).resume q r
          ((s.thread tk).readX xa.toNat) bs))
    ∧ (∀ st, resumeStop s q xa xb g = some st → exec (.resumeSlots xa xb g) s = .next (s.takeResumeStop q st))
    ∧ (∀ (l : Nat × Nat) (target : DWord) (d c : Nat), let t := s.thread l.2
        s.grantNow q.core l.1 d = true → t.depth ≠ 65535 → t.evicts = none →
        let z := s.callLane q l target d c mark
        z.thread l.2 = { t.setStage 0 with entries := ⟨q.seqPc, t.loop, t.stage, mark, d, true⟩ :: t.entries,
                                           frames := newFrame d (t.carried c) :: t.frames, loop := LoopState.zero }
        ∧ (∀ k, k ≠ l.2 → z.thread k = s.thread k) ∧ z.mem = s.mem)
    ∧ (∀ (l : Nat × Nat) (m : Nat) (vs : List Word), let t := s.thread l.2
        let z := s.popLane q l m vs
        ((t.entry (t.depth - m + 1)).onChip = true →
          (z.thread l.2).frames = t.frames.drop m ∧ (z.thread l.2).entries = t.entries.drop m)
        ∧ ((t.entry (t.depth - m + 1)).onChip = false → z.thread l.2 = t)
        ∧ (z.thread l.2).x = t.x ∧ (z.thread l.2).p = t.p ∧ (z.thread l.2).b = t.b
        ∧ (∀ k, k ≠ l.2 → z.thread k = s.thread k) ∧ z.mem = s.mem)

/-- A condition goes to the page path if its cause is 0x01 or 0x0C with reason 0 outside service code and its request
was not refused, and to the handler path with reason 2 if it was. A handler-bound condition in a group outside service
code whose threads are in handler mode, whose kernel has no handler, or whose tenant's save pool is disabled ends the
launch with status 0x07. Otherwise, when the run awaits no value and every byte of its header and shadows can be
written, the core holds the run's results for its threads in a trap record with the trapped PC and count, writes the
header and the shadows, and starts a run of the same lanes at count 0 at the handler label. Each trapped thread has x1
= the header's address, x2 = its shadow's address, x3 to x15, b registers, p1 to p7, frames and entries as they stood,
and its loop state and p8 to p15 zero; every other thread is unchanged. The header has its cause, identifier, reason,
masks, address and info at their offsets, and what RESUME.SLOTS reloads from an unedited shadow is what stood. -/
def Obligations.HandlerEntry : Prop :=
  (∀ (s : State) (q : Issue) (c : Cond),
    ((c.cause = 0x01 ∨ c.cause = 0x0C) → c.reason = 0 → isService q.group = false →
        (s.refusedRun q.run (s.group q.group).tenant (c.addr.toNat / 4096) c.kind = false →
          s.takeCond q c = s.holdPage q.run (s.group q.group).tenant c.addr c.kind)
        ∧ (s.refusedRun q.run (s.group q.group).tenant (c.addr.toNat / 4096) c.kind = true →
          s.takeCond q c = s.handlerBound q { c with reason := 2 }))
    ∧ (¬ ((c.cause = 0x01 ∨ c.cause = 0x0C) ∧ c.reason = 0) → s.takeCond q c = s.handlerBound q c))
  ∧ (∀ (s : State) (q : Issue) (c : Cond), isService q.group = false →
      inHandler s q.lanes = true ∨ (s.group q.group).kernel.handler = none ∨ s.poolOn (s.group q.group).tenant = false →
      let t := s.handlerBound q c
      t = s.fatalCond q c ∧ t.issue = none
      ∧ ∀ l ∈ s.launches, l.id = (s.group q.group).launch → l.status = none →
          { l with status := some 0x07, badGid := (s.group q.group).gid, detail := trapDetail c q.pc } ∈ t.launches)
  ∧ (∀ (s : State) (q : Issue) (c : Cond) (r : Run) (h : DWord) (fp : Nat) (ws : List (Nat × Byte)),
      isService q.group = false → inHandler s q.lanes = false → s.findRun q.run = some r →
      (s.group q.group).kernel.handler = some h → (s.group q.group).fixedPart = some fp →
      s.poolOn (s.group q.group).tenant = true → r.awaitsAny = none → s.poolLocs (s.group q.group).tenant (entryWrites s q c) = .ok ws →
      ws.findSome? (fun w => s.locHold true w.1) = none →
      (entryWrites s q c).findSome? (fun w => s.markWaits q.group true w.1) = none → c.cause ≠ 0x11 → (q.lanes.map (fun l => l.2)).Nodup →
      let t := s.handlerBound q c
      let low := ((leastBy (fun l => (s.thread l.2).tid) q.lanes).map (fun l => (s.thread l.2).tid)).getD 0
      let header : DWord := BitVec.ofNat 64 (fp + 256 * low)
      let mine := fun (v : Nat × QWord) => q.lanes.any (fun l => l.2 == v.1)
      (∃ n ∈ t.runs, n.core = q.core ∧ n.group = q.group ∧ n.lanes = q.lanes ∧ n.pc = h ∧ n.count = 0 ∧ n.flights = []
        ∧ n.ways = none ∧ n.held = none)
      ∧ t.traps = s.traps ++ [⟨s.ids, q.group, q.core, q.lanes, q.pc, q.count,
          (r.flights.map (fun f => { f with vals := f.vals.filter mine })).filter (fun f => !f.vals.isEmpty), header,
          (if c.cause = 1 ∨ c.cause = 2 then 0 else q.bundle), q.seqPc⟩]
      ∧ t.issue = none ∧ t.groups = s.groups
      ∧ t.mem = ((entryWrites s q c).foldl (fun z w => z.markRange q.group true w.1 w.2.length)
          (ws.foldl (fun z w => z.put w.1 [w.2]) s)).mem
      ∧ (∀ l ∈ q.lanes, let u := t.thread l.2
          let v := s.thread l.2
          u.readX 1 = header ∧ u.readX 2 = BitVec.ofNat 64 (fp + 256 * ((s.group q.group).kernel.gsize + v.tid))
          ∧ (∀ k, 3 ≤ k → u.readX k = v.readX k) ∧ u.b = v.b ∧ (∀ k, k < 8 → u.p.getLsbD k = v.p.getLsbD k)
          ∧ (∀ k, 8 ≤ k → u.p.getLsbD k = false) ∧ u.loop = LoopState.zero ∧ u.frames = v.frames ∧ u.entries = v.entries
          ∧ u.status = v.status ∧ u.amax = v.amax ∧ u.satcnt = v.satcnt ∧ u.rctr = v.rctr ∧ u.trap = some s.ids)
      ∧ ∀ k, (∀ l ∈ q.lanes, l.2 ≠ k) → t.thread k = s.thread k)
  ∧ (∀ (s : State) (q : Issue) (c : Cond), c.cause < 256 → c.ident < 256 → c.reason < 256 →
      let b := headerBytes s q c
      natAt b 0 8 = q.pc.toNat ∧ natAt b 8 48 = (if c.cause = 1 ∨ c.cause = 2 then 0 else q.bundle.toNat)
      ∧ natAt b 0x38 1 = c.cause ∧ natAt b 0x39 1 = c.ident ∧ natAt b 0x3A 1 = c.reason
      ∧ natAt b 0x3B 1 = (if c.write then 1 else 0)
      ∧ natAt b 0x3C 4 = (maskOf (q.lanes.map (fun l => l.1))).toNat ∧ natAt b 0x40 4 = (maskOf c.lanes).toNat
      ∧ natAt b 0x48 8 = c.addr.toNat ∧ natAt b 0x50 8 = c.info.toNat)
  ∧ (∀ (t v : Thread) (pc : DWord) (h : Bool) (w : Blocked), t.amax &&& 0x17FFFFFFF = t.amax →
      let u := v.reload (shadowBytes t pc h w)
      (∀ k, k < 16 → u.readX k = t.readX k) ∧ (∀ k, k < 8 → u.readB k = t.readB k) ∧ u.loop = t.loop
      ∧ (∀ k, 1 ≤ k → u.p.getLsbD k = t.p.getLsbD k) ∧ u.status = t.status ∧ u.amax = t.amax ∧ u.rctr = t.rctr
      ∧ u.satcnt = t.satcnt ∧ u.frames = v.frames ∧ u.entries = v.entries)

/-- From any state: BUNDLE_ISSUE, where no slots wait and the core issued nothing this cycle, settles the core, sends
its due signals and tries its candidates in order until one issues, which uses the cycle; later ones whose bundle
stalls or freezes leave the candidates. BIN_AGED makes a bin whose age limit has passed ready from the next cycle. The
earliest issued Siphon command of a core that can start starts, also by TIMED_COPY_START_TIME: it is marked started,
the Siphon starts no other that cycle, it does some work, and a copy of zero elements retires at once. The earliest
matrix command that can start starts, and MSYNC retires at once. COMMAND_RETIRE lets a started command go on; one that
is finished and whose record, if any, finds room writes its result and retires. That work is done at a start and at
COMMAND_RETIRE, and one start per cycle as a condition on the cycle count, are the model's (log entries 7 and 3).
FRAME_GRANT, if the oldest call waiter fits in blocks ready this cycle and no refill waits there, grants it: without
an eviction it gets its frame and entry, memory and other threads stand. SPILL_TIMEOUT, 1,024 cycles after the lane
last freed a block or while it spills, spills frames until the waiter fits, keeping a page request with the waiter.
REFILL makes the oldest request of the lane: an entry held in memory is read first. When every live thread of a group
with a yield map waits in swap wait, SWAP_COMMIT switches its kernel if the comparisons pass, and else withdraws.
GROUP_END ends a group with no live thread and no command; a retirement or an end leaves memory, other groups and
their threads alone. SERVICE_ENTRY enters service code for the oldest recorded request that a yield bundle has let in,
SERVICE_DEADLINE at its deadline: 32 threads in one run at PC 0. -/
def Obligations.CoreEvents : Prop :=
  ∀ s : State,
    (∀ core : Nat, s.issue = none → (s.core core).issueFrom ≤ s.coreCycles core →
      let z := (s.settleCore core).sendSignals core
      exec (.bundleIssue core) s = .next (tryAll z core (z.candidates core)))
    ∧ (∀ (core : Nat) (z : State) (c : Candidate) (rest : List Candidate),
        tryAll z core [] = z ∧ tryAll z core (c :: rest)
          = if (z.tryCandidate core c).2 = true then
              ((z.tryCandidate core c).1.holdRest core rest).modCore core (fun c => { c with issueFrom := z.coreCycles core + 1 })
            else tryAll (z.tryCandidate core c).1 core rest)
    ∧ (∀ (core bin : Nat) (b : Bin), (s.core core).bins[bin]? = some b → b.ready = none →
        b.oldest + (s.launchOf b.group).age ≤ s.coreCycles core →
        exec (.binAged core bin) s = .next (s.modCore core (fun c =>
          { c with bins := modAt (fun b => { b with ready := some (b.oldest + (s.launchOf b.group).age + 1) }) c.bins bin })))
    ∧ (∀ (core : Nat) (c : Cmd), c ∈ s.cmds → c.core = core → s.siphonReady c = true →
        (∀ d ∈ s.cmds, d.core = core → s.siphonReady d = true → c.id ≤ d.id ∧ (d.id = c.id → d = c)) →
        exec (.siphonCommandStart core) s = .next (s.startSiphon c))
    ∧ (∀ (cmd : Nat) (c : Cmd), s.findCmd cmd = some c → c.timed = true → s.siphonReady c = true →
        (∀ d ∈ s.cmds, d.core = c.core → s.siphonReady d = true → c.id ≤ d.id) →
        exec (.timedCopyStartTime cmd) s = .next (s.startSiphon c))
    ∧ (∀ c d : Cmd,
        let c' := { c with started := true, inBuffer := false, startSeq := s.ids, keys := if c.op = .intake then s.mgmt.keys else [] }
        let z := ((s.nextId.modCmd c.id (fun _ => c')).modCore c.core (fun k =>
          { k with siphonFrom := s.coreCycles c.core + 1 })).stepCmd c'
        let empty := d.finished = true ∧ (d.op = .copy ∨ d.op = .copyx) ∧ d.total = 0
        z.findCmd c.id = some d → (empty → s.startSiphon c = z.tryRetire d) ∧ (¬ empty → s.startSiphon c = z))
    ∧ (∀ (core : Nat) (c : Cmd), c ∈ s.cmds → c.core = core → s.matrixReady c = true →
        (∀ d ∈ s.cmds, d.core = core → s.matrixReady d = true → c.id ≤ d.id ∧ (d.id = c.id → d = c)) →
        let z := (s.startMatrix c).modCore core (fun k => { k with matrixFrom := s.coreCycles core + 1 })
        (c.op ≠ .msync → exec (.matrixCommandStart core) s = .next z)
        ∧ (c.op = .msync → exec (.matrixCommandStart core) s = .next (match z.findCmd c.id with
            | none => z
            | some d => if d.finished = true then z.tryRetire d else z)))
    ∧ (∀ (c : Cmd) (r : Option Rec), let t := s.retire c r
        t.mem = s.mem ∧ t.scr = s.scr ∧ t.threads = s.threads ∧ t.runs = s.runs ∧ t.cores = s.cores
        ∧ (∀ k, k ≠ c.group → t.group k = s.group k) ∧ t.cmds = s.cmds.filter (fun d => d.id != c.id))
    ∧ (∀ (cmd : Nat) (c : Cmd), s.findCmd cmd = some c → c.started = true →
        (c.finished = true → ((recordOf s c).isSome = false ∨ (s.group c.group).statRoom = true) →
          exec (.commandRetire cmd) s = .next ((s.retireEffect c).retire c (recordOf s c)))
        ∧ (∀ c', c.finished = false → (s.stepCmd c).findCmd cmd = some c' → c'.finished = false →
          exec (.commandRetire cmd) s = .next (s.stepCmd c))
        ∧ (∀ c', c.finished = false → (s.stepCmd c).findCmd cmd = some c' → c'.finished = true →
          exec (.commandRetire cmd) s = .next ((s.stepCmd c).tryRetire c')))
    ∧ (∀ (core lane : Nat) (w : Waiter), s.oldestWaiter core lane = some w → s.oldestRefill core lane = none →
        s.waitsAs core w.thread .frame = true → s.reqOpen w.req = false →
        (w.dem ≤ s.blocksReady core lane → exec (.frameGrant core lane) s = .next (s.grantWaiter core w))
        ∧ (let on := s.spillingFor core lane w.thread
           on.isSome = true ∨ max w.since (spGet (fun _ => (0, 0)) (s.core core).lastFreed lane).1 + 1024 ≤ s.coreCycles core →
            let r := spillUntil s core lane w.dem (on.getD none) 4096
            (r.2 = none → exec (.spillTimeout core lane) s = .next (r.1.setSpilling core lane
              (if w.dem ≤ r.1.blocksFree core lane then none else some (w.thread, none))))
            ∧ ∀ v x, r.2 = some (v, x) → let z := (r.1.setSpilling core lane (some (w.thread, some v))).wlWait v.1 x
                exec (.spillTimeout core lane) s = .next (z.1.setWaiter core w.thread (fun v => some { v with req := z.2 }))))
    ∧ (∀ (core : Nat) (w : Waiter), (s.thread w.thread).evicts = none → let t := s.grantWaiter core w
        t.mem = s.mem ∧ (∀ k, k ≠ w.thread → t.thread k = s.thread k) ∧ t.groups = s.groups
        ∧ (t.thread w.thread).entries = w.entry :: (s.thread w.thread).entries
        ∧ (t.thread w.thread).frames = newFrame w.dem w.carried :: (s.thread w.thread).frames)
    ∧ (∀ (core lane : Nat) (r : RefillReq), s.oldestRefill core lane = some r → s.waitsAs core r.thread .refill = true →
        s.reqOpen r.req = false →
        (r.entryAt = none → exec (.refill core lane) s = .next (s.refillFrame core r))
        ∧ (∀ d ls, r.entryAt = some d → s.wlLocs r.thread needR (s.recordAddr r.thread d) 64 = .ok ls →
            let e := entryOf (ls.map s.byte)
            let r' := { r with entryAt := none, pops := 0, pc := e.ret }
            exec (.refill core lane) s = .next ((((((s.markRange (s.thread r.thread).group false (s.recordAddr r.thread d)
              64).dropFrames core lane r.thread r.pops).modThread r.thread (fun t => t.takeEntry e r.late)).setRefill core r.thread
              (fun _ => some r')).refillFrame core r'))))
    ∧ (∀ (group : Nat) (m : YieldMap), (s.group group).ymap = some m → s.liveThreads group ≠ [] → s.groupRuns group = true →
        (∀ tk ∈ s.liveThreads group, (s.thread tk).blocked = .swap) →
        (swapPasses s group m = true → exec (.swapCommit group) s = .next (s.switchKernel group m))
        ∧ (swapPasses s group m = false → exec (.swapCommit group) s = .next (s.withdrawSwap group)))
    ∧ (∀ group : Nat, (s.group group).place ≠ .ended → s.liveThreads group = [] → (∀ c ∈ s.cmds, c.group ≠ group) →
        exec (.groupEnd group) s = .next (s.endGroup group))
    ∧ (∀ group : Nat, let t := s.endGroup group
        t.mem = s.mem ∧ t.scr = s.scr ∧ (∀ k, k ≠ group → t.group k = s.group k)
        ∧ t.runs = s.runs.filter (fun r => r.group != group)
        ∧ t.threads = s.threads.filter (fun q => groupOfThread q.1 != group))
    ∧ (∀ (core : Nat) (r : SvcReq) (rest : List SvcReq), (s.core core).svcQueue = r :: rest → (s.core core).service = none →
        s.issue = none → r.recorded = true →
        (r.yielded = true → exec (.serviceEntry core) s = .next (s.enterService core r rest))
        ∧ (r.arrived + max 1 (s.field regSrvdl 0 32) ≤ s.coreCycles core → (s.core core).issueFrom ≤ s.coreCycles core →
            exec (.serviceDeadline core) s = .next (s.enterService core r rest))
        ∧ (let t := s.enterService core r rest
           (∃ n ∈ t.runs, n.core = core ∧ n.group = serviceKey core ∧ n.pc = 0 ∧ n.count = 0
                ∧ n.lanes = (List.range 32).map (fun k => (k, threadKey (serviceKey core) k)))
            ∧ (t.core core).service = some r ∧ (t.core core).svcQueue = rest ∧ t.mem = s.mem))

/-- From any state: an aligned 8-byte write below 0x40 of a launch window changes those bytes of its cell packet and
makes it untaken, and any other write changes nothing; an aligned 8-byte read of the packet part answers its bytes,
one of the result part first takes an untaken packet that can be taken, and a misaligned or other-sized read answers
zeros. LAUNCH_BATCH_ACCEPT, once the release has completed, writes back the local lines of the core, reads the packets
and takes the lanes in order if each can be taken. MEMORY_CONDITION_POLL evaluates the condition (log entry 25).
QUEUE_AGING raises a queue below effective level 7 by one when AGEL of that level has passed. PLACE_GANG places the
chosen gang on cores that fit it (log entry 23), where no saved gang comes first and nothing is waited for, loading a
dictionary if no bank holds it. WAIT_PARK_CANDIDATE marks a resident group with a wait of 4,096 reference cycles (log
entry 24); PARK_GROUP parks a group that R332 lets park, and changes no byte, thread, run or other group; UNPARK_GROUP
makes a parked group that can run and has a seat resident, and files its free threads. PREEMPT asks the first victims
of the cluster (log entry 24) to yield, PREEMPT_DEADLINE stops a group at its deadline, CONTEXT_SAVE saves a group
that is due and ready: beyond the part and the shadows, and what the core writes back, it changes only A and D bits,
and no group of another launch; CONTEXT_RESTORE restores the chosen saved gang on the cores named. LAUNCH_COMPLETE
writes back its cores and completes a launch that is done; LAUNCH_ABORT ends the open groups of a live launch with a
status and drops those not placed. PAGE_REQUEST_POST writes an unposted request to a queue that is not full and posts
it; PRRESP_WRITE takes the request away, refusing it if REFUSE is set. Of an event that has to wait for a page, a
copy, an owner or a host line, this says nothing. -/
def Obligations.SchedulerEvents : Prop :=
  ∀ s : State,
    (∀ (tenant : BitVec 6) (cell : BitVec 5) (off : BitVec 7) (bytes : List (BitVec 8)), let k := cellKey tenant cell
      (off.toNat % 8 = 0 → bytes.length = 8 → off.toNat < 0x40 →
        exec (.launchWindowWrite tenant cell off bytes) s = .next (s.setCell k
          { s.cell k with packet := spSetN (fun _ => 0) (s.cell k).packet off.toNat bytes, taken := false }))
      ∧ (off.toNat % 8 ≠ 0 ∨ bytes.length ≠ 8 ∨ 0x40 ≤ off.toNat →
        exec (.launchWindowWrite tenant cell off bytes) s = .next s)
      ∧ (off.toNat % 8 = 0 → off.toNat < 0x40 → exec (.launchWindowRead tenant cell off 8) s
          = .next (s.send (.windowReply (spGetN (fun _ => 0) (s.cell k).packet off.toNat 8))))
      ∧ (off.toNat % 8 = 0 → 0x40 ≤ off.toNat → ((s.cell k).taken = true ∨ s.canTake tenant.toNat (s.cell k).words = true) →
          let z := if (s.cell k).taken then s else s.takeCell tenant.toNat k
          exec (.launchWindowRead tenant cell off 8) s
            = .next (z.send (.windowReply (spGetN (fun _ => 0) (z.cell k).result (off.toNat - 0x40) 8))))
      ∧ (∀ len, off.toNat % 8 ≠ 0 ∨ len ≠ 8 →
          exec (.launchWindowRead tenant cell off len) s = .next (s.send (.windowReply (List.replicate len 0)))))
    ∧ (∀ (batch : Nat) (b : Batch), s.sched.batches.find? (fun b => b.id == batch) = some b → s.batchFree b = true →
        s.l1Waits b.core (fun _ => true) = none →
        let t := (s.group b.group).tenant
        let z := s.writebackL1 b.core (fun _ => true)
        let packet : Nat → List DWord := fun loc => packetWords (z.bytes loc 64)
        z.batchWaits t b = none → (∀ l ∈ b.lanes, z.owned l.2.2 64 = false ∧ z.canTake t (packet l.2.2) = true) →
        let y := b.lanes.foldl (fun y l => y.homeReads l.2.2 64)
          { z with sched := { z.sched with batches := z.sched.batches.filter (fun c => c.id != batch) } }
        exec (.launchBatchAccept batch) s
          = .next ((b.lanes.map (fun l => (l.1, l.2.1, packet l.2.2))).foldl (fun y l => y.takeLane t l) y))
    ∧ (∀ (launch : Nat) (l : Launch), s.findLaunch launch = some l →
        exec (.memoryConditionPoll launch) s = .next (s.evalCond l).settleReady)
    ∧ (∀ (tenant : BitVec 6) (level : BitVec 3) (l : Launch) (rest : List Launch),
        s.queueOf tenant.toNat level.toNat = l :: rest →
        let k := queueKey tenant.toNat level.toNat
        let age := s.field (regAgel (s.queue k).eff) 0 32
        let due := max (l.ready.getD 0) (s.queue k).since + age
        age ≠ 0 → (s.queue k).eff < 7 → due ≤ s.now →
        exec (.queueAging tenant level) s = .next (s.setQueue k ⟨(s.queue k).eff + 1, due⟩))
    ∧ (∀ (cores : List Nat) (p : Pick), s.mgmt.fatal = none → s.pick = some p → s.restorable p.launch = none →
        s.launchHeld p.launch = false → (∀ c ∈ cores, s.unparksFirst c = false) → cores.length = p.launch.step →
        (placeGangs s p.launch p.launch.nextGroup cores [] (p.launch.step / p.launch.gang)).isSome = true →
        s.freshOwned cores = false → s.freshWaits cores p.launch.fuse = none →
        (p.launch.firstPlaced.isSome = true ∨ s.streamWaits p.launch = none) →
        exec (.placeGang cores) s = .next (if cores.any (fun c => (s.seatNew p.launch c).any (fun p => p.load))
          then s.placeLoading p cores else s.placeWith p cores []))
    ∧ (∀ group : Nat, (s.group group).place = .resident → (∃ w ∈ s.waitsOf group, w.2 + 4096 ≤ s.now) →
        exec (.waitParkCandidate group) s = .next (s.modGroup group (fun g =>
          { g with candidate := true, waitSince := leastBy (fun n => n) ((s.waitsOf group).map (fun w => w.2)) })))
    ∧ (∀ group : Nat, s.parkable group = true → exec (.parkGroup group) s = .next (s.park group)
        ∧ (s.park group).mem = s.mem ∧ (s.park group).scr = s.scr ∧ (s.park group).threads = s.threads
        ∧ (s.park group).runs = s.runs ∧ ((s.park group).group group).place = .parked
        ∧ ∀ k, k ≠ group → (s.park group).group k = s.group k)
    ∧ (∀ (group : Nat) (w : Windows), s.canRun group = true → s.unparkSeat group = some w →
        let g := s.group group
        let z := if g.kernel.scales then s.modCore g.core (fun c => { c with latches := g.latches }) else s
        let z := z.modGroup group (fun g =>
          { g with place := .resident, parkedOn := [], semAt := w.sem, tagAt := w.tag, tileAt := w.tile, fmtAt := w.fmt })
        exec (.unparkGroup group) s = .next ((z.fileFree group).barCheck group))
    ∧ (∀ (cluster : Nat) (ks : List Nat), s.mgmt.fatal = none → s.pressing.findSome? (fun l => s.victims l.1 l.2 cluster) = some ks →
        exec (.preempt cluster) s
          = .next (ks.foldl (fun z k => z.modGroup k (fun g => { g with yieldReq := some s.now })) s))
    ∧ (∀ (group t : Nat), (s.group group).place = .resident → (s.group group).stopped = false →
        (s.group group).yieldReq = some t → t + s.field regPredl 0 32 ≤ s.now →
        exec (.preemptDeadline group) s = .next (s.modGroup group (fun g => { g with stopped := true })))
    ∧ (∀ group : Nat, s.saveDue group = true → s.saveReady group = true → s.poolHeld group = false →
        (s.launchOf group).status = none → exec (.contextSave group) s = .next (s.saveGroup group))
    ∧ (∀ (group a : Nat) (ls : List (Nat × BitVec 8)),
        let z := s.landGroup group
        let g := z.group group
        let secs := z.sections group (z.lastOfGang group)
        let ws := z.shadowWrites group ++ partWrites (BitVec.ofNat 64 a) secs
        let y := z.writebackL1 g.core (fun _ => true)
        z.poolOn g.tenant = true → z.poolFit g.tenant (partSize secs) 64 = some a → z.poolLocs g.tenant ws = .ok ls →
        z.saveWaits group ws ls = none → z.saveOwned group ws = false →
        ((s.saveGroup group).group group).place = .saved
        ∧ ((s.saveGroup group).group group).contextPart = some (a, partSize secs)
        ∧ (∀ k, (z.group k).launch ≠ g.launch → (s.saveGroup group).group k = z.group k)
        ∧ (∀ d, (∀ w ∈ ls, w.1 ≠ d) → (s.saveGroup group).byte d ||| 0xC0 = y.byte d ||| 0xC0))
    ∧ (∀ (group : Nat) (cores ks : List Nat) (p : Pick) (t : State), s.mgmt.fatal = none → s.pick = some p →
        s.restorable p.launch = some ks → group ∈ ks → cores.length = ks.length → (∀ c ∈ cores, s.unparksFirst c = false) →
        s.restoreReady ks = true → s.restoreOwned ks cores = false → s.restoreWaits ks cores = none →
        (restoreGangs s s (s.inGangs ks) cores = some (t, true) → exec (.contextRestore group cores) s
          = .next (((s.restoreReads ks cores).foldl (fun z r => z.markReads r.1 r.2) t).payFor p))
        ∧ (restoreGangs s s (s.inGangs ks) cores = some (t, false) → exec (.contextRestore group cores) s = .next t))
    ∧ (∀ (launch : Nat) (l : Launch), s.findLaunch launch = some l →
        (s.launchDone l = true → s.recordHeld l = false →
          (∀ c ∈ s.launchCores launch, s.ownedDirty c (fun _ => true) = false) → s.launchWaits launch = none →
          exec (.launchComplete launch) s
            = .next (((s.launchCores launch).foldl (fun z c => z.writebackL1 c (fun _ => true)) s).completeLaunch l))
        ∧ (l.live = true → l.status.isSome = true →
          let z := (s.openGroups launch).foldl (fun z k => z.abortGroup k) s
          exec (.launchAbort launch) s = .next (({ z with sched := { z.sched with
            images := z.sched.images.filter (fun m => m.1 / 2 ^ 22 != launch),
            imageSat := z.sched.imageSat.filter (fun k => k / 2 ^ 22 != launch) } }).modLaunch launch
            (fun l => { l.dropUnplaced with condReq := none }))))
    ∧ (∀ (req : Nat) (q : PageReq), s.reqs.find? (fun q => q.id == req && !q.posted) = some q →
        (s.queueTail + 2 ^ 32 - s.queueHead) % 2 ^ 32 ≠ s.queueSize → s.hubOwned s.queueSlot 32 = false → s.hubWaits s.queueSlot 32 = none →
        exec (.pageRequestPost req) s = .next ((s.hubPut s.queueSlot (s.requestBytes q)).posted q))
    ∧ (∀ (id : BitVec 16) (refuse : Bool) (q : PageReq), s.reqs.find? (fun q => q.num == id.toNat && q.posted) = some q →
        let z := { s with reqs := s.reqs.filter (fun r => r.id != q.id) }
        exec (.prrespWrite id refuse) s = .next (if refuse then z.refuseReq q else z).settleConds.settleTxs)

/-- From any state: a TABOWN write stores its owner bits and lets the slots of its core follow; a register write
answers a next state whatever it is, one that is not aligned and of 8 bytes changes nothing, a register without
behaviour of its own is written plainly (the own endpoint entry ignores it, a port or route write flushes forwards),
and TENCFG takes its writable bits (log entry 34). PFADD, a scrub and an uncorrectable error (after what becomes of
the access that met it) add a frame: one already there or beyond device memory (log entry 28) changes nothing, one
more than the table holds is fatal, and else its unperformed writes perform, it joins the table, cached copies and
translations of it go and the cores settle; PFDEL zeroes and removes a frame of the table that no command owns, no
write is due to and nothing waits for. A TLBINV write starts an invalidation or sets ERR while one is in progress; it
is done, its entries gone, when they are quiet and nothing is waited for. SNADD and SNREM change members and SNAP
cuts, in an Idle domain; SNOUT starts a drain after the cut and SNSTOP ends cut or drain; SNADD, SNREM and SNAP
elsewhere set RES 1 (RES codes: log entry 29); drain pages are sent in ascending order and acknowledged, or the drain
fails; SNPOOL is written only while all 16 domains are Idle. A page whose copy bit is set and that a write waits on is
copied to the lowest free pool page (log entry 29). Hosts, PCIe devices and running harts read and write device memory
that exists, is owned by no command and waits for nothing, each access in one step; harts also use lr, sc (answering 0
or 1), amo and fences (log entry 33). A write changes its bytes alone. A host snoop returns a host-shared line and
drops the device copies; a directory answer records the host level, and what waited settles. -/
def Obligations.HubEvents : Prop :=
  ∀ s : State,
    (∀ (core : Nat) (hi : Bool) (v : BitVec 64), core < 768 → exec (.tabownWrite core hi v) s
        = .next ((List.range 8).foldl (fun z k => z.syncOwner core (if hi then 8 + k else k))
            (s.setReg (regTabown core hi) (v &&& 0xBFBFBFBFBFBFBFBF))))
    ∧ (∀ (off size : Nat) (v : BitVec 64), (size = 8 ∧ off % 8 = 0 → exec (.registerWrite off size v) s = s.hubWrite off v)
        ∧ (¬ (size = 8 ∧ off % 8 = 0) → exec (.registerWrite off size v) s = .next s)
        ∧ (∃ t, exec (.registerWrite off size v) s = .next t)
        ∧ (size = 8 → off % 8 = 0 → off < 0x4000000 → ¬ (lwBase ≤ off ∧ off < lwBase + 0x40000) →
            inBank off (regTabown 0 false) 8 1536 = false → inBank off (regSnstat 0) 8 16 = false →
            inBank off islBase 8 128 = false → inBank off monBase 0x100 32 = false →
            off ∉ [regDiecmd, regPfadd, regPfdel, regTlbinv, regTlbstat, regPrresp, regSncmd, regSnpool] →
            exec (.registerWrite off size v) s = .next (s.plainWrite off v)
              ∧ s.plainWrite off v = if off = regFbep s.pkg then s
                else if (inBank off (regFbport 0) 8 16 || inBank off (regFbroute 0) 8 64) = true then
                  (s.writeReg off v).flushForwards else s.writeReg off v))
    ∧ (∀ (t : Nat) (v : BitVec 64), t < 64 → regTencfg t ≠ regFbep s.pkg → exec (.registerWrite (regTencfg t) 8 v) s = .next (s.writeReg (regTencfg t) v)
        ∧ (s.writeReg (regTencfg t) v).reg (regTencfg t) = (s.reg (regTencfg t) &&& ~~~(0x107FF : BitVec 64)) ||| (v &&& 0x107FF))
    ∧ (∀ f : BitVec 28, exec (.pfadd f) s = .next (s.addFrame f.toNat)
        ∧ (∀ stack, stack < 12 → exec (.scrub stack (some f)) s = .next (s.addFrame f.toNat))
        ∧ (∀ stack, exec (.scrub stack none) s = .next s)
        ∧ (∀ (addr : Nat) (met : ErrMet), addr < devSize →
            exec (.uncorrectableError addr met) s = .next ((s.errorMet addr met).addFrame (addr / 4096)))
        ∧ (f.toNat ∈ s.pageFail ∨ devSize ≤ 4096 * f.toNat → s.addFrame f.toNat = s)
        ∧ (f.toNat ∉ s.pageFail → 4096 * f.toNat < devSize →
          (65536 ≤ s.pageFail.length → s.addFrame f.toNat = s.enterFatal 1 (BitVec.ofNat 64 f.toNat))
          ∧ (s.pageFail.length < 65536 → let y := s.flushFrame f.toNat
              (∃ z : State, s.addFrame f.toNat = z.settleCores ∧ z.pageFail = y.pageFail ++ [f.toNat] ∧ z.mem = y.mem
                ∧ z.threads = y.threads ∧ z.groups = y.groups ∧ (∀ q ∈ z.cores, ∀ l ∈ q.2.lines, inFrame f.toNat l.1 = false)
                ∧ ∀ e ∈ z.tlb, e ∈ y.tlb ∧ e.onFrame y f.toNat = false)
              ∧ ((∀ q ∈ s.cores, ∀ w ∈ (s.core q.1).writes, w.onFrame f.toNat = false) →
                (∀ o ∈ s.fab.ops, ∀ a v, o.kind = .fst a v → inFrame f.toNat a = false) →
                y.mem = s.mem ∧ y.pageFail = s.pageFail ∧ y.tlb = s.tlb ∧ y.threads = s.threads ∧ y.groups = s.groups)))
        ∧ (∀ (addr g : Nat) (va : Nat), s.errorMet addr .nothing = s
            ∧ s.errorMet addr (.windlass g va) = s.endGroupLaunch g 0x02 (BitVec.ofNat 64 va))
        ∧ (f.toNat ∈ s.pageFail → (∀ l ∈ linesOf (4096 * f.toNat) 4096, s.owned l 128 = false) → s.frameDue f.toNat = false →
            s.writeWaits (4096 * f.toNat) 4096 = none → ∃ t, exec (.pfdel f) s = .next t ∧ t.mem = (s.zeroFrame f.toNat).mem
            ∧ f.toNat ∉ t.pageFail ∧ (∀ g, g ≠ f.toNat → (g ∈ t.pageFail ↔ g ∈ s.pageFail)))
        ∧ (f.toNat ∉ s.pageFail → exec (.pfdel f) s = .next s))
    ∧ (∀ (asid : BitVec 16) (n : BitVec 24),
        (s.inval.isSome = true → exec (.tlbinvAsid asid) s = .next (s.setField regTlbstat 1 1 1)
          ∧ exec (.tlbinvRange asid n) s = .next (s.setField regTlbstat 1 1 1)
          ∧ exec .tlbinvAll s = .next (s.setField regTlbstat 1 1 1))
        ∧ (s.inval = none →
          let I := fun (v : Inval) => ({ s.setField regTlbstat 0 1 1 with inval := some v } : State)
          exec (.tlbinvAsid asid) s = .next (I ⟨1, asid, s.field regTlbva 0 45, 0⟩)
          ∧ exec (.tlbinvRange asid n) s = .next (I ⟨2, asid, s.field regTlbva 0 45, n.toNat + 1⟩)
          ∧ exec .tlbinvAll s = .next (I ⟨3, 0, s.field regTlbva 0 45, 0⟩)))
    ∧ (∀ v : Inval, s.inval = some v → (∀ e ∈ s.tlb, v.takes e = true → s.entryQuiet e = true) →
        (s.tlb.filter v.takes).findSome? s.entryWaits = none →
        ∃ t, exec .tlbInvalidationDone s = .next t ∧ t.inval = none ∧ ∀ e ∈ t.tlb, v.takes e = false)
    ∧ (∀ (d : BitVec 4) (first n : BitVec 24), let D := d.toNat
        (s.domState D = 0 → exec (.snadd d first n) s = .next (s.setMembers D first.toNat n.toNat (some D))
          ∧ exec (.snrem d first n) s = .next (s.setMembers D first.toNat n.toNat none)
          ∧ exec (.snap d) s = .next (if s.poolInvalid then s.setRes 4 else (s.cut D).setRes 0))
        ∧ (s.domState D = 1 → (s.reg regSntgt = 0 → exec (.snout d) s = .next (s.setRes 6))
          ∧ (s.reg regSntgt ≠ 0 → exec (.snout d) s
              = .next ({ (s.setDomState D 2).setRes 0 with snap := { s.snap with next := spErase s.snap.next D } }.drainEnd D)))
        ∧ (s.domState D = 1 ∨ s.domState D = 2 → exec (.snstop d) s
            = .next (let t := ((s.setCopyBits (s.domPages D) false).setDomState D 0).setRes 0
              { t with snap := { t.snap with copies := t.snap.copies.filter (fun c => c.2.2 != D),
                                             sent := t.snap.sent.filter (fun q => q.2 != D),
                                             next := spErase t.snap.next D } }.settleTxs))
        ∧ (s.domState D ≠ 0 → exec (.snadd d first n) s = .next (s.setRes 1) ∧ exec (.snrem d first n) s = .next (s.setRes 1)
            ∧ exec (.snap d) s = .next (s.setRes 1))
        ∧ (∀ p, s.domState D = 2 → (s.toSend D).find? (fun p => decide (spGet (fun _ => 0) s.snap.next D ≤ p)) = some p →
            s.drainReaches = true → s.drainOwned p = false → s.drainWaits p = none → exec (.drainPageSend d) s = .next (s.sendPage D p).settleTxs
              ∧ (s.sendPage D p).mem = s.mem ∧ (s.sendPage D p).snap.sent = s.snap.sent ++ [(p, D)]
              ∧ (s.sendPage D p).snap.member = s.snap.member ∧ (s.sendPage D p).snap.copies = s.snap.copies)
        ∧ (∀ p, s.domState D = 2 → (p, D) ∈ s.snap.sent → exec (.drainPageAck d p) s = .next
            ({ s with snap := { s.snap with sent := s.snap.sent.filter (fun q => q != (p, D)),
                                            copies := s.snap.copies.filter (fun c => c.1 != p) } }.drainEnd D))
        ∧ exec (.drainTargetFail d) s = .next (s.drainFails D))
    ∧ (∀ v : BitVec 64, ((∀ d < 16, s.domState d = 0) → exec (.snpoolWrite v) s = .next (s.setReg regSnpool (v &&& 0xFFFFFFFFFFFF)))
        ∧ ((∃ d < 16, s.domState d ≠ 0) → exec (.snpoolWrite v) s = .next (s.setRes 4)))
    ∧ (∀ page d p : Nat, s.copyBit page = true → page ∈ s.snap.asked → s.domainOf page = some d → s.freePoolPage = some p →
        let t := (s.copyPage page p).setCopyBits [page] false
        exec (.copyBeforeWrite page) s
          = .next { t with snap := { t.snap with copies := t.snap.copies ++ [(page, p, d)] } }.settleTxs
        ∧ (page < 2 ^ 24 → p < 2 ^ 24 → ∀ a, a < 2 ^ 60 →
            t.byte a = if a / 65536 = p then s.byte (page * 65536 + a % 65536) else s.byte a))
    ∧ (∀ (addr loc len : Nat) (bs : List (BitVec 8)), s.paKind addr = .dev loc →
        let y := s.homeReads loc len
        let rd := fun (agent : Nat) => if agent = 0 then y.fabSend y.pod (.readReply agent (s.bytes loc len))
          else y.reply agent (s.bytes loc len)
        let okR := s.runOk loc len = true ∧ s.runOwned loc len = false ∧ s.runWaits false loc len = none
        let okW := s.runOk loc bs.length = true ∧ s.runOwned loc bs.length = false ∧ s.runWaits true loc bs.length = none
        (∀ (hart a : Nat), let t := s.hartPut hart loc bs
          (s.putRun loc bs).byte a = (if loc ≤ a ∧ a < loc + bs.length then bs.getD (a - loc) 0 else s.byte a)
          ∧ t.byte a = (s.putRun loc bs).byte a ∧ t.threads = s.threads ∧ t.groups = s.groups ∧ t.runs = s.runs ∧ t.cores = s.cores)
        ∧ (s.fabricOn = true → (okR → exec (.hostAccess addr (.read len)) s = .next (rd 0))
          ∧ (okW → exec (.hostAccess addr (.write bs)) s = .next (s.putRun loc bs)))
        ∧ (∀ port, port < 2 → s.dieState (9 + port) = 2 →
            (okR → exec (.pcieMemoryRequest port addr (.read len)) s = .next (rd (1 + port)))
            ∧ (okW → exec (.pcieMemoryRequest port addr (.write bs)) s = .next (s.putRun loc bs)))
        ∧ (∀ (hart : Nat) (v : BitVec 64) (aq rl : Bool), hart < 24 → s.dieState 8 = 2 → s.mgmt.hartsRunning = true → s.mgmt.fatal = none →
            let X := fun (o : HartOp) => exec (.hartAccess hart addr o) s
            let ans := fun (z : State) (b : List Byte) => (Host.Outcome.next (z.reply (3 + hart) b) : Out)
            let okA := atomicOk loc len = true ∧ s.runOk loc len = true ∧ s.runOwned loc len = false
            let held := s.mgmt.reserved.any (fun r => r.1 == hart && decide (r.2.1 ≤ loc) && decide (loc + len ≤ r.2.1 + r.2.2))
              && s.copyOf hartAgent loc != .i
            (okR → X (.load len) = ans (s.hartRead loc len) (s.bytes loc len))
            ∧ (okW → X (.store bs) = .next (s.hartPut hart loc bs))
            ∧ (∀ k, X (.fence k) = .next s)
            ∧ (okA → s.runWaits false loc len = none → X (.lr len aq rl)
                = ans ((s.hartRead loc len).reserve hart (some (loc, len))) (s.bytes loc len))
            ∧ (okA → held = false → X (.sc len v aq rl) = ans (s.reserve hart none) (leBytes len 1))
            ∧ (okA → held = true → s.runWaits true loc len = none → X (.sc len v aq rl)
                = if Config.scFails s.turn = true then ans (s.reserve hart none) (leBytes len 1)
                  else ans ((s.hartPut hart loc (leBytes len v.toNat)).reserve hart none) (leBytes len 0))
            ∧ (∀ a, okA → s.runWaits true loc len = none → X (.amo a len v aq rl)
                = ans (s.hartPut hart loc (leBytes len (amoResult a (8 * len) (leNat (s.bytes loc len))
                    (v.toNat % 2 ^ (8 * len))))) (s.bytes loc len))))
    ∧ (∀ line : Nat, s.fabricOn = true → s.hostShared (lineOf line) = true → s.runOk (lineOf line) 128 = true →
        s.owned (lineOf line) 1 = false → exec (.hostSnoop line) s = .next (((s.dirDrop (lineOf line)).setHostLine
          (lineOf line) 2).fabSend s.pod (.snoopReply (lineOf line) (s.bytes (lineOf line) 128))))
    ∧ (∀ ask : DirAsk, s.fabricOn = true → s.fab.hostAsked.contains (lineOf ask.line, ask.inval) = true →
        let l := lineOf ask.line
        let t := { s with fab := { s.fab with hostAsked := s.fab.hostAsked.filter (fun k => k != (l, ask.inval)) } }
        exec (.directoryResponse ask) s
          = .next (((t.setHostLine l (if ask.inval = true then 0 else min 1 (t.hostLevel l))).settleCores).settleConds))

/-- From any state: PACKAGE_RESET keeps module flash (log entry 5) and leaves memory, threads, groups, launches and
cores empty and the time at reset. An enumerating die records its table; one that passes becomes active with its class
and grant, homes coming back after an isolation, any other fails, and the next die follows. DIECMD does nothing while
a die is busy, else isolates an active LZ1-C, LZ1-P or LZ1-N or lets an isolated die enumerate again, also from the
side band; an internal error isolates. An isolation completes when it is ready: cores reset, homes spread (and nothing
else by that), frames it may lose added. Compute islands take FREQ, gate and ungate, also from the side band; one is
gated when its cores are idle, owned lines and waits apart; the others follow only the side band FREQ; a change
completes in CUR, and a throttle moves the limit one step within 20 to 70 (log entry 31). A fatal error has cause 1 to
6, the first kept with its dump. Accepted images are installed by type (log entry 32), service and hart images only
beside a running hub image, or in flash by MGMT_IMAGE. BOOT, with enumeration over and no fatal error, installs the
accepted image of its source. With BOOTSRC 1 and the fabric on a better claim or higher term steps a package down, a
LEASE of the highest term names its leader, LOAD and DONE build and install an accepted image of the leader; a
candidate without a LEASE for 2 s claims the next term; after 1 s a claimant leads and sends LEASE, image and DONE; a
leader sends a LEASE each 500 ms. A monitor is written, answered whole, cleared, and counts a sample if enabled with a
source, all in registers alone. A key slot takes a key that unwraps; the dump is answered; each SPDM request answers
its own code and bytes (log entry 32). Of an event whose conditions here do not hold, this says nothing. -/
def Obligations.PackageEvents : Prop :=
  ∀ s : State,
    (∃ t, exec .packageReset s = .next t ∧ t.mgmt.flash = s.mgmt.flash ∧ t.mem = [] ∧ t.threads = [] ∧ t.groups = []
      ∧ t.launches = [] ∧ t.cores = [] ∧ t.now = State.reset.now)
    ∧ (∀ (die : BitVec 8) (table : List (BitVec 8)), die.toNat ≤ 22 → s.dieState die.toNat = 1 →
        let d := die.toNat
        let z := s.setCaps d table
        (tablePasses d table = false → exec (.dieEnumerate die table) s = .next ((z.setGrant d none).dieFails d).nextDie)
        ∧ (tablePasses d table = true →
            let y := ((z.setDieState d 2).setField (regDiest d) 4 2 (dieClass d)).setGrant d (some (grantOf s.turn d table))
            exec (.dieEnumerate die table) s
              = .next (if d < 8 ∧ z.isolations d ≠ 0 then y.returnHomes d else y).nextDie))
    ∧ (∀ die : BitVec 8, let d := die.toNat
        (s.dieBusy = true → exec (.dieIsolate die) s = .next s ∧ exec (.dieRejoin die) s = .next s)
        ∧ (s.dieBusy = false → d ≤ 10 → s.dieState d = 2 → exec (.dieIsolate die) s = .next (s.isolate d))
        ∧ (s.dieBusy = false → d ≤ 22 → s.dieState d = 4 → exec (.dieRejoin die) s = .next (s.setDieState d 1))
        ∧ (d ≤ 10 → s.dieState d = 2 → exec (.dieInternalError die) s = .next (s.isolate d))
        ∧ (∀ lost : List (BitVec 28), s.dieState d = 3 →
          (d < 8 → s.isolationReady d = true → s.cleanWaits (dieCores d) = none → exec (.isolationComplete die lost) s = .next
            (((lost.filter (fun f => s.mayLose d f.toNat)).foldl (fun z f => z.addFrame f.toNat)
              ((s.flushReset (dieCores d)).spreadHomes d)).setDieState d 4))
          ∧ (d = 8 → let z := { s with dir := s.dir.filter (fun q => q.1 / 2 ^ 33 != 768) }
            exec (.isolationComplete die lost) s = .next (((lost.filter (fun (f : BitVec 28) => s.mayLose d f.toNat)).foldl
              (fun (z : State) f => z.addFrame f.toNat) z).setDieState d 4))
          ∧ (9 ≤ d → d ≤ 10 → exec (.isolationComplete die lost) s = .next (s.setDieState d 4)))
        ∧ (∀ op : BitVec 4, exec (.mgmtDie op die) s = .next (s.dieCommand op.toNat d)))
    ∧ (∀ n f : BitVec 7, let N := n.toNat
        (N < 96 → exec (.islandFreqWrite n f) s = .next (s.setFreq N f.toNat)
          ∧ exec (.islandGate n) s = .next (s.gateOn N) ∧ exec (.islandUngate n) s = .next (s.gateOff N)
          ∧ (s.islandGate N = true → s.islandState N ≠ 2 → s.islandIdle N = true → s.cleanOwned (islandCores N) = false →
              s.cleanWaits (islandCores N) = none →
              exec (.islandGated n) s = .next ((s.flushReset (islandCores N)).setIslandState N 2))
          ∧ ∀ gate : Bool, exec (.mgmtIsland n f gate) s
              = .next (if gate then (s.setFreq N f.toNat).gateOn N else (s.setFreq N f.toNat).gateOff N))
        ∧ (96 ≤ N → exec (.islandFreqWrite n f) s = .next s ∧ exec (.islandGate n) s = .next s
          ∧ ∀ gate : Bool, exec (.mgmtIsland n f gate) s = .next (s.setFreq N f.toNat))
        ∧ (s.islandState N = 1 → let z := s.setField (regIslctl N) 16 7 (s.islandTarget N)
            exec (.islandChangeComplete n) s = .next (if z.islandGate N then z else { z.setIslandState N 0 with
              mgmt := { z.mgmt with waking := z.mgmt.waking.filter (fun k => k != N) } })))
    ∧ (∀ lower : Bool, exec (.throttle lower) s = .next ((List.range 96).foldl (fun z n => z.noteClock n)
        { s with mgmt := { s.mgmt with
          throttle := if lower then max 20 (s.mgmt.throttle - 1) else min 70 (s.mgmt.throttle + 1) } }))
    ∧ (∀ (cause : BitVec 8) (detail : BitVec 64), 1 ≤ cause.toNat → cause.toNat ≤ 6 →
        exec (.fatalError cause detail) s = .next (s.enterFatal cause.toNat detail)
        ∧ s.enterFatal cause.toNat detail = (if s.mgmt.fatal.isSome then s else ({ s with mgmt := { s.mgmt with
            fatal := some cause.toNat, dump := s.dumpBytes cause.toNat detail, dumpDue := true } } : State).settleDump)
        ∧ s.settleDump.mgmt.fatal = s.mgmt.fatal ∧ s.settleDump.mgmt.dump = s.mgmt.dump
        ∧ s.settleDump.threads = s.threads ∧ s.settleDump.groups = s.groups ∧ s.settleDump.runs = s.runs)
    ∧ (∀ d : Nat, ∃ m, s.spreadHomes d = { s with hmap := m })
    ∧ (∀ (M : Nat) (v : BitVec 64), ∃ h k, s.writeMonitor M v = { s with hub := h } ∧ s.clearMonitor M = { s with hub := k })
    ∧ (∀ d n : Nat, (s.setFreq n d).mem = s.mem ∧ (s.setFreq n d).threads = s.threads ∧ (s.setFreq n d).cores = s.cores)
    ∧ (∀ image : List (BitVec 8),
        exec (.firmwareVerify image) s = .next (if s.enumerated = true ∧ acceptedAs 1 image = true then
            { s with mgmt := { s.mgmt with hubImage := some image } } else (s.loadService image).loadHarts image)
        ∧ exec (.mgmtServiceStore image) s = .next (s.loadService image)
        ∧ (∀ z : State, z.loadService image = (if z.mgmt.serviceLoads = false ∧ z.enumerated = true ∧ z.mgmt.hubImage.isSome = true
              ∧ acceptedAs 2 image = true then z.setMgmt (fun m =>
                { m with serviceStore := some (imagePayload image), serviceLoads := true }) else z)
          ∧ z.loadHarts image = (if z.enumerated = true ∧ z.mgmt.hubImage.isSome = true ∧ acceptedAs 3 image = true then
              z.setMgmt (fun m => { m with hartImage := some image, hartsRunning := z.dieState 8 == 2 && m.fatal.isNone }) else z))
        ∧ exec (.mgmtImage image) s
            = .next (if accepted image = true then { s with mgmt := { s.mgmt with flash := some image } } else s))
    ∧ (∀ hub service hart : List (BitVec 8), s.enumerated = true → s.mgmt.fatal = none →
        exec (.boot hub service hart) s = .next (match s.bootImage hub with
          | none => s
          | some bs => if acceptedAs 1 bs = true then
              ((({ s with mgmt := { s.mgmt with hubImage := some bs } }.setReg regFbid (BitVec.ofNat 64 (Config.bootFbid % 2 ^ 18))).loadService
                service).loadHarts hart)
            else s))
    ∧ (∀ (term sender off : Nat) (key : BootKey) (bytes : List (BitVec 8)), sender ≠ s.globalNumber →
        let on := Config.bootsrc = 1 ∧ s.fabricOn = true
        exec (.claim term sender key) s = .next (if on then
          (s.stepDown (decide (s.mgmt.ownTerm < term) || (term == s.mgmt.ownTerm && keyLess key Config.bootKey))).noteTerm term
          else s)
        ∧ (let z := (s.stepDown (decide (s.mgmt.ownTerm < term))).noteTerm term
           exec (.lease term sender) s = .next (if on then (if term = z.mgmt.term ∧ z.mgmt.role = .follower then
              z.setMgmt (fun m => { m with leader := some sender, lastLease := z.now }) else z) else s))
        ∧ (let z := s.noteTerm term
           z.fromLeader term sender = true →
            exec (.load term sender off bytes) s = .next (if on then z.setMgmt (fun m =>
              { m with partTerm := term, partLen := max m.partLen (off + bytes.length),
                       part := spSetN (fun _ => none) m.part off (bytes.map some) }) else s)
            ∧ exec (.done term sender) s = .next (if on then (match z.mgmt.partImage with
                | none => z.setMgmt (fun m => { m with part := [], partLen := 0 })
                | some bs => if acceptedAs 1 bs = true
                    then z.setMgmt (fun m => { m with hubImage := some bs, part := [], partLen := 0 })
                    else z.setMgmt (fun m => { m with part := [], partLen := 0 })) else s))
        ∧ (s.mgmt.role = .follower → s.mgmt.lastLease + 3500000000 ≤ s.now →
            exec .leaseTimeout s = .next (if on ∧ s.bootCandidate = true then (s.setMgmt (fun m =>
              { m with role := .claimant, term := m.term + 1, ownTerm := m.term + 1, leader := none, claimAt := s.now })).fabSend s.pod
              (.claim (s.mgmt.term + 1) Config.bootKey) else s)))
    ∧ (s.fabricOn = true → let T := s.mgmt.ownTerm
        let out := fun (ms : List Msg) (m : Mgmt) =>
          (ms.foldl (fun (z : State) x => z.fabSend s.pod x) ({ s with mgmt := m } : State))
        (s.mgmt.role = .claimant → s.mgmt.claimAt + 1750000000 ≤ s.now → exec .claimTimeout s = .next
          (out [.lease T, .bootLoad T 0 (s.mgmt.flash.getD []), .bootDone T] { s.mgmt with role := .leader, lastLease := s.now }))
        ∧ (s.mgmt.role = .leader → s.mgmt.lastLease + 875000000 ≤ s.now → exec .leasePeriod s = .next
          (out [.lease T] { s.mgmt with lastLease := s.now }))
        ∧ ∀ m, s.fabSend s.pod m = if s.podUp s.pod = true then s.send m
          else { s with fab := { s.fab with queue := s.fab.queue ++ [(s.pod, m)] } })
    ∧ (∀ (m : BitVec 5) (v : BitVec 64), let M := m.toNat
        exec (.mgmtMonitor m (some v)) s = .next (s.writeMonitor M v)
        ∧ exec (.mgmtMonitor m none) s = .next (s.send (.mgmt (s.regBytes ((List.range 20).map (fun k => regMon M (8 * k))))))
        ∧ exec (.monitorClear m) s = .next (s.clearMonitor M)
        ∧ (s.field (regMon M 0) 0 1 = 1 → 1 ≤ s.field (regMon M 0) 32 8 → s.field (regMon M 0) 32 8 ≤ 7 →
          let base := s.field (regMon M 0) 16 16
          let bin := if v.toNat < base then 0 else min ((v.toNat - base) / 2 ^ s.field (regMon M 0) 8 8 + 1) 15
          let lo := if v.toNat < (s.reg (regMon M 0x08)).toNat then v else s.reg (regMon M 0x08)
          let hi := if (s.reg (regMon M 0x10)).toNat < v.toNat then v else s.reg (regMon M 0x10)
          exec (.monitorSample m v) s = .next ((((s.setReg (regMon M 0x08) lo).setReg (regMon M 0x10) hi).countReg
            (regMon M 0x18)).countReg (regMon M (0x20 + 8 * bin)))))
    ∧ (∀ (slot : BitVec 8) (tenant : BitVec 6) (wrapped : List (BitVec 8)),
        exec (.mgmtKeySlot slot tenant wrapped) s = .next (match unwrapKey Config.keyWrapKey wrapped with
          | none => s
          | some k => s.setMgmt (fun m =>
              { m with keys := spSet (fun _ => none) m.keys slot.toNat (some (tenant.toNat, k)) })))
    ∧ exec .mgmtDump s = .next (s.send (.mgmt s.mgmt.dump))
    ∧ (∀ (c a : Nat) (e h : Bool) (slot off len nonce index : Nat), let A := fun (c a : Nat) =>
          (.next (s.send (.spdm c ([0x13, BitVec.ofNat 8 (c % 128)] ++ Config.spdmBytes c a))) : Out)
        exec .getVersion s = .next (s.send (.spdm 0x84 [0x10, 0x04, 0, 0, 0, 1, 0x00, 0x13])) ∧ exec .getCapabilities s = A 0xE1 0 ∧ exec .getDigests s = A 0x81 0
        ∧ exec (.negotiateAlgorithms e h) s = .next (s.send (.spdm 0xE3 (spdmAlgorithms e h)))
        ∧ bytesAt (spdmAlgorithms e h) 12 8 = [if e then 0x80 else 0, 0, 0, 0, if h then 2 else 0, 0, 0, 0]
        ∧ exec (.getCertificate slot off len) s = A 0x82 (slot * 2 ^ 32 + off % 2 ^ 16 * 2 ^ 16 + len % 2 ^ 16)
        ∧ exec (.challenge slot nonce) s = A 0x83 (slot * 2 ^ 256 + nonce % 2 ^ 256)
        ∧ (1 ≤ index → index ≤ 5 → exec (.getMeasurements index) s = .next (s.send (.spdm 0xE0 (s.measurement index))))
        ∧ exec (.getMeasurements 0) s = .next (s.send (.spdm 0xE0 [5])))
end

