-- ==== Sys2Proof/Laws/Bytes.lean ====
section
/-! SUPPORT. Little-endian numbers in lists of bytes: what is written at an offset of a layout reads back there. -/

namespace Sys2Proof.Laws

open Sys2Proof Sys2Proof.Machine

@[simp] theorem leBytes_length (n v : Nat) : (leBytes n v).length = n := by
  induction n generalizing v with
  | zero => rfl
  | succ n ih => simp [leBytes, ih]

theorem leNat_leBytes (n v : Nat) : leNat (leBytes n v) = v % 256 ^ n := by
  induction n generalizing v with
  | zero => simp [leBytes, leNat, Nat.mod_one]
  | succ n ih =>
    have h : leNat (leBytes (n + 1) v) = v % 256 + 256 * leNat (leBytes n (v / 256)) := by
      simp [leBytes, leNat]
    rw [h, ih, Nat.pow_succ, Nat.mul_comm (256 ^ n), Nat.mod_mul]

theorem bytesAt_left {a b : List Byte} {off n : Nat} (h : off + n ≤ a.length) : bytesAt (a ++ b) off n = bytesAt a off n := by
  unfold bytesAt
  apply List.map_congr_left
  intro k hk
  have : off + k < a.length := by have := List.mem_range.1 hk; omega
  rw [List.getD_append _ _ _ _ this]

theorem bytesAt_right {a b : List Byte} {off n : Nat} (h : a.length ≤ off) :
    bytesAt (a ++ b) off n = bytesAt b (off - a.length) n := by
  unfold bytesAt
  apply List.map_congr_left
  intro k _
  rw [List.getD_append_right _ _ _ _ (by omega), Nat.sub_add_comm h]

theorem bytesAt_all {a : List Byte} {n : Nat} (h : a.length = n) : bytesAt a 0 n = a := by
  subst h
  unfold bytesAt
  apply List.ext_getElem
  · simp
  · intro i h1 h2
    simp [h2]

theorem natAt_left {a b : List Byte} {off n : Nat} (h : off + n ≤ a.length) : natAt (a ++ b) off n = natAt a off n := by
  unfold natAt; rw [bytesAt_left h]

theorem natAt_right {a b : List Byte} {off n : Nat} (h : a.length ≤ off) :
    natAt (a ++ b) off n = natAt b (off - a.length) n := by
  unfold natAt; rw [bytesAt_right h]

theorem natAt_leBytes (n v : Nat) : natAt (leBytes n v) 0 n = v % 256 ^ n := by
  unfold natAt; rw [bytesAt_all (leBytes_length n v), leNat_leBytes]

/-- The bytes of a table of numbers of one width. -/
theorem tableBytes_length (w m : Nat) (f : Nat → Nat) : ((List.range m).flatMap (fun k => leBytes w (f k))).length = w * m := by
  induction m with
  | zero => rfl
  | succ m ih => rw [List.range_succ, List.flatMap_append, List.length_append, ih]; simp [Nat.mul_succ]

/-- Entry k of a table of numbers of one width. -/
theorem natAt_table (w m : Nat) (f : Nat → Nat) {k : Nat} (h : k < m) :
    natAt ((List.range m).flatMap (fun k => leBytes w (f k))) (w * k) w = f k % 256 ^ w := by
  induction m with
  | zero => omega
  | succ m ih =>
    rw [List.range_succ, List.flatMap_append]
    by_cases hk : k < m
    · rw [natAt_left, ih hk]
      rw [tableBytes_length, ← Nat.mul_succ]
      exact Nat.mul_le_mul_left _ hk
    · have e : k = m := by omega
      subst e
      rw [natAt_right (by rw [tableBytes_length]), tableBytes_length, Nat.sub_self]
      simp only [List.flatMap_cons, List.flatMap_nil, List.append_nil]
      exact natAt_leBytes _ _

end Sys2Proof.Laws
end

