-- ==== Sys2Proof/Laws/Sparse.lean ====
section
/-! SUPPORT. The laws of sparse maps: a read after a write, and the canonical form that every write keeps. -/

namespace Sys2Proof.Laws

open Sys2Proof.Machine

variable {α : Type}

theorem spFind_spPut_same (m : Sparse α) (k : Nat) (v : α) : spFind (spPut m k v) k = some v := by
  induction m with
  | nil => simp [spPut, spFind]
  | cons e m ih =>
    obtain ⟨j, w⟩ := e
    simp only [spPut]
    split
    · simp [spFind]
    · split
      · simp [spFind]
      · rename_i h1 h2
        simp [spFind, Ne.symm h2, ih]

theorem spFind_spPut_other (m : Sparse α) {k i : Nat} (v : α) (h : i ≠ k) :
    spFind (spPut m k v) i = spFind m i := by
  induction m with
  | nil => simp [spPut, spFind, Ne.symm h]
  | cons e m ih =>
    obtain ⟨j, w⟩ := e
    simp only [spPut]
    split
    · simp [spFind, Ne.symm h]
    · split
      · rename_i h1 h2
        subst h2
        simp [spFind, Ne.symm h]
      · simp [spFind, ih]

theorem spFind_spErase_same (m : Sparse α) (k : Nat) : spFind (spErase m k) k = none := by
  induction m with
  | nil => rfl
  | cons e m ih =>
    obtain ⟨j, w⟩ := e
    simp only [spErase]
    split
    · exact ih
    · rename_i h
      simp [spFind, h, ih]

theorem spFind_spErase_other (m : Sparse α) {k i : Nat} (h : i ≠ k) : spFind (spErase m k) i = spFind m i := by
  induction m with
  | nil => rfl
  | cons e m ih =>
    obtain ⟨j, w⟩ := e
    simp only [spErase]
    split
    · rename_i hj
      subst hj
      simp [spFind, Ne.symm h, ih]
    · simp [spFind, ih]

/-- A read after a write to the same key gives the value written. -/
theorem spGet_spPut_same (d : Nat → α) (m : Sparse α) (k : Nat) (v : α) : spGet d (spPut m k v) k = v := by
  simp [spGet, spFind_spPut_same]

/-- A write leaves every other key alone. -/
theorem spGet_spPut_other (d : Nat → α) (m : Sparse α) {k i : Nat} (v : α) (h : i ≠ k) :
    spGet d (spPut m k v) i = spGet d m i := by
  simp [spGet, spFind_spPut_other m v h]

theorem spGet_spErase_same (d : Nat → α) (m : Sparse α) (k : Nat) : spGet d (spErase m k) k = d k := by
  simp [spGet, spFind_spErase_same]

theorem spGet_spErase_other (d : Nat → α) (m : Sparse α) {k i : Nat} (h : i ≠ k) :
    spGet d (spErase m k) i = spGet d m i := by
  simp [spGet, spFind_spErase_other m h]

theorem spGet_spSet_same [DecidableEq α] (d : Nat → α) (m : Sparse α) (k : Nat) (v : α) :
    spGet d (spSet d m k v) k = v := by
  unfold spSet
  split
  · rename_i h
    rw [spGet_spErase_same, h]
  · exact spGet_spPut_same d m k v

theorem spGet_spSet_other [DecidableEq α] (d : Nat → α) (m : Sparse α) {k i : Nat} (v : α) (h : i ≠ k) :
    spGet d (spSet d m k v) i = spGet d m i := by
  unfold spSet
  split
  · exact spGet_spErase_other d m h
  · exact spGet_spPut_other d m v h

theorem spGet_spSet [DecidableEq α] (d : Nat → α) (m : Sparse α) (k i : Nat) (v : α) :
    spGet d (spSet d m k v) i = if i = k then v else spGet d m i := by
  split
  · rename_i h
    subst h
    exact spGet_spSet_same d m i v
  · rename_i h
    exact spGet_spSet_other d m v h

theorem spAbove_of_le {m : Sparse α} {a b : Nat} (hab : a ≤ b) (h : spAbove b m = true) : spAbove a m = true := by
  cases m with
  | nil => rfl
  | cons e m =>
    obtain ⟨k, v⟩ := e
    simp only [spAbove, Bool.and_eq_true, decide_eq_true_eq] at h ⊢
    exact ⟨by omega, spAbove_of_le hab h.2⟩

theorem spAbove_spPut {m : Sparse α} {b k : Nat} (v : α) (hk : b < k) (h : spAbove b m = true) :
    spAbove b (spPut m k v) = true := by
  induction m with
  | nil => simpa [spPut, spAbove] using hk
  | cons e m ih =>
    obtain ⟨j, w⟩ := e
    simp only [spAbove, Bool.and_eq_true, decide_eq_true_eq] at h
    simp only [spPut]
    split
    · simp [spAbove, hk, h.1, h.2]
    · split
      · simp [spAbove, hk, h.2]
      · simp [spAbove, h.1, ih h.2]

theorem spAbove_spErase {m : Sparse α} {b : Nat} (k : Nat) (h : spAbove b m = true) :
    spAbove b (spErase m k) = true := by
  induction m with
  | nil => rfl
  | cons e m ih =>
    obtain ⟨j, w⟩ := e
    simp only [spAbove, Bool.and_eq_true, decide_eq_true_eq] at h
    simp only [spErase]
    split
    · exact ih h.2
    · simp [spAbove, h.1, ih h.2]

theorem spWf_spPut [DecidableEq α] (d : Nat → α) {m : Sparse α} {k : Nat} {v : α} (hv : v ≠ d k)
    (h : spWf d m = true) : spWf d (spPut m k v) = true := by
  induction m with
  | nil => simp [spPut, spWf, spAbove, hv]
  | cons e m ih =>
    obtain ⟨j, w⟩ := e
    simp only [spWf, Bool.and_eq_true, decide_eq_true_eq] at h
    obtain ⟨⟨hw, ha⟩, hm⟩ := h
    simp only [spPut]
    split
    · rename_i hkj
      simp only [spWf, spAbove, Bool.and_eq_true, decide_eq_true_eq]
      exact ⟨⟨hv, hkj, spAbove_of_le (Nat.le_of_lt hkj) ha⟩, ⟨hw, ha⟩, hm⟩
    · split
      · rename_i hkj
        subst hkj
        simp [spWf, hv, ha, hm]
      · have hjk : j < k := by omega
        simp [spWf, hw, spAbove_spPut v hjk ha, ih hm]

theorem spWf_spErase [DecidableEq α] (d : Nat → α) {m : Sparse α} (k : Nat) (h : spWf d m = true) :
    spWf d (spErase m k) = true := by
  induction m with
  | nil => rfl
  | cons e m ih =>
    obtain ⟨j, w⟩ := e
    simp only [spWf, Bool.and_eq_true, decide_eq_true_eq] at h
    simp only [spErase]
    split
    · exact ih h.2
    · simp [spWf, h.1.1, spAbove_spErase k h.1.2, ih h.2]

/-- A write keeps the canonical form. -/
theorem spWf_spSet [DecidableEq α] (d : Nat → α) {m : Sparse α} (k : Nat) (v : α) (h : spWf d m = true) :
    spWf d (spSet d m k v) = true := by
  unfold spSet
  split
  · exact spWf_spErase d k h
  · rename_i hv
    exact spWf_spPut d hv h

theorem spWf_spSetN [DecidableEq α] (d : Nat → α) (vs : List α) {m : Sparse α} (a : Nat) (h : spWf d m = true) :
    spWf d (spSetN d m a vs) = true := by
  induction vs generalizing m a with
  | nil => exact h
  | cons v vs ih => exact ih (a + 1) (spWf_spSet d a v h)

theorem spAbove_filter (f : Nat × α → Bool) {m : Sparse α} {b : Nat} (h : spAbove b m = true) :
    spAbove b (m.filter f) = true := by
  induction m generalizing b with
  | nil => rfl
  | cons e m ih =>
    obtain ⟨j, w⟩ := e
    simp only [spAbove, Bool.and_eq_true, decide_eq_true_eq] at h
    simp only [List.filter_cons]
    split
    · simp [spAbove, h.1, ih h.2]
    · exact ih h.2

theorem spWf_filter [DecidableEq α] (d : Nat → α) (f : Nat × α → Bool) {m : Sparse α} (h : spWf d m = true) :
    spWf d (m.filter f) = true := by
  induction m with
  | nil => rfl
  | cons e m ih =>
    obtain ⟨j, w⟩ := e
    simp only [spWf, Bool.and_eq_true, decide_eq_true_eq] at h
    simp only [List.filter_cons]
    split
    · simp [spWf, h.1.1, spAbove_filter f h.1.2, ih h.2]
    · exact ih h.2

theorem spAbove_iff {m : Sparse α} {b : Nat} : spAbove b m = true ↔ ∀ e ∈ m, b < e.1 := by
  induction m with
  | nil => simp [spAbove]
  | cons e m ih => simp [spAbove, ih]

/-- Canonical maps, all keys of one below all keys of the other, join to a canonical map. -/
theorem spWf_append [DecidableEq α] (d : Nat → α) {m n : Sparse α} (hm : spWf d m = true) (hn : spWf d n = true)
    (h : ∀ x ∈ m, ∀ y ∈ n, x.1 < y.1) : spWf d (m ++ n) = true := by
  induction m with
  | nil => exact hn
  | cons e m ih =>
    obtain ⟨j, w⟩ := e
    simp only [spWf, Bool.and_eq_true, decide_eq_true_eq] at hm
    have ha : spAbove j (m ++ n) = true := by
      rw [spAbove_iff]
      intro e he
      rcases List.mem_append.mp he with h1 | h1
      · exact spAbove_iff.mp hm.1.2 e h1
      · exact h (j, w) (by simp) e h1
    simp [spWf, hm.1.1, ha, ih hm.2 (fun x hx => h x (List.mem_cons_of_mem _ hx))]

/-- Moving the keys of a canonical map upward in order keeps it canonical. -/
theorem spWf_map [DecidableEq α] (d : Nat → α) (k : Nat → Nat) {m : Sparse α} (hm : spWf d m = true)
    (hk : ∀ x ∈ m, ∀ y ∈ m, x.1 < y.1 → k x.1 < k y.1) (hv : ∀ x ∈ m, x.2 ≠ d (k x.1)) :
    spWf d (m.map (fun q => (k q.1, q.2))) = true := by
  induction m with
  | nil => rfl
  | cons e m ih =>
    obtain ⟨j, w⟩ := e
    simp only [spWf, Bool.and_eq_true, decide_eq_true_eq] at hm
    have ha : spAbove (k j) (m.map (fun q => (k q.1, q.2))) = true := by
      rw [spAbove_iff]
      intro e he
      obtain ⟨x, hx, rfl⟩ := List.mem_map.mp he
      exact hk (j, w) (by simp) x (List.mem_cons_of_mem _ hx) (spAbove_iff.mp hm.1.2 x hx)
    have hw : w ≠ d (k j) := hv (j, w) (by simp)
    simp only [List.map_cons, spWf, Bool.and_eq_true, decide_eq_true_eq]
    exact ⟨⟨hw, ha⟩, ih hm.2 (fun x hx y hy => hk x (List.mem_cons_of_mem _ hx) y (List.mem_cons_of_mem _ hy))
      (fun x hx => hv x (List.mem_cons_of_mem _ hx))⟩

/-- No entry of a canonical map holds the default. -/
theorem spWf_ne [DecidableEq α] (d : Nat → α) {m : Sparse α} (hm : spWf d m = true) {e : Nat × α} (he : e ∈ m) :
    e.2 ≠ d e.1 := by
  induction m with
  | nil => cases he
  | cons f m ih =>
    obtain ⟨j, w⟩ := f
    simp only [spWf, Bool.and_eq_true, decide_eq_true_eq] at hm
    rcases List.mem_cons.mp he with rfl | h
    · exact hm.1.1
    · exact ih hm.2 h

end Sys2Proof.Laws
end

