-- ==== Sys2Proof/Laws/State.lean ====
section
/-! SUPPORT. One law per field of State per update, true by definition, and the reads of threads, groups and cores after a
write. -/

set_option Elab.async false

namespace Sys2Proof.Laws

open Sys2Proof.Machine

variable (s : State)

@[simp] theorem setThread_agenda (k : Nat) (t : Thread) : (s.setThread k t).agenda = s.agenda := rfl
@[simp] theorem setThread_turn (k : Nat) (t : Thread) : (s.setThread k t).turn = s.turn := rfl
@[simp] theorem setThread_issue (k : Nat) (t : Thread) : (s.setThread k t).issue = s.issue := rfl
@[simp] theorem setThread_outbox (k : Nat) (t : Thread) : (s.setThread k t).outbox = s.outbox := rfl
@[simp] theorem setThread_now (k : Nat) (t : Thread) : (s.setThread k t).now = s.now := rfl
@[simp] theorem setThread_ids (k : Nat) (t : Thread) : (s.setThread k t).ids = s.ids := rfl
@[simp] theorem setThread_mem (k : Nat) (t : Thread) : (s.setThread k t).mem = s.mem := rfl
@[simp] theorem setThread_scr (k : Nat) (t : Thread) : (s.setThread k t).scr = s.scr := rfl
@[simp] theorem setThread_hub (k : Nat) (t : Thread) : (s.setThread k t).hub = s.hub := rfl
@[simp] theorem setThread_threads (k : Nat) (t : Thread) : (s.setThread k t).threads = spPut s.threads k t := rfl
@[simp] theorem setThread_groups (k : Nat) (t : Thread) : (s.setThread k t).groups = s.groups := rfl
@[simp] theorem setThread_cores (k : Nat) (t : Thread) : (s.setThread k t).cores = s.cores := rfl
@[simp] theorem setThread_runs (k : Nat) (t : Thread) : (s.setThread k t).runs = s.runs := rfl
@[simp] theorem setThread_accesses (k : Nat) (t : Thread) : (s.setThread k t).accesses = s.accesses := rfl
@[simp] theorem setThread_cmds (k : Nat) (t : Thread) : (s.setThread k t).cmds = s.cmds := rfl
@[simp] theorem setThread_launches (k : Nat) (t : Thread) : (s.setThread k t).launches = s.launches := rfl
@[simp] theorem setThread_sched (k : Nat) (t : Thread) : (s.setThread k t).sched = s.sched := rfl
@[simp] theorem setThread_reqs (k : Nat) (t : Thread) : (s.setThread k t).reqs = s.reqs := rfl
@[simp] theorem setThread_refused (k : Nat) (t : Thread) : (s.setThread k t).refused = s.refused := rfl
@[simp] theorem setThread_pageFail (k : Nat) (t : Thread) : (s.setThread k t).pageFail = s.pageFail := rfl
@[simp] theorem setThread_tlb (k : Nat) (t : Thread) : (s.setThread k t).tlb = s.tlb := rfl
@[simp] theorem setThread_inval (k : Nat) (t : Thread) : (s.setThread k t).inval = s.inval := rfl
@[simp] theorem setThread_dir (k : Nat) (t : Thread) : (s.setThread k t).dir = s.dir := rfl
@[simp] theorem setThread_hmap (k : Nat) (t : Thread) : (s.setThread k t).hmap = s.hmap := rfl
@[simp] theorem setThread_traps (k : Nat) (t : Thread) : (s.setThread k t).traps = s.traps := rfl
@[simp] theorem setThread_snap (k : Nat) (t : Thread) : (s.setThread k t).snap = s.snap := rfl
@[simp] theorem setThread_fab (k : Nat) (t : Thread) : (s.setThread k t).fab = s.fab := rfl
@[simp] theorem setThread_mgmt (k : Nat) (t : Thread) : (s.setThread k t).mgmt = s.mgmt := rfl

@[simp] theorem modThread_agenda (k : Nat) (f : Thread → Thread) : (s.modThread k f).agenda = s.agenda := rfl
@[simp] theorem modThread_turn (k : Nat) (f : Thread → Thread) : (s.modThread k f).turn = s.turn := rfl
@[simp] theorem modThread_issue (k : Nat) (f : Thread → Thread) : (s.modThread k f).issue = s.issue := rfl
@[simp] theorem modThread_outbox (k : Nat) (f : Thread → Thread) : (s.modThread k f).outbox = s.outbox := rfl
@[simp] theorem modThread_now (k : Nat) (f : Thread → Thread) : (s.modThread k f).now = s.now := rfl
@[simp] theorem modThread_ids (k : Nat) (f : Thread → Thread) : (s.modThread k f).ids = s.ids := rfl
@[simp] theorem modThread_mem (k : Nat) (f : Thread → Thread) : (s.modThread k f).mem = s.mem := rfl
@[simp] theorem modThread_scr (k : Nat) (f : Thread → Thread) : (s.modThread k f).scr = s.scr := rfl
@[simp] theorem modThread_hub (k : Nat) (f : Thread → Thread) : (s.modThread k f).hub = s.hub := rfl
@[simp] theorem modThread_threads (k : Nat) (f : Thread → Thread) : (s.modThread k f).threads = spPut s.threads k (f (s.thread k)) := rfl
@[simp] theorem modThread_groups (k : Nat) (f : Thread → Thread) : (s.modThread k f).groups = s.groups := rfl
@[simp] theorem modThread_cores (k : Nat) (f : Thread → Thread) : (s.modThread k f).cores = s.cores := rfl
@[simp] theorem modThread_runs (k : Nat) (f : Thread → Thread) : (s.modThread k f).runs = s.runs := rfl
@[simp] theorem modThread_accesses (k : Nat) (f : Thread → Thread) : (s.modThread k f).accesses = s.accesses := rfl
@[simp] theorem modThread_cmds (k : Nat) (f : Thread → Thread) : (s.modThread k f).cmds = s.cmds := rfl
@[simp] theorem modThread_launches (k : Nat) (f : Thread → Thread) : (s.modThread k f).launches = s.launches := rfl
@[simp] theorem modThread_sched (k : Nat) (f : Thread → Thread) : (s.modThread k f).sched = s.sched := rfl
@[simp] theorem modThread_reqs (k : Nat) (f : Thread → Thread) : (s.modThread k f).reqs = s.reqs := rfl
@[simp] theorem modThread_refused (k : Nat) (f : Thread → Thread) : (s.modThread k f).refused = s.refused := rfl
@[simp] theorem modThread_pageFail (k : Nat) (f : Thread → Thread) : (s.modThread k f).pageFail = s.pageFail := rfl
@[simp] theorem modThread_tlb (k : Nat) (f : Thread → Thread) : (s.modThread k f).tlb = s.tlb := rfl
@[simp] theorem modThread_inval (k : Nat) (f : Thread → Thread) : (s.modThread k f).inval = s.inval := rfl
@[simp] theorem modThread_dir (k : Nat) (f : Thread → Thread) : (s.modThread k f).dir = s.dir := rfl
@[simp] theorem modThread_hmap (k : Nat) (f : Thread → Thread) : (s.modThread k f).hmap = s.hmap := rfl
@[simp] theorem modThread_traps (k : Nat) (f : Thread → Thread) : (s.modThread k f).traps = s.traps := rfl
@[simp] theorem modThread_snap (k : Nat) (f : Thread → Thread) : (s.modThread k f).snap = s.snap := rfl
@[simp] theorem modThread_fab (k : Nat) (f : Thread → Thread) : (s.modThread k f).fab = s.fab := rfl
@[simp] theorem modThread_mgmt (k : Nat) (f : Thread → Thread) : (s.modThread k f).mgmt = s.mgmt := rfl

@[simp] theorem setGroup_agenda (k : Nat) (g : Group) : (s.setGroup k g).agenda = s.agenda := rfl
@[simp] theorem setGroup_turn (k : Nat) (g : Group) : (s.setGroup k g).turn = s.turn := rfl
@[simp] theorem setGroup_issue (k : Nat) (g : Group) : (s.setGroup k g).issue = s.issue := rfl
@[simp] theorem setGroup_outbox (k : Nat) (g : Group) : (s.setGroup k g).outbox = s.outbox := rfl
@[simp] theorem setGroup_now (k : Nat) (g : Group) : (s.setGroup k g).now = s.now := rfl
@[simp] theorem setGroup_ids (k : Nat) (g : Group) : (s.setGroup k g).ids = s.ids := rfl
@[simp] theorem setGroup_mem (k : Nat) (g : Group) : (s.setGroup k g).mem = s.mem := rfl
@[simp] theorem setGroup_scr (k : Nat) (g : Group) : (s.setGroup k g).scr = s.scr := rfl
@[simp] theorem setGroup_hub (k : Nat) (g : Group) : (s.setGroup k g).hub = s.hub := rfl
@[simp] theorem setGroup_threads (k : Nat) (g : Group) : (s.setGroup k g).threads = s.threads := rfl
@[simp] theorem setGroup_groups (k : Nat) (g : Group) : (s.setGroup k g).groups = spPut s.groups k g := rfl
@[simp] theorem setGroup_cores (k : Nat) (g : Group) : (s.setGroup k g).cores = s.cores := rfl
@[simp] theorem setGroup_runs (k : Nat) (g : Group) : (s.setGroup k g).runs = s.runs := rfl
@[simp] theorem setGroup_accesses (k : Nat) (g : Group) : (s.setGroup k g).accesses = s.accesses := rfl
@[simp] theorem setGroup_cmds (k : Nat) (g : Group) : (s.setGroup k g).cmds = s.cmds := rfl
@[simp] theorem setGroup_launches (k : Nat) (g : Group) : (s.setGroup k g).launches = s.launches := rfl
@[simp] theorem setGroup_sched (k : Nat) (g : Group) : (s.setGroup k g).sched = s.sched := rfl
@[simp] theorem setGroup_reqs (k : Nat) (g : Group) : (s.setGroup k g).reqs = s.reqs := rfl
@[simp] theorem setGroup_refused (k : Nat) (g : Group) : (s.setGroup k g).refused = s.refused := rfl
@[simp] theorem setGroup_pageFail (k : Nat) (g : Group) : (s.setGroup k g).pageFail = s.pageFail := rfl
@[simp] theorem setGroup_tlb (k : Nat) (g : Group) : (s.setGroup k g).tlb = s.tlb := rfl
@[simp] theorem setGroup_inval (k : Nat) (g : Group) : (s.setGroup k g).inval = s.inval := rfl
@[simp] theorem setGroup_dir (k : Nat) (g : Group) : (s.setGroup k g).dir = s.dir := rfl
@[simp] theorem setGroup_hmap (k : Nat) (g : Group) : (s.setGroup k g).hmap = s.hmap := rfl
@[simp] theorem setGroup_traps (k : Nat) (g : Group) : (s.setGroup k g).traps = s.traps := rfl
@[simp] theorem setGroup_snap (k : Nat) (g : Group) : (s.setGroup k g).snap = s.snap := rfl
@[simp] theorem setGroup_fab (k : Nat) (g : Group) : (s.setGroup k g).fab = s.fab := rfl
@[simp] theorem setGroup_mgmt (k : Nat) (g : Group) : (s.setGroup k g).mgmt = s.mgmt := rfl

@[simp] theorem modGroup_agenda (k : Nat) (f : Group → Group) : (s.modGroup k f).agenda = s.agenda := rfl
@[simp] theorem modGroup_turn (k : Nat) (f : Group → Group) : (s.modGroup k f).turn = s.turn := rfl
@[simp] theorem modGroup_issue (k : Nat) (f : Group → Group) : (s.modGroup k f).issue = s.issue := rfl
@[simp] theorem modGroup_outbox (k : Nat) (f : Group → Group) : (s.modGroup k f).outbox = s.outbox := rfl
@[simp] theorem modGroup_now (k : Nat) (f : Group → Group) : (s.modGroup k f).now = s.now := rfl
@[simp] theorem modGroup_ids (k : Nat) (f : Group → Group) : (s.modGroup k f).ids = s.ids := rfl
@[simp] theorem modGroup_mem (k : Nat) (f : Group → Group) : (s.modGroup k f).mem = s.mem := rfl
@[simp] theorem modGroup_scr (k : Nat) (f : Group → Group) : (s.modGroup k f).scr = s.scr := rfl
@[simp] theorem modGroup_hub (k : Nat) (f : Group → Group) : (s.modGroup k f).hub = s.hub := rfl
@[simp] theorem modGroup_threads (k : Nat) (f : Group → Group) : (s.modGroup k f).threads = s.threads := rfl
@[simp] theorem modGroup_groups (k : Nat) (f : Group → Group) : (s.modGroup k f).groups = spPut s.groups k (f (s.group k)) := rfl
@[simp] theorem modGroup_cores (k : Nat) (f : Group → Group) : (s.modGroup k f).cores = s.cores := rfl
@[simp] theorem modGroup_runs (k : Nat) (f : Group → Group) : (s.modGroup k f).runs = s.runs := rfl
@[simp] theorem modGroup_accesses (k : Nat) (f : Group → Group) : (s.modGroup k f).accesses = s.accesses := rfl
@[simp] theorem modGroup_cmds (k : Nat) (f : Group → Group) : (s.modGroup k f).cmds = s.cmds := rfl
@[simp] theorem modGroup_launches (k : Nat) (f : Group → Group) : (s.modGroup k f).launches = s.launches := rfl
@[simp] theorem modGroup_sched (k : Nat) (f : Group → Group) : (s.modGroup k f).sched = s.sched := rfl
@[simp] theorem modGroup_reqs (k : Nat) (f : Group → Group) : (s.modGroup k f).reqs = s.reqs := rfl
@[simp] theorem modGroup_refused (k : Nat) (f : Group → Group) : (s.modGroup k f).refused = s.refused := rfl
@[simp] theorem modGroup_pageFail (k : Nat) (f : Group → Group) : (s.modGroup k f).pageFail = s.pageFail := rfl
@[simp] theorem modGroup_tlb (k : Nat) (f : Group → Group) : (s.modGroup k f).tlb = s.tlb := rfl
@[simp] theorem modGroup_inval (k : Nat) (f : Group → Group) : (s.modGroup k f).inval = s.inval := rfl
@[simp] theorem modGroup_dir (k : Nat) (f : Group → Group) : (s.modGroup k f).dir = s.dir := rfl
@[simp] theorem modGroup_hmap (k : Nat) (f : Group → Group) : (s.modGroup k f).hmap = s.hmap := rfl
@[simp] theorem modGroup_traps (k : Nat) (f : Group → Group) : (s.modGroup k f).traps = s.traps := rfl
@[simp] theorem modGroup_snap (k : Nat) (f : Group → Group) : (s.modGroup k f).snap = s.snap := rfl
@[simp] theorem modGroup_fab (k : Nat) (f : Group → Group) : (s.modGroup k f).fab = s.fab := rfl
@[simp] theorem modGroup_mgmt (k : Nat) (f : Group → Group) : (s.modGroup k f).mgmt = s.mgmt := rfl

@[simp] theorem setCore_agenda (k : Nat) (c : Core) : (s.setCore k c).agenda = s.agenda := rfl
@[simp] theorem setCore_turn (k : Nat) (c : Core) : (s.setCore k c).turn = s.turn := rfl
@[simp] theorem setCore_issue (k : Nat) (c : Core) : (s.setCore k c).issue = s.issue := rfl
@[simp] theorem setCore_outbox (k : Nat) (c : Core) : (s.setCore k c).outbox = s.outbox := rfl
@[simp] theorem setCore_now (k : Nat) (c : Core) : (s.setCore k c).now = s.now := rfl
@[simp] theorem setCore_ids (k : Nat) (c : Core) : (s.setCore k c).ids = s.ids := rfl
@[simp] theorem setCore_mem (k : Nat) (c : Core) : (s.setCore k c).mem = s.mem := rfl
@[simp] theorem setCore_scr (k : Nat) (c : Core) : (s.setCore k c).scr = s.scr := rfl
@[simp] theorem setCore_hub (k : Nat) (c : Core) : (s.setCore k c).hub = s.hub := rfl
@[simp] theorem setCore_threads (k : Nat) (c : Core) : (s.setCore k c).threads = s.threads := rfl
@[simp] theorem setCore_groups (k : Nat) (c : Core) : (s.setCore k c).groups = s.groups := rfl
@[simp] theorem setCore_cores (k : Nat) (c : Core) : (s.setCore k c).cores = spPut s.cores k c := rfl
@[simp] theorem setCore_runs (k : Nat) (c : Core) : (s.setCore k c).runs = s.runs := rfl
@[simp] theorem setCore_accesses (k : Nat) (c : Core) : (s.setCore k c).accesses = s.accesses := rfl
@[simp] theorem setCore_cmds (k : Nat) (c : Core) : (s.setCore k c).cmds = s.cmds := rfl
@[simp] theorem setCore_launches (k : Nat) (c : Core) : (s.setCore k c).launches = s.launches := rfl
@[simp] theorem setCore_sched (k : Nat) (c : Core) : (s.setCore k c).sched = s.sched := rfl
@[simp] theorem setCore_reqs (k : Nat) (c : Core) : (s.setCore k c).reqs = s.reqs := rfl
@[simp] theorem setCore_refused (k : Nat) (c : Core) : (s.setCore k c).refused = s.refused := rfl
@[simp] theorem setCore_pageFail (k : Nat) (c : Core) : (s.setCore k c).pageFail = s.pageFail := rfl
@[simp] theorem setCore_tlb (k : Nat) (c : Core) : (s.setCore k c).tlb = s.tlb := rfl
@[simp] theorem setCore_inval (k : Nat) (c : Core) : (s.setCore k c).inval = s.inval := rfl
@[simp] theorem setCore_dir (k : Nat) (c : Core) : (s.setCore k c).dir = s.dir := rfl
@[simp] theorem setCore_hmap (k : Nat) (c : Core) : (s.setCore k c).hmap = s.hmap := rfl
@[simp] theorem setCore_traps (k : Nat) (c : Core) : (s.setCore k c).traps = s.traps := rfl
@[simp] theorem setCore_snap (k : Nat) (c : Core) : (s.setCore k c).snap = s.snap := rfl
@[simp] theorem setCore_fab (k : Nat) (c : Core) : (s.setCore k c).fab = s.fab := rfl
@[simp] theorem setCore_mgmt (k : Nat) (c : Core) : (s.setCore k c).mgmt = s.mgmt := rfl

@[simp] theorem modCore_agenda (k : Nat) (f : Core → Core) : (s.modCore k f).agenda = s.agenda := rfl
@[simp] theorem modCore_turn (k : Nat) (f : Core → Core) : (s.modCore k f).turn = s.turn := rfl
@[simp] theorem modCore_issue (k : Nat) (f : Core → Core) : (s.modCore k f).issue = s.issue := rfl
@[simp] theorem modCore_outbox (k : Nat) (f : Core → Core) : (s.modCore k f).outbox = s.outbox := rfl
@[simp] theorem modCore_now (k : Nat) (f : Core → Core) : (s.modCore k f).now = s.now := rfl
@[simp] theorem modCore_ids (k : Nat) (f : Core → Core) : (s.modCore k f).ids = s.ids := rfl
@[simp] theorem modCore_mem (k : Nat) (f : Core → Core) : (s.modCore k f).mem = s.mem := rfl
@[simp] theorem modCore_scr (k : Nat) (f : Core → Core) : (s.modCore k f).scr = s.scr := rfl
@[simp] theorem modCore_hub (k : Nat) (f : Core → Core) : (s.modCore k f).hub = s.hub := rfl
@[simp] theorem modCore_threads (k : Nat) (f : Core → Core) : (s.modCore k f).threads = s.threads := rfl
@[simp] theorem modCore_groups (k : Nat) (f : Core → Core) : (s.modCore k f).groups = s.groups := rfl
@[simp] theorem modCore_cores (k : Nat) (f : Core → Core) : (s.modCore k f).cores = spPut s.cores k (f (s.core k)) := rfl
@[simp] theorem modCore_runs (k : Nat) (f : Core → Core) : (s.modCore k f).runs = s.runs := rfl
@[simp] theorem modCore_accesses (k : Nat) (f : Core → Core) : (s.modCore k f).accesses = s.accesses := rfl
@[simp] theorem modCore_cmds (k : Nat) (f : Core → Core) : (s.modCore k f).cmds = s.cmds := rfl
@[simp] theorem modCore_launches (k : Nat) (f : Core → Core) : (s.modCore k f).launches = s.launches := rfl
@[simp] theorem modCore_sched (k : Nat) (f : Core → Core) : (s.modCore k f).sched = s.sched := rfl
@[simp] theorem modCore_reqs (k : Nat) (f : Core → Core) : (s.modCore k f).reqs = s.reqs := rfl
@[simp] theorem modCore_refused (k : Nat) (f : Core → Core) : (s.modCore k f).refused = s.refused := rfl
@[simp] theorem modCore_pageFail (k : Nat) (f : Core → Core) : (s.modCore k f).pageFail = s.pageFail := rfl
@[simp] theorem modCore_tlb (k : Nat) (f : Core → Core) : (s.modCore k f).tlb = s.tlb := rfl
@[simp] theorem modCore_inval (k : Nat) (f : Core → Core) : (s.modCore k f).inval = s.inval := rfl
@[simp] theorem modCore_dir (k : Nat) (f : Core → Core) : (s.modCore k f).dir = s.dir := rfl
@[simp] theorem modCore_hmap (k : Nat) (f : Core → Core) : (s.modCore k f).hmap = s.hmap := rfl
@[simp] theorem modCore_traps (k : Nat) (f : Core → Core) : (s.modCore k f).traps = s.traps := rfl
@[simp] theorem modCore_snap (k : Nat) (f : Core → Core) : (s.modCore k f).snap = s.snap := rfl
@[simp] theorem modCore_fab (k : Nat) (f : Core → Core) : (s.modCore k f).fab = s.fab := rfl
@[simp] theorem modCore_mgmt (k : Nat) (f : Core → Core) : (s.modCore k f).mgmt = s.mgmt := rfl

@[simp] theorem modRun_agenda (id : Nat) (f : Run → Run) : (s.modRun id f).agenda = s.agenda := rfl
@[simp] theorem modRun_turn (id : Nat) (f : Run → Run) : (s.modRun id f).turn = s.turn := rfl
@[simp] theorem modRun_issue (id : Nat) (f : Run → Run) : (s.modRun id f).issue = s.issue := rfl
@[simp] theorem modRun_outbox (id : Nat) (f : Run → Run) : (s.modRun id f).outbox = s.outbox := rfl
@[simp] theorem modRun_now (id : Nat) (f : Run → Run) : (s.modRun id f).now = s.now := rfl
@[simp] theorem modRun_ids (id : Nat) (f : Run → Run) : (s.modRun id f).ids = s.ids := rfl
@[simp] theorem modRun_mem (id : Nat) (f : Run → Run) : (s.modRun id f).mem = s.mem := rfl
@[simp] theorem modRun_scr (id : Nat) (f : Run → Run) : (s.modRun id f).scr = s.scr := rfl
@[simp] theorem modRun_hub (id : Nat) (f : Run → Run) : (s.modRun id f).hub = s.hub := rfl
@[simp] theorem modRun_threads (id : Nat) (f : Run → Run) : (s.modRun id f).threads = s.threads := rfl
@[simp] theorem modRun_groups (id : Nat) (f : Run → Run) : (s.modRun id f).groups = s.groups := rfl
@[simp] theorem modRun_cores (id : Nat) (f : Run → Run) : (s.modRun id f).cores = s.cores := rfl
@[simp] theorem modRun_runs (id : Nat) (f : Run → Run) : (s.modRun id f).runs = s.runs.map (fun r => if r.id = id then f r else r) := rfl
@[simp] theorem modRun_accesses (id : Nat) (f : Run → Run) : (s.modRun id f).accesses = s.accesses := rfl
@[simp] theorem modRun_cmds (id : Nat) (f : Run → Run) : (s.modRun id f).cmds = s.cmds := rfl
@[simp] theorem modRun_launches (id : Nat) (f : Run → Run) : (s.modRun id f).launches = s.launches := rfl
@[simp] theorem modRun_sched (id : Nat) (f : Run → Run) : (s.modRun id f).sched = s.sched := rfl
@[simp] theorem modRun_reqs (id : Nat) (f : Run → Run) : (s.modRun id f).reqs = s.reqs := rfl
@[simp] theorem modRun_refused (id : Nat) (f : Run → Run) : (s.modRun id f).refused = s.refused := rfl
@[simp] theorem modRun_pageFail (id : Nat) (f : Run → Run) : (s.modRun id f).pageFail = s.pageFail := rfl
@[simp] theorem modRun_tlb (id : Nat) (f : Run → Run) : (s.modRun id f).tlb = s.tlb := rfl
@[simp] theorem modRun_inval (id : Nat) (f : Run → Run) : (s.modRun id f).inval = s.inval := rfl
@[simp] theorem modRun_dir (id : Nat) (f : Run → Run) : (s.modRun id f).dir = s.dir := rfl
@[simp] theorem modRun_hmap (id : Nat) (f : Run → Run) : (s.modRun id f).hmap = s.hmap := rfl
@[simp] theorem modRun_traps (id : Nat) (f : Run → Run) : (s.modRun id f).traps = s.traps := rfl
@[simp] theorem modRun_snap (id : Nat) (f : Run → Run) : (s.modRun id f).snap = s.snap := rfl
@[simp] theorem modRun_fab (id : Nat) (f : Run → Run) : (s.modRun id f).fab = s.fab := rfl
@[simp] theorem modRun_mgmt (id : Nat) (f : Run → Run) : (s.modRun id f).mgmt = s.mgmt := rfl

@[simp] theorem dropRun_agenda (id : Nat) : (s.dropRun id).agenda = s.agenda := rfl
@[simp] theorem dropRun_turn (id : Nat) : (s.dropRun id).turn = s.turn := rfl
@[simp] theorem dropRun_issue (id : Nat) : (s.dropRun id).issue = s.issue := rfl
@[simp] theorem dropRun_outbox (id : Nat) : (s.dropRun id).outbox = s.outbox := rfl
@[simp] theorem dropRun_now (id : Nat) : (s.dropRun id).now = s.now := rfl
@[simp] theorem dropRun_ids (id : Nat) : (s.dropRun id).ids = s.ids := rfl
@[simp] theorem dropRun_mem (id : Nat) : (s.dropRun id).mem = s.mem := rfl
@[simp] theorem dropRun_scr (id : Nat) : (s.dropRun id).scr = s.scr := rfl
@[simp] theorem dropRun_hub (id : Nat) : (s.dropRun id).hub = s.hub := rfl
@[simp] theorem dropRun_threads (id : Nat) : (s.dropRun id).threads = s.threads := rfl
@[simp] theorem dropRun_groups (id : Nat) : (s.dropRun id).groups = s.groups := rfl
@[simp] theorem dropRun_cores (id : Nat) : (s.dropRun id).cores = s.cores := rfl
@[simp] theorem dropRun_runs (id : Nat) : (s.dropRun id).runs = s.runs.filter (fun r => r.id != id) := rfl
@[simp] theorem dropRun_accesses (id : Nat) : (s.dropRun id).accesses = s.accesses := rfl
@[simp] theorem dropRun_cmds (id : Nat) : (s.dropRun id).cmds = s.cmds := rfl
@[simp] theorem dropRun_launches (id : Nat) : (s.dropRun id).launches = s.launches := rfl
@[simp] theorem dropRun_sched (id : Nat) : (s.dropRun id).sched = s.sched := rfl
@[simp] theorem dropRun_reqs (id : Nat) : (s.dropRun id).reqs = s.reqs := rfl
@[simp] theorem dropRun_refused (id : Nat) : (s.dropRun id).refused = s.refused := rfl
@[simp] theorem dropRun_pageFail (id : Nat) : (s.dropRun id).pageFail = s.pageFail := rfl
@[simp] theorem dropRun_tlb (id : Nat) : (s.dropRun id).tlb = s.tlb := rfl
@[simp] theorem dropRun_inval (id : Nat) : (s.dropRun id).inval = s.inval := rfl
@[simp] theorem dropRun_dir (id : Nat) : (s.dropRun id).dir = s.dir := rfl
@[simp] theorem dropRun_hmap (id : Nat) : (s.dropRun id).hmap = s.hmap := rfl
@[simp] theorem dropRun_traps (id : Nat) : (s.dropRun id).traps = s.traps := rfl
@[simp] theorem dropRun_snap (id : Nat) : (s.dropRun id).snap = s.snap := rfl
@[simp] theorem dropRun_fab (id : Nat) : (s.dropRun id).fab = s.fab := rfl
@[simp] theorem dropRun_mgmt (id : Nat) : (s.dropRun id).mgmt = s.mgmt := rfl

@[simp] theorem modCmd_agenda (id : Nat) (f : Cmd → Cmd) : (s.modCmd id f).agenda = s.agenda := rfl
@[simp] theorem modCmd_turn (id : Nat) (f : Cmd → Cmd) : (s.modCmd id f).turn = s.turn := rfl
@[simp] theorem modCmd_issue (id : Nat) (f : Cmd → Cmd) : (s.modCmd id f).issue = s.issue := rfl
@[simp] theorem modCmd_outbox (id : Nat) (f : Cmd → Cmd) : (s.modCmd id f).outbox = s.outbox := rfl
@[simp] theorem modCmd_now (id : Nat) (f : Cmd → Cmd) : (s.modCmd id f).now = s.now := rfl
@[simp] theorem modCmd_ids (id : Nat) (f : Cmd → Cmd) : (s.modCmd id f).ids = s.ids := rfl
@[simp] theorem modCmd_mem (id : Nat) (f : Cmd → Cmd) : (s.modCmd id f).mem = s.mem := rfl
@[simp] theorem modCmd_scr (id : Nat) (f : Cmd → Cmd) : (s.modCmd id f).scr = s.scr := rfl
@[simp] theorem modCmd_hub (id : Nat) (f : Cmd → Cmd) : (s.modCmd id f).hub = s.hub := rfl
@[simp] theorem modCmd_threads (id : Nat) (f : Cmd → Cmd) : (s.modCmd id f).threads = s.threads := rfl
@[simp] theorem modCmd_groups (id : Nat) (f : Cmd → Cmd) : (s.modCmd id f).groups = s.groups := rfl
@[simp] theorem modCmd_cores (id : Nat) (f : Cmd → Cmd) : (s.modCmd id f).cores = s.cores := rfl
@[simp] theorem modCmd_runs (id : Nat) (f : Cmd → Cmd) : (s.modCmd id f).runs = s.runs := rfl
@[simp] theorem modCmd_accesses (id : Nat) (f : Cmd → Cmd) : (s.modCmd id f).accesses = s.accesses := rfl
@[simp] theorem modCmd_cmds (id : Nat) (f : Cmd → Cmd) : (s.modCmd id f).cmds = s.cmds.map (fun c => if c.id = id then f c else c) := rfl
@[simp] theorem modCmd_launches (id : Nat) (f : Cmd → Cmd) : (s.modCmd id f).launches = s.launches := rfl
@[simp] theorem modCmd_sched (id : Nat) (f : Cmd → Cmd) : (s.modCmd id f).sched = s.sched := rfl
@[simp] theorem modCmd_reqs (id : Nat) (f : Cmd → Cmd) : (s.modCmd id f).reqs = s.reqs := rfl
@[simp] theorem modCmd_refused (id : Nat) (f : Cmd → Cmd) : (s.modCmd id f).refused = s.refused := rfl
@[simp] theorem modCmd_pageFail (id : Nat) (f : Cmd → Cmd) : (s.modCmd id f).pageFail = s.pageFail := rfl
@[simp] theorem modCmd_tlb (id : Nat) (f : Cmd → Cmd) : (s.modCmd id f).tlb = s.tlb := rfl
@[simp] theorem modCmd_inval (id : Nat) (f : Cmd → Cmd) : (s.modCmd id f).inval = s.inval := rfl
@[simp] theorem modCmd_dir (id : Nat) (f : Cmd → Cmd) : (s.modCmd id f).dir = s.dir := rfl
@[simp] theorem modCmd_hmap (id : Nat) (f : Cmd → Cmd) : (s.modCmd id f).hmap = s.hmap := rfl
@[simp] theorem modCmd_traps (id : Nat) (f : Cmd → Cmd) : (s.modCmd id f).traps = s.traps := rfl
@[simp] theorem modCmd_snap (id : Nat) (f : Cmd → Cmd) : (s.modCmd id f).snap = s.snap := rfl
@[simp] theorem modCmd_fab (id : Nat) (f : Cmd → Cmd) : (s.modCmd id f).fab = s.fab := rfl
@[simp] theorem modCmd_mgmt (id : Nat) (f : Cmd → Cmd) : (s.modCmd id f).mgmt = s.mgmt := rfl

@[simp] theorem dropCmd_agenda (id : Nat) : (s.dropCmd id).agenda = s.agenda := rfl
@[simp] theorem dropCmd_turn (id : Nat) : (s.dropCmd id).turn = s.turn := rfl
@[simp] theorem dropCmd_issue (id : Nat) : (s.dropCmd id).issue = s.issue := rfl
@[simp] theorem dropCmd_outbox (id : Nat) : (s.dropCmd id).outbox = s.outbox := rfl
@[simp] theorem dropCmd_now (id : Nat) : (s.dropCmd id).now = s.now := rfl
@[simp] theorem dropCmd_ids (id : Nat) : (s.dropCmd id).ids = s.ids := rfl
@[simp] theorem dropCmd_mem (id : Nat) : (s.dropCmd id).mem = s.mem := rfl
@[simp] theorem dropCmd_scr (id : Nat) : (s.dropCmd id).scr = s.scr := rfl
@[simp] theorem dropCmd_hub (id : Nat) : (s.dropCmd id).hub = s.hub := rfl
@[simp] theorem dropCmd_threads (id : Nat) : (s.dropCmd id).threads = s.threads := rfl
@[simp] theorem dropCmd_groups (id : Nat) : (s.dropCmd id).groups = s.groups := rfl
@[simp] theorem dropCmd_cores (id : Nat) : (s.dropCmd id).cores = s.cores := rfl
@[simp] theorem dropCmd_runs (id : Nat) : (s.dropCmd id).runs = s.runs := rfl
@[simp] theorem dropCmd_accesses (id : Nat) : (s.dropCmd id).accesses = s.accesses := rfl
@[simp] theorem dropCmd_cmds (id : Nat) : (s.dropCmd id).cmds = s.cmds.filter (fun c => c.id != id) := rfl
@[simp] theorem dropCmd_launches (id : Nat) : (s.dropCmd id).launches = s.launches := rfl
@[simp] theorem dropCmd_sched (id : Nat) : (s.dropCmd id).sched = s.sched := rfl
@[simp] theorem dropCmd_reqs (id : Nat) : (s.dropCmd id).reqs = s.reqs := rfl
@[simp] theorem dropCmd_refused (id : Nat) : (s.dropCmd id).refused = s.refused := rfl
@[simp] theorem dropCmd_pageFail (id : Nat) : (s.dropCmd id).pageFail = s.pageFail := rfl
@[simp] theorem dropCmd_tlb (id : Nat) : (s.dropCmd id).tlb = s.tlb := rfl
@[simp] theorem dropCmd_inval (id : Nat) : (s.dropCmd id).inval = s.inval := rfl
@[simp] theorem dropCmd_dir (id : Nat) : (s.dropCmd id).dir = s.dir := rfl
@[simp] theorem dropCmd_hmap (id : Nat) : (s.dropCmd id).hmap = s.hmap := rfl
@[simp] theorem dropCmd_traps (id : Nat) : (s.dropCmd id).traps = s.traps := rfl
@[simp] theorem dropCmd_snap (id : Nat) : (s.dropCmd id).snap = s.snap := rfl
@[simp] theorem dropCmd_fab (id : Nat) : (s.dropCmd id).fab = s.fab := rfl
@[simp] theorem dropCmd_mgmt (id : Nat) : (s.dropCmd id).mgmt = s.mgmt := rfl

@[simp] theorem modLaunch_agenda (id : Nat) (f : Launch → Launch) : (s.modLaunch id f).agenda = s.agenda := rfl
@[simp] theorem modLaunch_turn (id : Nat) (f : Launch → Launch) : (s.modLaunch id f).turn = s.turn := rfl
@[simp] theorem modLaunch_issue (id : Nat) (f : Launch → Launch) : (s.modLaunch id f).issue = s.issue := rfl
@[simp] theorem modLaunch_outbox (id : Nat) (f : Launch → Launch) : (s.modLaunch id f).outbox = s.outbox := rfl
@[simp] theorem modLaunch_now (id : Nat) (f : Launch → Launch) : (s.modLaunch id f).now = s.now := rfl
@[simp] theorem modLaunch_ids (id : Nat) (f : Launch → Launch) : (s.modLaunch id f).ids = s.ids := rfl
@[simp] theorem modLaunch_mem (id : Nat) (f : Launch → Launch) : (s.modLaunch id f).mem = s.mem := rfl
@[simp] theorem modLaunch_scr (id : Nat) (f : Launch → Launch) : (s.modLaunch id f).scr = s.scr := rfl
@[simp] theorem modLaunch_hub (id : Nat) (f : Launch → Launch) : (s.modLaunch id f).hub = s.hub := rfl
@[simp] theorem modLaunch_threads (id : Nat) (f : Launch → Launch) : (s.modLaunch id f).threads = s.threads := rfl
@[simp] theorem modLaunch_groups (id : Nat) (f : Launch → Launch) : (s.modLaunch id f).groups = s.groups := rfl
@[simp] theorem modLaunch_cores (id : Nat) (f : Launch → Launch) : (s.modLaunch id f).cores = s.cores := rfl
@[simp] theorem modLaunch_runs (id : Nat) (f : Launch → Launch) : (s.modLaunch id f).runs = s.runs := rfl
@[simp] theorem modLaunch_accesses (id : Nat) (f : Launch → Launch) : (s.modLaunch id f).accesses = s.accesses := rfl
@[simp] theorem modLaunch_cmds (id : Nat) (f : Launch → Launch) : (s.modLaunch id f).cmds = s.cmds := rfl
@[simp] theorem modLaunch_launches (id : Nat) (f : Launch → Launch) : (s.modLaunch id f).launches = s.launches.map (fun l => if l.id = id then f l else l) := rfl
@[simp] theorem modLaunch_sched (id : Nat) (f : Launch → Launch) : (s.modLaunch id f).sched = s.sched := rfl
@[simp] theorem modLaunch_reqs (id : Nat) (f : Launch → Launch) : (s.modLaunch id f).reqs = s.reqs := rfl
@[simp] theorem modLaunch_refused (id : Nat) (f : Launch → Launch) : (s.modLaunch id f).refused = s.refused := rfl
@[simp] theorem modLaunch_pageFail (id : Nat) (f : Launch → Launch) : (s.modLaunch id f).pageFail = s.pageFail := rfl
@[simp] theorem modLaunch_tlb (id : Nat) (f : Launch → Launch) : (s.modLaunch id f).tlb = s.tlb := rfl
@[simp] theorem modLaunch_inval (id : Nat) (f : Launch → Launch) : (s.modLaunch id f).inval = s.inval := rfl
@[simp] theorem modLaunch_dir (id : Nat) (f : Launch → Launch) : (s.modLaunch id f).dir = s.dir := rfl
@[simp] theorem modLaunch_hmap (id : Nat) (f : Launch → Launch) : (s.modLaunch id f).hmap = s.hmap := rfl
@[simp] theorem modLaunch_traps (id : Nat) (f : Launch → Launch) : (s.modLaunch id f).traps = s.traps := rfl
@[simp] theorem modLaunch_snap (id : Nat) (f : Launch → Launch) : (s.modLaunch id f).snap = s.snap := rfl
@[simp] theorem modLaunch_fab (id : Nat) (f : Launch → Launch) : (s.modLaunch id f).fab = s.fab := rfl
@[simp] theorem modLaunch_mgmt (id : Nat) (f : Launch → Launch) : (s.modLaunch id f).mgmt = s.mgmt := rfl

@[simp] theorem send_agenda (m : Msg) : (s.send m).agenda = s.agenda := rfl
@[simp] theorem send_turn (m : Msg) : (s.send m).turn = s.turn := rfl
@[simp] theorem send_issue (m : Msg) : (s.send m).issue = s.issue := rfl
@[simp] theorem send_outbox (m : Msg) : (s.send m).outbox = s.outbox ++ [m] := rfl
@[simp] theorem send_now (m : Msg) : (s.send m).now = s.now := rfl
@[simp] theorem send_ids (m : Msg) : (s.send m).ids = s.ids := rfl
@[simp] theorem send_mem (m : Msg) : (s.send m).mem = s.mem := rfl
@[simp] theorem send_scr (m : Msg) : (s.send m).scr = s.scr := rfl
@[simp] theorem send_hub (m : Msg) : (s.send m).hub = s.hub := rfl
@[simp] theorem send_threads (m : Msg) : (s.send m).threads = s.threads := rfl
@[simp] theorem send_groups (m : Msg) : (s.send m).groups = s.groups := rfl
@[simp] theorem send_cores (m : Msg) : (s.send m).cores = s.cores := rfl
@[simp] theorem send_runs (m : Msg) : (s.send m).runs = s.runs := rfl
@[simp] theorem send_accesses (m : Msg) : (s.send m).accesses = s.accesses := rfl
@[simp] theorem send_cmds (m : Msg) : (s.send m).cmds = s.cmds := rfl
@[simp] theorem send_launches (m : Msg) : (s.send m).launches = s.launches := rfl
@[simp] theorem send_sched (m : Msg) : (s.send m).sched = s.sched := rfl
@[simp] theorem send_reqs (m : Msg) : (s.send m).reqs = s.reqs := rfl
@[simp] theorem send_refused (m : Msg) : (s.send m).refused = s.refused := rfl
@[simp] theorem send_pageFail (m : Msg) : (s.send m).pageFail = s.pageFail := rfl
@[simp] theorem send_tlb (m : Msg) : (s.send m).tlb = s.tlb := rfl
@[simp] theorem send_inval (m : Msg) : (s.send m).inval = s.inval := rfl
@[simp] theorem send_dir (m : Msg) : (s.send m).dir = s.dir := rfl
@[simp] theorem send_hmap (m : Msg) : (s.send m).hmap = s.hmap := rfl
@[simp] theorem send_traps (m : Msg) : (s.send m).traps = s.traps := rfl
@[simp] theorem send_snap (m : Msg) : (s.send m).snap = s.snap := rfl
@[simp] theorem send_fab (m : Msg) : (s.send m).fab = s.fab := rfl
@[simp] theorem send_mgmt (m : Msg) : (s.send m).mgmt = s.mgmt := rfl

@[simp] theorem nextId_agenda : (s.nextId).agenda = s.agenda := rfl
@[simp] theorem nextId_turn : (s.nextId).turn = s.turn := rfl
@[simp] theorem nextId_issue : (s.nextId).issue = s.issue := rfl
@[simp] theorem nextId_outbox : (s.nextId).outbox = s.outbox := rfl
@[simp] theorem nextId_now : (s.nextId).now = s.now := rfl
@[simp] theorem nextId_ids : (s.nextId).ids = s.ids + 1 := rfl
@[simp] theorem nextId_mem : (s.nextId).mem = s.mem := rfl
@[simp] theorem nextId_scr : (s.nextId).scr = s.scr := rfl
@[simp] theorem nextId_hub : (s.nextId).hub = s.hub := rfl
@[simp] theorem nextId_threads : (s.nextId).threads = s.threads := rfl
@[simp] theorem nextId_groups : (s.nextId).groups = s.groups := rfl
@[simp] theorem nextId_cores : (s.nextId).cores = s.cores := rfl
@[simp] theorem nextId_runs : (s.nextId).runs = s.runs := rfl
@[simp] theorem nextId_accesses : (s.nextId).accesses = s.accesses := rfl
@[simp] theorem nextId_cmds : (s.nextId).cmds = s.cmds := rfl
@[simp] theorem nextId_launches : (s.nextId).launches = s.launches := rfl
@[simp] theorem nextId_sched : (s.nextId).sched = s.sched := rfl
@[simp] theorem nextId_reqs : (s.nextId).reqs = s.reqs := rfl
@[simp] theorem nextId_refused : (s.nextId).refused = s.refused := rfl
@[simp] theorem nextId_pageFail : (s.nextId).pageFail = s.pageFail := rfl
@[simp] theorem nextId_tlb : (s.nextId).tlb = s.tlb := rfl
@[simp] theorem nextId_inval : (s.nextId).inval = s.inval := rfl
@[simp] theorem nextId_dir : (s.nextId).dir = s.dir := rfl
@[simp] theorem nextId_hmap : (s.nextId).hmap = s.hmap := rfl
@[simp] theorem nextId_traps : (s.nextId).traps = s.traps := rfl
@[simp] theorem nextId_snap : (s.nextId).snap = s.snap := rfl
@[simp] theorem nextId_fab : (s.nextId).fab = s.fab := rfl
@[simp] theorem nextId_mgmt : (s.nextId).mgmt = s.mgmt := rfl

@[simp] theorem setReg_agenda (off : Nat) (v : DWord) : (s.setReg off v).agenda = s.agenda := rfl
@[simp] theorem setReg_turn (off : Nat) (v : DWord) : (s.setReg off v).turn = s.turn := rfl
@[simp] theorem setReg_issue (off : Nat) (v : DWord) : (s.setReg off v).issue = s.issue := rfl
@[simp] theorem setReg_outbox (off : Nat) (v : DWord) : (s.setReg off v).outbox = s.outbox := rfl
@[simp] theorem setReg_now (off : Nat) (v : DWord) : (s.setReg off v).now = s.now := rfl
@[simp] theorem setReg_ids (off : Nat) (v : DWord) : (s.setReg off v).ids = s.ids := rfl
@[simp] theorem setReg_mem (off : Nat) (v : DWord) : (s.setReg off v).mem = s.mem := rfl
@[simp] theorem setReg_scr (off : Nat) (v : DWord) : (s.setReg off v).scr = s.scr := rfl
@[simp] theorem setReg_hub (off : Nat) (v : DWord) : (s.setReg off v).hub = spSet hubReset s.hub off v := rfl
@[simp] theorem setReg_threads (off : Nat) (v : DWord) : (s.setReg off v).threads = s.threads := rfl
@[simp] theorem setReg_groups (off : Nat) (v : DWord) : (s.setReg off v).groups = s.groups := rfl
@[simp] theorem setReg_cores (off : Nat) (v : DWord) : (s.setReg off v).cores = s.cores := rfl
@[simp] theorem setReg_runs (off : Nat) (v : DWord) : (s.setReg off v).runs = s.runs := rfl
@[simp] theorem setReg_accesses (off : Nat) (v : DWord) : (s.setReg off v).accesses = s.accesses := rfl
@[simp] theorem setReg_cmds (off : Nat) (v : DWord) : (s.setReg off v).cmds = s.cmds := rfl
@[simp] theorem setReg_launches (off : Nat) (v : DWord) : (s.setReg off v).launches = s.launches := rfl
@[simp] theorem setReg_sched (off : Nat) (v : DWord) : (s.setReg off v).sched = s.sched := rfl
@[simp] theorem setReg_reqs (off : Nat) (v : DWord) : (s.setReg off v).reqs = s.reqs := rfl
@[simp] theorem setReg_refused (off : Nat) (v : DWord) : (s.setReg off v).refused = s.refused := rfl
@[simp] theorem setReg_pageFail (off : Nat) (v : DWord) : (s.setReg off v).pageFail = s.pageFail := rfl
@[simp] theorem setReg_tlb (off : Nat) (v : DWord) : (s.setReg off v).tlb = s.tlb := rfl
@[simp] theorem setReg_inval (off : Nat) (v : DWord) : (s.setReg off v).inval = s.inval := rfl
@[simp] theorem setReg_dir (off : Nat) (v : DWord) : (s.setReg off v).dir = s.dir := rfl
@[simp] theorem setReg_hmap (off : Nat) (v : DWord) : (s.setReg off v).hmap = s.hmap := rfl
@[simp] theorem setReg_traps (off : Nat) (v : DWord) : (s.setReg off v).traps = s.traps := rfl
@[simp] theorem setReg_snap (off : Nat) (v : DWord) : (s.setReg off v).snap = s.snap := rfl
@[simp] theorem setReg_fab (off : Nat) (v : DWord) : (s.setReg off v).fab = s.fab := rfl
@[simp] theorem setReg_mgmt (off : Nat) (v : DWord) : (s.setReg off v).mgmt = s.mgmt := rfl

@[simp] theorem fly_agenda (q : Issue) (lat : Nat) (vals : List (Nat × Dest × QWord)) : (s.fly q lat vals).agenda = s.agenda := rfl
@[simp] theorem fly_turn (q : Issue) (lat : Nat) (vals : List (Nat × Dest × QWord)) : (s.fly q lat vals).turn = s.turn := rfl
@[simp] theorem fly_issue (q : Issue) (lat : Nat) (vals : List (Nat × Dest × QWord)) : (s.fly q lat vals).issue = s.issue := rfl
@[simp] theorem fly_outbox (q : Issue) (lat : Nat) (vals : List (Nat × Dest × QWord)) : (s.fly q lat vals).outbox = s.outbox := rfl
@[simp] theorem fly_now (q : Issue) (lat : Nat) (vals : List (Nat × Dest × QWord)) : (s.fly q lat vals).now = s.now := rfl
@[simp] theorem fly_ids (q : Issue) (lat : Nat) (vals : List (Nat × Dest × QWord)) : (s.fly q lat vals).ids = s.ids := rfl
@[simp] theorem fly_mem (q : Issue) (lat : Nat) (vals : List (Nat × Dest × QWord)) : (s.fly q lat vals).mem = s.mem := rfl
@[simp] theorem fly_scr (q : Issue) (lat : Nat) (vals : List (Nat × Dest × QWord)) : (s.fly q lat vals).scr = s.scr := rfl
@[simp] theorem fly_hub (q : Issue) (lat : Nat) (vals : List (Nat × Dest × QWord)) : (s.fly q lat vals).hub = s.hub := rfl
@[simp] theorem fly_threads (q : Issue) (lat : Nat) (vals : List (Nat × Dest × QWord)) : (s.fly q lat vals).threads = s.threads := rfl
@[simp] theorem fly_groups (q : Issue) (lat : Nat) (vals : List (Nat × Dest × QWord)) : (s.fly q lat vals).groups = s.groups := rfl
@[simp] theorem fly_cores (q : Issue) (lat : Nat) (vals : List (Nat × Dest × QWord)) : (s.fly q lat vals).cores = s.cores := rfl
@[simp] theorem fly_runs (q : Issue) (lat : Nat) (vals : List (Nat × Dest × QWord)) : (s.fly q lat vals).runs = s.runs.map (fun r => if r.id = q.run then { r with flights := r.flights ++ resultsOf (q.count + lat) none 0 vals } else r) := rfl
@[simp] theorem fly_accesses (q : Issue) (lat : Nat) (vals : List (Nat × Dest × QWord)) : (s.fly q lat vals).accesses = s.accesses := rfl
@[simp] theorem fly_cmds (q : Issue) (lat : Nat) (vals : List (Nat × Dest × QWord)) : (s.fly q lat vals).cmds = s.cmds := rfl
@[simp] theorem fly_launches (q : Issue) (lat : Nat) (vals : List (Nat × Dest × QWord)) : (s.fly q lat vals).launches = s.launches := rfl
@[simp] theorem fly_sched (q : Issue) (lat : Nat) (vals : List (Nat × Dest × QWord)) : (s.fly q lat vals).sched = s.sched := rfl
@[simp] theorem fly_reqs (q : Issue) (lat : Nat) (vals : List (Nat × Dest × QWord)) : (s.fly q lat vals).reqs = s.reqs := rfl
@[simp] theorem fly_refused (q : Issue) (lat : Nat) (vals : List (Nat × Dest × QWord)) : (s.fly q lat vals).refused = s.refused := rfl
@[simp] theorem fly_pageFail (q : Issue) (lat : Nat) (vals : List (Nat × Dest × QWord)) : (s.fly q lat vals).pageFail = s.pageFail := rfl
@[simp] theorem fly_tlb (q : Issue) (lat : Nat) (vals : List (Nat × Dest × QWord)) : (s.fly q lat vals).tlb = s.tlb := rfl
@[simp] theorem fly_inval (q : Issue) (lat : Nat) (vals : List (Nat × Dest × QWord)) : (s.fly q lat vals).inval = s.inval := rfl
@[simp] theorem fly_dir (q : Issue) (lat : Nat) (vals : List (Nat × Dest × QWord)) : (s.fly q lat vals).dir = s.dir := rfl
@[simp] theorem fly_hmap (q : Issue) (lat : Nat) (vals : List (Nat × Dest × QWord)) : (s.fly q lat vals).hmap = s.hmap := rfl
@[simp] theorem fly_traps (q : Issue) (lat : Nat) (vals : List (Nat × Dest × QWord)) : (s.fly q lat vals).traps = s.traps := rfl
@[simp] theorem fly_snap (q : Issue) (lat : Nat) (vals : List (Nat × Dest × QWord)) : (s.fly q lat vals).snap = s.snap := rfl
@[simp] theorem fly_fab (q : Issue) (lat : Nat) (vals : List (Nat × Dest × QWord)) : (s.fly q lat vals).fab = s.fab := rfl
@[simp] theorem fly_mgmt (q : Issue) (lat : Nat) (vals : List (Nat × Dest × QWord)) : (s.fly q lat vals).mgmt = s.mgmt := rfl

@[simp] theorem bumpSeq_agenda (core : Nat) : (s.bumpSeq core).agenda = s.agenda := rfl
@[simp] theorem bumpSeq_turn (core : Nat) : (s.bumpSeq core).turn = s.turn := rfl
@[simp] theorem bumpSeq_issue (core : Nat) : (s.bumpSeq core).issue = s.issue := rfl
@[simp] theorem bumpSeq_outbox (core : Nat) : (s.bumpSeq core).outbox = s.outbox := rfl
@[simp] theorem bumpSeq_now (core : Nat) : (s.bumpSeq core).now = s.now := rfl
@[simp] theorem bumpSeq_ids (core : Nat) : (s.bumpSeq core).ids = s.ids := rfl
@[simp] theorem bumpSeq_mem (core : Nat) : (s.bumpSeq core).mem = s.mem := rfl
@[simp] theorem bumpSeq_scr (core : Nat) : (s.bumpSeq core).scr = s.scr := rfl
@[simp] theorem bumpSeq_hub (core : Nat) : (s.bumpSeq core).hub = s.hub := rfl
@[simp] theorem bumpSeq_threads (core : Nat) : (s.bumpSeq core).threads = s.threads := rfl
@[simp] theorem bumpSeq_groups (core : Nat) : (s.bumpSeq core).groups = s.groups := rfl
@[simp] theorem bumpSeq_cores (core : Nat) : (s.bumpSeq core).cores = spPut s.cores core { s.core core with seq := (s.core core).seq + 1 } := rfl
@[simp] theorem bumpSeq_runs (core : Nat) : (s.bumpSeq core).runs = s.runs := rfl
@[simp] theorem bumpSeq_accesses (core : Nat) : (s.bumpSeq core).accesses = s.accesses := rfl
@[simp] theorem bumpSeq_cmds (core : Nat) : (s.bumpSeq core).cmds = s.cmds := rfl
@[simp] theorem bumpSeq_launches (core : Nat) : (s.bumpSeq core).launches = s.launches := rfl
@[simp] theorem bumpSeq_sched (core : Nat) : (s.bumpSeq core).sched = s.sched := rfl
@[simp] theorem bumpSeq_reqs (core : Nat) : (s.bumpSeq core).reqs = s.reqs := rfl
@[simp] theorem bumpSeq_refused (core : Nat) : (s.bumpSeq core).refused = s.refused := rfl
@[simp] theorem bumpSeq_pageFail (core : Nat) : (s.bumpSeq core).pageFail = s.pageFail := rfl
@[simp] theorem bumpSeq_tlb (core : Nat) : (s.bumpSeq core).tlb = s.tlb := rfl
@[simp] theorem bumpSeq_inval (core : Nat) : (s.bumpSeq core).inval = s.inval := rfl
@[simp] theorem bumpSeq_dir (core : Nat) : (s.bumpSeq core).dir = s.dir := rfl
@[simp] theorem bumpSeq_hmap (core : Nat) : (s.bumpSeq core).hmap = s.hmap := rfl
@[simp] theorem bumpSeq_traps (core : Nat) : (s.bumpSeq core).traps = s.traps := rfl
@[simp] theorem bumpSeq_snap (core : Nat) : (s.bumpSeq core).snap = s.snap := rfl
@[simp] theorem bumpSeq_fab (core : Nat) : (s.bumpSeq core).fab = s.fab := rfl
@[simp] theorem bumpSeq_mgmt (core : Nat) : (s.bumpSeq core).mgmt = s.mgmt := rfl

theorem thread_setThread_same (k : Nat) (t : Thread) : (s.setThread k t).thread k = t := spGet_spPut_same _ _ k t
theorem thread_setThread_other {k i : Nat} (t : Thread) (h : i ≠ k) : (s.setThread k t).thread i = s.thread i := spGet_spPut_other _ _ t h
theorem thread_modThread_same (k : Nat) (f : Thread → Thread) : (s.modThread k f).thread k = f (s.thread k) := spGet_spPut_same _ _ k _
theorem thread_modThread_other {k i : Nat} (f : Thread → Thread) (h : i ≠ k) : (s.modThread k f).thread i = s.thread i := spGet_spPut_other _ _ _ h

theorem group_setGroup_same (k : Nat) (t : Group) : (s.setGroup k t).group k = t := spGet_spPut_same _ _ k t
theorem group_setGroup_other {k i : Nat} (t : Group) (h : i ≠ k) : (s.setGroup k t).group i = s.group i := spGet_spPut_other _ _ t h
theorem group_modGroup_same (k : Nat) (f : Group → Group) : (s.modGroup k f).group k = f (s.group k) := spGet_spPut_same _ _ k _
theorem group_modGroup_other {k i : Nat} (f : Group → Group) (h : i ≠ k) : (s.modGroup k f).group i = s.group i := spGet_spPut_other _ _ _ h

theorem core_setCore_same (k : Nat) (t : Core) : (s.setCore k t).core k = t := spGet_spPut_same _ _ k t
theorem core_setCore_other {k i : Nat} (t : Core) (h : i ≠ k) : (s.setCore k t).core i = s.core i := spGet_spPut_other _ _ t h
theorem core_modCore_same (k : Nat) (f : Core → Core) : (s.modCore k f).core k = f (s.core k) := spGet_spPut_same _ _ k _
theorem core_modCore_other {k i : Nat} (f : Core → Core) (h : i ≠ k) : (s.modCore k f).core i = s.core i := spGet_spPut_other _ _ _ h

theorem reg_setReg_same (off : Nat) (v : DWord) : (s.setReg off v).reg off = v := spGet_spSet_same _ _ off v
theorem reg_setReg_other {off i : Nat} (v : DWord) (h : i ≠ off) : (s.setReg off v).reg i = s.reg i :=
  spGet_spSet_other _ _ v h

end Sys2Proof.Laws
end

