-- ==== Sys2Proof/Laws/Memory.lean ====
section
/-! SUPPORT. What a write of one byte reads back as, and the state that writes of memory and marks of page-table entries
leave alone: `MemOnly s t` says that t differs from s in nothing but memory, the scratchpads, the directories, the
translations kept and the messages of a directory. -/

namespace Sys2Proof.Laws

open Sys2Proof.Machine

/-- A byte after a write of one byte. -/
theorem byte_setByte (s : State) (loc : Nat) (b : Byte) (a : Nat) :
    (s.setByte loc b).byte a = if a = loc then b else s.byte a := by
  unfold State.setByte State.byte isScr
  by_cases h : 2 ^ 60 ≤ loc <;> by_cases h' : 2 ^ 60 ≤ a <;> simp only [h, h', decide_true, decide_false, if_true] <;>
    simp only [spGet_spSet, Bool.false_eq_true, if_false] <;> by_cases e : a = loc <;> simp_all <;> omega

/-- t differs from s in nothing but memory and what keeps it in step. -/
def MemOnly (s t : State) : Prop :=
  ∃ mem scr fab dir tlb outbox,
    t = { s with mem := mem, scr := scr, fab := fab, dir := dir, tlb := tlb, outbox := outbox }

theorem MemOnly.refl (s : State) : MemOnly s s := ⟨_, _, _, _, _, _, rfl⟩

theorem MemOnly.trans {s t u : State} (h1 : MemOnly s t) (h2 : MemOnly t u) : MemOnly s u := by
  obtain ⟨_, _, _, _, _, _, rfl⟩ := h1
  obtain ⟨m, c, f, d, l, o, rfl⟩ := h2
  exact ⟨m, c, f, d, l, o, rfl⟩

theorem MemOnly.foldl {α : Type} {f : State → α → State} (h : ∀ s x, MemOnly s (f s x)) (xs : List α) (s : State) :
    MemOnly s (xs.foldl f s) := by
  induction xs generalizing s with
  | nil => exact .refl s
  | cons x xs ih => rw [List.foldl_cons]; exact (h s x).trans (ih _)

theorem memOnly_setByte (s : State) (loc : Nat) (b : Byte) : MemOnly s (s.setByte loc b) := by
  unfold State.setByte
  split <;> exact ⟨_, _, _, _, _, _, rfl⟩

theorem memOnly_setBytes (bs : List Byte) (s : State) (loc : Nat) : MemOnly s (s.setBytes loc bs) := by
  induction bs generalizing s loc with
  | nil => exact .refl s
  | cons b bs ih => exact (memOnly_setByte s loc b).trans (ih _ _)

theorem memOnly_dirDrop (s : State) (loc : Nat) : MemOnly s (s.dirDrop loc) := by
  unfold State.dirDrop
  split
  · exact .refl s
  · exact ⟨_, _, _, _, _, _, rfl⟩

/-- An agent's write changes memory only. -/
theorem memOnly_put (s : State) (loc : Nat) (bs : List Byte) : MemOnly s (s.put loc bs) :=
  ((memOnly_setBytes bs s loc).trans (memOnly_dirDrop _ _)).trans (memOnly_dirDrop _ _)

theorem memOnly_setPte (s : State) (a : Nat) (p p' : DWord) : MemOnly s (s.setPte a p p') := by
  unfold State.setPte
  split
  · exact .refl s
  · split
    · exact memOnly_put _ _ _
    · split
      · unfold State.fabSend
        split <;> exact ⟨_, _, _, _, _, _, rfl⟩
      · exact .refl s
    · exact .refl s

theorem memOnly_hubSeen (s : State) (pa len : Nat) : MemOnly s (s.hubSeen pa len) := by
  unfold State.hubSeen
  split
  · unfold State.homeReads
    split
    · exact .refl s
    · exact MemOnly.foldl (fun _ _ => ⟨_, _, _, _, _, _, rfl⟩) _ _
  · exact .refl s

theorem memOnly_keepWalk (s : State) (agent t va : Nat) (leaf : DWord × Nat × Nat) : MemOnly s (s.keepWalk agent t va leaf) := by
  unfold State.keepWalk
  exact MemOnly.trans (t := { s with tlb := _ }) ⟨_, _, _, _, _, _, rfl⟩
    (MemOnly.foldl (fun _ _ => memOnly_hubSeen _ _ _) _ _)

theorem memOnly_markUsedBy (s : State) (agent t : Nat) (write : Bool) (va : DWord) :
    MemOnly s (s.markUsedBy agent t write va) := by
  unfold State.markUsedBy
  split
  · exact .refl s
  · exact (memOnly_setPte _ _ _ _).trans (MemOnly.trans (t := { (State.setPte s _ _ _) with tlb := _ }) ⟨_, _, _, _, _, _, rfl⟩
      (memOnly_keepWalk _ _ _ _ _))

theorem memOnly_markUsed (s : State) (t : Nat) (write : Bool) (va : DWord) : MemOnly s (s.markUsed t write va) :=
  memOnly_markUsedBy ..

/-- Marking the pages of an access changes memory and the translations kept only. -/
theorem memOnly_markRange (s : State) (g : Nat) (write : Bool) (va : DWord) (len : Nat) :
    MemOnly s (s.markRange g write va len) := by
  unfold State.markRange
  split
  · exact .refl s
  · simp only
    split
    · exact memOnly_markUsedBy _ _ _ _ _
    · exact (memOnly_markUsedBy _ _ _ _ _).trans (memOnly_markUsedBy _ _ _ _ _)

theorem MemOnly.threads {s t : State} (h : MemOnly s t) : t.threads = s.threads := by
  obtain ⟨_, _, _, _, _, _, rfl⟩ := h; rfl
theorem MemOnly.groups {s t : State} (h : MemOnly s t) : t.groups = s.groups := by
  obtain ⟨_, _, _, _, _, _, rfl⟩ := h; rfl
theorem MemOnly.cores {s t : State} (h : MemOnly s t) : t.cores = s.cores := by
  obtain ⟨_, _, _, _, _, _, rfl⟩ := h; rfl
theorem MemOnly.runs {s t : State} (h : MemOnly s t) : t.runs = s.runs := by
  obtain ⟨_, _, _, _, _, _, rfl⟩ := h; rfl
theorem MemOnly.hub {s t : State} (h : MemOnly s t) : t.hub = s.hub := by
  obtain ⟨_, _, _, _, _, _, rfl⟩ := h; rfl

end Sys2Proof.Laws
end

