-- ==== Sys2Proof/Laws/Context.lean ====
section
/-! SUPPORT. What parking a group and saving its context leave unchanged. -/

namespace Sys2Proof.Laws

open Sys2Proof.Machine

/-- Freeing a group's block-pool blocks is noted at its core only. -/
theorem freedGroup_frame (s : State) (k : Nat) : ∃ cores, s.freedGroup k = { s with cores := cores } := by
  have one : ∀ (z : State) (core lane n : Nat), ∃ cores, z.freed core lane n = { z with cores := cores } := by
    intro z core lane n
    unfold State.freed
    split <;> exact ⟨_, rfl⟩
  have all : ∀ (xs : List (Nat × Thread)) (z : State), ∃ cores,
      xs.foldl (fun s q => s.freed (s.group k).core (s.laneOf q.1) q.2.blocks) z = { z with cores := cores } := by
    intro xs
    induction xs with
    | nil => intro z; exact ⟨_, rfl⟩
    | cons x xs ih =>
      intro z
      obtain ⟨a, ha⟩ := one z (z.group k).core (z.laneOf x.1) x.2.blocks
      obtain ⟨b, hb⟩ := ih (z.freed (z.group k).core (z.laneOf x.1) x.2.blocks)
      exact ⟨b, by rw [List.foldl_cons, hb, ha]⟩
  unfold State.freedGroup
  split
  · exact ⟨_, rfl⟩
  · exact all _ s

/-- Parking changes the group and its core only. -/
theorem park_frame (s : State) (k : Nat) : ∃ cores g, s.park k = { s with cores := cores, groups := spPut s.groups k g }
    ∧ g.place = .parked := by
  unfold State.park
  obtain ⟨a, h⟩ := freedGroup_frame s k
  simp only [h]
  exact ⟨_, _, rfl, rfl⟩

/-! ### Marks -/

/-- Two bytes that differ at most in the A and D bits. -/
def SameButMarks (s t : State) : Prop := ∀ d, t.byte d ||| 0xC0 = s.byte d ||| 0xC0

theorem SameButMarks.refl (s : State) : SameButMarks s s := fun _ => rfl
theorem SameButMarks.trans {s t u : State} (h1 : SameButMarks s t) (h2 : SameButMarks t u) : SameButMarks s u :=
  fun d => (h2 d).trans (h1 d)

theorem SameButMarks.of_mem {s t : State} (hm : t.mem = s.mem) (hs : t.scr = s.scr) : SameButMarks s t := by
  intro d; unfold State.byte; rw [hm, hs]

theorem byte_setBytes (bs : List Byte) : ∀ (s : State) (loc d : Nat), (s.setBytes loc bs).byte d
    = if loc ≤ d ∧ d < loc + bs.length then bs.getD (d - loc) 0 else s.byte d := by
  induction bs with
  | nil => intro s loc d; rw [if_neg (by simp)]; rfl
  | cons b bs ih =>
    intro s loc d
    show ((s.setByte loc b).setBytes (loc + 1) bs).byte d = _
    rw [ih, byte_setByte]
    simp only [List.length_cons]
    by_cases h1 : loc + 1 ≤ d ∧ d < loc + 1 + bs.length
    · rw [if_pos h1, if_pos (by omega)]
      have : d - loc = (d - (loc + 1)) + 1 := by omega
      rw [this]; rfl
    · rw [if_neg h1]
      by_cases h2 : d = loc
      · subst h2; rw [if_pos (by simp), if_pos (by omega)]; simp
      · rw [if_neg (by simpa using h2), if_neg (by omega)]

/-- Of the eight bytes of an entry, marking changes A and D only. -/
theorem markedPte_bytes (write : Bool) (bs : List Byte) (h : bs.length = 8) (i : Nat) (hi : i < 8) :
    (leBytes 8 (markedPte write (BitVec.ofNat 64 (leNat bs))).toNat).getD i 0 ||| 0xC0 = bs.getD i 0 ||| 0xC0 := by
  obtain ⟨c, hc⟩ : ∃ c : DWord, (c = 0x40 ∨ c = 0xC0) ∧ markedPte write (BitVec.ofNat 64 (leNat bs)) = BitVec.ofNat 64 (leNat bs) ||| c := by
    unfold markedPte
    split
    · exact ⟨0x40 ||| 0x80, .inr (by decide), by rw [BitVec.or_assoc]⟩
    · exact ⟨0x40, .inl rfl, by simp⟩
  rw [hc.2]
  have step : ∀ (n v i : Nat), i < n → (leBytes n v).getD i 0 = BitVec.ofNat 8 (v / 256 ^ i) := by
    intro n
    induction n with
    | zero => intro v i h; omega
    | succ n ih =>
      intro v i h
      cases i with
      | zero => simp [leBytes]
      | succ i =>
        rw [leBytes, List.getD_cons_succ, ih _ _ (by omega), Nat.div_div_eq_div_mul, pow_succ, Nat.mul_comm]
  have ext : ∀ x : DWord, BitVec.ofNat 8 (x.toNat / 256 ^ i) = x.extractLsb' (8 * i) 8 := by
    intro x
    apply BitVec.eq_of_toNat_eq
    simp [BitVec.extractLsb'_toNat, Nat.shiftRight_eq_div_pow, pow_mul]
  have le : ∀ (cs : List Byte) (i : Nat), i < cs.length → leNat cs / 256 ^ i % 256 = (cs.getD i 0).toNat := by
    intro cs
    induction cs with
    | nil => intro i h; simp at h
    | cons c cs ih =>
      intro i h
      have e : leNat (c :: cs) = c.toNat + 256 * leNat cs := rfl
      have hlt := c.isLt
      cases i with
      | zero => simp only [e, pow_zero, Nat.div_one, List.getD_cons_zero]; omega
      | succ i =>
        rw [List.getD_cons_succ, ← ih i (by simpa using h), e, Nat.pow_succ', ← Nat.div_div_eq_div_mul]
        congr 2; omega
  rw [step 8 _ i hi, ext, BitVec.extractLsb'_or, ← ext]
  have hb : BitVec.ofNat 8 ((BitVec.ofNat 64 (leNat bs)).toNat / 256 ^ i) = bs.getD i 0 := by
    apply BitVec.eq_of_toNat_eq
    rw [← le bs i (by omega), BitVec.toNat_ofNat, BitVec.toNat_ofNat]
    have : (2 : Nat) ^ 64 = 256 ^ i * 256 ^ (8 - i) := by rw [← pow_add]; rw [show i + (8 - i) = 8 by omega]; norm_num
    rw [this, Nat.mod_mul_right_div_self]
    have : (256 : Nat) ^ (8 - i) = 256 * 256 ^ (7 - i) := by rw [show 8 - i = (7 - i) + 1 by omega, pow_succ, Nat.mul_comm]
    rw [this, show (2 : Nat) ^ 8 = 256 by norm_num, Nat.mod_mul_right_mod]
  rw [hb]
  have hcc : c.extractLsb' (8 * i) 8 ||| 0xC0 = 0xC0#8 := by
    rcases hc.1 with rfl | rfl <;> interval_cases i <;> decide
  rw [BitVec.or_assoc]
  exact congrArg _ hcc

theorem bytes_getD (s : State) (i : Nat) : ∀ (n loc : Nat), i < n → (s.bytes loc n).getD i 0 = s.byte (loc + i) := by
  induction i with
  | zero => intro n loc h; cases n with
    | zero => omega
    | succ n => rfl
  | succ i ih => intro n loc h; cases n with
    | zero => omega
    | succ n =>
      show (s.bytes (loc + 1) n).getD i 0 = _
      rw [ih _ _ (by omega)]
      congr 1; omega

theorem bytes_length (s : State) : ∀ (n loc : Nat), (s.bytes loc n).length = n := by
  intro n
  induction n with
  | zero => intro loc; rfl
  | succ n ih => intro loc; show (s.bytes (loc + 1) n).length + 1 = n + 1; rw [ih]

theorem dirDrop_sameMem (s : State) (loc : Nat) : (s.dirDrop loc).mem = s.mem ∧ (s.dirDrop loc).scr = s.scr := by
  unfold State.dirDrop
  split <;> exact ⟨rfl, rfl⟩

theorem byte_put (s : State) (loc : Nat) (bs : List Byte) (d : Nat) : (s.put loc bs).byte d = (s.setBytes loc bs).byte d := by
  unfold State.put State.byte
  simp only [(dirDrop_sameMem _ _).1, (dirDrop_sameMem _ _).2]

/-- The leaf a walk answers is as it stands in memory. -/
theorem walkFrom_leaf (s : State) (t va : Nat) {p : DWord} {l a : Nat} : ∀ (level ppn : Nat),
    s.walkFrom t va level ppn = some (p, l, a) → p = s.readPte a := by
  intro level
  induction level with
  | zero =>
    intro ppn h
    unfold State.walkFrom at h
    simp only at h
    split at h
    · cases h
    · cases h; rfl
  | succ level ih =>
    intro ppn h
    unfold State.walkFrom at h
    simp only at h
    split at h
    · cases h
    · split at h
      · split at h
        · cases h
        · next hl _ =>
          cases h
          unfold State.nodePte
          cases hk : s.nodeKept t va (level + 1) (ppn * 4096 + va / 2 ^ (12 + 9 * (level + 1)) % 512 * 8) with
          | none => rfl
          | some e =>
            have he := List.find?_some hk
            unfold State.nodePte at hl
            rw [hk] at hl
            simp [hl] at he
      · exact ih _ h

/-- A leaf that takes a mark is as it stands in memory. -/
theorem leafUsed_leaf {s : State} {agent t va : Nat} {write : Bool} {p : DWord} {l a : Nat}
    (h : s.leafUsed agent t write va = some (p, l, a)) (hm : markedPte write p ≠ p) : p = s.readPte a := by
  unfold State.leafUsed at h
  split at h
  · exact walkFrom_leaf s t va _ _ h
  · split at h
    · exact walkFrom_leaf s t va _ _ h
    · next hn =>
      cases h
      by_contra hc
      exact hn ⟨hm, fun e => hc e.symm⟩

theorem sameButMarks_setPte {s : State} {a : Nat} {p : DWord} (write : Bool) (h : markedPte write p ≠ p → p = s.readPte a) :
    SameButMarks s (s.setPte a p (markedPte write p)) := by
  unfold State.setPte
  split
  · exact .refl s
  · next hm =>
    have hp := h hm
    split
    · next off hk =>
      intro d
      rw [byte_put, byte_setBytes, leBytes_length]
      split
      · next hd =>
        unfold State.readPte at hp
        rw [hk] at hp
        subst hp
        rw [markedPte_bytes _ _ (bytes_length _ _ _) _ (by omega), bytes_getD _ _ _ _ (by omega)]
        congr 3; omega
      · rfl
    · split
      · unfold State.fabSend; split <;> exact .of_mem rfl rfl
      · exact .refl s
    · exact .refl s

theorem sameButMarks_foldl {α : Type} {f : State → α → State} (h : ∀ s x, SameButMarks s (f s x)) (xs : List α) (s : State) :
    SameButMarks s (xs.foldl f s) := by
  induction xs generalizing s with
  | nil => exact .refl s
  | cons x xs ih => rw [List.foldl_cons]; exact (h s x).trans (ih _)

theorem sameButMarks_keepWalk (s : State) (agent t va : Nat) (leaf : DWord × Nat × Nat) :
    SameButMarks s (s.keepWalk agent t va leaf) := by
  unfold State.keepWalk
  refine SameButMarks.trans (t := { s with tlb := _ }) (.of_mem rfl rfl) (sameButMarks_foldl (fun z n => ?_) _ _)
  unfold State.hubSeen
  split
  · unfold State.homeReads
    split
    · exact .refl z
    · exact sameButMarks_foldl (f := fun s l => s.homeRead l) (fun y l => SameButMarks.of_mem (t := y.homeRead l) rfl rfl) _ _
  · exact .refl z

/-- Marking a page changes A and D bits only. -/
theorem sameButMarks_markUsed (s : State) (t : Nat) (write : Bool) (va : DWord) : SameButMarks s (s.markUsed t write va) := by
  unfold State.markUsed State.markUsedBy
  split
  · exact .refl s
  · next p l a h =>
    exact (sameButMarks_setPte write (leafUsed_leaf h)).trans
      (SameButMarks.trans (t := { (State.setPte s _ _ _) with tlb := _ }) (.of_mem rfl rfl) (sameButMarks_keepWalk _ _ _ _ _))

theorem byte_foldl_put (ls : List (Nat × Byte)) {d : Nat} (h : ∀ w ∈ ls, w.1 ≠ d) (s : State) :
    (ls.foldl (fun s w => s.put w.1 [w.2]) s).byte d = s.byte d := by
  induction ls generalizing s with
  | nil => rfl
  | cons w ls ih =>
    rw [List.foldl_cons, ih (fun v hv => h v (List.mem_cons_of_mem _ hv)), byte_put, byte_setBytes, if_neg]
    have := h w List.mem_cons_self
    simp; omega

theorem spFind_map {α : Type} (f : Nat × α → Nat × α) (hf : ∀ q, (f q).1 = q.1) (m : Sparse α) (k : Nat) :
    spFind (m.map f) k = (spFind m k).map (fun v => (f (k, v)).2) := by
  induction m with
  | nil => rfl
  | cons e m ih =>
    obtain ⟨j, v⟩ := e
    have h1 : (f (j, v)).1 = j := hf _
    simp only [List.map_cons]
    rw [show f (j, v) = (j, (f (j, v)).2) from Prod.ext h1 rfl, spFind, spFind]
    split
    · next h => subst h; rfl
    · exact ih

/-- Dropping a gang's region changes groups of that launch only. -/
theorem noRegion_other (s : State) (k j : Nat) (h : (s.group j).launch ≠ (s.group k).launch) :
    (s.noRegion k).group j = s.group j := by
  unfold State.noRegion State.group spGet
  simp only
  rw [spFind_map _ (fun q => by split <;> rfl)]
  unfold State.group spGet at h
  cases hj : spFind s.groups j with
  | none => rfl
  | some v =>
    rw [hj] at h
    simp only [Option.map_some, Option.getD_some] at h ⊢
    rw [if_neg]
    intro hc
    exact h hc.1

theorem moveGroup_same (s : State) (k core : Nat) : (s.moveGroup k core).groups = s.groups
    ∧ (s.moveGroup k core).mem = s.mem ∧ (s.moveGroup k core).scr = s.scr := ⟨rfl, rfl, rfl⟩

/-- A saved group leaves its core, and of memory nothing changes. -/
theorem leaveCore_frame (s : State) (k addr size : Nat) (region : Bool) :
    (s.leaveCore k addr size region).mem = s.mem ∧ (s.leaveCore k addr size region).scr = s.scr
    ∧ ((s.leaveCore k addr size region).group k).place = .saved
    ∧ ((s.leaveCore k addr size region).group k).contextPart = some (addr, size)
    ∧ ∀ j, (s.group j).launch ≠ (s.group k).launch → (s.leaveCore k addr size region).group j = s.group j := by
  obtain ⟨cores, hf⟩ := freedGroup_frame s k
  unfold State.leaveCore
  simp only
  generalize hu : (State.modCore _ _ _) = u
  have hg : u.groups = s.groups := by rw [← hu, hf]; rfl
  have hm : u.mem = s.mem := by rw [← hu, hf]; rfl
  have hs : u.scr = s.scr := by rw [← hu, hf]; rfl
  have gr : ∀ j, u.group j = s.group j := fun j => by unfold State.group; rw [hg]
  generalize hv : (if region = true then u.noRegion k else u) = v
  have vm : v.mem = s.mem := by rw [← hv, ← hm]; split <;> rfl
  have vs : v.scr = s.scr := by rw [← hv, ← hs]; split <;> rfl
  have vg : ∀ j, (s.group j).launch ≠ (s.group k).launch → v.group j = s.group j := by
    intro j hj
    rw [← hv, ← gr j]
    split
    · exact noRegion_other u k j (by rw [gr, gr]; exact hj)
    · rfl
  refine ⟨vm, vs, ?_, ?_, ?_⟩
  · unfold State.modGroup; rw [group_setGroup_same]
  · unfold State.modGroup; rw [group_setGroup_same]
  · intro j hj
    unfold State.modGroup
    rw [group_setGroup_other _ _ (by rintro rfl; exact hj rfl)]
    exact vg j hj

theorem MemOnly.group {s t : State} (h : MemOnly s t) (j : Nat) : t.group j = s.group j := by
  unfold State.group; rw [h.groups]

theorem modCore_group (s : State) (c : Nat) (f : Core → Core) (j : Nat) : (s.modCore c f).group j = s.group j := rfl

theorem writeback_group (s : State) (o : Nat) (f : Nat → Bool) (j : Nat) : (s.writeback o f).group j = s.group j := by
  unfold State.writeback
  rw [modCore_group]
  exact (MemOnly.foldl (fun z (q : Nat × Byte) => memOnly_put z q.1 [q.2]) _ _).group j

theorem writebackL1_group (s : State) (c : Nat) (f : Nat → Bool) (j : Nat) : (s.writebackL1 c f).group j = s.group j := by
  unfold State.writebackL1
  generalize s.l1s c = os
  induction os generalizing s with
  | nil => rfl
  | cons o os ih => rw [List.foldl_cons, ih, writeback_group]

/-- Saving a group's context changes, of memory, the bytes of the part and of the shadows, what the core writes back, and A
and D bits; of the other launches' groups it changes none. -/
theorem saveGroup_frame (s : State) (group a : Nat) (ls : List (Nat × Byte)) :
    let z := s.landGroup group
    let g := z.group group
    let secs := z.sections group (z.lastOfGang group)
    let ws := z.shadowWrites group ++ partWrites (BitVec.ofNat 64 a) secs
    let y := z.writebackL1 g.core (fun _ => true)
    z.poolOn g.tenant = true → z.poolFit g.tenant (partSize secs) 64 = some a → z.poolLocs g.tenant ws = .ok ls →
    z.saveWaits group ws ls = none → z.saveOwned group ws = false →
    ((s.saveGroup group).group group).place = .saved
    ∧ ((s.saveGroup group).group group).contextPart = some (a, partSize secs)
    ∧ (∀ k, (z.group k).launch ≠ g.launch → (s.saveGroup group).group k = z.group k)
    ∧ (∀ d, (∀ w ∈ ls, w.1 ≠ d) → (s.saveGroup group).byte d ||| 0xC0 = y.byte d ||| 0xC0) := by
  intro z g secs ws y h1 h2 h3 h4 h5
  let u : State := (ws.flatMap (fun w => pagesOf w.1 w.2.length)).foldl (fun s va => s.markUsed g.tenant true va)
      (ls.foldl (fun s w => s.put w.1 [w.2]) y)
  have e : s.saveGroup group = u.leaveCore group a (partSize secs) (s.lastOfGang group) := by
    unfold State.saveGroup
    simp only [z, g, secs, ws] at h1 h2 h3 h4 h5
    simp only [h1, h2, h3, h4, h5, if_true]
    rfl
  have ug : ∀ j, u.group j = z.group j := by
    intro j
    rw [(MemOnly.foldl (fun s va => memOnly_markUsed s g.tenant true va) _ _).group j,
      (MemOnly.foldl (fun z (q : Nat × Byte) => memOnly_put z q.1 [q.2]) _ _).group j, writebackL1_group]
  obtain ⟨lm, ls', lp, lc, lg⟩ := leaveCore_frame u group a (partSize secs) (s.lastOfGang group)
  rw [e]
  refine ⟨lp, lc, ?_, ?_⟩
  · intro k hk
    rw [lg k (by rw [ug, ug]; exact hk), ug]
  · intro d hd
    have : (u.leaveCore group a (partSize secs) (s.lastOfGang group)).byte d = u.byte d := by
      unfold State.byte; rw [lm, ls']
    rw [this, sameButMarks_foldl (fun s va => sameButMarks_markUsed s _ _ va) _ _ d, byte_foldl_put _ hd]

end Sys2Proof.Laws
end

