-- ==== Sys2Proof/Laws/Bus.lean ====
section
/-! SUPPORT. What a hart's or a host's write, a snapshot copy and a drained page leave unchanged. -/

namespace Sys2Proof.Laws

open Sys2Proof.Machine

/-- Reading the home at a run of bytes changes directory states only. -/
theorem homeReads_frame (s : State) (loc len : Nat) : ∃ dir, s.homeReads loc len = { s with dir := dir } := by
  unfold State.homeReads
  split
  · exact ⟨_, rfl⟩
  · generalize linesOf loc len = ls
    induction ls generalizing s with
    | nil => exact ⟨_, rfl⟩
    | cons l ls ih =>
      obtain ⟨d, h⟩ := ih (s.homeRead l)
      exact ⟨d, by rw [List.foldl_cons, h]; rfl⟩

theorem fabSend_frame (s : State) (t : Nat) (m : Msg) : (s.fabSend t m).mem = s.mem ∧ (s.fabSend t m).snap = s.snap := by
  unfold State.fabSend; split <;> exact ⟨rfl, rfl⟩

theorem setField_memSnap (s : State) (r lo w v : Nat) : (s.setField r lo w v).mem = s.mem ∧ (s.setField r lo w v).snap = s.snap :=
  ⟨rfl, rfl⟩

/-- Sending a page changes no memory, no member and no copy. -/
theorem sendPage_frame (s : State) (d page : Nat) : (s.sendPage d page).mem = s.mem
    ∧ (s.sendPage d page).snap.sent = s.snap.sent ++ [(page, d)] ∧ (s.sendPage d page).snap.member = s.snap.member
    ∧ (s.sendPage d page).snap.copies = s.snap.copies := by
  unfold State.sendPage
  simp only
  generalize (2 ^ 16 : Nat) = b
  generalize hu : (if s.pageFailed page = true then _ else s) = u
  have h1 : u.mem = s.mem ∧ u.snap = s.snap := by
    rw [← hu]
    split
    · exact setField_memSnap _ _ _ _ _
    · exact ⟨rfl, rfl⟩
  rw [← h1.1, ← h1.2]
  generalize Msg.drainPage _ _ _ _ _ = m
  generalize hv : (if s.field regSntkind 0 2 < 2 then (u.send m).send _ else _) = v
  have h2 : v.mem = u.mem ∧ v.snap = u.snap := by
    rw [← hv]
    split
    · exact ⟨rfl, rfl⟩
    · exact fabSend_frame _ _ _
  rw [← h2.1, ← h2.2]
  obtain ⟨dir, hr⟩ := homeReads_frame v (page * b) b
  split
  · rw [hr]; exact ⟨rfl, rfl, rfl, rfl⟩
  · exact ⟨rfl, rfl, rfl, rfl⟩

/-- A copied page reads as the page it was copied from, and no other byte changes. -/
theorem byte_copyPage (s : State) (src dst a : Nat) (ha : a < 2 ^ 60) (hs : src < 2 ^ 24) :
    (s.copyPage src dst).byte a = if a / 65536 = dst then s.byte (src * 65536 + a % 65536) else s.byte a := by
  have e : ∀ x, x < 2 ^ 60 → isScr x = false := by intro x hx; unfold isScr; simpa using hx
  unfold State.byte
  rw [e a ha, e (src * 65536 + a % 65536) (by omega)]
  unfold State.copyPage spGet
  simp only [Bool.false_eq_true, if_false]
  have app : ∀ (m n : Sparse Byte) (k : Nat), spFind (m ++ n) k = (spFind m k).orElse (fun _ => spFind n k) := by
    intro m n k
    induction m with
    | nil => rfl
    | cons q m ih => obtain ⟨j, v⟩ := q; simp only [List.cons_append, spFind]; split; rfl; exact ih
  have fil : ∀ (P : Nat → Bool) (m : Sparse Byte) (k : Nat), spFind (m.filter (fun q => P q.1)) k = if P k = true then spFind m k else none := by
    intro P m k
    induction m with
    | nil => simp [spFind]
    | cons q m ih =>
      obtain ⟨j, v⟩ := q
      rw [List.filter_cons]
      by_cases hp : P j = true
      · simp only [hp, if_true, spFind]
        by_cases hj : j = k
        · subst hj; simp [hp]
        · simp only [hj, if_false]; exact ih
      · simp only [hp, if_false, spFind, Bool.false_eq_true]
        rw [ih]
        by_cases hj : j = k
        · subst hj; simp [hp]
        · simp only [hj, if_false]
  have mov : ∀ (m : Sparse Byte) (k : Nat), spFind ((m.filter (fun q => q.1 / 65536 == src)).map (fun (q : Nat × Byte) =>
      (dst * 65536 + q.1 % 65536, q.2))) k = if k / 65536 = dst then spFind m (src * 65536 + k % 65536) else none := by
    intro m k
    induction m with
    | nil => simp [spFind]
    | cons q m ih =>
      obtain ⟨j, v⟩ := q
      rw [List.filter_cons]
      by_cases hp : j / 65536 = src
      · simp only [hp, beq_self_eq_true, if_true, List.map_cons, spFind, ih]
        by_cases hk : k / 65536 = dst
        · simp only [hk, if_true]
          by_cases hj : j = src * 65536 + k % 65536
          · rw [if_pos (by omega), if_pos hj]
          · rw [if_neg (by omega), if_neg hj]
        · simp only [hk, if_false]; rw [if_neg (by omega)]
      · have hb : (j / 65536 == src) = false := by simpa using hp
        simp only [hb, Bool.false_eq_true, if_false, ih, spFind]
        by_cases hk : k / 65536 = dst
        · simp only [hk, if_true]; rw [if_neg (by omega)]
        · simp only [hk, if_false]
  show Option.getD (spFind ((_ ++ _) ++ _) a) _ = _
  rw [app, app]
  have f1 := fil (fun x => decide (x / 2 ^ 16 < dst)) s.mem a
  have f2 := fil (fun x => decide (dst < x / 2 ^ 16)) s.mem a
  have f3 := mov s.mem a
  norm_num at f1 f2 f3 ⊢
  rw [f1, f2, f3]
  by_cases h : a / 65536 = dst
  · rw [if_neg (by omega), if_pos h, if_pos h, if_neg (by omega)]
    cases spFind s.mem (src * 65536 + a % 65536) <;> rfl
  · rw [if_neg h, if_neg h]
    by_cases h' : a / 65536 < dst
    · rw [if_pos h', if_neg (by omega)]
      cases spFind s.mem a <;> rfl
    · rw [if_neg h', if_pos (by omega)]
      rfl

/-- A byte after a write of a run of bytes. -/
theorem byte_putRun (s : State) (loc : Nat) (bs : List Byte) (a : Nat) :
    (s.putRun loc bs).byte a = if loc ≤ a ∧ a < loc + bs.length then bs.getD (a - loc) 0 else s.byte a := by
  unfold State.putRun linesOf
  split
  · next h => rw [List.foldl_nil, if_neg (by omega)]
  · next h =>
    have key : ∀ n, ((((List.range n).map (fun k => lineOf loc + 128 * k)).foldl (fun s l =>
        s.put (max l loc) ((bs.drop (max l loc - loc)).take (l + 128 - max l loc))) s)).byte a
        = if loc ≤ a ∧ a < loc + bs.length ∧ a < lineOf loc + 128 * n then bs.getD (a - loc) 0 else s.byte a := by
      intro n
      have hl : lineOf loc = loc / 128 * 128 := by unfold lineOf; omega
      induction n with
      | zero => rw [if_neg (by omega)]; rfl
      | succ n ih =>
        rw [List.range_succ, List.map_append, List.foldl_append]
        simp only [List.map_cons, List.map_nil, List.foldl_cons, List.foldl_nil]
        rw [byte_put, byte_setBytes, ih]
        simp only [List.length_take, List.length_drop]
        by_cases h1 : loc ≤ a ∧ a < loc + bs.length ∧ a < lineOf loc + 128 * n
        · rw [if_neg (by omega), if_pos h1, if_pos (by omega)]
        · rw [if_neg h1]
          by_cases h2 : loc ≤ a ∧ a < loc + bs.length ∧ a < lineOf loc + 128 * (n + 1)
          · rw [if_pos h2, if_pos (by omega)]
            rw [List.getD_eq_getElem?_getD, List.getD_eq_getElem?_getD, List.getElem?_take_of_lt (by omega), List.getElem?_drop]
            congr 2; omega
          · rw [if_neg h2, if_neg (by omega)]
    rw [key]
    congr 1
    have hl : lineOf loc = loc / 128 * 128 := by unfold lineOf; omega
    apply propext
    omega

/-- A write of a run of bytes changes memory only. -/
theorem memOnly_putRun (s : State) (loc : Nat) (bs : List Byte) : MemOnly s (s.putRun loc bs) :=
  MemOnly.foldl (fun _ _ => memOnly_put _ _ _) _ _

/-- A hart's write changes, beside directories and reservations, what a write of the bytes changes. -/
theorem hartPut_frame (s : State) (hart loc : Nat) (bs : List Byte) : ∃ dir mgmt,
    s.hartPut hart loc bs = { s.putRun loc bs with dir := dir, mgmt := mgmt } := by
  have all : ∀ (ls : List Nat) (z : State), ∃ dir, ls.foldl (fun s l => s.dirSet hartAgent l .m) z = { z with dir := dir } := by
    intro ls
    induction ls with
    | nil => intro z; exact ⟨_, rfl⟩
    | cons l ls ih =>
      intro z
      obtain ⟨d, h⟩ := ih (z.dirSet hartAgent l .m)
      have : ∃ e, z.dirSet hartAgent l .m = { z with dir := e } := by unfold State.dirSet; split <;> exact ⟨_, rfl⟩
      obtain ⟨e, he⟩ := this
      exact ⟨d, by rw [List.foldl_cons, h, he]⟩
  obtain ⟨d, h⟩ := all (linesOf loc bs.length) (s.putRun loc bs)
  unfold State.hartPut
  simp only [h]
  exact ⟨_, _, rfl⟩

end Sys2Proof.Laws
end

