-- ==== Sys2Proof/Laws/Decode.lean ====
section
/-! SUPPORT. How the fields of a slot come back out of its bits: each class's split of its join is the record of raw
fields, and each operand field is read from the bits that the encoder gave it. -/

namespace Sys2Proof.Laws

/-! ### Fields of a concatenation -/

theorem bitsOf_append_hi {m n : Nat} (a : BitVec m) (b : BitVec n) (lo k : Nat) (h : n ≤ lo) :
    bitsOf (a ++ b) lo k = bitsOf a (lo - n) k := by
  apply BitVec.eq_of_getLsbD_eq
  intro i hi
  simp only [bitsOf, BitVec.getLsbD_extractLsb', BitVec.getLsbD_append]
  have h1 : ¬ (lo + i < n) := by omega
  have h2 : lo + i - n = lo - n + i := by omega
  simp [h1, h2]

theorem bitsOf_append_lo {m n : Nat} (a : BitVec m) (b : BitVec n) (lo k : Nat) (h : lo + k ≤ n) :
    bitsOf (a ++ b) lo k = bitsOf b lo k := by
  apply BitVec.eq_of_getLsbD_eq
  intro i hi
  simp only [bitsOf, BitVec.getLsbD_extractLsb', BitVec.getLsbD_append]
  have : (lo + i < n) := by omega
  simp [this]

@[simp] theorem bitsOf_whole {n : Nat} (b : BitVec n) : bitsOf b 0 n = b := by simp [bitsOf]

theorem bitAt_append_hi {m n : Nat} (a : BitVec m) (b : BitVec n) (k : Nat) (h : n ≤ k) :
    bitAt (a ++ b) k = bitAt a (k - n) := by
  have h1 : ¬ (k < n) := by omega
  simp [bitAt, BitVec.getLsbD_append, h1]

theorem bitAt_append_lo {m n : Nat} (a : BitVec m) (b : BitVec n) (k : Nat) (h : k < n) :
    bitAt (a ++ b) k = bitAt b k := by
  simp [bitAt, BitVec.getLsbD_append, h]

@[simp] theorem bitAt_ofBool (b : Bool) : bitAt (BitVec.ofBool b) 0 = b := by cases b <;> rfl

/-! ### Zero extension -/

theorem bitsOf_extend_lo {n m : Nat} (a : BitVec n) (h : n ≤ m) : bitsOf (a.setWidth m) 0 n = a := by
  apply BitVec.eq_of_getLsbD_eq
  intro i hi
  have : i < m := by omega
  simp [bitsOf, hi, this]

theorem bitsOf_extend_hi {n m : Nat} (a : BitVec n) (lo k : Nat) (h : n ≤ lo) : bitsOf (a.setWidth m) lo k = 0 := by
  apply BitVec.eq_of_getLsbD_eq
  intro i hi
  have : a.getLsbD (lo + i) = false := BitVec.getLsbD_of_ge a _ (by omega)
  simp [bitsOf, this]

theorem bitAt_extend_hi {n m : Nat} (a : BitVec n) (k : Nat) (h : n ≤ k) : bitAt (a.setWidth m) k = false := by
  have : a.getLsbD k = false := BitVec.getLsbD_of_ge a _ h
  simp [bitAt, this]

@[simp] theorem bitAt_extend_bool {m : Nat} (b : Bool) (h : 0 < m := by decide) :
    bitAt ((BitVec.ofBool b).setWidth m) 0 = b := by
  cases b <;> simp [bitAt, h]

@[simp] theorem bitsOf_zero {w : Nat} (lo n : Nat) : bitsOf (0 : BitVec w) lo n = 0 := by
  simp [bitsOf]

@[simp] theorem bitAt_zero {w : Nat} (i : Nat) : bitAt (0 : BitVec w) i = false := by simp [bitAt]

theorem bits64_of_32 (w : BitVec 32) (lo n : Nat) : bitsOf (w.setWidth 64) lo n = bitsOf w lo n := by
  apply BitVec.eq_of_getLsbD_eq
  intro i hi
  simp only [bitsOf, BitVec.getLsbD_extractLsb', BitVec.getLsbD_setWidth]
  by_cases h : lo + i < 64
  · simp [h]
  · have : w.getLsbD (lo + i) = false := BitVec.getLsbD_of_ge w _ (by omega)
    simp [this]

/-! ### Operand fields -/

@[simp] theorem guardOf_bits (g : Guard) : guardOf g.bits = g := by
  obtain ⟨s, p, l⟩ := g
  have h1 : bitAt (Guard.bits ⟨s, p, l⟩) 7 = s :=
    (bitAt_append_hi (BitVec.ofBool s ++ p) l 7 (by decide)).trans
      ((bitAt_append_hi (BitVec.ofBool s) p 4 (by decide)).trans (bitAt_ofBool s))
  have h2 : bitsOf (Guard.bits ⟨s, p, l⟩) 3 4 = p :=
    (bitsOf_append_hi (BitVec.ofBool s ++ p) l 3 4 (by decide)).trans
      ((bitsOf_append_lo (BitVec.ofBool s) p 0 4 (by decide)).trans (bitsOf_whole p))
  have h3 : bitsOf (Guard.bits ⟨s, p, l⟩) 0 3 = l :=
    (bitsOf_append_lo (BitVec.ofBool s ++ p) l 0 3 (by decide)).trans (bitsOf_whole l)
  simp only [guardOf, h1, h2, h3]

@[simp] theorem srcOf_bits (b : VSrc) : srcOf b.isImm b.bits = b := by cases b <;> rfl

@[simp] theorem keyOf_bits (k : Option (BitVec 5 × BitVec 3)) : keyOf k.isSome (keyBits k) = k := by
  cases k with
  | none => rfl
  | some k =>
    obtain ⟨p, w⟩ := k
    have h1 : bitsOf (keyBits (some (p, w))) 0 5 = p :=
      (bitsOf_append_lo w p 0 5 (by decide)).trans (bitsOf_whole p)
    have h2 : bitsOf (keyBits (some (p, w))) 5 3 = w :=
      (bitsOf_append_hi w p 5 3 (by decide)).trans (bitsOf_whole w)
    simp only [keyOf, Option.isSome_some, if_true, h1, h2]

@[simp] theorem keyOf_none : keyOf false (keyBits none) = none := rfl
@[simp] theorem keyOf_some (k : BitVec 5 × BitVec 3) : keyOf true (keyBits (some k)) = some k := keyOf_bits (some k)

@[simp] theorem testOf_bits (t : Test) : testOf t.bits = t := by
  obtain ⟨p, s, b⟩ := t
  have h1 : bitsOf (Test.bits ⟨p, s, b⟩) 4 4 = p :=
    (bitsOf_append_hi (p ++ BitVec.ofBool s) b 4 4 (by decide)).trans
      ((bitsOf_append_hi p (BitVec.ofBool s) 1 4 (by decide)).trans (bitsOf_whole p))
  have h2 : bitAt (Test.bits ⟨p, s, b⟩) 3 = s :=
    (bitAt_append_hi (p ++ BitVec.ofBool s) b 3 (by decide)).trans
      ((bitAt_append_lo p (BitVec.ofBool s) 0 (by decide)).trans (bitAt_ofBool s))
  have h3 : bitsOf (Test.bits ⟨p, s, b⟩) 0 3 = b :=
    (bitsOf_append_lo (p ++ BitVec.ofBool s) b 0 3 (by decide)).trans (bitsOf_whole b)
  simp only [testOf, h1, h2, h3]

/-- Position and format of a conversion: VB = POS, FMT. -/
@[simp] theorem posFmt_lo (p : BitVec 3) (f : BitVec 5) : bitsOf (w := 8) (p ++ f) 0 5 = f :=
  (bitsOf_append_lo p f 0 5 (by decide)).trans (bitsOf_whole f)
@[simp] theorem posFmt_hi (p : BitVec 3) (f : BitVec 5) : bitsOf (w := 8) (p ++ f) 5 3 = p :=
  (bitsOf_append_hi p f 5 3 (by decide)).trans (bitsOf_whole p)

/-- Mode and quorum of VVOTE. -/
@[simp] theorem vote_lo (m : BitVec 2) (c : BitVec 6) : bitsOf (w := 8) (m ++ c) 0 6 = c :=
  (bitsOf_append_lo m c 0 6 (by decide)).trans (bitsOf_whole c)
@[simp] theorem vote_hi (m : BitVec 2) (c : BitVec 6) : bitsOf (w := 8) (m ++ c) 6 2 = m :=
  (bitsOf_append_hi m c 6 2 (by decide)).trans (bitsOf_whole m)

/-- Operation and exclusion of VSCAN. -/
@[simp] theorem scan_op (e : Bool) (o : BitVec 2) :
    bitsOf (w := 8) (0#5 ++ BitVec.ofBool e ++ o) 0 2 = o :=
  (bitsOf_append_lo ((0 : BitVec 5) ++ BitVec.ofBool e) o 0 2 (by decide)).trans (bitsOf_whole o)
@[simp] theorem scan_excl (e : Bool) (o : BitVec 2) :
    bitAt (w := 8) (0#5 ++ BitVec.ofBool e ++ o) 2 = e :=
  (bitAt_append_hi ((0 : BitVec 5) ++ BitVec.ofBool e) o 2 (by decide)).trans
    ((bitAt_append_lo (0 : BitVec 5) (BitVec.ofBool e) 0 (by decide)).trans (bitAt_ofBool e))
@[simp] theorem scan_zero (e : Bool) (o : BitVec 2) :
    bitsOf (w := 8) (0#5 ++ BitVec.ofBool e ++ o) 3 5 = 0 :=
  (bitsOf_append_hi ((0 : BitVec 5) ++ BitVec.ofBool e) o 3 5 (by decide)).trans
    ((bitsOf_append_hi (0 : BitVec 5) (BitVec.ofBool e) 1 5 (by decide)).trans (bitsOf_whole _))

/-- SEL's predicate and sense. -/
@[simp] theorem sel_b (s : Bool) (p b : BitVec 4) : bitsOf (w := 9) (BitVec.ofBool s ++ p ++ b) 0 4 = b :=
  (bitsOf_append_lo (BitVec.ofBool s ++ p) b 0 4 (by decide)).trans (bitsOf_whole b)
@[simp] theorem sel_p (s : Bool) (p b : BitVec 4) : bitsOf (w := 9) (BitVec.ofBool s ++ p ++ b) 4 4 = p :=
  (bitsOf_append_hi (BitVec.ofBool s ++ p) b 4 4 (by decide)).trans
    ((bitsOf_append_lo (BitVec.ofBool s) p 0 4 (by decide)).trans (bitsOf_whole p))
@[simp] theorem sel_s (s : Bool) (p b : BitVec 4) : bitAt (w := 9) (BitVec.ofBool s ++ p ++ b) 8 = s :=
  (bitAt_append_hi (BitVec.ofBool s ++ p) b 8 (by decide)).trans
    ((bitAt_append_hi (BitVec.ofBool s) p 4 (by decide)).trans (bitAt_ofBool s))

/-- VSEL's predicate in RND and TYPE. -/
@[simp] theorem vsel_p (s : Bool) (p : BitVec 4) :
    (bitsOf (w := 2) (BitVec.ofBool s ++ bitsOf p 3 1) 0 1 ++ bitsOf p 0 3 : BitVec 4) = p := by
  have h : bitsOf (w := 2) (BitVec.ofBool s ++ bitsOf p 3 1) 0 1 = bitsOf p 3 1 :=
    (bitsOf_append_lo (BitVec.ofBool s) (bitsOf p 3 1) 0 1 (by decide)).trans (bitsOf_whole _)
  rw [h]
  exact (by decide : ∀ p : BitVec 4, (bitsOf p 3 1 ++ bitsOf p 0 3 : BitVec 4) = p) p
@[simp] theorem vsel_s (s : Bool) (p : BitVec 4) : bitAt (w := 2) (BitVec.ofBool s ++ bitsOf p 3 1) 1 = s :=
  (bitAt_append_hi (BitVec.ofBool s) (bitsOf p 3 1) 1 (by decide)).trans (bitAt_ofBool s)

/-! ### Classes -/

theorem splitS_joinS (f : SFields) : splitS (joinS f) = f := by
  obtain ⟨xb, xa, xd, g, op⟩ := f
  have hxb : bitsOf (joinS ⟨xb, xa, xd, g, op⟩) 23 9 = xb := (bitsOf_append_hi (xb ++ xa ++ xd ++ g) op 23 9 (by decide)).trans ((bitsOf_append_hi (xb ++ xa ++ xd) g 16 9 (by decide)).trans ((bitsOf_append_hi (xb ++ xa) xd 8 9 (by decide)).trans ((bitsOf_append_hi (xb) xa 4 9 (by decide)).trans (bitsOf_whole xb))))
  have hxa : bitsOf (joinS ⟨xb, xa, xd, g, op⟩) 19 4 = xa := (bitsOf_append_hi (xb ++ xa ++ xd ++ g) op 19 4 (by decide)).trans ((bitsOf_append_hi (xb ++ xa ++ xd) g 12 4 (by decide)).trans ((bitsOf_append_hi (xb ++ xa) xd 4 4 (by decide)).trans ((bitsOf_append_lo (xb) xa 0 4 (by decide)).trans (bitsOf_whole xa))))
  have hxd : bitsOf (joinS ⟨xb, xa, xd, g, op⟩) 15 4 = xd := (bitsOf_append_hi (xb ++ xa ++ xd ++ g) op 15 4 (by decide)).trans ((bitsOf_append_hi (xb ++ xa ++ xd) g 8 4 (by decide)).trans ((bitsOf_append_lo (xb ++ xa) xd 0 4 (by decide)).trans (bitsOf_whole xd)))
  have hg : bitsOf (joinS ⟨xb, xa, xd, g, op⟩) 7 8 = g := (bitsOf_append_hi (xb ++ xa ++ xd ++ g) op 7 8 (by decide)).trans ((bitsOf_append_lo (xb ++ xa ++ xd) g 0 8 (by decide)).trans (bitsOf_whole g))
  have hop : bitsOf (joinS ⟨xb, xa, xd, g, op⟩) 0 7 = op := (bitsOf_append_lo (xb ++ xa ++ xd ++ g) op 0 7 (by decide)).trans (bitsOf_whole op)
  simp only [splitS, hxb, hxa, hxd, hg, hop]

theorem splitV_joinV (f : VFields) : splitV (joinV f) = f := by
  obtain ⟨sat, imm, rnd, ty, vb, va, vd, g, op⟩ := f
  have hsat : bitAt (joinV ⟨sat, imm, rnd, ty, vb, va, vd, g, op⟩) 47 = sat := (bitAt_append_hi (BitVec.ofBool sat ++ BitVec.ofBool imm ++ rnd ++ ty ++ vb ++ va ++ vd ++ g) op 47 (by decide)).trans ((bitAt_append_hi (BitVec.ofBool sat ++ BitVec.ofBool imm ++ rnd ++ ty ++ vb ++ va ++ vd) g 38 (by decide)).trans ((bitAt_append_hi (BitVec.ofBool sat ++ BitVec.ofBool imm ++ rnd ++ ty ++ vb ++ va) vd 30 (by decide)).trans ((bitAt_append_hi (BitVec.ofBool sat ++ BitVec.ofBool imm ++ rnd ++ ty ++ vb) va 22 (by decide)).trans ((bitAt_append_hi (BitVec.ofBool sat ++ BitVec.ofBool imm ++ rnd ++ ty) vb 14 (by decide)).trans ((bitAt_append_hi (BitVec.ofBool sat ++ BitVec.ofBool imm ++ rnd) ty 6 (by decide)).trans ((bitAt_append_hi (BitVec.ofBool sat ++ BitVec.ofBool imm) rnd 3 (by decide)).trans ((bitAt_append_hi (BitVec.ofBool sat) (BitVec.ofBool imm) 1 (by decide)).trans (bitAt_ofBool sat))))))))
  have himm : bitAt (joinV ⟨sat, imm, rnd, ty, vb, va, vd, g, op⟩) 46 = imm := (bitAt_append_hi (BitVec.ofBool sat ++ BitVec.ofBool imm ++ rnd ++ ty ++ vb ++ va ++ vd ++ g) op 46 (by decide)).trans ((bitAt_append_hi (BitVec.ofBool sat ++ BitVec.ofBool imm ++ rnd ++ ty ++ vb ++ va ++ vd) g 37 (by decide)).trans ((bitAt_append_hi (BitVec.ofBool sat ++ BitVec.ofBool imm ++ rnd ++ ty ++ vb ++ va) vd 29 (by decide)).trans ((bitAt_append_hi (BitVec.ofBool sat ++ BitVec.ofBool imm ++ rnd ++ ty ++ vb) va 21 (by decide)).trans ((bitAt_append_hi (BitVec.ofBool sat ++ BitVec.ofBool imm ++ rnd ++ ty) vb 13 (by decide)).trans ((bitAt_append_hi (BitVec.ofBool sat ++ BitVec.ofBool imm ++ rnd) ty 5 (by decide)).trans ((bitAt_append_hi (BitVec.ofBool sat ++ BitVec.ofBool imm) rnd 2 (by decide)).trans ((bitAt_append_lo (BitVec.ofBool sat) (BitVec.ofBool imm) 0 (by decide)).trans (bitAt_ofBool imm))))))))
  have hrnd : bitsOf (joinV ⟨sat, imm, rnd, ty, vb, va, vd, g, op⟩) 44 2 = rnd := (bitsOf_append_hi (BitVec.ofBool sat ++ BitVec.ofBool imm ++ rnd ++ ty ++ vb ++ va ++ vd ++ g) op 44 2 (by decide)).trans ((bitsOf_append_hi (BitVec.ofBool sat ++ BitVec.ofBool imm ++ rnd ++ ty ++ vb ++ va ++ vd) g 35 2 (by decide)).trans ((bitsOf_append_hi (BitVec.ofBool sat ++ BitVec.ofBool imm ++ rnd ++ ty ++ vb ++ va) vd 27 2 (by decide)).trans ((bitsOf_append_hi (BitVec.ofBool sat ++ BitVec.ofBool imm ++ rnd ++ ty ++ vb) va 19 2 (by decide)).trans ((bitsOf_append_hi (BitVec.ofBool sat ++ BitVec.ofBool imm ++ rnd ++ ty) vb 11 2 (by decide)).trans ((bitsOf_append_hi (BitVec.ofBool sat ++ BitVec.ofBool imm ++ rnd) ty 3 2 (by decide)).trans ((bitsOf_append_lo (BitVec.ofBool sat ++ BitVec.ofBool imm) rnd 0 2 (by decide)).trans (bitsOf_whole rnd)))))))
  have hty : bitsOf (joinV ⟨sat, imm, rnd, ty, vb, va, vd, g, op⟩) 41 3 = ty := (bitsOf_append_hi (BitVec.ofBool sat ++ BitVec.ofBool imm ++ rnd ++ ty ++ vb ++ va ++ vd ++ g) op 41 3 (by decide)).trans ((bitsOf_append_hi (BitVec.ofBool sat ++ BitVec.ofBool imm ++ rnd ++ ty ++ vb ++ va ++ vd) g 32 3 (by decide)).trans ((bitsOf_append_hi (BitVec.ofBool sat ++ BitVec.ofBool imm ++ rnd ++ ty ++ vb ++ va) vd 24 3 (by decide)).trans ((bitsOf_append_hi (BitVec.ofBool sat ++ BitVec.ofBool imm ++ rnd ++ ty ++ vb) va 16 3 (by decide)).trans ((bitsOf_append_hi (BitVec.ofBool sat ++ BitVec.ofBool imm ++ rnd ++ ty) vb 8 3 (by decide)).trans ((bitsOf_append_lo (BitVec.ofBool sat ++ BitVec.ofBool imm ++ rnd) ty 0 3 (by decide)).trans (bitsOf_whole ty))))))
  have hvb : bitsOf (joinV ⟨sat, imm, rnd, ty, vb, va, vd, g, op⟩) 33 8 = vb := (bitsOf_append_hi (BitVec.ofBool sat ++ BitVec.ofBool imm ++ rnd ++ ty ++ vb ++ va ++ vd ++ g) op 33 8 (by decide)).trans ((bitsOf_append_hi (BitVec.ofBool sat ++ BitVec.ofBool imm ++ rnd ++ ty ++ vb ++ va ++ vd) g 24 8 (by decide)).trans ((bitsOf_append_hi (BitVec.ofBool sat ++ BitVec.ofBool imm ++ rnd ++ ty ++ vb ++ va) vd 16 8 (by decide)).trans ((bitsOf_append_hi (BitVec.ofBool sat ++ BitVec.ofBool imm ++ rnd ++ ty ++ vb) va 8 8 (by decide)).trans ((bitsOf_append_lo (BitVec.ofBool sat ++ BitVec.ofBool imm ++ rnd ++ ty) vb 0 8 (by decide)).trans (bitsOf_whole vb)))))
  have hva : bitsOf (joinV ⟨sat, imm, rnd, ty, vb, va, vd, g, op⟩) 25 8 = va := (bitsOf_append_hi (BitVec.ofBool sat ++ BitVec.ofBool imm ++ rnd ++ ty ++ vb ++ va ++ vd ++ g) op 25 8 (by decide)).trans ((bitsOf_append_hi (BitVec.ofBool sat ++ BitVec.ofBool imm ++ rnd ++ ty ++ vb ++ va ++ vd) g 16 8 (by decide)).trans ((bitsOf_append_hi (BitVec.ofBool sat ++ BitVec.ofBool imm ++ rnd ++ ty ++ vb ++ va) vd 8 8 (by decide)).trans ((bitsOf_append_lo (BitVec.ofBool sat ++ BitVec.ofBool imm ++ rnd ++ ty ++ vb) va 0 8 (by decide)).trans (bitsOf_whole va))))
  have hvd : bitsOf (joinV ⟨sat, imm, rnd, ty, vb, va, vd, g, op⟩) 17 8 = vd := (bitsOf_append_hi (BitVec.ofBool sat ++ BitVec.ofBool imm ++ rnd ++ ty ++ vb ++ va ++ vd ++ g) op 17 8 (by decide)).trans ((bitsOf_append_hi (BitVec.ofBool sat ++ BitVec.ofBool imm ++ rnd ++ ty ++ vb ++ va ++ vd) g 8 8 (by decide)).trans ((bitsOf_append_lo (BitVec.ofBool sat ++ BitVec.ofBool imm ++ rnd ++ ty ++ vb ++ va) vd 0 8 (by decide)).trans (bitsOf_whole vd)))
  have hg : bitsOf (joinV ⟨sat, imm, rnd, ty, vb, va, vd, g, op⟩) 9 8 = g := (bitsOf_append_hi (BitVec.ofBool sat ++ BitVec.ofBool imm ++ rnd ++ ty ++ vb ++ va ++ vd ++ g) op 9 8 (by decide)).trans ((bitsOf_append_lo (BitVec.ofBool sat ++ BitVec.ofBool imm ++ rnd ++ ty ++ vb ++ va ++ vd) g 0 8 (by decide)).trans (bitsOf_whole g))
  have hop : bitsOf (joinV ⟨sat, imm, rnd, ty, vb, va, vd, g, op⟩) 0 9 = op := (bitsOf_append_lo (BitVec.ofBool sat ++ BitVec.ofBool imm ++ rnd ++ ty ++ vb ++ va ++ vd ++ g) op 0 9 (by decide)).trans (bitsOf_whole op)
  simp only [splitV, hsat, himm, hrnd, hty, hvb, hva, hvd, hg, hop]

theorem splitF_joinF (f : FFields) : splitF (joinF f) = f := by
  obtain ⟨tb, va, vd, g, op⟩ := f
  have htb : bitsOf (joinF ⟨tb, va, vd, g, op⟩) 29 3 = tb := (bitsOf_append_hi (tb ++ va ++ vd ++ g) op 29 3 (by decide)).trans ((bitsOf_append_hi (tb ++ va ++ vd) g 24 3 (by decide)).trans ((bitsOf_append_hi (tb ++ va) vd 16 3 (by decide)).trans ((bitsOf_append_hi (tb) va 8 3 (by decide)).trans (bitsOf_whole tb))))
  have hva : bitsOf (joinF ⟨tb, va, vd, g, op⟩) 21 8 = va := (bitsOf_append_hi (tb ++ va ++ vd ++ g) op 21 8 (by decide)).trans ((bitsOf_append_hi (tb ++ va ++ vd) g 16 8 (by decide)).trans ((bitsOf_append_hi (tb ++ va) vd 8 8 (by decide)).trans ((bitsOf_append_lo (tb) va 0 8 (by decide)).trans (bitsOf_whole va))))
  have hvd : bitsOf (joinF ⟨tb, va, vd, g, op⟩) 13 8 = vd := (bitsOf_append_hi (tb ++ va ++ vd ++ g) op 13 8 (by decide)).trans ((bitsOf_append_hi (tb ++ va ++ vd) g 8 8 (by decide)).trans ((bitsOf_append_lo (tb ++ va) vd 0 8 (by decide)).trans (bitsOf_whole vd)))
  have hg : bitsOf (joinF ⟨tb, va, vd, g, op⟩) 5 8 = g := (bitsOf_append_hi (tb ++ va ++ vd ++ g) op 5 8 (by decide)).trans ((bitsOf_append_lo (tb ++ va ++ vd) g 0 8 (by decide)).trans (bitsOf_whole g))
  have hop : bitsOf (joinF ⟨tb, va, vd, g, op⟩) 0 5 = op := (bitsOf_append_lo (tb ++ va ++ vd ++ g) op 0 5 (by decide)).trans (bitsOf_whole op)
  simp only [splitF, htb, hva, hvd, hg, hop]

theorem splitM_joinM (f : MFields) : splitM (joinM f) = f := by
  obtain ⟨hint, off, vi, xb, data, g, op⟩ := f
  have hhint : bitsOf (joinM ⟨hint, off, vi, xb, data, g, op⟩) 45 3 = hint := (bitsOf_append_hi (hint ++ off ++ vi ++ xb ++ data ++ g) op 45 3 (by decide)).trans ((bitsOf_append_hi (hint ++ off ++ vi ++ xb ++ data) g 38 3 (by decide)).trans ((bitsOf_append_hi (hint ++ off ++ vi ++ xb) data 30 3 (by decide)).trans ((bitsOf_append_hi (hint ++ off ++ vi) xb 22 3 (by decide)).trans ((bitsOf_append_hi (hint ++ off) vi 18 3 (by decide)).trans ((bitsOf_append_hi (hint) off 10 3 (by decide)).trans (bitsOf_whole hint))))))
  have hoff : bitsOf (joinM ⟨hint, off, vi, xb, data, g, op⟩) 35 10 = off := (bitsOf_append_hi (hint ++ off ++ vi ++ xb ++ data ++ g) op 35 10 (by decide)).trans ((bitsOf_append_hi (hint ++ off ++ vi ++ xb ++ data) g 28 10 (by decide)).trans ((bitsOf_append_hi (hint ++ off ++ vi ++ xb) data 20 10 (by decide)).trans ((bitsOf_append_hi (hint ++ off ++ vi) xb 12 10 (by decide)).trans ((bitsOf_append_hi (hint ++ off) vi 8 10 (by decide)).trans ((bitsOf_append_lo (hint) off 0 10 (by decide)).trans (bitsOf_whole off))))))
  have hvi : bitsOf (joinM ⟨hint, off, vi, xb, data, g, op⟩) 27 8 = vi := (bitsOf_append_hi (hint ++ off ++ vi ++ xb ++ data ++ g) op 27 8 (by decide)).trans ((bitsOf_append_hi (hint ++ off ++ vi ++ xb ++ data) g 20 8 (by decide)).trans ((bitsOf_append_hi (hint ++ off ++ vi ++ xb) data 12 8 (by decide)).trans ((bitsOf_append_hi (hint ++ off ++ vi) xb 4 8 (by decide)).trans ((bitsOf_append_lo (hint ++ off) vi 0 8 (by decide)).trans (bitsOf_whole vi)))))
  have hxb : bitsOf (joinM ⟨hint, off, vi, xb, data, g, op⟩) 23 4 = xb := (bitsOf_append_hi (hint ++ off ++ vi ++ xb ++ data ++ g) op 23 4 (by decide)).trans ((bitsOf_append_hi (hint ++ off ++ vi ++ xb ++ data) g 16 4 (by decide)).trans ((bitsOf_append_hi (hint ++ off ++ vi ++ xb) data 8 4 (by decide)).trans ((bitsOf_append_lo (hint ++ off ++ vi) xb 0 4 (by decide)).trans (bitsOf_whole xb))))
  have hdata : bitsOf (joinM ⟨hint, off, vi, xb, data, g, op⟩) 15 8 = data := (bitsOf_append_hi (hint ++ off ++ vi ++ xb ++ data ++ g) op 15 8 (by decide)).trans ((bitsOf_append_hi (hint ++ off ++ vi ++ xb ++ data) g 8 8 (by decide)).trans ((bitsOf_append_lo (hint ++ off ++ vi ++ xb) data 0 8 (by decide)).trans (bitsOf_whole data)))
  have hg : bitsOf (joinM ⟨hint, off, vi, xb, data, g, op⟩) 7 8 = g := (bitsOf_append_hi (hint ++ off ++ vi ++ xb ++ data ++ g) op 7 8 (by decide)).trans ((bitsOf_append_lo (hint ++ off ++ vi ++ xb ++ data) g 0 8 (by decide)).trans (bitsOf_whole g))
  have hop : bitsOf (joinM ⟨hint, off, vi, xb, data, g, op⟩) 0 7 = op := (bitsOf_append_lo (hint ++ off ++ vi ++ xb ++ data ++ g) op 0 7 (by decide)).trans (bitsOf_whole op)
  simp only [splitM, hhint, hoff, hvi, hxb, hdata, hg, hop]

theorem joinX_zero (f : XFields) : bitsOf (joinX f) 62 2 = 0 := by
  obtain ⟨lb, mid, zf, kb, fb, fa, xb, xa, tile, ⟨wsem, wth, ssem, inc⟩, op⟩ := f
  exact (bitsOf_append_hi ((0 : BitVec 2) ++ BitVec.ofBool lb ++ BitVec.ofBool mid ++ BitVec.ofBool zf ++ kb ++ fb ++ fa ++ xb ++ xa ++ tile ++ inc ++ ssem ++ wth ++ wsem) op 62 2 (by decide)).trans ((bitsOf_append_hi ((0 : BitVec 2) ++ BitVec.ofBool lb ++ BitVec.ofBool mid ++ BitVec.ofBool zf ++ kb ++ fb ++ fa ++ xb ++ xa ++ tile ++ inc ++ ssem ++ wth) wsem 56 2 (by decide)).trans ((bitsOf_append_hi ((0 : BitVec 2) ++ BitVec.ofBool lb ++ BitVec.ofBool mid ++ BitVec.ofBool zf ++ kb ++ fb ++ fa ++ xb ++ xa ++ tile ++ inc ++ ssem) wth 48 2 (by decide)).trans ((bitsOf_append_hi ((0 : BitVec 2) ++ BitVec.ofBool lb ++ BitVec.ofBool mid ++ BitVec.ofBool zf ++ kb ++ fb ++ fa ++ xb ++ xa ++ tile ++ inc) ssem 40 2 (by decide)).trans ((bitsOf_append_hi ((0 : BitVec 2) ++ BitVec.ofBool lb ++ BitVec.ofBool mid ++ BitVec.ofBool zf ++ kb ++ fb ++ fa ++ xb ++ xa ++ tile) inc 32 2 (by decide)).trans ((bitsOf_append_hi ((0 : BitVec 2) ++ BitVec.ofBool lb ++ BitVec.ofBool mid ++ BitVec.ofBool zf ++ kb ++ fb ++ fa ++ xb ++ xa) tile 28 2 (by decide)).trans ((bitsOf_append_hi ((0 : BitVec 2) ++ BitVec.ofBool lb ++ BitVec.ofBool mid ++ BitVec.ofBool zf ++ kb ++ fb ++ fa ++ xb) xa 25 2 (by decide)).trans ((bitsOf_append_hi ((0 : BitVec 2) ++ BitVec.ofBool lb ++ BitVec.ofBool mid ++ BitVec.ofBool zf ++ kb ++ fb ++ fa) xb 21 2 (by decide)).trans ((bitsOf_append_hi ((0 : BitVec 2) ++ BitVec.ofBool lb ++ BitVec.ofBool mid ++ BitVec.ofBool zf ++ kb ++ fb) fa 17 2 (by decide)).trans ((bitsOf_append_hi ((0 : BitVec 2) ++ BitVec.ofBool lb ++ BitVec.ofBool mid ++ BitVec.ofBool zf ++ kb) fb 12 2 (by decide)).trans ((bitsOf_append_hi ((0 : BitVec 2) ++ BitVec.ofBool lb ++ BitVec.ofBool mid ++ BitVec.ofBool zf) kb 7 2 (by decide)).trans ((bitsOf_append_hi ((0 : BitVec 2) ++ BitVec.ofBool lb ++ BitVec.ofBool mid) (BitVec.ofBool zf) 3 2 (by decide)).trans ((bitsOf_append_hi ((0 : BitVec 2) ++ BitVec.ofBool lb) (BitVec.ofBool mid) 2 2 (by decide)).trans ((bitsOf_append_hi ((0 : BitVec 2)) (BitVec.ofBool lb) 1 2 (by decide)).trans (bitsOf_whole (0 : BitVec 2)))))))))))))))

theorem splitX_joinX (f : XFields) : splitX (joinX f) = f := by
  obtain ⟨lb, mid, zf, kb, fb, fa, xb, xa, tile, ⟨wsem, wth, ssem, inc⟩, op⟩ := f
  have hlb : bitAt (joinX ⟨lb, mid, zf, kb, fb, fa, xb, xa, tile, ⟨wsem, wth, ssem, inc⟩, op⟩) 61 = lb := (bitAt_append_hi ((0 : BitVec 2) ++ BitVec.ofBool lb ++ BitVec.ofBool mid ++ BitVec.ofBool zf ++ kb ++ fb ++ fa ++ xb ++ xa ++ tile ++ inc ++ ssem ++ wth ++ wsem) op 61 (by decide)).trans ((bitAt_append_hi ((0 : BitVec 2) ++ BitVec.ofBool lb ++ BitVec.ofBool mid ++ BitVec.ofBool zf ++ kb ++ fb ++ fa ++ xb ++ xa ++ tile ++ inc ++ ssem ++ wth) wsem 55 (by decide)).trans ((bitAt_append_hi ((0 : BitVec 2) ++ BitVec.ofBool lb ++ BitVec.ofBool mid ++ BitVec.ofBool zf ++ kb ++ fb ++ fa ++ xb ++ xa ++ tile ++ inc ++ ssem) wth 47 (by decide)).trans ((bitAt_append_hi ((0 : BitVec 2) ++ BitVec.ofBool lb ++ BitVec.ofBool mid ++ BitVec.ofBool zf ++ kb ++ fb ++ fa ++ xb ++ xa ++ tile ++ inc) ssem 39 (by decide)).trans ((bitAt_append_hi ((0 : BitVec 2) ++ BitVec.ofBool lb ++ BitVec.ofBool mid ++ BitVec.ofBool zf ++ kb ++ fb ++ fa ++ xb ++ xa ++ tile) inc 31 (by decide)).trans ((bitAt_append_hi ((0 : BitVec 2) ++ BitVec.ofBool lb ++ BitVec.ofBool mid ++ BitVec.ofBool zf ++ kb ++ fb ++ fa ++ xb ++ xa) tile 27 (by decide)).trans ((bitAt_append_hi ((0 : BitVec 2) ++ BitVec.ofBool lb ++ BitVec.ofBool mid ++ BitVec.ofBool zf ++ kb ++ fb ++ fa ++ xb) xa 24 (by decide)).trans ((bitAt_append_hi ((0 : BitVec 2) ++ BitVec.ofBool lb ++ BitVec.ofBool mid ++ BitVec.ofBool zf ++ kb ++ fb ++ fa) xb 20 (by decide)).trans ((bitAt_append_hi ((0 : BitVec 2) ++ BitVec.ofBool lb ++ BitVec.ofBool mid ++ BitVec.ofBool zf ++ kb ++ fb) fa 16 (by decide)).trans ((bitAt_append_hi ((0 : BitVec 2) ++ BitVec.ofBool lb ++ BitVec.ofBool mid ++ BitVec.ofBool zf ++ kb) fb 11 (by decide)).trans ((bitAt_append_hi ((0 : BitVec 2) ++ BitVec.ofBool lb ++ BitVec.ofBool mid ++ BitVec.ofBool zf) kb 6 (by decide)).trans ((bitAt_append_hi ((0 : BitVec 2) ++ BitVec.ofBool lb ++ BitVec.ofBool mid) (BitVec.ofBool zf) 2 (by decide)).trans ((bitAt_append_hi ((0 : BitVec 2) ++ BitVec.ofBool lb) (BitVec.ofBool mid) 1 (by decide)).trans ((bitAt_append_lo ((0 : BitVec 2)) (BitVec.ofBool lb) 0 (by decide)).trans (bitAt_ofBool lb))))))))))))))
  have hmid : bitAt (joinX ⟨lb, mid, zf, kb, fb, fa, xb, xa, tile, ⟨wsem, wth, ssem, inc⟩, op⟩) 60 = mid := (bitAt_append_hi ((0 : BitVec 2) ++ BitVec.ofBool lb ++ BitVec.ofBool mid ++ BitVec.ofBool zf ++ kb ++ fb ++ fa ++ xb ++ xa ++ tile ++ inc ++ ssem ++ wth ++ wsem) op 60 (by decide)).trans ((bitAt_append_hi ((0 : BitVec 2) ++ BitVec.ofBool lb ++ BitVec.ofBool mid ++ BitVec.ofBool zf ++ kb ++ fb ++ fa ++ xb ++ xa ++ tile ++ inc ++ ssem ++ wth) wsem 54 (by decide)).trans ((bitAt_append_hi ((0 : BitVec 2) ++ BitVec.ofBool lb ++ BitVec.ofBool mid ++ BitVec.ofBool zf ++ kb ++ fb ++ fa ++ xb ++ xa ++ tile ++ inc ++ ssem) wth 46 (by decide)).trans ((bitAt_append_hi ((0 : BitVec 2) ++ BitVec.ofBool lb ++ BitVec.ofBool mid ++ BitVec.ofBool zf ++ kb ++ fb ++ fa ++ xb ++ xa ++ tile ++ inc) ssem 38 (by decide)).trans ((bitAt_append_hi ((0 : BitVec 2) ++ BitVec.ofBool lb ++ BitVec.ofBool mid ++ BitVec.ofBool zf ++ kb ++ fb ++ fa ++ xb ++ xa ++ tile) inc 30 (by decide)).trans ((bitAt_append_hi ((0 : BitVec 2) ++ BitVec.ofBool lb ++ BitVec.ofBool mid ++ BitVec.ofBool zf ++ kb ++ fb ++ fa ++ xb ++ xa) tile 26 (by decide)).trans ((bitAt_append_hi ((0 : BitVec 2) ++ BitVec.ofBool lb ++ BitVec.ofBool mid ++ BitVec.ofBool zf ++ kb ++ fb ++ fa ++ xb) xa 23 (by decide)).trans ((bitAt_append_hi ((0 : BitVec 2) ++ BitVec.ofBool lb ++ BitVec.ofBool mid ++ BitVec.ofBool zf ++ kb ++ fb ++ fa) xb 19 (by decide)).trans ((bitAt_append_hi ((0 : BitVec 2) ++ BitVec.ofBool lb ++ BitVec.ofBool mid ++ BitVec.ofBool zf ++ kb ++ fb) fa 15 (by decide)).trans ((bitAt_append_hi ((0 : BitVec 2) ++ BitVec.ofBool lb ++ BitVec.ofBool mid ++ BitVec.ofBool zf ++ kb) fb 10 (by decide)).trans ((bitAt_append_hi ((0 : BitVec 2) ++ BitVec.ofBool lb ++ BitVec.ofBool mid ++ BitVec.ofBool zf) kb 5 (by decide)).trans ((bitAt_append_hi ((0 : BitVec 2) ++ BitVec.ofBool lb ++ BitVec.ofBool mid) (BitVec.ofBool zf) 1 (by decide)).trans ((bitAt_append_lo ((0 : BitVec 2) ++ BitVec.ofBool lb) (BitVec.ofBool mid) 0 (by decide)).trans (bitAt_ofBool mid)))))))))))))
  have hzf : bitAt (joinX ⟨lb, mid, zf, kb, fb, fa, xb, xa, tile, ⟨wsem, wth, ssem, inc⟩, op⟩) 59 = zf := (bitAt_append_hi ((0 : BitVec 2) ++ BitVec.ofBool lb ++ BitVec.ofBool mid ++ BitVec.ofBool zf ++ kb ++ fb ++ fa ++ xb ++ xa ++ tile ++ inc ++ ssem ++ wth ++ wsem) op 59 (by decide)).trans ((bitAt_append_hi ((0 : BitVec 2) ++ BitVec.ofBool lb ++ BitVec.ofBool mid ++ BitVec.ofBool zf ++ kb ++ fb ++ fa ++ xb ++ xa ++ tile ++ inc ++ ssem ++ wth) wsem 53 (by decide)).trans ((bitAt_append_hi ((0 : BitVec 2) ++ BitVec.ofBool lb ++ BitVec.ofBool mid ++ BitVec.ofBool zf ++ kb ++ fb ++ fa ++ xb ++ xa ++ tile ++ inc ++ ssem) wth 45 (by decide)).trans ((bitAt_append_hi ((0 : BitVec 2) ++ BitVec.ofBool lb ++ BitVec.ofBool mid ++ BitVec.ofBool zf ++ kb ++ fb ++ fa ++ xb ++ xa ++ tile ++ inc) ssem 37 (by decide)).trans ((bitAt_append_hi ((0 : BitVec 2) ++ BitVec.ofBool lb ++ BitVec.ofBool mid ++ BitVec.ofBool zf ++ kb ++ fb ++ fa ++ xb ++ xa ++ tile) inc 29 (by decide)).trans ((bitAt_append_hi ((0 : BitVec 2) ++ BitVec.ofBool lb ++ BitVec.ofBool mid ++ BitVec.ofBool zf ++ kb ++ fb ++ fa ++ xb ++ xa) tile 25 (by decide)).trans ((bitAt_append_hi ((0 : BitVec 2) ++ BitVec.ofBool lb ++ BitVec.ofBool mid ++ BitVec.ofBool zf ++ kb ++ fb ++ fa ++ xb) xa 22 (by decide)).trans ((bitAt_append_hi ((0 : BitVec 2) ++ BitVec.ofBool lb ++ BitVec.ofBool mid ++ BitVec.ofBool zf ++ kb ++ fb ++ fa) xb 18 (by decide)).trans ((bitAt_append_hi ((0 : BitVec 2) ++ BitVec.ofBool lb ++ BitVec.ofBool mid ++ BitVec.ofBool zf ++ kb ++ fb) fa 14 (by decide)).trans ((bitAt_append_hi ((0 : BitVec 2) ++ BitVec.ofBool lb ++ BitVec.ofBool mid ++ BitVec.ofBool zf ++ kb) fb 9 (by decide)).trans ((bitAt_append_hi ((0 : BitVec 2) ++ BitVec.ofBool lb ++ BitVec.ofBool mid ++ BitVec.ofBool zf) kb 4 (by decide)).trans ((bitAt_append_lo ((0 : BitVec 2) ++ BitVec.ofBool lb ++ BitVec.ofBool mid) (BitVec.ofBool zf) 0 (by decide)).trans (bitAt_ofBool zf))))))))))))
  have hkb : bitsOf (joinX ⟨lb, mid, zf, kb, fb, fa, xb, xa, tile, ⟨wsem, wth, ssem, inc⟩, op⟩) 55 4 = kb := (bitsOf_append_hi ((0 : BitVec 2) ++ BitVec.ofBool lb ++ BitVec.ofBool mid ++ BitVec.ofBool zf ++ kb ++ fb ++ fa ++ xb ++ xa ++ tile ++ inc ++ ssem ++ wth ++ wsem) op 55 4 (by decide)).trans ((bitsOf_append_hi ((0 : BitVec 2) ++ BitVec.ofBool lb ++ BitVec.ofBool mid ++ BitVec.ofBool zf ++ kb ++ fb ++ fa ++ xb ++ xa ++ tile ++ inc ++ ssem ++ wth) wsem 49 4 (by decide)).trans ((bitsOf_append_hi ((0 : BitVec 2) ++ BitVec.ofBool lb ++ BitVec.ofBool mid ++ BitVec.ofBool zf ++ kb ++ fb ++ fa ++ xb ++ xa ++ tile ++ inc ++ ssem) wth 41 4 (by decide)).trans ((bitsOf_append_hi ((0 : BitVec 2) ++ BitVec.ofBool lb ++ BitVec.ofBool mid ++ BitVec.ofBool zf ++ kb ++ fb ++ fa ++ xb ++ xa ++ tile ++ inc) ssem 33 4 (by decide)).trans ((bitsOf_append_hi ((0 : BitVec 2) ++ BitVec.ofBool lb ++ BitVec.ofBool mid ++ BitVec.ofBool zf ++ kb ++ fb ++ fa ++ xb ++ xa ++ tile) inc 25 4 (by decide)).trans ((bitsOf_append_hi ((0 : BitVec 2) ++ BitVec.ofBool lb ++ BitVec.ofBool mid ++ BitVec.ofBool zf ++ kb ++ fb ++ fa ++ xb ++ xa) tile 21 4 (by decide)).trans ((bitsOf_append_hi ((0 : BitVec 2) ++ BitVec.ofBool lb ++ BitVec.ofBool mid ++ BitVec.ofBool zf ++ kb ++ fb ++ fa ++ xb) xa 18 4 (by decide)).trans ((bitsOf_append_hi ((0 : BitVec 2) ++ BitVec.ofBool lb ++ BitVec.ofBool mid ++ BitVec.ofBool zf ++ kb ++ fb ++ fa) xb 14 4 (by decide)).trans ((bitsOf_append_hi ((0 : BitVec 2) ++ BitVec.ofBool lb ++ BitVec.ofBool mid ++ BitVec.ofBool zf ++ kb ++ fb) fa 10 4 (by decide)).trans ((bitsOf_append_hi ((0 : BitVec 2) ++ BitVec.ofBool lb ++ BitVec.ofBool mid ++ BitVec.ofBool zf ++ kb) fb 5 4 (by decide)).trans ((bitsOf_append_lo ((0 : BitVec 2) ++ BitVec.ofBool lb ++ BitVec.ofBool mid ++ BitVec.ofBool zf) kb 0 4 (by decide)).trans (bitsOf_whole kb)))))))))))
  have hfb : bitsOf (joinX ⟨lb, mid, zf, kb, fb, fa, xb, xa, tile, ⟨wsem, wth, ssem, inc⟩, op⟩) 50 5 = fb := (bitsOf_append_hi ((0 : BitVec 2) ++ BitVec.ofBool lb ++ BitVec.ofBool mid ++ BitVec.ofBool zf ++ kb ++ fb ++ fa ++ xb ++ xa ++ tile ++ inc ++ ssem ++ wth ++ wsem) op 50 5 (by decide)).trans ((bitsOf_append_hi ((0 : BitVec 2) ++ BitVec.ofBool lb ++ BitVec.ofBool mid ++ BitVec.ofBool zf ++ kb ++ fb ++ fa ++ xb ++ xa ++ tile ++ inc ++ ssem ++ wth) wsem 44 5 (by decide)).trans ((bitsOf_append_hi ((0 : BitVec 2) ++ BitVec.ofBool lb ++ BitVec.ofBool mid ++ BitVec.ofBool zf ++ kb ++ fb ++ fa ++ xb ++ xa ++ tile ++ inc ++ ssem) wth 36 5 (by decide)).trans ((bitsOf_append_hi ((0 : BitVec 2) ++ BitVec.ofBool lb ++ BitVec.ofBool mid ++ BitVec.ofBool zf ++ kb ++ fb ++ fa ++ xb ++ xa ++ tile ++ inc) ssem 28 5 (by decide)).trans ((bitsOf_append_hi ((0 : BitVec 2) ++ BitVec.ofBool lb ++ BitVec.ofBool mid ++ BitVec.ofBool zf ++ kb ++ fb ++ fa ++ xb ++ xa ++ tile) inc 20 5 (by decide)).trans ((bitsOf_append_hi ((0 : BitVec 2) ++ BitVec.ofBool lb ++ BitVec.ofBool mid ++ BitVec.ofBool zf ++ kb ++ fb ++ fa ++ xb ++ xa) tile 16 5 (by decide)).trans ((bitsOf_append_hi ((0 : BitVec 2) ++ BitVec.ofBool lb ++ BitVec.ofBool mid ++ BitVec.ofBool zf ++ kb ++ fb ++ fa ++ xb) xa 13 5 (by decide)).trans ((bitsOf_append_hi ((0 : BitVec 2) ++ BitVec.ofBool lb ++ BitVec.ofBool mid ++ BitVec.ofBool zf ++ kb ++ fb ++ fa) xb 9 5 (by decide)).trans ((bitsOf_append_hi ((0 : BitVec 2) ++ BitVec.ofBool lb ++ BitVec.ofBool mid ++ BitVec.ofBool zf ++ kb ++ fb) fa 5 5 (by decide)).trans ((bitsOf_append_lo ((0 : BitVec 2) ++ BitVec.ofBool lb ++ BitVec.ofBool mid ++ BitVec.ofBool zf ++ kb) fb 0 5 (by decide)).trans (bitsOf_whole fb))))))))))
  have hfa : bitsOf (joinX ⟨lb, mid, zf, kb, fb, fa, xb, xa, tile, ⟨wsem, wth, ssem, inc⟩, op⟩) 45 5 = fa := (bitsOf_append_hi ((0 : BitVec 2) ++ BitVec.ofBool lb ++ BitVec.ofBool mid ++ BitVec.ofBool zf ++ kb ++ fb ++ fa ++ xb ++ xa ++ tile ++ inc ++ ssem ++ wth ++ wsem) op 45 5 (by decide)).trans ((bitsOf_append_hi ((0 : BitVec 2) ++ BitVec.ofBool lb ++ BitVec.ofBool mid ++ BitVec.ofBool zf ++ kb ++ fb ++ fa ++ xb ++ xa ++ tile ++ inc ++ ssem ++ wth) wsem 39 5 (by decide)).trans ((bitsOf_append_hi ((0 : BitVec 2) ++ BitVec.ofBool lb ++ BitVec.ofBool mid ++ BitVec.ofBool zf ++ kb ++ fb ++ fa ++ xb ++ xa ++ tile ++ inc ++ ssem) wth 31 5 (by decide)).trans ((bitsOf_append_hi ((0 : BitVec 2) ++ BitVec.ofBool lb ++ BitVec.ofBool mid ++ BitVec.ofBool zf ++ kb ++ fb ++ fa ++ xb ++ xa ++ tile ++ inc) ssem 23 5 (by decide)).trans ((bitsOf_append_hi ((0 : BitVec 2) ++ BitVec.ofBool lb ++ BitVec.ofBool mid ++ BitVec.ofBool zf ++ kb ++ fb ++ fa ++ xb ++ xa ++ tile) inc 15 5 (by decide)).trans ((bitsOf_append_hi ((0 : BitVec 2) ++ BitVec.ofBool lb ++ BitVec.ofBool mid ++ BitVec.ofBool zf ++ kb ++ fb ++ fa ++ xb ++ xa) tile 11 5 (by decide)).trans ((bitsOf_append_hi ((0 : BitVec 2) ++ BitVec.ofBool lb ++ BitVec.ofBool mid ++ BitVec.ofBool zf ++ kb ++ fb ++ fa ++ xb) xa 8 5 (by decide)).trans ((bitsOf_append_hi ((0 : BitVec 2) ++ BitVec.ofBool lb ++ BitVec.ofBool mid ++ BitVec.ofBool zf ++ kb ++ fb ++ fa) xb 4 5 (by decide)).trans ((bitsOf_append_lo ((0 : BitVec 2) ++ BitVec.ofBool lb ++ BitVec.ofBool mid ++ BitVec.ofBool zf ++ kb ++ fb) fa 0 5 (by decide)).trans (bitsOf_whole fa)))))))))
  have hxb : bitsOf (joinX ⟨lb, mid, zf, kb, fb, fa, xb, xa, tile, ⟨wsem, wth, ssem, inc⟩, op⟩) 41 4 = xb := (bitsOf_append_hi ((0 : BitVec 2) ++ BitVec.ofBool lb ++ BitVec.ofBool mid ++ BitVec.ofBool zf ++ kb ++ fb ++ fa ++ xb ++ xa ++ tile ++ inc ++ ssem ++ wth ++ wsem) op 41 4 (by decide)).trans ((bitsOf_append_hi ((0 : BitVec 2) ++ BitVec.ofBool lb ++ BitVec.ofBool mid ++ BitVec.ofBool zf ++ kb ++ fb ++ fa ++ xb ++ xa ++ tile ++ inc ++ ssem ++ wth) wsem 35 4 (by decide)).trans ((bitsOf_append_hi ((0 : BitVec 2) ++ BitVec.ofBool lb ++ BitVec.ofBool mid ++ BitVec.ofBool zf ++ kb ++ fb ++ fa ++ xb ++ xa ++ tile ++ inc ++ ssem) wth 27 4 (by decide)).trans ((bitsOf_append_hi ((0 : BitVec 2) ++ BitVec.ofBool lb ++ BitVec.ofBool mid ++ BitVec.ofBool zf ++ kb ++ fb ++ fa ++ xb ++ xa ++ tile ++ inc) ssem 19 4 (by decide)).trans ((bitsOf_append_hi ((0 : BitVec 2) ++ BitVec.ofBool lb ++ BitVec.ofBool mid ++ BitVec.ofBool zf ++ kb ++ fb ++ fa ++ xb ++ xa ++ tile) inc 11 4 (by decide)).trans ((bitsOf_append_hi ((0 : BitVec 2) ++ BitVec.ofBool lb ++ BitVec.ofBool mid ++ BitVec.ofBool zf ++ kb ++ fb ++ fa ++ xb ++ xa) tile 7 4 (by decide)).trans ((bitsOf_append_hi ((0 : BitVec 2) ++ BitVec.ofBool lb ++ BitVec.ofBool mid ++ BitVec.ofBool zf ++ kb ++ fb ++ fa ++ xb) xa 4 4 (by decide)).trans ((bitsOf_append_lo ((0 : BitVec 2) ++ BitVec.ofBool lb ++ BitVec.ofBool mid ++ BitVec.ofBool zf ++ kb ++ fb ++ fa) xb 0 4 (by decide)).trans (bitsOf_whole xb))))))))
  have hxa : bitsOf (joinX ⟨lb, mid, zf, kb, fb, fa, xb, xa, tile, ⟨wsem, wth, ssem, inc⟩, op⟩) 37 4 = xa := (bitsOf_append_hi ((0 : BitVec 2) ++ BitVec.ofBool lb ++ BitVec.ofBool mid ++ BitVec.ofBool zf ++ kb ++ fb ++ fa ++ xb ++ xa ++ tile ++ inc ++ ssem ++ wth ++ wsem) op 37 4 (by decide)).trans ((bitsOf_append_hi ((0 : BitVec 2) ++ BitVec.ofBool lb ++ BitVec.ofBool mid ++ BitVec.ofBool zf ++ kb ++ fb ++ fa ++ xb ++ xa ++ tile ++ inc ++ ssem ++ wth) wsem 31 4 (by decide)).trans ((bitsOf_append_hi ((0 : BitVec 2) ++ BitVec.ofBool lb ++ BitVec.ofBool mid ++ BitVec.ofBool zf ++ kb ++ fb ++ fa ++ xb ++ xa ++ tile ++ inc ++ ssem) wth 23 4 (by decide)).trans ((bitsOf_append_hi ((0 : BitVec 2) ++ BitVec.ofBool lb ++ BitVec.ofBool mid ++ BitVec.ofBool zf ++ kb ++ fb ++ fa ++ xb ++ xa ++ tile ++ inc) ssem 15 4 (by decide)).trans ((bitsOf_append_hi ((0 : BitVec 2) ++ BitVec.ofBool lb ++ BitVec.ofBool mid ++ BitVec.ofBool zf ++ kb ++ fb ++ fa ++ xb ++ xa ++ tile) inc 7 4 (by decide)).trans ((bitsOf_append_hi ((0 : BitVec 2) ++ BitVec.ofBool lb ++ BitVec.ofBool mid ++ BitVec.ofBool zf ++ kb ++ fb ++ fa ++ xb ++ xa) tile 3 4 (by decide)).trans ((bitsOf_append_lo ((0 : BitVec 2) ++ BitVec.ofBool lb ++ BitVec.ofBool mid ++ BitVec.ofBool zf ++ kb ++ fb ++ fa ++ xb) xa 0 4 (by decide)).trans (bitsOf_whole xa)))))))
  have htile : bitsOf (joinX ⟨lb, mid, zf, kb, fb, fa, xb, xa, tile, ⟨wsem, wth, ssem, inc⟩, op⟩) 34 3 = tile := (bitsOf_append_hi ((0 : BitVec 2) ++ BitVec.ofBool lb ++ BitVec.ofBool mid ++ BitVec.ofBool zf ++ kb ++ fb ++ fa ++ xb ++ xa ++ tile ++ inc ++ ssem ++ wth ++ wsem) op 34 3 (by decide)).trans ((bitsOf_append_hi ((0 : BitVec 2) ++ BitVec.ofBool lb ++ BitVec.ofBool mid ++ BitVec.ofBool zf ++ kb ++ fb ++ fa ++ xb ++ xa ++ tile ++ inc ++ ssem ++ wth) wsem 28 3 (by decide)).trans ((bitsOf_append_hi ((0 : BitVec 2) ++ BitVec.ofBool lb ++ BitVec.ofBool mid ++ BitVec.ofBool zf ++ kb ++ fb ++ fa ++ xb ++ xa ++ tile ++ inc ++ ssem) wth 20 3 (by decide)).trans ((bitsOf_append_hi ((0 : BitVec 2) ++ BitVec.ofBool lb ++ BitVec.ofBool mid ++ BitVec.ofBool zf ++ kb ++ fb ++ fa ++ xb ++ xa ++ tile ++ inc) ssem 12 3 (by decide)).trans ((bitsOf_append_hi ((0 : BitVec 2) ++ BitVec.ofBool lb ++ BitVec.ofBool mid ++ BitVec.ofBool zf ++ kb ++ fb ++ fa ++ xb ++ xa ++ tile) inc 4 3 (by decide)).trans ((bitsOf_append_lo ((0 : BitVec 2) ++ BitVec.ofBool lb ++ BitVec.ofBool mid ++ BitVec.ofBool zf ++ kb ++ fb ++ fa ++ xb ++ xa) tile 0 3 (by decide)).trans (bitsOf_whole tile))))))
  have hinc : bitsOf (joinX ⟨lb, mid, zf, kb, fb, fa, xb, xa, tile, ⟨wsem, wth, ssem, inc⟩, op⟩) 30 4 = inc := (bitsOf_append_hi ((0 : BitVec 2) ++ BitVec.ofBool lb ++ BitVec.ofBool mid ++ BitVec.ofBool zf ++ kb ++ fb ++ fa ++ xb ++ xa ++ tile ++ inc ++ ssem ++ wth ++ wsem) op 30 4 (by decide)).trans ((bitsOf_append_hi ((0 : BitVec 2) ++ BitVec.ofBool lb ++ BitVec.ofBool mid ++ BitVec.ofBool zf ++ kb ++ fb ++ fa ++ xb ++ xa ++ tile ++ inc ++ ssem ++ wth) wsem 24 4 (by decide)).trans ((bitsOf_append_hi ((0 : BitVec 2) ++ BitVec.ofBool lb ++ BitVec.ofBool mid ++ BitVec.ofBool zf ++ kb ++ fb ++ fa ++ xb ++ xa ++ tile ++ inc ++ ssem) wth 16 4 (by decide)).trans ((bitsOf_append_hi ((0 : BitVec 2) ++ BitVec.ofBool lb ++ BitVec.ofBool mid ++ BitVec.ofBool zf ++ kb ++ fb ++ fa ++ xb ++ xa ++ tile ++ inc) ssem 8 4 (by decide)).trans ((bitsOf_append_lo ((0 : BitVec 2) ++ BitVec.ofBool lb ++ BitVec.ofBool mid ++ BitVec.ofBool zf ++ kb ++ fb ++ fa ++ xb ++ xa ++ tile) inc 0 4 (by decide)).trans (bitsOf_whole inc)))))
  have hssem : bitsOf (joinX ⟨lb, mid, zf, kb, fb, fa, xb, xa, tile, ⟨wsem, wth, ssem, inc⟩, op⟩) 22 8 = ssem := (bitsOf_append_hi ((0 : BitVec 2) ++ BitVec.ofBool lb ++ BitVec.ofBool mid ++ BitVec.ofBool zf ++ kb ++ fb ++ fa ++ xb ++ xa ++ tile ++ inc ++ ssem ++ wth ++ wsem) op 22 8 (by decide)).trans ((bitsOf_append_hi ((0 : BitVec 2) ++ BitVec.ofBool lb ++ BitVec.ofBool mid ++ BitVec.ofBool zf ++ kb ++ fb ++ fa ++ xb ++ xa ++ tile ++ inc ++ ssem ++ wth) wsem 16 8 (by decide)).trans ((bitsOf_append_hi ((0 : BitVec 2) ++ BitVec.ofBool lb ++ BitVec.ofBool mid ++ BitVec.ofBool zf ++ kb ++ fb ++ fa ++ xb ++ xa ++ tile ++ inc ++ ssem) wth 8 8 (by decide)).trans ((bitsOf_append_lo ((0 : BitVec 2) ++ BitVec.ofBool lb ++ BitVec.ofBool mid ++ BitVec.ofBool zf ++ kb ++ fb ++ fa ++ xb ++ xa ++ tile ++ inc) ssem 0 8 (by decide)).trans (bitsOf_whole ssem))))
  have hwth : bitsOf (joinX ⟨lb, mid, zf, kb, fb, fa, xb, xa, tile, ⟨wsem, wth, ssem, inc⟩, op⟩) 14 8 = wth := (bitsOf_append_hi ((0 : BitVec 2) ++ BitVec.ofBool lb ++ BitVec.ofBool mid ++ BitVec.ofBool zf ++ kb ++ fb ++ fa ++ xb ++ xa ++ tile ++ inc ++ ssem ++ wth ++ wsem) op 14 8 (by decide)).trans ((bitsOf_append_hi ((0 : BitVec 2) ++ BitVec.ofBool lb ++ BitVec.ofBool mid ++ BitVec.ofBool zf ++ kb ++ fb ++ fa ++ xb ++ xa ++ tile ++ inc ++ ssem ++ wth) wsem 8 8 (by decide)).trans ((bitsOf_append_lo ((0 : BitVec 2) ++ BitVec.ofBool lb ++ BitVec.ofBool mid ++ BitVec.ofBool zf ++ kb ++ fb ++ fa ++ xb ++ xa ++ tile ++ inc ++ ssem) wth 0 8 (by decide)).trans (bitsOf_whole wth)))
  have hwsem : bitsOf (joinX ⟨lb, mid, zf, kb, fb, fa, xb, xa, tile, ⟨wsem, wth, ssem, inc⟩, op⟩) 6 8 = wsem := (bitsOf_append_hi ((0 : BitVec 2) ++ BitVec.ofBool lb ++ BitVec.ofBool mid ++ BitVec.ofBool zf ++ kb ++ fb ++ fa ++ xb ++ xa ++ tile ++ inc ++ ssem ++ wth ++ wsem) op 6 8 (by decide)).trans ((bitsOf_append_lo ((0 : BitVec 2) ++ BitVec.ofBool lb ++ BitVec.ofBool mid ++ BitVec.ofBool zf ++ kb ++ fb ++ fa ++ xb ++ xa ++ tile ++ inc ++ ssem ++ wth) wsem 0 8 (by decide)).trans (bitsOf_whole wsem))
  have hop : bitsOf (joinX ⟨lb, mid, zf, kb, fb, fa, xb, xa, tile, ⟨wsem, wth, ssem, inc⟩, op⟩) 0 6 = op := (bitsOf_append_lo ((0 : BitVec 2) ++ BitVec.ofBool lb ++ BitVec.ofBool mid ++ BitVec.ofBool zf ++ kb ++ fb ++ fa ++ xb ++ xa ++ tile ++ inc ++ ssem ++ wth ++ wsem) op 0 6 (by decide)).trans (bitsOf_whole op)
  simp only [splitX, splitSync, hlb, hmid, hzf, hkb, hfb, hfa, hxb, hxa, htile, hwsem, hwth, hssem, hinc, hop]

theorem joinC_zero (f : CFields) : bitsOf (joinC f) 62 2 = 0 := by
  obtain ⟨timed, xform, mask, ch, tag, xd, xs, sh, ⟨wsem, wth, ssem, inc⟩, op⟩ := f
  exact (bitsOf_append_hi ((0 : BitVec 2) ++ BitVec.ofBool timed ++ xform ++ mask ++ ch ++ tag ++ xd ++ xs ++ sh ++ inc ++ ssem ++ wth ++ wsem) op 62 2 (by decide)).trans ((bitsOf_append_hi ((0 : BitVec 2) ++ BitVec.ofBool timed ++ xform ++ mask ++ ch ++ tag ++ xd ++ xs ++ sh ++ inc ++ ssem ++ wth) wsem 56 2 (by decide)).trans ((bitsOf_append_hi ((0 : BitVec 2) ++ BitVec.ofBool timed ++ xform ++ mask ++ ch ++ tag ++ xd ++ xs ++ sh ++ inc ++ ssem) wth 48 2 (by decide)).trans ((bitsOf_append_hi ((0 : BitVec 2) ++ BitVec.ofBool timed ++ xform ++ mask ++ ch ++ tag ++ xd ++ xs ++ sh ++ inc) ssem 40 2 (by decide)).trans ((bitsOf_append_hi ((0 : BitVec 2) ++ BitVec.ofBool timed ++ xform ++ mask ++ ch ++ tag ++ xd ++ xs ++ sh) inc 32 2 (by decide)).trans ((bitsOf_append_hi ((0 : BitVec 2) ++ BitVec.ofBool timed ++ xform ++ mask ++ ch ++ tag ++ xd ++ xs) sh 28 2 (by decide)).trans ((bitsOf_append_hi ((0 : BitVec 2) ++ BitVec.ofBool timed ++ xform ++ mask ++ ch ++ tag ++ xd) xs 25 2 (by decide)).trans ((bitsOf_append_hi ((0 : BitVec 2) ++ BitVec.ofBool timed ++ xform ++ mask ++ ch ++ tag) xd 21 2 (by decide)).trans ((bitsOf_append_hi ((0 : BitVec 2) ++ BitVec.ofBool timed ++ xform ++ mask ++ ch) tag 17 2 (by decide)).trans ((bitsOf_append_hi ((0 : BitVec 2) ++ BitVec.ofBool timed ++ xform ++ mask) ch 11 2 (by decide)).trans ((bitsOf_append_hi ((0 : BitVec 2) ++ BitVec.ofBool timed ++ xform) mask 9 2 (by decide)).trans ((bitsOf_append_hi ((0 : BitVec 2) ++ BitVec.ofBool timed) xform 4 2 (by decide)).trans ((bitsOf_append_hi ((0 : BitVec 2)) (BitVec.ofBool timed) 1 2 (by decide)).trans (bitsOf_whole (0 : BitVec 2))))))))))))))

theorem splitC_joinC (f : CFields) : splitC (joinC f) = f := by
  obtain ⟨timed, xform, mask, ch, tag, xd, xs, sh, ⟨wsem, wth, ssem, inc⟩, op⟩ := f
  have htimed : bitAt (joinC ⟨timed, xform, mask, ch, tag, xd, xs, sh, ⟨wsem, wth, ssem, inc⟩, op⟩) 61 = timed := (bitAt_append_hi ((0 : BitVec 2) ++ BitVec.ofBool timed ++ xform ++ mask ++ ch ++ tag ++ xd ++ xs ++ sh ++ inc ++ ssem ++ wth ++ wsem) op 61 (by decide)).trans ((bitAt_append_hi ((0 : BitVec 2) ++ BitVec.ofBool timed ++ xform ++ mask ++ ch ++ tag ++ xd ++ xs ++ sh ++ inc ++ ssem ++ wth) wsem 55 (by decide)).trans ((bitAt_append_hi ((0 : BitVec 2) ++ BitVec.ofBool timed ++ xform ++ mask ++ ch ++ tag ++ xd ++ xs ++ sh ++ inc ++ ssem) wth 47 (by decide)).trans ((bitAt_append_hi ((0 : BitVec 2) ++ BitVec.ofBool timed ++ xform ++ mask ++ ch ++ tag ++ xd ++ xs ++ sh ++ inc) ssem 39 (by decide)).trans ((bitAt_append_hi ((0 : BitVec 2) ++ BitVec.ofBool timed ++ xform ++ mask ++ ch ++ tag ++ xd ++ xs ++ sh) inc 31 (by decide)).trans ((bitAt_append_hi ((0 : BitVec 2) ++ BitVec.ofBool timed ++ xform ++ mask ++ ch ++ tag ++ xd ++ xs) sh 27 (by decide)).trans ((bitAt_append_hi ((0 : BitVec 2) ++ BitVec.ofBool timed ++ xform ++ mask ++ ch ++ tag ++ xd) xs 24 (by decide)).trans ((bitAt_append_hi ((0 : BitVec 2) ++ BitVec.ofBool timed ++ xform ++ mask ++ ch ++ tag) xd 20 (by decide)).trans ((bitAt_append_hi ((0 : BitVec 2) ++ BitVec.ofBool timed ++ xform ++ mask ++ ch) tag 16 (by decide)).trans ((bitAt_append_hi ((0 : BitVec 2) ++ BitVec.ofBool timed ++ xform ++ mask) ch 10 (by decide)).trans ((bitAt_append_hi ((0 : BitVec 2) ++ BitVec.ofBool timed ++ xform) mask 8 (by decide)).trans ((bitAt_append_hi ((0 : BitVec 2) ++ BitVec.ofBool timed) xform 3 (by decide)).trans ((bitAt_append_lo ((0 : BitVec 2)) (BitVec.ofBool timed) 0 (by decide)).trans (bitAt_ofBool timed)))))))))))))
  have hxform : bitsOf (joinC ⟨timed, xform, mask, ch, tag, xd, xs, sh, ⟨wsem, wth, ssem, inc⟩, op⟩) 58 3 = xform := (bitsOf_append_hi ((0 : BitVec 2) ++ BitVec.ofBool timed ++ xform ++ mask ++ ch ++ tag ++ xd ++ xs ++ sh ++ inc ++ ssem ++ wth ++ wsem) op 58 3 (by decide)).trans ((bitsOf_append_hi ((0 : BitVec 2) ++ BitVec.ofBool timed ++ xform ++ mask ++ ch ++ tag ++ xd ++ xs ++ sh ++ inc ++ ssem ++ wth) wsem 52 3 (by decide)).trans ((bitsOf_append_hi ((0 : BitVec 2) ++ BitVec.ofBool timed ++ xform ++ mask ++ ch ++ tag ++ xd ++ xs ++ sh ++ inc ++ ssem) wth 44 3 (by decide)).trans ((bitsOf_append_hi ((0 : BitVec 2) ++ BitVec.ofBool timed ++ xform ++ mask ++ ch ++ tag ++ xd ++ xs ++ sh ++ inc) ssem 36 3 (by decide)).trans ((bitsOf_append_hi ((0 : BitVec 2) ++ BitVec.ofBool timed ++ xform ++ mask ++ ch ++ tag ++ xd ++ xs ++ sh) inc 28 3 (by decide)).trans ((bitsOf_append_hi ((0 : BitVec 2) ++ BitVec.ofBool timed ++ xform ++ mask ++ ch ++ tag ++ xd ++ xs) sh 24 3 (by decide)).trans ((bitsOf_append_hi ((0 : BitVec 2) ++ BitVec.ofBool timed ++ xform ++ mask ++ ch ++ tag ++ xd) xs 21 3 (by decide)).trans ((bitsOf_append_hi ((0 : BitVec 2) ++ BitVec.ofBool timed ++ xform ++ mask ++ ch ++ tag) xd 17 3 (by decide)).trans ((bitsOf_append_hi ((0 : BitVec 2) ++ BitVec.ofBool timed ++ xform ++ mask ++ ch) tag 13 3 (by decide)).trans ((bitsOf_append_hi ((0 : BitVec 2) ++ BitVec.ofBool timed ++ xform ++ mask) ch 7 3 (by decide)).trans ((bitsOf_append_hi ((0 : BitVec 2) ++ BitVec.ofBool timed ++ xform) mask 5 3 (by decide)).trans ((bitsOf_append_lo ((0 : BitVec 2) ++ BitVec.ofBool timed) xform 0 3 (by decide)).trans (bitsOf_whole xform))))))))))))
  have hmask : bitsOf (joinC ⟨timed, xform, mask, ch, tag, xd, xs, sh, ⟨wsem, wth, ssem, inc⟩, op⟩) 53 5 = mask := (bitsOf_append_hi ((0 : BitVec 2) ++ BitVec.ofBool timed ++ xform ++ mask ++ ch ++ tag ++ xd ++ xs ++ sh ++ inc ++ ssem ++ wth ++ wsem) op 53 5 (by decide)).trans ((bitsOf_append_hi ((0 : BitVec 2) ++ BitVec.ofBool timed ++ xform ++ mask ++ ch ++ tag ++ xd ++ xs ++ sh ++ inc ++ ssem ++ wth) wsem 47 5 (by decide)).trans ((bitsOf_append_hi ((0 : BitVec 2) ++ BitVec.ofBool timed ++ xform ++ mask ++ ch ++ tag ++ xd ++ xs ++ sh ++ inc ++ ssem) wth 39 5 (by decide)).trans ((bitsOf_append_hi ((0 : BitVec 2) ++ BitVec.ofBool timed ++ xform ++ mask ++ ch ++ tag ++ xd ++ xs ++ sh ++ inc) ssem 31 5 (by decide)).trans ((bitsOf_append_hi ((0 : BitVec 2) ++ BitVec.ofBool timed ++ xform ++ mask ++ ch ++ tag ++ xd ++ xs ++ sh) inc 23 5 (by decide)).trans ((bitsOf_append_hi ((0 : BitVec 2) ++ BitVec.ofBool timed ++ xform ++ mask ++ ch ++ tag ++ xd ++ xs) sh 19 5 (by decide)).trans ((bitsOf_append_hi ((0 : BitVec 2) ++ BitVec.ofBool timed ++ xform ++ mask ++ ch ++ tag ++ xd) xs 16 5 (by decide)).trans ((bitsOf_append_hi ((0 : BitVec 2) ++ BitVec.ofBool timed ++ xform ++ mask ++ ch ++ tag) xd 12 5 (by decide)).trans ((bitsOf_append_hi ((0 : BitVec 2) ++ BitVec.ofBool timed ++ xform ++ mask ++ ch) tag 8 5 (by decide)).trans ((bitsOf_append_hi ((0 : BitVec 2) ++ BitVec.ofBool timed ++ xform ++ mask) ch 2 5 (by decide)).trans ((bitsOf_append_lo ((0 : BitVec 2) ++ BitVec.ofBool timed ++ xform) mask 0 5 (by decide)).trans (bitsOf_whole mask)))))))))))
  have hch : bitsOf (joinC ⟨timed, xform, mask, ch, tag, xd, xs, sh, ⟨wsem, wth, ssem, inc⟩, op⟩) 51 2 = ch := (bitsOf_append_hi ((0 : BitVec 2) ++ BitVec.ofBool timed ++ xform ++ mask ++ ch ++ tag ++ xd ++ xs ++ sh ++ inc ++ ssem ++ wth ++ wsem) op 51 2 (by decide)).trans ((bitsOf_append_hi ((0 : BitVec 2) ++ BitVec.ofBool timed ++ xform ++ mask ++ ch ++ tag ++ xd ++ xs ++ sh ++ inc ++ ssem ++ wth) wsem 45 2 (by decide)).trans ((bitsOf_append_hi ((0 : BitVec 2) ++ BitVec.ofBool timed ++ xform ++ mask ++ ch ++ tag ++ xd ++ xs ++ sh ++ inc ++ ssem) wth 37 2 (by decide)).trans ((bitsOf_append_hi ((0 : BitVec 2) ++ BitVec.ofBool timed ++ xform ++ mask ++ ch ++ tag ++ xd ++ xs ++ sh ++ inc) ssem 29 2 (by decide)).trans ((bitsOf_append_hi ((0 : BitVec 2) ++ BitVec.ofBool timed ++ xform ++ mask ++ ch ++ tag ++ xd ++ xs ++ sh) inc 21 2 (by decide)).trans ((bitsOf_append_hi ((0 : BitVec 2) ++ BitVec.ofBool timed ++ xform ++ mask ++ ch ++ tag ++ xd ++ xs) sh 17 2 (by decide)).trans ((bitsOf_append_hi ((0 : BitVec 2) ++ BitVec.ofBool timed ++ xform ++ mask ++ ch ++ tag ++ xd) xs 14 2 (by decide)).trans ((bitsOf_append_hi ((0 : BitVec 2) ++ BitVec.ofBool timed ++ xform ++ mask ++ ch ++ tag) xd 10 2 (by decide)).trans ((bitsOf_append_hi ((0 : BitVec 2) ++ BitVec.ofBool timed ++ xform ++ mask ++ ch) tag 6 2 (by decide)).trans ((bitsOf_append_lo ((0 : BitVec 2) ++ BitVec.ofBool timed ++ xform ++ mask) ch 0 2 (by decide)).trans (bitsOf_whole ch))))))))))
  have htag : bitsOf (joinC ⟨timed, xform, mask, ch, tag, xd, xs, sh, ⟨wsem, wth, ssem, inc⟩, op⟩) 45 6 = tag := (bitsOf_append_hi ((0 : BitVec 2) ++ BitVec.ofBool timed ++ xform ++ mask ++ ch ++ tag ++ xd ++ xs ++ sh ++ inc ++ ssem ++ wth ++ wsem) op 45 6 (by decide)).trans ((bitsOf_append_hi ((0 : BitVec 2) ++ BitVec.ofBool timed ++ xform ++ mask ++ ch ++ tag ++ xd ++ xs ++ sh ++ inc ++ ssem ++ wth) wsem 39 6 (by decide)).trans ((bitsOf_append_hi ((0 : BitVec 2) ++ BitVec.ofBool timed ++ xform ++ mask ++ ch ++ tag ++ xd ++ xs ++ sh ++ inc ++ ssem) wth 31 6 (by decide)).trans ((bitsOf_append_hi ((0 : BitVec 2) ++ BitVec.ofBool timed ++ xform ++ mask ++ ch ++ tag ++ xd ++ xs ++ sh ++ inc) ssem 23 6 (by decide)).trans ((bitsOf_append_hi ((0 : BitVec 2) ++ BitVec.ofBool timed ++ xform ++ mask ++ ch ++ tag ++ xd ++ xs ++ sh) inc 15 6 (by decide)).trans ((bitsOf_append_hi ((0 : BitVec 2) ++ BitVec.ofBool timed ++ xform ++ mask ++ ch ++ tag ++ xd ++ xs) sh 11 6 (by decide)).trans ((bitsOf_append_hi ((0 : BitVec 2) ++ BitVec.ofBool timed ++ xform ++ mask ++ ch ++ tag ++ xd) xs 8 6 (by decide)).trans ((bitsOf_append_hi ((0 : BitVec 2) ++ BitVec.ofBool timed ++ xform ++ mask ++ ch ++ tag) xd 4 6 (by decide)).trans ((bitsOf_append_lo ((0 : BitVec 2) ++ BitVec.ofBool timed ++ xform ++ mask ++ ch) tag 0 6 (by decide)).trans (bitsOf_whole tag)))))))))
  have hxd : bitsOf (joinC ⟨timed, xform, mask, ch, tag, xd, xs, sh, ⟨wsem, wth, ssem, inc⟩, op⟩) 41 4 = xd := (bitsOf_append_hi ((0 : BitVec 2) ++ BitVec.ofBool timed ++ xform ++ mask ++ ch ++ tag ++ xd ++ xs ++ sh ++ inc ++ ssem ++ wth ++ wsem) op 41 4 (by decide)).trans ((bitsOf_append_hi ((0 : BitVec 2) ++ BitVec.ofBool timed ++ xform ++ mask ++ ch ++ tag ++ xd ++ xs ++ sh ++ inc ++ ssem ++ wth) wsem 35 4 (by decide)).trans ((bitsOf_append_hi ((0 : BitVec 2) ++ BitVec.ofBool timed ++ xform ++ mask ++ ch ++ tag ++ xd ++ xs ++ sh ++ inc ++ ssem) wth 27 4 (by decide)).trans ((bitsOf_append_hi ((0 : BitVec 2) ++ BitVec.ofBool timed ++ xform ++ mask ++ ch ++ tag ++ xd ++ xs ++ sh ++ inc) ssem 19 4 (by decide)).trans ((bitsOf_append_hi ((0 : BitVec 2) ++ BitVec.ofBool timed ++ xform ++ mask ++ ch ++ tag ++ xd ++ xs ++ sh) inc 11 4 (by decide)).trans ((bitsOf_append_hi ((0 : BitVec 2) ++ BitVec.ofBool timed ++ xform ++ mask ++ ch ++ tag ++ xd ++ xs) sh 7 4 (by decide)).trans ((bitsOf_append_hi ((0 : BitVec 2) ++ BitVec.ofBool timed ++ xform ++ mask ++ ch ++ tag ++ xd) xs 4 4 (by decide)).trans ((bitsOf_append_lo ((0 : BitVec 2) ++ BitVec.ofBool timed ++ xform ++ mask ++ ch ++ tag) xd 0 4 (by decide)).trans (bitsOf_whole xd))))))))
  have hxs : bitsOf (joinC ⟨timed, xform, mask, ch, tag, xd, xs, sh, ⟨wsem, wth, ssem, inc⟩, op⟩) 37 4 = xs := (bitsOf_append_hi ((0 : BitVec 2) ++ BitVec.ofBool timed ++ xform ++ mask ++ ch ++ tag ++ xd ++ xs ++ sh ++ inc ++ ssem ++ wth ++ wsem) op 37 4 (by decide)).trans ((bitsOf_append_hi ((0 : BitVec 2) ++ BitVec.ofBool timed ++ xform ++ mask ++ ch ++ tag ++ xd ++ xs ++ sh ++ inc ++ ssem ++ wth) wsem 31 4 (by decide)).trans ((bitsOf_append_hi ((0 : BitVec 2) ++ BitVec.ofBool timed ++ xform ++ mask ++ ch ++ tag ++ xd ++ xs ++ sh ++ inc ++ ssem) wth 23 4 (by decide)).trans ((bitsOf_append_hi ((0 : BitVec 2) ++ BitVec.ofBool timed ++ xform ++ mask ++ ch ++ tag ++ xd ++ xs ++ sh ++ inc) ssem 15 4 (by decide)).trans ((bitsOf_append_hi ((0 : BitVec 2) ++ BitVec.ofBool timed ++ xform ++ mask ++ ch ++ tag ++ xd ++ xs ++ sh) inc 7 4 (by decide)).trans ((bitsOf_append_hi ((0 : BitVec 2) ++ BitVec.ofBool timed ++ xform ++ mask ++ ch ++ tag ++ xd ++ xs) sh 3 4 (by decide)).trans ((bitsOf_append_lo ((0 : BitVec 2) ++ BitVec.ofBool timed ++ xform ++ mask ++ ch ++ tag ++ xd) xs 0 4 (by decide)).trans (bitsOf_whole xs)))))))
  have hsh : bitsOf (joinC ⟨timed, xform, mask, ch, tag, xd, xs, sh, ⟨wsem, wth, ssem, inc⟩, op⟩) 34 3 = sh := (bitsOf_append_hi ((0 : BitVec 2) ++ BitVec.ofBool timed ++ xform ++ mask ++ ch ++ tag ++ xd ++ xs ++ sh ++ inc ++ ssem ++ wth ++ wsem) op 34 3 (by decide)).trans ((bitsOf_append_hi ((0 : BitVec 2) ++ BitVec.ofBool timed ++ xform ++ mask ++ ch ++ tag ++ xd ++ xs ++ sh ++ inc ++ ssem ++ wth) wsem 28 3 (by decide)).trans ((bitsOf_append_hi ((0 : BitVec 2) ++ BitVec.ofBool timed ++ xform ++ mask ++ ch ++ tag ++ xd ++ xs ++ sh ++ inc ++ ssem) wth 20 3 (by decide)).trans ((bitsOf_append_hi ((0 : BitVec 2) ++ BitVec.ofBool timed ++ xform ++ mask ++ ch ++ tag ++ xd ++ xs ++ sh ++ inc) ssem 12 3 (by decide)).trans ((bitsOf_append_hi ((0 : BitVec 2) ++ BitVec.ofBool timed ++ xform ++ mask ++ ch ++ tag ++ xd ++ xs ++ sh) inc 4 3 (by decide)).trans ((bitsOf_append_lo ((0 : BitVec 2) ++ BitVec.ofBool timed ++ xform ++ mask ++ ch ++ tag ++ xd ++ xs) sh 0 3 (by decide)).trans (bitsOf_whole sh))))))
  have hinc : bitsOf (joinC ⟨timed, xform, mask, ch, tag, xd, xs, sh, ⟨wsem, wth, ssem, inc⟩, op⟩) 30 4 = inc := (bitsOf_append_hi ((0 : BitVec 2) ++ BitVec.ofBool timed ++ xform ++ mask ++ ch ++ tag ++ xd ++ xs ++ sh ++ inc ++ ssem ++ wth ++ wsem) op 30 4 (by decide)).trans ((bitsOf_append_hi ((0 : BitVec 2) ++ BitVec.ofBool timed ++ xform ++ mask ++ ch ++ tag ++ xd ++ xs ++ sh ++ inc ++ ssem ++ wth) wsem 24 4 (by decide)).trans ((bitsOf_append_hi ((0 : BitVec 2) ++ BitVec.ofBool timed ++ xform ++ mask ++ ch ++ tag ++ xd ++ xs ++ sh ++ inc ++ ssem) wth 16 4 (by decide)).trans ((bitsOf_append_hi ((0 : BitVec 2) ++ BitVec.ofBool timed ++ xform ++ mask ++ ch ++ tag ++ xd ++ xs ++ sh ++ inc) ssem 8 4 (by decide)).trans ((bitsOf_append_lo ((0 : BitVec 2) ++ BitVec.ofBool timed ++ xform ++ mask ++ ch ++ tag ++ xd ++ xs ++ sh) inc 0 4 (by decide)).trans (bitsOf_whole inc)))))
  have hssem : bitsOf (joinC ⟨timed, xform, mask, ch, tag, xd, xs, sh, ⟨wsem, wth, ssem, inc⟩, op⟩) 22 8 = ssem := (bitsOf_append_hi ((0 : BitVec 2) ++ BitVec.ofBool timed ++ xform ++ mask ++ ch ++ tag ++ xd ++ xs ++ sh ++ inc ++ ssem ++ wth ++ wsem) op 22 8 (by decide)).trans ((bitsOf_append_hi ((0 : BitVec 2) ++ BitVec.ofBool timed ++ xform ++ mask ++ ch ++ tag ++ xd ++ xs ++ sh ++ inc ++ ssem ++ wth) wsem 16 8 (by decide)).trans ((bitsOf_append_hi ((0 : BitVec 2) ++ BitVec.ofBool timed ++ xform ++ mask ++ ch ++ tag ++ xd ++ xs ++ sh ++ inc ++ ssem) wth 8 8 (by decide)).trans ((bitsOf_append_lo ((0 : BitVec 2) ++ BitVec.ofBool timed ++ xform ++ mask ++ ch ++ tag ++ xd ++ xs ++ sh ++ inc) ssem 0 8 (by decide)).trans (bitsOf_whole ssem))))
  have hwth : bitsOf (joinC ⟨timed, xform, mask, ch, tag, xd, xs, sh, ⟨wsem, wth, ssem, inc⟩, op⟩) 14 8 = wth := (bitsOf_append_hi ((0 : BitVec 2) ++ BitVec.ofBool timed ++ xform ++ mask ++ ch ++ tag ++ xd ++ xs ++ sh ++ inc ++ ssem ++ wth ++ wsem) op 14 8 (by decide)).trans ((bitsOf_append_hi ((0 : BitVec 2) ++ BitVec.ofBool timed ++ xform ++ mask ++ ch ++ tag ++ xd ++ xs ++ sh ++ inc ++ ssem ++ wth) wsem 8 8 (by decide)).trans ((bitsOf_append_lo ((0 : BitVec 2) ++ BitVec.ofBool timed ++ xform ++ mask ++ ch ++ tag ++ xd ++ xs ++ sh ++ inc ++ ssem) wth 0 8 (by decide)).trans (bitsOf_whole wth)))
  have hwsem : bitsOf (joinC ⟨timed, xform, mask, ch, tag, xd, xs, sh, ⟨wsem, wth, ssem, inc⟩, op⟩) 6 8 = wsem := (bitsOf_append_hi ((0 : BitVec 2) ++ BitVec.ofBool timed ++ xform ++ mask ++ ch ++ tag ++ xd ++ xs ++ sh ++ inc ++ ssem ++ wth ++ wsem) op 6 8 (by decide)).trans ((bitsOf_append_lo ((0 : BitVec 2) ++ BitVec.ofBool timed ++ xform ++ mask ++ ch ++ tag ++ xd ++ xs ++ sh ++ inc ++ ssem ++ wth) wsem 0 8 (by decide)).trans (bitsOf_whole wsem))
  have hop : bitsOf (joinC ⟨timed, xform, mask, ch, tag, xd, xs, sh, ⟨wsem, wth, ssem, inc⟩, op⟩) 0 6 = op := (bitsOf_append_lo ((0 : BitVec 2) ++ BitVec.ofBool timed ++ xform ++ mask ++ ch ++ tag ++ xd ++ xs ++ sh ++ inc ++ ssem ++ wth ++ wsem) op 0 6 (by decide)).trans (bitsOf_whole op)
  simp only [splitC, splitSync, htimed, hxform, hmask, hch, htag, hxd, hxs, hsh, hwsem, hwth, hssem, hinc, hop]

theorem splitH_joinH (f : HFields) : splitH (joinH f) = f := by
  obtain ⟨imm, xs, field, sh, op⟩ := f
  have himm : bitsOf (joinH ⟨imm, xs, field, sh, op⟩) 16 16 = imm := (bitsOf_append_hi (imm ++ xs ++ field ++ sh) op 16 16 (by decide)).trans ((bitsOf_append_hi (imm ++ xs ++ field) sh 12 16 (by decide)).trans ((bitsOf_append_hi (imm ++ xs) field 9 16 (by decide)).trans ((bitsOf_append_hi (imm) xs 4 16 (by decide)).trans (bitsOf_whole imm))))
  have hxs : bitsOf (joinH ⟨imm, xs, field, sh, op⟩) 12 4 = xs := (bitsOf_append_hi (imm ++ xs ++ field ++ sh) op 12 4 (by decide)).trans ((bitsOf_append_hi (imm ++ xs ++ field) sh 8 4 (by decide)).trans ((bitsOf_append_hi (imm ++ xs) field 5 4 (by decide)).trans ((bitsOf_append_lo (imm) xs 0 4 (by decide)).trans (bitsOf_whole xs))))
  have hfield : bitsOf (joinH ⟨imm, xs, field, sh, op⟩) 7 5 = field := (bitsOf_append_hi (imm ++ xs ++ field ++ sh) op 7 5 (by decide)).trans ((bitsOf_append_hi (imm ++ xs ++ field) sh 3 5 (by decide)).trans ((bitsOf_append_lo (imm ++ xs) field 0 5 (by decide)).trans (bitsOf_whole field)))
  have hsh : bitsOf (joinH ⟨imm, xs, field, sh, op⟩) 4 3 = sh := (bitsOf_append_hi (imm ++ xs ++ field ++ sh) op 4 3 (by decide)).trans ((bitsOf_append_lo (imm ++ xs ++ field) sh 0 3 (by decide)).trans (bitsOf_whole sh))
  have hop : bitsOf (joinH ⟨imm, xs, field, sh, op⟩) 0 4 = op := (bitsOf_append_lo (imm ++ xs ++ field ++ sh) op 0 4 (by decide)).trans (bitsOf_whole op)
  simp only [splitH, himm, hxs, hfield, hsh, hop]

theorem joinK_zero (f : KFields) : bitsOf (joinK f) 10 22 = 0 := by
  obtain ⟨lb, side, xa, op⟩ := f
  exact (bitsOf_append_hi ((0 : BitVec 22) ++ BitVec.ofBool lb ++ BitVec.ofBool side ++ xa) op 10 22 (by decide)).trans ((bitsOf_append_hi ((0 : BitVec 22) ++ BitVec.ofBool lb ++ BitVec.ofBool side) xa 6 22 (by decide)).trans ((bitsOf_append_hi ((0 : BitVec 22) ++ BitVec.ofBool lb) (BitVec.ofBool side) 2 22 (by decide)).trans ((bitsOf_append_hi ((0 : BitVec 22)) (BitVec.ofBool lb) 1 22 (by decide)).trans (bitsOf_whole (0 : BitVec 22)))))

theorem splitK_joinK (f : KFields) : splitK (joinK f) = f := by
  obtain ⟨lb, side, xa, op⟩ := f
  have hlb : bitAt (joinK ⟨lb, side, xa, op⟩) 9 = lb := (bitAt_append_hi ((0 : BitVec 22) ++ BitVec.ofBool lb ++ BitVec.ofBool side ++ xa) op 9 (by decide)).trans ((bitAt_append_hi ((0 : BitVec 22) ++ BitVec.ofBool lb ++ BitVec.ofBool side) xa 5 (by decide)).trans ((bitAt_append_hi ((0 : BitVec 22) ++ BitVec.ofBool lb) (BitVec.ofBool side) 1 (by decide)).trans ((bitAt_append_lo ((0 : BitVec 22)) (BitVec.ofBool lb) 0 (by decide)).trans (bitAt_ofBool lb))))
  have hside : bitAt (joinK ⟨lb, side, xa, op⟩) 8 = side := (bitAt_append_hi ((0 : BitVec 22) ++ BitVec.ofBool lb ++ BitVec.ofBool side ++ xa) op 8 (by decide)).trans ((bitAt_append_hi ((0 : BitVec 22) ++ BitVec.ofBool lb ++ BitVec.ofBool side) xa 4 (by decide)).trans ((bitAt_append_lo ((0 : BitVec 22) ++ BitVec.ofBool lb) (BitVec.ofBool side) 0 (by decide)).trans (bitAt_ofBool side)))
  have hxa : bitsOf (joinK ⟨lb, side, xa, op⟩) 4 4 = xa := (bitsOf_append_hi ((0 : BitVec 22) ++ BitVec.ofBool lb ++ BitVec.ofBool side ++ xa) op 4 4 (by decide)).trans ((bitsOf_append_lo ((0 : BitVec 22) ++ BitVec.ofBool lb ++ BitVec.ofBool side) xa 0 4 (by decide)).trans (bitsOf_whole xa))
  have hop : bitsOf (joinK ⟨lb, side, xa, op⟩) 0 4 = op := (bitsOf_append_lo ((0 : BitVec 22) ++ BitVec.ofBool lb ++ BitVec.ofBool side ++ xa) op 0 4 (by decide)).trans (bitsOf_whole op)
  simp only [splitK, hlb, hside, hxa, hop]

/-! ### The candidate of joined fields -/

theorem raw_s (f : SFields) {op : BitVec 7} (ho : f.op = op) (hn : op ≠ 0x2F) : rawDecode .s ((joinS f).zeroExtend 64) = mapS f := by
  have h : f.op ≠ 0x2F := ho ▸ hn
  have e : bitsOf (joinS f) 0 7 = f.op := congrArg SFields.op (splitS_joinS f)
  have t : ((joinS f).setWidth 64).setWidth 32 = joinS f := by simp
  simp only [rawDecode, BitVec.zeroExtend, BitVec.truncate, bits64_of_32, e, h, if_false, t, splitS_joinS]

theorem raw_v (f : VFields) : rawDecode .v ((joinV f).zeroExtend 64) = mapV f := by
  have t : ((joinV f).setWidth 64).setWidth 48 = joinV f := by simp
  simp only [rawDecode, BitVec.zeroExtend, BitVec.truncate, t, splitV_joinV]

theorem raw_f (f : FFields) : rawDecode .f ((joinF f).zeroExtend 64) = mapF f := by
  have t : ((joinF f).setWidth 64).setWidth 32 = joinF f := by simp
  simp only [rawDecode, BitVec.zeroExtend, BitVec.truncate, t, splitF_joinF]

theorem raw_m (f : MFields) : rawDecode .m ((joinM f).zeroExtend 64) = mapM f := by
  have t : ((joinM f).setWidth 64).setWidth 48 = joinM f := by simp
  simp only [rawDecode, BitVec.zeroExtend, BitVec.truncate, t, splitM_joinM]

theorem raw_x (f : XFields) : rawDecode .x (joinX f) = mapX f := by
  simp only [rawDecode, joinX_zero, if_true, splitX_joinX]

theorem raw_c (f : CFields) : rawDecode .c (joinC f) = mapC f := by
  simp only [rawDecode, joinC_zero, if_true, splitC_joinC]

theorem raw_h (f : HFields) : rawDecode .h ((joinH f).zeroExtend 64) = mapH f := by
  have t : ((joinH f).setWidth 64).setWidth 32 = joinH f := by simp
  simp only [rawDecode, BitVec.zeroExtend, BitVec.truncate, t, splitH_joinH]

theorem raw_k (f : KFields) : rawDecode .k ((joinK f).zeroExtend 64) = mapK f := by
  have t : ((joinK f).setWidth 64).setWidth 32 = joinK f := by simp
  simp only [rawDecode, BitVec.zeroExtend, BitVec.truncate, bits64_of_32, joinK_zero, if_true, t, splitK_joinK]

/-- A BR slot: its kind and the rest. -/
theorem raw_br (r : BitVec 60) (k : BitVec 4) : rawDecode .br (r ++ k) = mapBr k r := by
  have h1 : bitsOf (w := 64) (r ++ k) 0 4 = k := (bitsOf_append_lo r k 0 4 (by decide)).trans (bitsOf_whole k)
  have h2 : bitsOf (w := 64) (r ++ k) 4 60 = r := (bitsOf_append_hi r k 4 60 (by decide)).trans (bitsOf_whole r)
  simp only [rawDecode, h1, h2]

end Sys2Proof.Laws
end

