-- ==== Sys2Proof/Laws/MemWf.lean ====
section
/-! SUPPORT. Every operation of the machine keeps the canonical form of memory and of the scratchpads: one lemma per
operation that answers a state, and one per instruction. `MemWf` is the form, `OutWf` that of a next state, `OptWf` and
`OptPWf` that of an operation that may answer none. -/

set_option Elab.async false

namespace Sys2Proof.Laws

open Sys2Proof Sys2Proof.Machine

/-- Memory and the scratchpads are in canonical form. -/
def MemWf (s : State) : Prop := Memory.wf s.mem = true ∧ spWf scrDefault s.scr = true

/-- A next state is in canonical form. -/
def OutWf (o : Host.Outcome State Fault Refusal) : Prop := ∀ t, o = .next t → MemWf t

def OptWf (o : Option State) : Prop := ∀ t, o = some t → MemWf t

def OptPWf {α : Type} (o : Option (State × α)) : Prop := ∀ t, o = some t → MemWf t.1

theorem wf_next {t : State} (h : MemWf t) : OutWf (.next t) := fun _ e => (Host.Outcome.next.inj e) ▸ h
theorem wf_fault (f : Fault) : OutWf (.fault f) := fun _ e => nomatch e
theorem wf_refused (r : Refusal) : OutWf (.refused r) := fun _ e => nomatch e
theorem wf_none : OptWf none := fun _ h => nomatch h
theorem wf_some {t : State} (h : MemWf t) : OptWf (some t) := fun _ e => (Option.some.inj e) ▸ h
theorem wf_noneP {α : Type} : OptPWf (none : Option (State × α)) := fun _ h => nomatch h
theorem wf_someP {α : Type} {t : State × α} (h : MemWf t.1) : OptPWf (some t) := fun _ e => (Option.some.inj e) ▸ h
theorem wf_outGet {o : Host.Outcome State Fault Refusal} {t : State} (e : o = .next t) (h : OutWf o) : MemWf t := h t e
theorem wf_get {o : Option State} {t : State} (e : o = some t) (h : OptWf o) : MemWf t := h t e
theorem wf_getP {α : Type} {o : Option (State × α)} {t : State × α} (e : o = some t) (h : OptPWf o) : MemWf t.1 := h t e
theorem wf_getP' {α : Type} {o : Option (State × α)} {t : State} {a : α} (e : o = some (t, a)) (h : OptPWf o) :
    MemWf t := h _ e
theorem wf_pair {α : Type} {p : State × α} {t : State} {a : α} (e : p = (t, a)) (h : MemWf p.1) : MemWf t := by
  rw [e] at h; exact h

theorem wf_ite {c : Prop} [Decidable c] {a b : State} (ha : c → MemWf a) (hb : ¬c → MemWf b) :
    MemWf (if c then a else b) := by
  split
  · exact ha ‹_›
  · exact hb ‹_›

theorem wf_iteO {c : Prop} [Decidable c] {a b : Host.Outcome State Fault Refusal} (ha : c → OutWf a) (hb : ¬c → OutWf b) :
    OutWf (if c then a else b) := by
  split
  · exact ha ‹_›
  · exact hb ‹_›

theorem wf_iteN {c : Prop} [Decidable c] {a b : Option State} (ha : c → OptWf a) (hb : ¬c → OptWf b) :
    OptWf (if c then a else b) := by
  split
  · exact ha ‹_›
  · exact hb ‹_›

theorem wf_iteNP {α : Type} {c : Prop} [Decidable c] {a b : Option (State × α)} (ha : c → OptPWf a) (hb : ¬c → OptPWf b) :
    OptPWf (if c then a else b) := by
  split
  · exact ha ‹_›
  · exact hb ‹_›

theorem wf_iteP {α : Type} {c : Prop} [Decidable c] {a b : State × α} (ha : c → MemWf a.1) (hb : ¬c → MemWf b.1) :
    MemWf (if c then a else b).1 := by
  split
  · exact ha ‹_›
  · exact hb ‹_›

theorem wf_getD {o : Option State} {d : State} (ho : OptWf o) (hd : MemWf d) : MemWf (o.getD d) := by
  cases o with
  | none => exact hd
  | some t => exact ho t rfl

theorem wf_foldl {α : Type} (f : State → α → State) (l : List α) {s : State} (h : MemWf s)
    (hf : ∀ t a, MemWf t → MemWf (f t a)) : MemWf (l.foldl f s) := by
  induction l generalizing s with
  | nil => exact h
  | cons a l ih => exact ih (hf s a h)

theorem wf_foldlP {α β : Type} (f : State × β → α → State × β) (l : List α) {s : State × β} (h : MemWf s.1)
    (hf : ∀ t a, MemWf t.1 → MemWf (f t a).1) : MemWf (l.foldl f s).1 := by
  induction l generalizing s with
  | nil => exact h
  | cons a l ih => exact ih (hf s a h)

theorem wf_mk {s t : State} (hm : t.mem = s.mem) (hs : t.scr = s.scr) (h : MemWf s) : MemWf t := by
  unfold MemWf at *
  rw [hm, hs]
  exact h

theorem wf_lit {s : State} (h : MemWf s) (agenda_ : List Instr) (turn_ : Nat) (issue_ : Option Issue) (outbox_ : List Msg) (now_ : Nat) (ids_ : Nat) (hub_ : Sparse DWord) (threads_ : Sparse Thread) (groups_ : Sparse Group) (cores_ : Sparse Core) (runs_ : List Run) (accesses_ : List Access) (cmds_ : List Cmd) (launches_ : List Launch) (sched_ : Sched) (reqs_ : List PageReq) (refused_ : List Refused) (pageFail_ : List Nat) (tlb_ : List TlbEntry) (inval_ : Option Inval) (dir_ : Sparse Copy) (hmap_ : Sparse Nat) (traps_ : List TrapRec) (snap_ : Snap) (fab_ : Fabric) (mgmt_ : Mgmt) :
    MemWf (State.mk agenda_ turn_ issue_ outbox_ now_ ids_ s.mem s.scr hub_ threads_ groups_ cores_ runs_ accesses_ cmds_ launches_ sched_ reqs_ refused_ pageFail_ tlb_ inval_ dir_ hmap_ traps_ snap_ fab_ mgmt_) := h

theorem wf_State_reset : MemWf State.reset := ⟨rfl, rfl⟩

theorem wf_State_setByte (s : State) (loc : Nat) (b : Byte) (h_s : MemWf s) : MemWf (State.setByte s loc b) := by
  unfold State.setByte
  split
  · exact ⟨h_s.1, spWf_spSet _ _ _ h_s.2⟩
  · exact ⟨spWf_spSet _ _ _ h_s.1, h_s.2⟩

theorem wf_State_setBytes (bs : List Byte) (s : State) (loc : Nat) (h_s : MemWf s) :
    MemWf (State.setBytes s loc bs) := by
  induction bs generalizing s loc with
  | nil => exact h_s
  | cons b bs ih => exact ih _ _ (wf_State_setByte s loc b h_s)

/-! ### Ops -/

theorem wf_State_setThread (s : State) (k : Nat) (t : Thread) (h_s : MemWf s) :
    MemWf (State.setThread s k t) := by
  unfold State.setThread
  with_reducible apply wf_lit
  assumption

theorem wf_State_modThread (s : State) (k : Nat) (f : Thread → Thread) (h_s : MemWf s) :
    MemWf (State.modThread s k f) := by
  unfold State.modThread
  with_reducible apply wf_State_setThread
  assumption

theorem wf_State_setGroup (s : State) (k : Nat) (g : Group) (h_s : MemWf s) :
    MemWf (State.setGroup s k g) := by
  unfold State.setGroup
  with_reducible apply wf_lit
  assumption

theorem wf_State_modGroup (s : State) (k : Nat) (f : Group → Group) (h_s : MemWf s) :
    MemWf (State.modGroup s k f) := by
  unfold State.modGroup
  with_reducible apply wf_State_setGroup
  assumption

theorem wf_State_setCore (s : State) (k : Nat) (c : Core) (h_s : MemWf s) :
    MemWf (State.setCore s k c) := by
  unfold State.setCore
  with_reducible apply wf_lit
  assumption

theorem wf_State_modCore (s : State) (k : Nat) (f : Core → Core) (h_s : MemWf s) :
    MemWf (State.modCore s k f) := by
  unfold State.modCore
  with_reducible apply wf_State_setCore
  assumption

theorem wf_State_modRun (s : State) (id : Nat) (f : Run → Run) (h_s : MemWf s) :
    MemWf (State.modRun s id f) := by
  unfold State.modRun
  with_reducible apply wf_lit
  assumption

theorem wf_State_dropRun (s : State) (id : Nat) (h_s : MemWf s) :
    MemWf (State.dropRun s id) := by
  unfold State.dropRun
  with_reducible apply wf_lit
  assumption

theorem wf_State_modCmd (s : State) (id : Nat) (f : Cmd → Cmd) (h_s : MemWf s) :
    MemWf (State.modCmd s id f) := by
  unfold State.modCmd
  with_reducible apply wf_lit
  assumption

theorem wf_State_dropCmd (s : State) (id : Nat) (h_s : MemWf s) :
    MemWf (State.dropCmd s id) := by
  unfold State.dropCmd
  with_reducible apply wf_lit
  assumption

theorem wf_State_modLaunch (s : State) (id : Nat) (f : Launch → Launch) (h_s : MemWf s) :
    MemWf (State.modLaunch s id f) := by
  unfold State.modLaunch
  with_reducible apply wf_lit
  assumption

theorem wf_State_send (s : State) (m : Msg) (h_s : MemWf s) :
    MemWf (State.send s m) := by
  unfold State.send
  with_reducible apply wf_lit
  assumption

theorem wf_State_leaveIssue (s : State) (h_s : MemWf s) :
    MemWf (State.leaveIssue s) := by
  unfold State.leaveIssue
  with_reducible apply wf_lit
  assumption

theorem wf_State_nextId (s : State) (h_s : MemWf s) :
    MemWf (State.nextId s) := by
  unfold State.nextId
  with_reducible apply wf_lit
  assumption

theorem wf_State_landOne (s : State) (group : Nat) (d : Dest) (q : Nat × QWord) (h_s : MemWf s) :
    MemWf (State.landOne s group d q) := by
  have hm : ∀ f, MemWf (s.modThread q.1 f) := fun f => wf_State_modThread s q.1 f h_s
  have hg : ∀ f, MemWf (s.modGroup group f) := fun f => wf_State_modGroup s group f h_s
  cases d with
  | sr n => by_cases e : n = 0x051
            · subst e; exact hg _
            · unfold State.landOne; split
              · rename_i h; cases h
              · exact hg _
              · exact hm _
  | shape a b => exact hg _
  | _ => exact hm _

theorem wf_State_landFlight (s : State) (group : Nat) (f : Flight) (h_s : MemWf s) :
    MemWf (State.landFlight s group f) := by
  unfold State.landFlight
  with_reducible apply wf_foldl
  · assumption
  · intro a1
    intro a2
    intro h3
    with_reducible apply wf_State_landOne
    assumption

theorem wf_State_landAll (s : State) (group : Nat) (fs : List Flight) (h_s : MemWf s) :
    MemWf (State.landAll s group fs) := by
  unfold State.landAll
  with_reducible apply wf_foldl
  · assumption
  · intro a1
    intro a2
    intro h3
    with_reducible apply wf_State_landFlight
    assumption

theorem wf_State_landDue (s : State) (r : Run) (count : Nat) (h_s : MemWf s) :
    MemWf (State.landDue s r count) := by
  unfold State.landDue
  with_reducible apply wf_State_modRun
  with_reducible apply wf_State_landAll
  assumption

theorem wf_State_fly (s : State) (q : Issue) (lat : Nat) (vals : List (Nat × Dest × QWord)) (h_s : MemWf s) :
    MemWf (State.fly s q lat vals) := by
  unfold State.fly
  with_reducible apply wf_State_modRun
  assumption

theorem wf_State_flyWait (s : State) (q : Issue) (lat access part : Nat) (vals : List (Nat × Dest × QWord)) (h_s : MemWf s) :
    MemWf (State.flyWait s q lat access part vals) := by
  unfold State.flyWait
  with_reducible apply wf_State_modRun
  assumption

theorem wf_State_flyX (s : State) (q : Issue) (g : Guard) (lat : Nat) (xd : BitVec 4) (f : Nat × Nat → DWord) (h_s : MemWf s) :
    MemWf (State.flyX s q g lat xd f) := by
  unfold State.flyX
  with_reducible refine wf_ite (fun h1 => ?_) (fun h2 => ?_)
  · assumption
  · with_reducible apply wf_State_fly
    assumption

theorem wf_State_flyP (s : State) (q : Issue) (g : Guard) (lat : Nat) (pd : BitVec 4) (f : Nat × Nat → Bool) (h_s : MemWf s) :
    MemWf (State.flyP s q g lat pd f) := by
  unfold State.flyP
  with_reducible apply wf_State_fly
  assumption

theorem wf_State_flyB (s : State) (q : Issue) (g : Guard) (lat : Nat) (bd : BitVec 3) (f : Nat × Nat → DWord) (h_s : MemWf s) :
    MemWf (State.flyB s q g lat bd f) := by
  unfold State.flyB
  with_reducible apply wf_State_fly
  assumption

theorem wf_State_flyV (s : State) (q : Issue) (g : Guard) (lat : Nat) (vd : Nat) (f : Nat × Nat → Word) (h_s : MemWf s) :
    MemWf (State.flyV s q g lat vd f) := by
  unfold State.flyV
  with_reducible apply wf_State_fly
  assumption

theorem wf_State_flyStatus (s : State) (q : Issue) (g : Guard) (lat : Nat) (f : Nat × Nat → Flags) (h_s : MemWf s) :
    MemWf (State.flyStatus s q g lat f) := by
  unfold State.flyStatus
  with_reducible apply wf_State_fly
  assumption

theorem wf_State_flyVF (s : State) (q : Issue) (g : Guard) (lat : Nat) (vd : Nat) (f : Nat × Nat → Word × Flags) (h_s : MemWf s) :
    MemWf (State.flyVF s q g lat vd f) := by
  unfold State.flyVF
  with_reducible apply wf_State_flyStatus
  with_reducible apply wf_State_flyV
  assumption

theorem wf_withIssue (s : State) (k : Issue → Out) (h_s : MemWf s) (h_k : ∀ (a0 : Issue), OutWf (k a0)) :
    OutWf (withIssue s k) := by
  unfold withIssue
  split
  · with_reducible exact wf_fault _
  · with_reducible apply h_k

theorem wf_slotNext (s : State) (f : Issue → State) (h_s : MemWf s) (h_f : ∀ (a0 : Issue), MemWf (f a0)) :
    OutWf (slotNext s f) := by
  unfold slotNext
  with_reducible apply wf_withIssue
  · assumption
  · intro a1
    with_reducible refine wf_next ?_
    with_reducible apply h_f

/-! ### Hub -/

theorem wf_State_setReg (s : State) (off : Nat) (v : DWord) (h_s : MemWf s) :
    MemWf (State.setReg s off v) := by
  unfold State.setReg
  with_reducible apply wf_lit
  assumption

theorem wf_State_writeReg (s : State) (off : Nat) (v : DWord) (h_s : MemWf s) :
    MemWf (State.writeReg s off v) := by
  unfold State.writeReg
  with_reducible apply wf_State_setReg
  assumption

theorem wf_State_setField (s : State) (off lo n v : Nat) (h_s : MemWf s) :
    MemWf (State.setField s off lo n v) := by
  unfold State.setField
  extract_lets x1
  clear_value x1
  with_reducible apply wf_State_setReg
  assumption

theorem wf_State_setDieState (s : State) (d v : Nat) (h_s : MemWf s) :
    MemWf (State.setDieState s d v) := by
  unfold State.setDieState
  with_reducible apply wf_State_setField
  assumption

theorem wf_State_fabSend (s : State) (pod : Nat) (m : Msg) (h_s : MemWf s) :
    MemWf (State.fabSend s pod m) := by
  unfold State.fabSend
  with_reducible refine wf_ite (fun h1 => ?_) (fun h2 => ?_)
  · with_reducible apply wf_State_send
    assumption
  · with_reducible apply wf_lit
    assumption

theorem wf_State_flushQueue (s : State) (h_s : MemWf s) :
    MemWf (State.flushQueue s) := by
  unfold State.flushQueue
  with_reducible apply wf_foldl
  · with_reducible apply wf_lit
    assumption
  · intro a1
    intro a2
    intro h3
    with_reducible apply wf_State_send
    assumption

theorem wf_State_setDomState (s : State) (d v : Nat) (h_s : MemWf s) :
    MemWf (State.setDomState s d v) := by
  unfold State.setDomState
  with_reducible apply wf_State_setField
  assumption

theorem wf_State_advance (s : State) (n : Nat) (h_s : MemWf s) :
    MemWf (State.advance s n) := by
  unfold State.advance
  with_reducible apply wf_lit
  assumption

/-! ### Memory -/

theorem wf_State_askLine (s : State) (inval : Bool) (line : Nat) (h_s : MemWf s) :
    MemWf (State.askLine s inval line) := by
  unfold State.askLine
  with_reducible refine wf_ite (fun h1 => ?_) (fun h2 => ?_)
  · assumption
  · with_reducible apply wf_State_fabSend
    with_reducible apply wf_lit
    assumption

theorem wf_State_dirDrop (s : State) (loc : Nat) (h_s : MemWf s) :
    MemWf (State.dirDrop s loc) := by
  unfold State.dirDrop
  with_reducible refine wf_ite (fun h1 => ?_) (fun h2 => ?_)
  · assumption
  · with_reducible apply wf_lit
    assumption

theorem wf_State_dirSet (s : State) (agent loc : Nat) (c : Copy) (h_s : MemWf s) :
    MemWf (State.dirSet s agent loc c) := by
  unfold State.dirSet
  with_reducible refine wf_ite (fun h1 => ?_) (fun h2 => ?_)
  · assumption
  · with_reducible apply wf_lit
    assumption

theorem wf_State_dirRead (s : State) (agent loc : Nat) (h_s : MemWf s) :
    MemWf (State.dirRead s agent loc) := by
  unfold State.dirRead
  with_reducible refine wf_ite (fun h1 => ?_) (fun h2 => ?_)
  · assumption
  · with_reducible apply wf_State_dirSet
    with_reducible apply wf_lit
    assumption

theorem wf_State_homeRead (s : State) (loc : Nat) (h_s : MemWf s) :
    MemWf (State.homeRead s loc) := by
  unfold State.homeRead
  with_reducible apply wf_lit
  assumption

theorem wf_State_homeReads (s : State) (loc len : Nat) (h_s : MemWf s) :
    MemWf (State.homeReads s loc len) := by
  unfold State.homeReads
  with_reducible refine wf_ite (fun h1 => ?_) (fun h2 => ?_)
  · assumption
  · with_reducible apply wf_foldl
    · assumption
    · intro a3
      intro a4
      intro h5
      with_reducible apply wf_State_homeRead
      assumption

theorem wf_State_put (s : State) (loc : Nat) (bs : List Byte) (h_s : MemWf s) :
    MemWf (State.put s loc bs) := by
  unfold State.put
  with_reducible apply wf_State_dirDrop
  with_reducible apply wf_State_dirDrop
  with_reducible apply wf_State_setBytes
  assumption

theorem wf_State_setPte (s : State) (a : Nat) (p p' : DWord) (h_s : MemWf s) :
    MemWf (State.setPte s a p p') := by
  unfold State.setPte
  with_reducible refine wf_ite (fun h1 => ?_) (fun h2 => ?_)
  · assumption
  · split
    · with_reducible apply wf_State_put
      assumption
    · with_reducible refine wf_ite (fun h3 => ?_) (fun h4 => ?_)
      · with_reducible apply wf_State_fabSend
        assumption
      · assumption
    · assumption

theorem wf_State_hubSeen (s : State) (pa len : Nat) (h_s : MemWf s) :
    MemWf (State.hubSeen s pa len) := by
  unfold State.hubSeen
  split
  · with_reducible apply wf_State_homeReads
    assumption
  · assumption

theorem wf_State_keepWalk (s : State) (agent t va : Nat) (leaf : DWord × Nat × Nat) (h_s : MemWf s) :
    MemWf (State.keepWalk s agent t va leaf) := by
  unfold State.keepWalk
  extract_lets x1 x2 x3 x4
  clear_value x1
  clear_value x2
  clear_value x3
  clear_value x4
  with_reducible apply wf_foldl
  · with_reducible apply wf_lit
    assumption
  · intro a5
    intro a6
    intro h7
    with_reducible apply wf_State_hubSeen
    assumption

theorem wf_State_markUsedBy (s : State) (agent t : Nat) (write : Bool) (va : DWord) (h_s : MemWf s) :
    MemWf (State.markUsedBy s agent t write va) := by
  unfold State.markUsedBy
  split
  · assumption
  · extract_lets x1 x2
    clear_value x1
    have hx2 : MemWf x2 := by
      unfold x2
      with_reducible apply wf_State_setPte
      assumption
    clear_value x2
    with_reducible apply wf_State_keepWalk
    with_reducible apply wf_lit
    assumption

theorem wf_State_markUsed (s : State) (t : Nat) (write : Bool) (va : DWord) (h_s : MemWf s) :
    MemWf (State.markUsed s t write va) := by
  unfold State.markUsed
  with_reducible apply wf_State_markUsedBy
  assumption

theorem wf_State_markRange (s : State) (g : Nat) (write : Bool) (va : DWord) (len : Nat) (h_s : MemWf s) :
    MemWf (State.markRange s g write va len) := by
  unfold State.markRange
  with_reducible refine wf_ite (fun h1 => ?_) (fun h2 => ?_)
  · assumption
  · extract_lets x3 x4
    have hx3 : MemWf x3 := by
      unfold x3
      with_reducible apply wf_State_markUsedBy
      assumption
    clear_value x3
    clear_value x4
    with_reducible refine wf_ite (fun h5 => ?_) (fun h6 => ?_)
    · assumption
    · with_reducible apply wf_State_markUsedBy
      assumption

theorem wf_State_hubPut (s : State) (pa : Nat) (bs : List Byte) (h_s : MemWf s) :
    MemWf (State.hubPut s pa bs) := by
  unfold State.hubPut
  split
  · with_reducible refine wf_ite (fun h1 => ?_) (fun h2 => ?_)
    · with_reducible apply wf_State_put
      assumption
    · assumption
  · assumption

theorem wf_State_askCopy (s : State) (page : Nat) (h_s : MemWf s) :
    MemWf (State.askCopy s page) := by
  unfold State.askCopy
  with_reducible refine wf_ite (fun h1 => ?_) (fun h2 => ?_)
  · assumption
  · with_reducible apply wf_lit
    assumption

theorem wf_State_askFor (s : State) (z0 : Option WaitOn) (h_s : MemWf s) :
    MemWf (State.askFor s z0) := by
  unfold State.askFor
  split
  · with_reducible apply wf_State_askLine
    assumption
  · with_reducible apply wf_State_askCopy
    assumption
  · assumption

theorem wf_State_writeback (s : State) (o : Nat) (f : Nat → Bool) (h_s : MemWf s) :
    MemWf (State.writeback s o f) := by
  unfold State.writeback
  extract_lets x1
  have hx1 : MemWf x1 := by
    unfold x1
    with_reducible apply wf_foldl
    · assumption
    · intro a2
      intro a3
      intro h4
      with_reducible apply wf_State_put
      assumption
  clear_value x1
  with_reducible apply wf_State_modCore
  assumption

theorem wf_State_discardLines (s : State) (o : Nat) (f : Nat → Bool) (h_s : MemWf s) :
    MemWf (State.discardLines s o f) := by
  unfold State.discardLines
  with_reducible apply wf_State_modCore
  assumption

theorem wf_State_writebackL1 (s : State) (core : Nat) (f : Nat → Bool) (h_s : MemWf s) :
    MemWf (State.writebackL1 s core f) := by
  unfold State.writebackL1
  with_reducible apply wf_foldl
  · assumption
  · intro a1
    intro a2
    intro h3
    with_reducible apply wf_State_writeback
    assumption

theorem wf_State_discardL1 (s : State) (core : Nat) (f : Nat → Bool) (h_s : MemWf s) :
    MemWf (State.discardL1 s core f) := by
  unfold State.discardL1
  with_reducible apply wf_foldl
  · assumption
  · intro a1
    intro a2
    intro h3
    with_reducible apply wf_State_discardLines
    assumption

theorem wf_State_sawVa (s : State) (t : Nat) (n : Need) (va : DWord) (len : Nat) (h_s : MemWf s) :
    MemWf (State.sawVa s t n va len) := by
  unfold State.sawVa
  split
  · with_reducible apply wf_foldl
    · assumption
    · intro a1
      intro a2
      intro h3
      with_reducible apply wf_State_homeRead
      assumption
  · assumption

theorem wf_State_pokeAll (s : State) (ls : List Nat) (bs : List Byte) (h_s : MemWf s) :
    MemWf (State.pokeAll s ls bs) := by
  unfold State.pokeAll
  with_reducible apply wf_foldl
  · assumption
  · intro a1
    intro a2
    intro h3
    with_reducible apply wf_State_setByte
    assumption

/-! ### Order -/

theorem wf_State_noteHint (s : State) (core loc hint : Nat) (h_s : MemWf s) :
    MemWf (State.noteHint s core loc hint) := by
  unfold State.noteHint
  with_reducible refine wf_ite (fun h1 => ?_) (fun h2 => ?_)
  · with_reducible apply wf_State_modCore
    assumption
  · assumption

theorem wf_State_makeRoom (s : State) (o : Nat) (h_s : MemWf s) :
    MemWf (State.makeRoom s o) := by
  unfold State.makeRoom
  with_reducible refine wf_ite (fun h1 => ?_) (fun h2 => ?_)
  · assumption
  · extract_lets x3
    clear_value x3
    split
    · with_reducible apply wf_State_discardLines
      with_reducible apply wf_State_writeback
      assumption
    · with_reducible apply wf_State_modCore
      with_reducible apply wf_State_dirSet
      assumption
    · assumption

theorem wf_State_fillLine (s : State) (core pa : Nat) (h_s : MemWf s) :
    MemWf (State.fillLine s core pa) := by
  unfold State.fillLine
  extract_lets x1 x2 x3
  clear_value x1
  clear_value x2
  have hx3 : MemWf x3 := by
    unfold x3
    with_reducible apply wf_State_makeRoom
    assumption
  clear_value x3
  with_reducible refine wf_ite (fun h4 => ?_) (fun h5 => ?_)
  · assumption
  · with_reducible apply wf_State_modCore
    assumption

theorem wf_State_setLocal (s : State) (core pa : Nat) (bs : List Byte) (h_s : MemWf s) :
    MemWf (State.setLocal s core pa bs) := by
  unfold State.setLocal
  with_reducible apply wf_foldl
  · assumption
  · intro a1
    intro a2
    intro h3
    with_reducible apply wf_State_modCore
    with_reducible apply wf_State_fillLine
    assumption

theorem wf_State_l1Read (s : State) (core loc : Nat) (h_s : MemWf s) :
    MemWf (State.l1Read s core loc) := by
  unfold State.l1Read
  with_reducible refine wf_ite (fun h1 => ?_) (fun h2 => ?_)
  · assumption
  · with_reducible refine wf_ite (fun h3 => ?_) (fun h4 => ?_)
    · with_reducible apply wf_State_dirRead
      with_reducible apply wf_State_makeRoom
      assumption
    · with_reducible apply wf_State_homeRead
      assumption

theorem wf_State_l1Write (s : State) (core loc : Nat) (h_s : MemWf s) :
    MemWf (State.l1Write s core loc) := by
  unfold State.l1Write
  with_reducible refine wf_ite (fun h1 => ?_) (fun h2 => ?_)
  · assumption
  · with_reducible apply wf_State_dirSet
    with_reducible apply wf_State_makeRoom
    assumption

theorem wf_State_readCopy (s : State) (core loc : Nat) (z0 : Attr) (h_s : MemWf s) :
    MemWf (State.readCopy s core loc z0) := by
  unfold State.readCopy
  split
  · with_reducible refine wf_ite (fun h1 => ?_) (fun h2 => ?_)
    · with_reducible apply wf_State_fillLine
      assumption
    · assumption
  · with_reducible apply wf_State_l1Read
    assumption
  · with_reducible refine wf_ite (fun h3 => ?_) (fun h4 => ?_)
    · assumption
    · with_reducible apply wf_State_homeRead
      assumption

theorem wf_State_fixReads (s : State) (core : Nat) (sel : Nat → Bool) (before loc len : Nat) (h_s : MemWf s) :
    MemWf (State.fixReads s core sel before loc len) := by
  unfold State.fixReads
  extract_lets x1
  clear_value x1
  with_reducible apply wf_lit
  assumption

theorem wf_State_fillAnswer (s : State) (access op : Nat) (bs : List Byte) (h_s : MemWf s) :
    MemWf (State.fillAnswer s access op bs) := by
  unfold State.fillAnswer
  with_reducible apply wf_lit
  assumption

theorem wf_State_bumpSeq (s : State) (core : Nat) (h_s : MemWf s) :
    MemWf (State.bumpSeq s core) := by
  unfold State.bumpSeq
  with_reducible apply wf_State_modCore
  assumption

theorem wf_State_push (s : State) (core tk loc : Nat) (attr : Attr) (after : Rels) (act : WriteAct) (h_s : MemWf s) :
    MemWf (State.push s core tk loc attr after act) := by
  unfold State.push
  extract_lets x1
  clear_value x1
  with_reducible apply wf_State_bumpSeq
  with_reducible apply wf_State_modCore
  with_reducible apply wf_State_nextId
  assumption

theorem wf_State_pend (s : State) (core tk loc : Nat) (attr : Attr) (whole : Bool) (bs : List Byte) (h_s : MemWf s) :
    MemWf (State.pend s core tk loc attr whole bs) := by
  unfold State.pend
  with_reducible apply wf_foldl
  · assumption
  · intro a1
    intro a2
    intro h3
    with_reducible apply wf_State_push
    assumption

theorem wf_State_dropCode (s : State) (sel : Nat → Bool) (f : Nat → Bool) (h_s : MemWf s) :
    MemWf (State.dropCode s sel f) := by
  unfold State.dropCode
  with_reducible apply wf_lit
  assumption

theorem wf_State_putAttr (s : State) (core : Nat) (attr : Attr) (loc : Nat) (bs : List Byte) (h_s : MemWf s) :
    MemWf (State.putAttr s core attr loc bs) := by
  unfold State.putAttr
  split
  · with_reducible apply wf_State_setLocal
    assumption
  · with_reducible refine wf_ite (fun h1 => ?_) (fun h2 => ?_)
    · with_reducible apply wf_State_put
      assumption
    · with_reducible apply wf_State_l1Write
      with_reducible apply wf_State_put
      assumption
  · with_reducible apply wf_State_put
    assumption

theorem wf_State_atomStep (s : State) (core : Nat) (w : PendWrite) (op : AtomOp) (d e : Word) (access : Nat) (h_s : MemWf s) :
    MemWf (State.atomStep s core w op d e access) := by
  unfold State.atomStep
  extract_lets x1 x2 x3
  have hx1 : MemWf x1 := by
    unfold x1
    with_reducible refine wf_ite (fun h4 => ?_) (fun h5 => ?_)
    · with_reducible apply wf_State_fillLine
      assumption
    · assumption
  clear_value x1
  clear_value x2
  have hx3 : MemWf x3 := by
    unfold x3
    split
    · with_reducible refine wf_ite (fun h6 => ?_) (fun h7 => ?_)
      · assumption
      · with_reducible apply wf_State_homeRead
        assumption
    · with_reducible apply wf_State_putAttr
      assumption
  clear_value x3
  with_reducible apply wf_State_fillAnswer
  assumption

theorem wf_State_actWrite (s : State) (core : Nat) (w : PendWrite) (h_s : MemWf s) :
    MemWf (State.actWrite s core w) := by
  unfold State.actWrite
  split
  · with_reducible apply wf_State_putAttr
    assumption
  · with_reducible apply wf_State_dropCode
    assumption
  · with_reducible apply wf_State_atomStep
    assumption
  · with_reducible apply wf_State_modGroup
    assumption
  · assumption

theorem wf_State_performWrite (s : State) (core : Nat) (w : PendWrite) (h_s : MemWf s) :
    MemWf (State.performWrite s core w) := by
  unfold State.performWrite
  extract_lets x1 x2
  have hx1 : MemWf x1 := by
    unfold x1
    with_reducible apply wf_State_fixReads
    assumption
  clear_value x1
  clear_value x2
  with_reducible apply wf_State_modCore
  with_reducible apply wf_State_actWrite
  assumption

theorem wf_State_actNow (s : State) (core : Nat) (w : PendWrite) (h_s : MemWf s) :
    MemWf (State.actNow s core w) := by
  unfold State.actNow
  extract_lets x1
  clear_value x1
  with_reducible refine wf_ite (fun h2 => ?_) (fun h3 => ?_)
  · with_reducible apply wf_State_performWrite
    assumption
  · assumption

theorem wf_State_actNew (t : State) (core : Nat) (s : State) (h_t : MemWf t) (h_s : MemWf s) :
    MemWf (State.actNew t core s) := by
  unfold State.actNew
  with_reducible apply wf_foldl
  · assumption
  · intro a1
    intro a2
    intro h3
    with_reducible apply wf_State_actNow
    assumption

theorem wf_State_store (s : State) (core tk : Nat) (loc : Nat) (attr : Attr) (whole : Bool) (bs : List Byte) (h_s : MemWf s) :
    MemWf (State.store s core tk loc attr whole bs) := by
  unfold State.store
  with_reducible apply wf_State_actNew
  · with_reducible apply wf_State_pend
    assumption
  · assumption

theorem wf_State_storeCode (s : State) (core tk scope loc : Nat) (h_s : MemWf s) :
    MemWf (State.storeCode s core tk scope loc) := by
  unfold State.storeCode
  with_reducible apply wf_State_actNew
  · with_reducible apply wf_State_push
    assumption
  · assumption

theorem wf_State_storeSem (s : State) (core g : Nat) (tks : List Nat) (o : SemOp) (h_s : MemWf s) :
    MemWf (State.storeSem s core g tks o) := by
  unfold State.storeSem
  with_reducible apply wf_State_actNew
  · with_reducible apply wf_State_push
    assumption
  · assumption

/-! ### TxRecords -/

theorem wf_State_modTx (s : State) (h : Word) (f : Tx → Tx) (h_s : MemWf s) :
    MemWf (State.modTx s h f) := by
  unfold State.modTx
  with_reducible apply wf_lit
  assumption

theorem wf_State_dropTx (s : State) (h : Word) (h_s : MemWf s) :
    MemWf (State.dropTx s h) := by
  unfold State.dropTx
  with_reducible apply wf_lit
  assumption

theorem wf_State_txSend (s : State) (h : Word) (target : Nat) (m : Nat → Msg) (h_s : MemWf s) :
    MemWf (State.txSend s h target m) := by
  unfold State.txSend
  with_reducible apply wf_State_fabSend
  extract_lets x1
  have hx1 : MemWf x1 := by
    unfold x1
    with_reducible apply wf_State_nextId
    assumption
  clear_value x1
  with_reducible apply wf_lit
  assumption

theorem wf_State_setPart (s : State) (coord : Nat) (h : Word) (p : Option Part) (h_s : MemWf s) :
    MemWf (State.setPart s coord h p) := by
  unfold State.setPart
  extract_lets x1 x2
  clear_value x1
  clear_value x2
  with_reducible apply wf_lit
  assumption

theorem wf_State_closePart (s : State) (coord : Nat) (h : Word) (h_s : MemWf s) :
    MemWf (State.closePart s coord h) := by
  unfold State.closePart
  extract_lets x1 x2
  have hx1 : MemWf x1 := by
    unfold x1
    with_reducible apply wf_State_setPart
    assumption
  clear_value x1
  clear_value x2
  with_reducible apply wf_lit
  assumption

theorem wf_State_endRecord (s : State) (t : Tx) (h_s : MemWf s) :
    MemWf (State.endRecord s t) := by
  unfold State.endRecord
  with_reducible apply wf_State_dropTx
  with_reducible apply wf_lit
  assumption

theorem wf_State_discardTx (s : State) (t : Tx) (h_s : MemWf s) :
    MemWf (State.discardTx s t) := by
  unfold State.discardTx
  extract_lets x1
  have hx1 : MemWf x1 := by
    unfold x1
    with_reducible apply wf_State_closePart
    assumption
  clear_value x1
  with_reducible refine wf_ite (fun h2 => ?_) (fun h3 => ?_)
  · with_reducible apply wf_State_dropTx
    assumption
  · with_reducible apply wf_foldl
    · with_reducible apply wf_State_modTx
      assumption
    · intro a4
      intro a5
      intro h6
      with_reducible apply wf_State_txSend
      assumption

theorem wf_State_abortTx (s : State) (tk : Nat) (h_s : MemWf s) :
    MemWf (State.abortTx s tk) := by
  unfold State.abortTx
  split
  · assumption
  · with_reducible apply wf_State_discardTx
    assumption

theorem wf_State_endTx (s : State) (tk : Nat) (h_s : MemWf s) :
    MemWf (State.endTx s tk) := by
  unfold State.endTx
  extract_lets x1 x2
  have hx1 : MemWf x1 := by
    unfold x1
    with_reducible apply wf_foldl
    · assumption
    · intro a3
      intro a4
      intro h5
      with_reducible apply wf_State_discardTx
      assumption
  clear_value x1
  clear_value x2
  with_reducible apply wf_lit
  assumption

/-! ### Traps -/

theorem wf_State_startRun (s : State) (core group : Nat) (lanes : List (Nat × Nat)) (pc : DWord) (count : Nat) (flights : List Flight) (h_s : MemWf s) :
    MemWf (State.startRun s core group lanes pc count flights) := by
  unfold State.startRun
  extract_lets x1
  have hx1 : MemWf x1 := by
    unfold x1
    with_reducible apply wf_State_nextId
    assumption
  clear_value x1
  with_reducible apply wf_lit
  assumption

theorem wf_State_joinHeld (s : State) (group : Nat) (pc : DWord) (l : Nat × Nat) (bins : List Bin) (h_s : MemWf s) :
    MemWf (State.joinHeld s group pc l bins) := by
  unfold State.joinHeld
  split
  · split
    · with_reducible apply wf_State_modRun
      assumption
    · assumption
  · assumption

theorem wf_State_fileInBin (s : State) (core group : Nat) (l : Nat × Nat) (pc : DWord) (h_s : MemWf s) :
    OptWf (State.fileInBin s core group l pc) := by
  unfold State.fileInBin
  extract_lets x1
  clear_value x1
  split
  · refine wf_some ?_
    with_reducible apply wf_State_setCore
    with_reducible apply wf_State_joinHeld
    assumption
  · with_reducible refine wf_iteN (fun h2 => ?_) (fun h3 => ?_)
    · refine wf_some ?_
      with_reducible apply wf_State_setCore
      assumption
    · exact wf_none

theorem wf_State_fileSome (s : State) (core group : Nat) (z0 : List (Nat × Nat × DWord)) (h_s : MemWf s) :
    MemWf (State.fileSome s core group z0).1 := by
  induction z0 generalizing s with
  | nil => exact h_s
  | cons q rest ih =>
    obtain ⟨lane, tk, pc⟩ := q
    simp only [State.fileSome]
    have h1 := wf_State_modThread s tk (fun t => { t with pc := pc }) h_s
    split
    · rename_i s' e
      exact ih _ (wf_get e (wf_State_fileInBin _ _ _ _ _ h1))
    · exact ih _ h1

theorem wf_State_fileAll (s : State) (core group : Nat) (ls : List (Nat × Nat × DWord)) (h_s : MemWf s) :
    MemWf (State.fileAll s core group ls) := by
  unfold State.fileAll
  extract_lets x1
  have hx1 : MemWf x1.1 := by
    unfold x1
    with_reducible apply wf_State_fileSome
    assumption
  clear_value x1
  with_reducible apply wf_foldl
  · assumption
  · intro a2
    intro a3
    intro h4
    with_reducible apply wf_State_modCore
    with_reducible apply wf_State_startRun
    assumption

theorem wf_State_release (s : State) (tk : Nat) (h_s : MemWf s) :
    MemWf (State.release s tk) := by
  unfold State.release
  extract_lets x1 x2
  clear_value x1
  clear_value x2
  with_reducible refine wf_ite (fun h3 => ?_) (fun h4 => ?_)
  · with_reducible apply wf_State_modThread
    assumption
  · with_reducible refine wf_ite (fun h5 => ?_) (fun h6 => ?_)
    · with_reducible apply wf_State_modThread
      assumption
    · with_reducible refine wf_ite (fun h7 => ?_) (fun h8 => ?_)
      · with_reducible apply wf_State_modCore
        with_reducible apply wf_State_modThread
        assumption
      · with_reducible apply wf_State_fileAll
        with_reducible apply wf_State_modThread
        assumption

theorem wf_State_barCheck (s : State) (g : Nat) (h_s : MemWf s) :
    MemWf (State.barCheck s g) := by
  unfold State.barCheck
  extract_lets x1
  clear_value x1
  with_reducible refine wf_ite (fun h2 => ?_) (fun h3 => ?_)
  · assumption
  · with_reducible apply wf_foldl
    · assumption
    · intro a4
      intro a5
      intro h6
      with_reducible apply wf_State_release
      assumption

theorem wf_State_withdrawSwap (s : State) (g : Nat) (h_s : MemWf s) :
    MemWf (State.withdrawSwap s g) := by
  unfold State.withdrawSwap
  extract_lets x1 x2 x3
  have hx1 : MemWf x1 := by
    unfold x1
    with_reducible apply wf_State_modGroup
    assumption
  clear_value x1
  have hx2 : MemWf x2 := by
    unfold x2
    with_reducible apply wf_lit
    assumption
  clear_value x2
  have hx3 : MemWf x3 := by
    unfold x3
    with_reducible apply wf_foldl
    · assumption
    · intro a4
      intro a5
      intro h6
      with_reducible apply wf_State_modThread
      assumption
  clear_value x3
  with_reducible apply wf_foldl
  · assumption
  · intro a7
    intro a8
    intro h9
    with_reducible apply wf_State_release
    assumption

theorem wf_State_noteLate (s : State) (r : Run) (ways : List (Nat × Way)) (h_s : MemWf s) :
    MemWf (State.noteLate s r ways) := by
  unfold State.noteLate
  extract_lets x1
  clear_value x1
  with_reducible refine wf_ite (fun h2 => ?_) (fun h3 => ?_)
  · with_reducible apply wf_State_modCore
    assumption
  · assumption

theorem wf_State_dissolve (s : State) (r : Run) (ways : List (Nat × Way)) (h_s : MemWf s) :
    MemWf (State.dissolve s r ways) := by
  unfold State.dissolve
  extract_lets x1 x2 x3 x4
  have hx1 : MemWf x1 := by
    unfold x1
    with_reducible apply wf_State_dropRun
    with_reducible apply wf_State_noteLate
    with_reducible apply wf_State_landAll
    assumption
  clear_value x1
  clear_value x2
  have hx3 : MemWf x3 := by
    unfold x3
    with_reducible apply wf_foldl
    · assumption
    · intro a5
      intro a6
      intro h7
      split
      · with_reducible apply wf_State_modThread
        assumption
      · assumption
  clear_value x3
  have hx4 : MemWf x4 := by
    unfold x4
    with_reducible refine wf_ite (fun h8 => ?_) (fun h9 => ?_)
    · with_reducible apply wf_State_withdrawSwap
      assumption
    · assumption
  clear_value x4
  with_reducible refine wf_ite (fun h10 => ?_) (fun h11 => ?_)
  · with_reducible apply wf_State_barCheck
    with_reducible apply wf_State_fileAll
    assumption
  · with_reducible apply wf_State_barCheck
    with_reducible apply wf_foldl
    · assumption
    · intro a12
      intro a13
      intro h14
      with_reducible apply wf_State_modThread
      assumption

theorem wf_State_fenceEffect (s : State) (core : Nat) (f : PendFence) (h_s : MemWf s) :
    MemWf (State.fenceEffect s core f) := by
  unfold State.fenceEffect
  with_reducible refine wf_ite (fun h1 => ?_) (fun h2 => ?_)
  · assumption
  · extract_lets x3
    have hx3 : MemWf x3 := by
      unfold x3
      with_reducible apply wf_State_writebackL1
      assumption
    clear_value x3
    with_reducible refine wf_ite (fun h4 => ?_) (fun h5 => ?_)
    · assumption
    · with_reducible apply wf_State_discardL1
      assumption

theorem wf_State_settleFences (s : State) (core tk : Nat) (h_s : MemWf s) :
    MemWf (State.settleFences s core tk) := by
  unfold State.settleFences
  extract_lets x1 x2 x3
  have hx1 : MemWf x1 := by
    unfold x1
    with_reducible refine wf_ite (fun h4 => ?_) (fun h5 => ?_)
    · with_reducible apply wf_State_askFor
      assumption
    · assumption
  clear_value x1
  clear_value x2
  clear_value x3
  with_reducible refine wf_ite (fun h6 => ?_) (fun h7 => ?_)
  · assumption
  · with_reducible apply wf_State_modThread
    with_reducible apply wf_foldl
    · assumption
    · intro a8
      intro a9
      intro h10
      with_reducible apply wf_State_fenceEffect
      assumption

theorem wf_State_settleDrain (s : State) (tk : Nat) (h_s : MemWf s) :
    MemWf (State.settleDrain s tk) := by
  unfold State.settleDrain
  split
  · assumption
  · with_reducible refine wf_ite (fun h1 => ?_) (fun h2 => ?_)
    · with_reducible apply wf_State_modThread
      assumption
    · assumption

theorem wf_State_settleThreads (s : State) (r : Run) (h_s : MemWf s) :
    MemWf (State.settleThreads s r) := by
  unfold State.settleThreads
  with_reducible apply wf_foldl
  · assumption
  · intro a1
    intro a2
    intro h3
    with_reducible apply wf_State_settleDrain
    with_reducible apply wf_State_settleFences
    assumption

theorem wf_State_settleRun (s : State) (r : Run) (h_s : MemWf s) :
    MemWf (State.settleRun s r) := by
  unfold State.settleRun
  extract_lets x1
  have hx1 : MemWf x1 := by
    unfold x1
    with_reducible apply wf_State_settleThreads
    assumption
  clear_value x1
  split
  · assumption
  · with_reducible refine wf_ite (fun h2 => ?_) (fun h3 => ?_)
    · with_reducible apply wf_State_dissolve
      assumption
    · assumption

theorem wf_State_settleCore (s : State) (core : Nat) (h_s : MemWf s) :
    MemWf (State.settleCore s core) := by
  unfold State.settleCore
  extract_lets x1
  have hx1 : MemWf x1 := by
    unfold x1
    with_reducible apply wf_foldl
    · assumption
    · intro a2
      intro a3
      intro h4
      with_reducible apply wf_State_settleFences
      assumption
  clear_value x1
  with_reducible apply wf_foldl
  · assumption
  · intro a5
    intro a6
    intro h7
    split
    · with_reducible apply wf_State_settleRun
      assumption
    · assumption

theorem wf_State_raise (s : State) (t : Nat) (va : DWord) (k : AccKind) (h_s : MemWf s) :
    MemWf (State.raise s t va k).1 := by
  unfold State.raise
  split
  · dsimp only
    assumption
  · with_reducible refine wf_iteP (fun h1 => ?_) (fun h2 => ?_)
    · dsimp only
      with_reducible apply wf_lit
      with_reducible apply wf_State_nextId
      assumption
    · dsimp only
      assumption

theorem wf_State_hold (s : State) (run : Nat) (h : Hold) (h_s : MemWf s) :
    MemWf (State.hold s run h) := by
  unfold State.hold
  extract_lets x1
  have hx1 : MemWf x1 := by
    unfold x1
    split
    · with_reducible apply wf_State_askLine
      assumption
    · with_reducible apply wf_State_askCopy
      assumption
    · assumption
  clear_value x1
  with_reducible apply wf_State_leaveIssue
  with_reducible apply wf_State_modRun
  assumption

theorem wf_State_holdPage (s : State) (run t : Nat) (va : DWord) (k : AccKind) (h_s : MemWf s) :
    MemWf (State.holdPage s run t va k) := by
  unfold State.holdPage
  extract_lets x1
  have hx1 : MemWf x1.1 := by
    unfold x1
    with_reducible apply wf_State_raise
    assumption
  clear_value x1
  split
  · with_reducible apply wf_State_hold
    assumption
  · with_reducible apply wf_State_hold
    assumption

theorem wf_State_endWait (s : State) (core run : Nat) (h_s : MemWf s) :
    MemWf (State.endWait s core run) := by
  unfold State.endWait
  extract_lets x1
  clear_value x1
  with_reducible apply wf_State_modCore
  with_reducible apply wf_lit
  assumption

theorem wf_State_endLaunch (s : State) (launch status gid : Nat) (detail : DWord) (h_s : MemWf s) :
    MemWf (State.endLaunch s launch status gid detail) := by
  unfold State.endLaunch
  with_reducible apply wf_State_modLaunch
  assumption

theorem wf_State_endGroupLaunch (s : State) (g status : Nat) (detail : DWord) (h_s : MemWf s) :
    MemWf (State.endGroupLaunch s g status detail) := by
  unfold State.endGroupLaunch
  with_reducible apply wf_State_endLaunch
  assumption

theorem wf_State_fatalCond (s : State) (q : Issue) (c : Cond) (h_s : MemWf s) :
    MemWf (State.fatalCond s q c) := by
  unfold State.fatalCond
  with_reducible apply wf_State_leaveIssue
  with_reducible apply wf_State_endWait
  with_reducible apply wf_State_endGroupLaunch
  assumption

theorem wf_State_leaveRun (s : State) (run : Nat) (lanes : List (Nat × Nat)) (h_s : MemWf s) :
    MemWf (State.leaveRun s run lanes) := by
  unfold State.leaveRun
  extract_lets x1
  have hx1 : MemWf x1 := by
    unfold x1
    with_reducible apply wf_State_modRun
    assumption
  clear_value x1
  split
  · with_reducible refine wf_ite (fun h2 => ?_) (fun h3 => ?_)
    · with_reducible apply wf_State_dropRun
      assumption
    · assumption
  · assumption

theorem wf_State_enterHandler (s : State) (q : Issue) (c : Cond) (r : Run) (handler : DWord) (bundle : BitVec 384) (ws : List (Nat × Byte)) (h_s : MemWf s) :
    MemWf (State.enterHandler s q c r handler bundle ws) := by
  unfold State.enterHandler
  extract_lets x1 x2 x3 x4 x5 x6 x7 x8 x9 x10 x11
  clear_value x1
  clear_value x2
  clear_value x3
  clear_value x4
  have hx5 : MemWf x5 := by
    unfold x5
    with_reducible apply wf_foldl
    · assumption
    · intro a12
      intro a13
      intro h14
      with_reducible apply wf_State_put
      assumption
  clear_value x5
  have hx6 : MemWf x6 := by
    unfold x6
    with_reducible apply wf_foldl
    · assumption
    · intro a15
      intro a16
      intro h17
      with_reducible apply wf_State_markRange
      assumption
  clear_value x6
  clear_value x7
  clear_value x8
  have hx9 : MemWf x9 := by
    unfold x9
    with_reducible apply wf_State_nextId
    assumption
  clear_value x9
  have hx10 : MemWf x10 := by
    unfold x10
    with_reducible apply wf_lit
    assumption
  clear_value x10
  have hx11 : MemWf x11 := by
    unfold x11
    with_reducible apply wf_foldl
    · assumption
    · intro a18
      intro a19
      intro h20
      with_reducible apply wf_State_modThread
      assumption
  clear_value x11
  with_reducible apply wf_State_leaveIssue
  with_reducible apply wf_State_startRun
  with_reducible apply wf_State_endWait
  with_reducible apply wf_State_leaveRun
  assumption

theorem wf_State_clearService (s : State) (core : Nat) (h_s : MemWf s) :
    MemWf (State.clearService s core) := by
  unfold State.clearService
  extract_lets x1
  have hx1 : MemWf x1 := by
    unfold x1
    with_reducible apply wf_foldl
    · assumption
    · intro a2
      intro a3
      intro h4
      with_reducible apply wf_State_endTx
      assumption
  clear_value x1
  with_reducible apply wf_State_modCore
  with_reducible apply wf_lit
  assumption

theorem wf_State_noteShadow (s : State) (tk : Nat) (h_s : MemWf s) :
    MemWf (State.noteShadow s tk) := by
  unfold State.noteShadow
  with_reducible refine wf_ite (fun h1 => ?_) (fun h2 => ?_)
  · with_reducible apply wf_State_modGroup
    assumption
  · assumption

theorem wf_State_serviceFault (s : State) (core : Nat) (h_s : MemWf s) :
    MemWf (State.serviceFault s core) := by
  unfold State.serviceFault
  extract_lets x1 x2
  clear_value x1
  have hx2 : MemWf x2 := by
    unfold x2
    with_reducible apply wf_State_send
    with_reducible apply wf_State_clearService
    with_reducible apply wf_State_leaveIssue
    assumption
  clear_value x2
  split
  · with_reducible apply wf_State_leaveIssue
    assumption
  · with_reducible apply wf_foldl
    · assumption
    · intro a3
      intro a4
      intro h5
      with_reducible apply wf_State_noteShadow
      with_reducible apply wf_State_release
      with_reducible apply wf_State_setThread
      assumption

theorem wf_State_handlerBound (s : State) (q : Issue) (c : Cond) (h_s : MemWf s) :
    MemWf (State.handlerBound s q c) := by
  unfold State.handlerBound
  with_reducible refine wf_ite (fun h1 => ?_) (fun h2 => ?_)
  · with_reducible apply wf_State_serviceFault
    assumption
  · with_reducible refine wf_ite (fun h3 => ?_) (fun h4 => ?_)
    · with_reducible apply wf_State_fatalCond
      assumption
    · extract_lets x5
      clear_value x5
      split
      · with_reducible refine wf_ite (fun h6 => ?_) (fun h7 => ?_)
        · with_reducible apply wf_State_fatalCond
          assumption
        · split
          · with_reducible apply wf_State_hold
            assumption
          · split
            · split
              · with_reducible apply wf_State_hold
                assumption
              · with_reducible apply wf_State_enterHandler
                with_reducible refine wf_ite (fun h8 => ?_) (fun h9 => ?_)
                · with_reducible apply wf_State_modGroup
                  assumption
                · assumption
            · with_reducible refine wf_ite (fun h10 => ?_) (fun h11 => ?_)
              · with_reducible refine wf_ite (fun h12 => ?_) (fun h13 => ?_)
                · with_reducible apply wf_State_leaveIssue
                  with_reducible apply wf_State_endGroupLaunch
                  assumption
                · with_reducible apply wf_State_holdPage
                  assumption
              · with_reducible apply wf_State_leaveIssue
                with_reducible apply wf_State_endGroupLaunch
                assumption
      · with_reducible apply wf_State_fatalCond
        assumption

theorem wf_State_takeCond (s : State) (q : Issue) (c : Cond) (h_s : MemWf s) :
    MemWf (State.takeCond s q c) := by
  unfold State.takeCond
  with_reducible refine wf_ite (fun h1 => ?_) (fun h2 => ?_)
  · extract_lets x3
    clear_value x3
    with_reducible refine wf_ite (fun h4 => ?_) (fun h5 => ?_)
    · with_reducible apply wf_State_handlerBound
      assumption
    · with_reducible apply wf_State_holdPage
      assumption
  · with_reducible apply wf_State_handlerBound
    assumption

theorem wf_slotCond (s : State) (cond : Issue → Option Cond) (effect : Issue → Out) (h_s : MemWf s) (h_effect : ∀ (a0 : Issue), OutWf (effect a0)) :
    OutWf (slotCond s cond effect) := by
  unfold slotCond
  with_reducible apply wf_withIssue
  · assumption
  · intro a1
    with_reducible refine wf_iteO (fun h2 => ?_) (fun h3 => ?_)
    · with_reducible apply h_effect
    · split
      · with_reducible refine wf_next ?_
        with_reducible apply wf_State_takeCond
        assumption
      · with_reducible apply h_effect

/-! ### Operands -/

theorem wf_framed (s : State) (i : Instr) (effect : Issue → State) (h_s : MemWf s) (h_effect : ∀ (a0 : Issue), MemWf (effect a0)) :
    OutWf (framed s i effect) := by
  unfold framed
  with_reducible apply wf_slotCond
  · assumption
  · intro a1
    with_reducible refine wf_next ?_
    with_reducible apply h_effect

/-! ### Scalar -/

theorem wf_aluRR (lat : Nat) (f : DWord → DWord → DWord) (xd xa xb : BitVec 4) (g : Guard) (s : State) (h_s : MemWf s) :
    OutWf (aluRR lat f xd xa xb g s) := by
  unfold aluRR
  with_reducible apply wf_slotNext
  · assumption
  · intro a1
    with_reducible apply wf_State_flyX
    assumption

theorem wf_aluRI (lat : Nat) (f : DWord → DWord → DWord) (xd xa : BitVec 4) (imm : BitVec 9) (g : Guard) (s : State) (h_s : MemWf s) :
    OutWf (aluRI lat f xd xa imm g s) := by
  unfold aluRI
  with_reducible apply wf_slotNext
  · assumption
  · intro a1
    with_reducible apply wf_State_flyX
    assumption

theorem wf_aluSh (f : DWord → DWord → DWord) (xd xa : BitVec 4) (imm : BitVec 6) (g : Guard) (s : State) (h_s : MemWf s) :
    OutWf (aluSh f xd xa imm g s) := by
  unfold aluSh
  with_reducible apply wf_slotNext
  · assumption
  · intro a1
    with_reducible apply wf_State_flyX
    assumption

theorem wf_aluR (f : DWord → DWord) (xd xa : BitVec 4) (g : Guard) (s : State) (h_s : MemWf s) :
    OutWf (aluR f xd xa g s) := by
  unfold aluR
  with_reducible apply wf_slotNext
  · assumption
  · intro a1
    with_reducible apply wf_State_flyX
    assumption

theorem wf_cmpRR (f : DWord → DWord → Bool) (pd xa xb : BitVec 4) (g : Guard) (s : State) (h_s : MemWf s) :
    OutWf (cmpRR f pd xa xb g s) := by
  unfold cmpRR
  with_reducible apply wf_slotNext
  · assumption
  · intro a1
    with_reducible apply wf_State_flyP
    assumption

theorem wf_cmpRI (f : DWord → DWord → Bool) (pd xa : BitVec 4) (imm : BitVec 9) (g : Guard) (s : State) (h_s : MemWf s) :
    OutWf (cmpRI f pd xa imm g s) := by
  unfold cmpRI
  with_reducible apply wf_slotNext
  · assumption
  · intro a1
    with_reducible apply wf_State_flyP
    assumption

theorem wf_execAdd (xd xa xb : BitVec 4) (g : Guard) (s : State) (h_s : MemWf s) :
    OutWf (execAdd xd xa xb g s) := by
  unfold execAdd
  with_reducible apply wf_aluRR
  assumption

theorem wf_execSub (xd xa xb : BitVec 4) (g : Guard) (s : State) (h_s : MemWf s) :
    OutWf (execSub xd xa xb g s) := by
  unfold execSub
  with_reducible apply wf_aluRR
  assumption

theorem wf_execMul (xd xa xb : BitVec 4) (g : Guard) (s : State) (h_s : MemWf s) :
    OutWf (execMul xd xa xb g s) := by
  unfold execMul
  with_reducible apply wf_aluRR
  assumption

theorem wf_execMulh (xd xa xb : BitVec 4) (g : Guard) (s : State) (h_s : MemWf s) :
    OutWf (execMulh xd xa xb g s) := by
  unfold execMulh
  with_reducible apply wf_aluRR
  assumption

theorem wf_execMulhu (xd xa xb : BitVec 4) (g : Guard) (s : State) (h_s : MemWf s) :
    OutWf (execMulhu xd xa xb g s) := by
  unfold execMulhu
  with_reducible apply wf_aluRR
  assumption

theorem wf_execMin (xd xa xb : BitVec 4) (g : Guard) (s : State) (h_s : MemWf s) :
    OutWf (execMin xd xa xb g s) := by
  unfold execMin
  with_reducible apply wf_aluRR
  assumption

theorem wf_execMax (xd xa xb : BitVec 4) (g : Guard) (s : State) (h_s : MemWf s) :
    OutWf (execMax xd xa xb g s) := by
  unfold execMax
  with_reducible apply wf_aluRR
  assumption

theorem wf_execMinu (xd xa xb : BitVec 4) (g : Guard) (s : State) (h_s : MemWf s) :
    OutWf (execMinu xd xa xb g s) := by
  unfold execMinu
  with_reducible apply wf_aluRR
  assumption

theorem wf_execMaxu (xd xa xb : BitVec 4) (g : Guard) (s : State) (h_s : MemWf s) :
    OutWf (execMaxu xd xa xb g s) := by
  unfold execMaxu
  with_reducible apply wf_aluRR
  assumption

theorem wf_execAnd (xd xa xb : BitVec 4) (g : Guard) (s : State) (h_s : MemWf s) :
    OutWf (execAnd xd xa xb g s) := by
  unfold execAnd
  with_reducible apply wf_aluRR
  assumption

theorem wf_execOr (xd xa xb : BitVec 4) (g : Guard) (s : State) (h_s : MemWf s) :
    OutWf (execOr xd xa xb g s) := by
  unfold execOr
  with_reducible apply wf_aluRR
  assumption

theorem wf_execXor (xd xa xb : BitVec 4) (g : Guard) (s : State) (h_s : MemWf s) :
    OutWf (execXor xd xa xb g s) := by
  unfold execXor
  with_reducible apply wf_aluRR
  assumption

theorem wf_execAndn (xd xa xb : BitVec 4) (g : Guard) (s : State) (h_s : MemWf s) :
    OutWf (execAndn xd xa xb g s) := by
  unfold execAndn
  with_reducible apply wf_aluRR
  assumption

theorem wf_execSll (xd xa xb : BitVec 4) (g : Guard) (s : State) (h_s : MemWf s) :
    OutWf (execSll xd xa xb g s) := by
  unfold execSll
  with_reducible apply wf_aluRR
  assumption

theorem wf_execSrl (xd xa xb : BitVec 4) (g : Guard) (s : State) (h_s : MemWf s) :
    OutWf (execSrl xd xa xb g s) := by
  unfold execSrl
  with_reducible apply wf_aluRR
  assumption

theorem wf_execSra (xd xa xb : BitVec 4) (g : Guard) (s : State) (h_s : MemWf s) :
    OutWf (execSra xd xa xb g s) := by
  unfold execSra
  with_reducible apply wf_aluRR
  assumption

theorem wf_execSh1add (xd xa xb : BitVec 4) (g : Guard) (s : State) (h_s : MemWf s) :
    OutWf (execSh1add xd xa xb g s) := by
  unfold execSh1add
  with_reducible apply wf_aluRR
  assumption

theorem wf_execSh2add (xd xa xb : BitVec 4) (g : Guard) (s : State) (h_s : MemWf s) :
    OutWf (execSh2add xd xa xb g s) := by
  unfold execSh2add
  with_reducible apply wf_aluRR
  assumption

theorem wf_execSh3add (xd xa xb : BitVec 4) (g : Guard) (s : State) (h_s : MemWf s) :
    OutWf (execSh3add xd xa xb g s) := by
  unfold execSh3add
  with_reducible apply wf_aluRR
  assumption

theorem wf_execBext (xd xa xb : BitVec 4) (g : Guard) (s : State) (h_s : MemWf s) :
    OutWf (execBext xd xa xb g s) := by
  unfold execBext
  with_reducible apply wf_aluRR
  assumption

theorem wf_execBextu (xd xa xb : BitVec 4) (g : Guard) (s : State) (h_s : MemWf s) :
    OutWf (execBextu xd xa xb g s) := by
  unfold execBextu
  with_reducible apply wf_aluRR
  assumption

theorem wf_execAddImm (xd xa : BitVec 4) (imm : BitVec 9) (g : Guard) (s : State) (h_s : MemWf s) :
    OutWf (execAddImm xd xa imm g s) := by
  unfold execAddImm
  with_reducible apply wf_aluRI
  assumption

theorem wf_execMulImm (xd xa : BitVec 4) (imm : BitVec 9) (g : Guard) (s : State) (h_s : MemWf s) :
    OutWf (execMulImm xd xa imm g s) := by
  unfold execMulImm
  with_reducible apply wf_aluRI
  assumption

theorem wf_execAndImm (xd xa : BitVec 4) (imm : BitVec 9) (g : Guard) (s : State) (h_s : MemWf s) :
    OutWf (execAndImm xd xa imm g s) := by
  unfold execAndImm
  with_reducible apply wf_aluRI
  assumption

theorem wf_execOrImm (xd xa : BitVec 4) (imm : BitVec 9) (g : Guard) (s : State) (h_s : MemWf s) :
    OutWf (execOrImm xd xa imm g s) := by
  unfold execOrImm
  with_reducible apply wf_aluRI
  assumption

theorem wf_execXorImm (xd xa : BitVec 4) (imm : BitVec 9) (g : Guard) (s : State) (h_s : MemWf s) :
    OutWf (execXorImm xd xa imm g s) := by
  unfold execXorImm
  with_reducible apply wf_aluRI
  assumption

theorem wf_execSllImm (xd xa : BitVec 4) (imm : BitVec 6) (g : Guard) (s : State) (h_s : MemWf s) :
    OutWf (execSllImm xd xa imm g s) := by
  unfold execSllImm
  with_reducible apply wf_aluSh
  assumption

theorem wf_execSrlImm (xd xa : BitVec 4) (imm : BitVec 6) (g : Guard) (s : State) (h_s : MemWf s) :
    OutWf (execSrlImm xd xa imm g s) := by
  unfold execSrlImm
  with_reducible apply wf_aluSh
  assumption

theorem wf_execSraImm (xd xa : BitVec 4) (imm : BitVec 6) (g : Guard) (s : State) (h_s : MemWf s) :
    OutWf (execSraImm xd xa imm g s) := by
  unfold execSraImm
  with_reducible apply wf_aluSh
  assumption

theorem wf_execClz (xd xa : BitVec 4) (g : Guard) (s : State) (h_s : MemWf s) :
    OutWf (execClz xd xa g s) := by
  unfold execClz
  with_reducible apply wf_aluR
  assumption

theorem wf_execCtz (xd xa : BitVec 4) (g : Guard) (s : State) (h_s : MemWf s) :
    OutWf (execCtz xd xa g s) := by
  unfold execCtz
  with_reducible apply wf_aluR
  assumption

theorem wf_execPopc (xd xa : BitVec 4) (g : Guard) (s : State) (h_s : MemWf s) :
    OutWf (execPopc xd xa g s) := by
  unfold execPopc
  with_reducible apply wf_aluR
  assumption

theorem wf_execBins (xd xa xb : BitVec 4) (g : Guard) (s : State) (h_s : MemWf s) :
    OutWf (execBins xd xa xb g s) := by
  unfold execBins
  with_reducible apply wf_slotNext
  · assumption
  · intro a1
    with_reducible apply wf_State_flyX
    assumption

theorem wf_execCmpeq (pd xa xb : BitVec 4) (g : Guard) (s : State) (h_s : MemWf s) :
    OutWf (execCmpeq pd xa xb g s) := by
  unfold execCmpeq
  with_reducible apply wf_cmpRR
  assumption

theorem wf_execCmpne (pd xa xb : BitVec 4) (g : Guard) (s : State) (h_s : MemWf s) :
    OutWf (execCmpne pd xa xb g s) := by
  unfold execCmpne
  with_reducible apply wf_cmpRR
  assumption

theorem wf_execCmplt (pd xa xb : BitVec 4) (g : Guard) (s : State) (h_s : MemWf s) :
    OutWf (execCmplt pd xa xb g s) := by
  unfold execCmplt
  with_reducible apply wf_cmpRR
  assumption

theorem wf_execCmpltu (pd xa xb : BitVec 4) (g : Guard) (s : State) (h_s : MemWf s) :
    OutWf (execCmpltu pd xa xb g s) := by
  unfold execCmpltu
  with_reducible apply wf_cmpRR
  assumption

theorem wf_execCmple (pd xa xb : BitVec 4) (g : Guard) (s : State) (h_s : MemWf s) :
    OutWf (execCmple pd xa xb g s) := by
  unfold execCmple
  with_reducible apply wf_cmpRR
  assumption

theorem wf_execCmpleu (pd xa xb : BitVec 4) (g : Guard) (s : State) (h_s : MemWf s) :
    OutWf (execCmpleu pd xa xb g s) := by
  unfold execCmpleu
  with_reducible apply wf_cmpRR
  assumption

theorem wf_execCmpeqImm (pd xa : BitVec 4) (imm : BitVec 9) (g : Guard) (s : State) (h_s : MemWf s) :
    OutWf (execCmpeqImm pd xa imm g s) := by
  unfold execCmpeqImm
  with_reducible apply wf_cmpRI
  assumption

theorem wf_execCmpneImm (pd xa : BitVec 4) (imm : BitVec 9) (g : Guard) (s : State) (h_s : MemWf s) :
    OutWf (execCmpneImm pd xa imm g s) := by
  unfold execCmpneImm
  with_reducible apply wf_cmpRI
  assumption

theorem wf_execCmpltImm (pd xa : BitVec 4) (imm : BitVec 9) (g : Guard) (s : State) (h_s : MemWf s) :
    OutWf (execCmpltImm pd xa imm g s) := by
  unfold execCmpltImm
  with_reducible apply wf_cmpRI
  assumption

theorem wf_execCmpltuImm (pd xa : BitVec 4) (imm : BitVec 9) (g : Guard) (s : State) (h_s : MemWf s) :
    OutWf (execCmpltuImm pd xa imm g s) := by
  unfold execCmpltuImm
  with_reducible apply wf_cmpRI
  assumption

theorem wf_execCmpgtImm (pd xa : BitVec 4) (imm : BitVec 9) (g : Guard) (s : State) (h_s : MemWf s) :
    OutWf (execCmpgtImm pd xa imm g s) := by
  unfold execCmpgtImm
  with_reducible apply wf_cmpRI
  assumption

theorem wf_execCmpgtuImm (pd xa : BitVec 4) (imm : BitVec 9) (g : Guard) (s : State) (h_s : MemWf s) :
    OutWf (execCmpgtuImm pd xa imm g s) := by
  unfold execCmpgtuImm
  with_reducible apply wf_cmpRI
  assumption

theorem wf_execSel (xd pn : BitVec 4) (sense : Bool) (xa xb : BitVec 4) (g : Guard) (s : State) (h_s : MemWf s) :
    OutWf (execSel xd pn sense xa xb g s) := by
  unfold execSel
  with_reducible apply wf_slotNext
  · assumption
  · intro a1
    with_reducible apply wf_State_flyX
    assumption

theorem wf_execLimm (imm : BitVec 25) (s : State) (h_s : MemWf s) :
    OutWf (execLimm imm s) := by
  unfold execLimm
  with_reducible apply wf_slotNext
  · assumption
  · intro a1
    with_reducible apply wf_lit
    assumption

theorem wf_execAdr (xd : BitVec 4) (imm : BitVec 9) (g : Guard) (s : State) (h_s : MemWf s) :
    OutWf (execAdr xd imm g s) := by
  unfold execAdr
  with_reducible apply wf_slotNext
  · assumption
  · intro a1
    with_reducible apply wf_State_flyX
    assumption

theorem wf_execTgtLabel (bd : BitVec 3) (imm : BitVec 9) (g : Guard) (s : State) (h_s : MemWf s) :
    OutWf (execTgtLabel bd imm g s) := by
  unfold execTgtLabel
  with_reducible apply wf_slotNext
  · assumption
  · intro a1
    with_reducible apply wf_State_flyB
    assumption

theorem wf_execTgtReg (bd : BitVec 3) (xa : BitVec 4) (g : Guard) (s : State) (h_s : MemWf s) :
    OutWf (execTgtReg bd xa g s) := by
  unfold execTgtReg
  with_reducible apply wf_slotNext
  · assumption
  · intro a1
    with_reducible apply wf_State_flyB
    assumption

theorem wf_execGetsr (xd : BitVec 4) (sr : BitVec 9) (g : Guard) (s : State) (h_s : MemWf s) :
    OutWf (execGetsr xd sr g s) := by
  unfold execGetsr
  with_reducible apply wf_slotNext
  · assumption
  · intro a1
    with_reducible apply wf_State_flyX
    assumption

theorem wf_execSetsr (sr : BitVec 9) (xa : BitVec 4) (g : Guard) (s : State) (h_s : MemWf s) :
    OutWf (execSetsr sr xa g s) := by
  unfold execSetsr
  with_reducible apply wf_slotNext
  · assumption
  · intro a1
    extract_lets x2 x3
    clear_value x2
    clear_value x3
    with_reducible apply wf_State_fly
    assumption

theorem wf_execSemset (sem : BitVec 8) (xa : BitVec 4) (g : Guard) (s : State) (h_s : MemWf s) :
    OutWf (execSemset sem xa g s) := by
  unfold execSemset
  with_reducible apply wf_slotNext
  · assumption
  · intro a1
    split
    · assumption
    · with_reducible apply wf_State_storeSem
      assumption

theorem wf_execSemadd (sem : BitVec 8) (xa : BitVec 4) (g : Guard) (s : State) (h_s : MemWf s) :
    OutWf (execSemadd sem xa g s) := by
  unfold execSemadd
  with_reducible apply wf_slotNext
  · assumption
  · intro a1
    extract_lets x2
    clear_value x2
    with_reducible refine wf_ite (fun h3 => ?_) (fun h4 => ?_)
    · assumption
    · with_reducible apply wf_State_storeSem
      assumption

theorem wf_slotHeld (s : State) (h : Issue → Option Hold) (effect : Issue → State) (h_s : MemWf s) (h_effect : ∀ (a0 : Issue), MemWf (effect a0)) :
    OutWf (slotHeld s h effect) := by
  unfold slotHeld
  with_reducible apply wf_withIssue
  · assumption
  · intro a1
    with_reducible refine wf_iteO (fun h2 => ?_) (fun h3 => ?_)
    · with_reducible refine wf_next ?_
      with_reducible apply h_effect
    · split
      · with_reducible refine wf_next ?_
        with_reducible apply wf_State_hold
        assumption
      · with_reducible refine wf_next ?_
        with_reducible apply h_effect

theorem wf_execSemwait (sem : BitVec 8) (xa : BitVec 4) (g : Guard) (s : State) (h_s : MemWf s) :
    OutWf (execSemwait sem xa g s) := by
  unfold execSemwait
  with_reducible apply wf_slotHeld
  · assumption
  · intro a1
    assumption

theorem wf_execTagwa (xa : BitVec 4) (g : Guard) (s : State) (h_s : MemWf s) :
    OutWf (execTagwa xa g s) := by
  unfold execTagwa
  with_reducible apply wf_slotHeld
  · assumption
  · intro a1
    assumption

theorem wf_execTagwl (xa : BitVec 4) (g : Guard) (s : State) (h_s : MemWf s) :
    OutWf (execTagwl xa g s) := by
  unfold execTagwl
  with_reducible apply wf_slotHeld
  · assumption
  · intro a1
    assumption

theorem wf_execTagff (xd xa : BitVec 4) (g : Guard) (s : State) (h_s : MemWf s) :
    OutWf (execTagff xd xa g s) := by
  unfold execTagff
  with_reducible apply wf_slotNext
  · assumption
  · intro a1
    with_reducible apply wf_State_flyX
    assumption

theorem wf_execPswap (g : Guard) (s : State) (h_s : MemWf s) :
    OutWf (execPswap g s) := by
  unfold execPswap
  with_reducible apply wf_slotNext
  · assumption
  · intro a1
    split
    · assumption
    · with_reducible apply wf_State_modGroup
      assumption

theorem wf_execFtset (ft xa : BitVec 4) (g : Guard) (s : State) (h_s : MemWf s) :
    OutWf (execFtset ft xa g s) := by
  unfold execFtset
  with_reducible apply wf_slotNext
  · assumption
  · intro a1
    split
    · assumption
    · extract_lets x2
      clear_value x2
      with_reducible apply wf_State_modGroup
      assumption

theorem wf_execSqrd (xd : BitVec 4) (w : BitVec 3) (g : Guard) (s : State) (h_s : MemWf s) :
    OutWf (execSqrd xd w g s) := by
  unfold execSqrd
  with_reducible apply wf_slotNext
  · assumption
  · intro a1
    extract_lets x2 x3
    clear_value x2
    have hx3 : MemWf x3 := by
      unfold x3
      with_reducible apply wf_State_flyX
      assumption
    clear_value x3
    with_reducible refine wf_ite (fun h4 => ?_) (fun h5 => ?_)
    · with_reducible apply wf_State_modGroup
      assumption
    · assumption

/-! ### Vector -/

theorem wf_aSlot (lat : Nat) (i : Instr) (o : AOp) (f : Int → Int → Int → Int) (s : State) (h_s : MemWf s) :
    OutWf (aSlot lat i o f s) := by
  unfold aSlot
  with_reducible apply wf_framed
  · assumption
  · intro a1
    with_reducible apply wf_State_flyV
    assumption

theorem wf_aRaw (i : Instr) (o : AOp) (f : Word → Word → Word) (s : State) (h_s : MemWf s) :
    OutWf (aRaw i o f s) := by
  unfold aRaw
  with_reducible apply wf_framed
  · assumption
  · intro a1
    with_reducible apply wf_State_flyV
    assumption

theorem wf_aShift (i : Instr) (o : AOp) (f : Bool → Nat → Nat → Nat → Nat) (s : State) (h_s : MemWf s) :
    OutWf (aShift i o f s) := by
  unfold aShift
  with_reducible apply wf_framed
  · assumption
  · intro a1
    with_reducible apply wf_State_flyV
    assumption

theorem wf_aElem (i : Instr) (o : AOp) (f : Nat → Nat → Nat) (s : State) (h_s : MemWf s) :
    OutWf (aElem i o f s) := by
  unfold aElem
  with_reducible apply wf_framed
  · assumption
  · intro a1
    with_reducible apply wf_State_flyV
    assumption

theorem wf_execVadd (o : AOp) (s : State) (h_s : MemWf s) :
    OutWf (execVadd o s) := by
  unfold execVadd
  with_reducible apply wf_aSlot
  assumption

theorem wf_execVsub (o : AOp) (s : State) (h_s : MemWf s) :
    OutWf (execVsub o s) := by
  unfold execVsub
  with_reducible apply wf_aSlot
  assumption

theorem wf_execVmul (o : AOp) (s : State) (h_s : MemWf s) :
    OutWf (execVmul o s) := by
  unfold execVmul
  with_reducible apply wf_aSlot
  assumption

theorem wf_execVmad (o : AOp) (s : State) (h_s : MemWf s) :
    OutWf (execVmad o s) := by
  unfold execVmad
  with_reducible apply wf_aSlot
  assumption

theorem wf_execVmin (o : AOp) (s : State) (h_s : MemWf s) :
    OutWf (execVmin o s) := by
  unfold execVmin
  with_reducible apply wf_aSlot
  assumption

theorem wf_execVmax (o : AOp) (s : State) (h_s : MemWf s) :
    OutWf (execVmax o s) := by
  unfold execVmax
  with_reducible apply wf_aSlot
  assumption

theorem wf_execVabs (o : AOp) (s : State) (h_s : MemWf s) :
    OutWf (execVabs o s) := by
  unfold execVabs
  with_reducible apply wf_aSlot
  assumption

theorem wf_execVmulh (o : AOp) (s : State) (h_s : MemWf s) :
    OutWf (execVmulh o s) := by
  unfold execVmulh
  with_reducible apply wf_aSlot
  assumption

theorem wf_execVdot4 (o : AOp) (s : State) (h_s : MemWf s) :
    OutWf (execVdot4 o s) := by
  unfold execVdot4
  with_reducible apply wf_framed
  · assumption
  · intro a1
    with_reducible apply wf_State_flyV
    assumption

theorem wf_execVand (o : AOp) (s : State) (h_s : MemWf s) :
    OutWf (execVand o s) := by
  unfold execVand
  with_reducible apply wf_aRaw
  assumption

theorem wf_execVor (o : AOp) (s : State) (h_s : MemWf s) :
    OutWf (execVor o s) := by
  unfold execVor
  with_reducible apply wf_aRaw
  assumption

theorem wf_execVxor (o : AOp) (s : State) (h_s : MemWf s) :
    OutWf (execVxor o s) := by
  unfold execVxor
  with_reducible apply wf_aRaw
  assumption

theorem wf_execVandn (o : AOp) (s : State) (h_s : MemWf s) :
    OutWf (execVandn o s) := by
  unfold execVandn
  with_reducible apply wf_aRaw
  assumption

theorem wf_execVshl (o : AOp) (s : State) (h_s : MemWf s) :
    OutWf (execVshl o s) := by
  unfold execVshl
  with_reducible apply wf_aShift
  assumption

theorem wf_execVshr (o : AOp) (s : State) (h_s : MemWf s) :
    OutWf (execVshr o s) := by
  unfold execVshr
  with_reducible apply wf_aShift
  assumption

theorem wf_execVclz (o : AOp) (s : State) (h_s : MemWf s) :
    OutWf (execVclz o s) := by
  unfold execVclz
  with_reducible apply wf_aElem
  assumption

theorem wf_execVpopc (o : AOp) (s : State) (h_s : MemWf s) :
    OutWf (execVpopc o s) := by
  unfold execVpopc
  with_reducible apply wf_aElem
  assumption

theorem wf_execVmov (o : AOp) (s : State) (h_s : MemWf s) :
    OutWf (execVmov o s) := by
  unfold execVmov
  with_reducible apply wf_framed
  · assumption
  · intro a1
    with_reducible apply wf_State_flyV
    assumption

theorem wf_qSlot (i : Instr) (o : QOp) (f : Int → Int → Bool) (ff : Machine.Num → Machine.Num → Bool) (any : Bool) (s : State) (h_s : MemWf s) :
    OutWf (qSlot i o f ff any s) := by
  unfold qSlot
  with_reducible apply wf_framed
  · assumption
  · intro a1
    with_reducible refine wf_ite (fun h2 => ?_) (fun h3 => ?_)
    · extract_lets x4 x5
      clear_value x4
      clear_value x5
      with_reducible apply wf_State_flyStatus
      with_reducible apply wf_State_flyP
      assumption
    · with_reducible apply wf_State_flyP
      assumption

theorem wf_execVcmpeq (o : QOp) (s : State) (h_s : MemWf s) :
    OutWf (execVcmpeq o s) := by
  unfold execVcmpeq
  with_reducible apply wf_qSlot
  assumption

theorem wf_execVcmpne (o : QOp) (s : State) (h_s : MemWf s) :
    OutWf (execVcmpne o s) := by
  unfold execVcmpne
  with_reducible apply wf_qSlot
  assumption

theorem wf_execVcmplt (o : QOp) (s : State) (h_s : MemWf s) :
    OutWf (execVcmplt o s) := by
  unfold execVcmplt
  with_reducible apply wf_qSlot
  assumption

theorem wf_execVcmple (o : QOp) (s : State) (h_s : MemWf s) :
    OutWf (execVcmple o s) := by
  unfold execVcmple
  with_reducible apply wf_qSlot
  assumption

theorem wf_execVsel (vd : BitVec 8) (pn : BitVec 4) (sense : Bool) (va vb : BitVec 8) (g : Guard) (s : State) (h_s : MemWf s) :
    OutWf (execVsel vd pn sense va vb g s) := by
  unfold execVsel
  with_reducible apply wf_framed
  · assumption
  · intro a1
    with_reducible apply wf_State_flyV
    assumption

theorem wf_fSlot (i : Instr) (o : FOp) (f : Nat → Nat → Nat → Nat × Flags) (s : State) (h_s : MemWf s) :
    OutWf (fSlot i o f s) := by
  unfold fSlot
  with_reducible apply wf_framed
  · assumption
  · intro a1
    with_reducible apply wf_State_flyVF
    assumption

theorem wf_hSlot (i : Instr) (o : FOp) (f : Nat → Nat → Nat → Nat × Flags) (s : State) (h_s : MemWf s) :
    OutWf (hSlot i o f s) := by
  unfold hSlot
  with_reducible apply wf_framed
  · assumption
  · intro a1
    with_reducible apply wf_State_flyVF
    assumption

theorem wf_execVfadd (o : FOp) (s : State) (h_s : MemWf s) :
    OutWf (execVfadd o s) := by
  unfold execVfadd
  with_reducible apply wf_fSlot
  assumption

theorem wf_execVfsub (o : FOp) (s : State) (h_s : MemWf s) :
    OutWf (execVfsub o s) := by
  unfold execVfsub
  with_reducible apply wf_fSlot
  assumption

theorem wf_execVfmul (o : FOp) (s : State) (h_s : MemWf s) :
    OutWf (execVfmul o s) := by
  unfold execVfmul
  with_reducible apply wf_fSlot
  assumption

theorem wf_execVfma (o : FOp) (s : State) (h_s : MemWf s) :
    OutWf (execVfma o s) := by
  unfold execVfma
  with_reducible apply wf_fSlot
  assumption

theorem wf_execVfmin (o : FOp) (s : State) (h_s : MemWf s) :
    OutWf (execVfmin o s) := by
  unfold execVfmin
  with_reducible apply wf_fSlot
  assumption

theorem wf_execVfmax (o : FOp) (s : State) (h_s : MemWf s) :
    OutWf (execVfmax o s) := by
  unfold execVfmax
  with_reducible apply wf_fSlot
  assumption

theorem wf_execVhadd (o : FOp) (s : State) (h_s : MemWf s) :
    OutWf (execVhadd o s) := by
  unfold execVhadd
  with_reducible apply wf_hSlot
  assumption

theorem wf_execVhsub (o : FOp) (s : State) (h_s : MemWf s) :
    OutWf (execVhsub o s) := by
  unfold execVhsub
  with_reducible apply wf_hSlot
  assumption

theorem wf_execVhmul (o : FOp) (s : State) (h_s : MemWf s) :
    OutWf (execVhmul o s) := by
  unfold execVhmul
  with_reducible apply wf_hSlot
  assumption

theorem wf_execVhfma (o : FOp) (s : State) (h_s : MemWf s) :
    OutWf (execVhfma o s) := by
  unfold execVhfma
  with_reducible apply wf_hSlot
  assumption

theorem wf_execVbadd (o : FOp) (s : State) (h_s : MemWf s) :
    OutWf (execVbadd o s) := by
  unfold execVbadd
  with_reducible apply wf_hSlot
  assumption

theorem wf_execVbsub (o : FOp) (s : State) (h_s : MemWf s) :
    OutWf (execVbsub o s) := by
  unfold execVbsub
  with_reducible apply wf_hSlot
  assumption

theorem wf_execVbmul (o : FOp) (s : State) (h_s : MemWf s) :
    OutWf (execVbmul o s) := by
  unfold execVbmul
  with_reducible apply wf_hSlot
  assumption

theorem wf_execVbfma (o : FOp) (s : State) (h_s : MemWf s) :
    OutWf (execVbfma o s) := by
  unfold execVbfma
  with_reducible apply wf_hSlot
  assumption

theorem wf_execVfabs (vd va : BitVec 8) (g : Guard) (s : State) (h_s : MemWf s) :
    OutWf (execVfabs vd va g s) := by
  unfold execVfabs
  with_reducible apply wf_framed
  · assumption
  · intro a1
    with_reducible apply wf_State_flyV
    assumption

theorem wf_execVfneg (vd va : BitVec 8) (g : Guard) (s : State) (h_s : MemWf s) :
    OutWf (execVfneg vd va g s) := by
  unfold execVfneg
  with_reducible apply wf_framed
  · assumption
  · intro a1
    with_reducible apply wf_State_flyV
    assumption

theorem wf_cvtSlot (o : CvtOp) (mode : Nat × Nat → Mode) (step : Thread → Thread) (s : State) (q : Issue) (h_s : MemWf s) :
    MemWf (cvtSlot o mode step s q) := by
  unfold cvtSlot
  extract_lets x1 x2 x3
  clear_value x1
  clear_value x2
  have hx3 : MemWf x3 := by
    unfold x3
    with_reducible apply wf_State_flyVF
    assumption
  clear_value x3
  with_reducible apply wf_foldl
  · assumption
  · intro a4
    intro a5
    intro h6
    with_reducible apply wf_State_modThread
    assumption

theorem wf_execVcvtf (o : CvtOp) (rnd : BitVec 2) (s : State) (h_s : MemWf s) :
    OutWf (execVcvtf o rnd s) := by
  unfold execVcvtf
  with_reducible apply wf_framed
  · assumption
  · intro a1
    with_reducible apply wf_cvtSlot
    assumption

theorem wf_execVcvts (o : CvtOp) (s : State) (h_s : MemWf s) :
    OutWf (execVcvts o s) := by
  unfold execVcvts
  with_reducible apply wf_framed
  · assumption
  · intro a1
    with_reducible apply wf_cvtSlot
    assumption

theorem wf_execVcvtx (vd va : BitVec 8) (fmt : BitVec 5) (pos : BitVec 3) (g : Guard) (s : State) (h_s : MemWf s) :
    OutWf (execVcvtx vd va fmt pos g s) := by
  unfold execVcvtx
  with_reducible apply wf_framed
  · assumption
  · intro a1
    with_reducible apply wf_State_flyVF
    assumption

theorem wf_execVftoi (vd va : BitVec 8) (unsig : Bool) (rnd : BitVec 2) (sat : Bool) (g : Guard) (s : State) (h_s : MemWf s) :
    OutWf (execVftoi vd va unsig rnd sat g s) := by
  unfold execVftoi
  with_reducible apply wf_framed
  · assumption
  · intro a1
    with_reducible apply wf_State_flyVF
    assumption

theorem wf_execVitof (vd va : BitVec 8) (unsig : Bool) (rnd : BitVec 2) (g : Guard) (s : State) (h_s : MemWf s) :
    OutWf (execVitof vd va unsig rnd g s) := by
  unfold execVitof
  with_reducible apply wf_framed
  · assumption
  · intro a1
    with_reducible apply wf_State_flyVF
    assumption

theorem wf_execVcvth (vd va vb : BitVec 8) (bf : Bool) (rnd : BitVec 2) (sat : Bool) (g : Guard) (s : State) (h_s : MemWf s) :
    OutWf (execVcvth vd va vb bf rnd sat g s) := by
  unfold execVcvth
  with_reducible apply wf_framed
  · assumption
  · intro a1
    with_reducible apply wf_State_flyVF
    assumption

theorem wf_execVnps (vd va : BitVec 8) (plane : BitVec 3) (g : Guard) (s : State) (h_s : MemWf s) :
    OutWf (execVnps vd va plane g s) := by
  unfold execVnps
  with_reducible apply wf_framed
  · assumption
  · intro a1
    with_reducible apply wf_State_flyV
    assumption

theorem wf_execVnpm (vd va : BitVec 8) (plane : BitVec 3) (g : Guard) (s : State) (h_s : MemWf s) :
    OutWf (execVnpm vd va plane g s) := by
  unfold execVnpm
  with_reducible apply wf_framed
  · assumption
  · intro a1
    with_reducible apply wf_foldl
    · assumption
    · intro a2
      intro a3
      intro h4
      with_reducible apply wf_State_flyV
      assumption

theorem wf_execVshfl (vd va : BitVec 8) (vb : VSrc) (width : BitVec 3) (g : Guard) (s : State) (h_s : MemWf s) :
    OutWf (execVshfl vd va vb width g s) := by
  unfold execVshfl
  with_reducible apply wf_framed
  · assumption
  · intro a1
    extract_lets x2 x3
    clear_value x2
    clear_value x3
    with_reducible apply wf_State_flyVF
    assumption

theorem wf_execVperm (vd va : BitVec 8) (pat : BitVec 6) (g : Guard) (s : State) (h_s : MemWf s) :
    OutWf (execVperm vd va pat g s) := by
  unfold execVperm
  with_reducible apply wf_framed
  · assumption
  · intro a1
    extract_lets x2
    clear_value x2
    with_reducible apply wf_State_flyVF
    assumption

theorem wf_execVmatch (vd va : BitVec 8) (key : Option (BitVec 5 × BitVec 3)) (g : Guard) (s : State) (h_s : MemWf s) :
    OutWf (execVmatch vd va key g s) := by
  unfold execVmatch
  with_reducible apply wf_framed
  · assumption
  · intro a1
    extract_lets x2
    clear_value x2
    with_reducible apply wf_State_flyV
    assumption

theorem wf_execVballot (vd : BitVec 8) (pn : BitVec 4) (inv : Bool) (g : Guard) (s : State) (h_s : MemWf s) :
    OutWf (execVballot vd pn inv g s) := by
  unfold execVballot
  with_reducible apply wf_framed
  · assumption
  · intro a1
    extract_lets x2
    clear_value x2
    with_reducible apply wf_State_flyV
    assumption

theorem wf_execVvote (pd pn : BitVec 4) (mode : BitVec 2) (quorum : BitVec 6) (g : Guard) (s : State) (h_s : MemWf s) :
    OutWf (execVvote pd pn mode quorum g s) := by
  unfold execVvote
  with_reducible apply wf_framed
  · assumption
  · intro a1
    extract_lets x2 x3
    clear_value x2
    clear_value x3
    with_reducible apply wf_State_flyP
    assumption

theorem wf_execVscan (vd va : BitVec 8) (op : BitVec 2) (excl : Bool) (ty : BitVec 3) (g : Guard) (s : State) (h_s : MemWf s) :
    OutWf (execVscan vd va op excl ty g s) := by
  unfold execVscan
  with_reducible apply wf_framed
  · assumption
  · intro a1
    extract_lets x2
    clear_value x2
    with_reducible apply wf_State_flyVF
    assumption

theorem wf_execVred (vd va : BitVec 8) (op : BitVec 2) (ty : BitVec 3) (g : Guard) (s : State) (h_s : MemWf s) :
    OutWf (execVred vd va op ty g s) := by
  unfold execVred
  with_reducible apply wf_framed
  · assumption
  · intro a1
    extract_lets x2
    clear_value x2
    with_reducible apply wf_State_flyVF
    assumption

theorem wf_execVbcast (vd va : BitVec 8) (lane : BitVec 5) (g : Guard) (s : State) (h_s : MemWf s) :
    OutWf (execVbcast vd va lane g s) := by
  unfold execVbcast
  with_reducible apply wf_framed
  · assumption
  · intro a1
    extract_lets x2
    clear_value x2
    with_reducible apply wf_State_flyV
    assumption

theorem wf_tileSlot (s : State) (i : Instr) (g : Guard) (tile : BitVec 3) (effect : Issue → State) (h_s : MemWf s) (h_effect : ∀ (a0 : Issue), MemWf (effect a0)) :
    OutWf (tileSlot s i g tile effect) := by
  unfold tileSlot
  with_reducible apply wf_slotCond
  · assumption
  · intro a1
    with_reducible apply wf_slotHeld
    · assumption
    · intro a2
      with_reducible apply h_effect

theorem wf_execVaccrd (vd : BitVec 8) (tile : BitVec 3) (half : Bool) (row : BitVec 8) (g : Guard) (s : State) (h_s : MemWf s) :
    OutWf (execVaccrd vd tile half row g s) := by
  unfold execVaccrd
  with_reducible apply wf_tileSlot
  · assumption
  · intro a1
    with_reducible apply wf_State_flyV
    assumption

theorem wf_execVaccwr (tile : BitVec 3) (half : Bool) (row data : BitVec 8) (g : Guard) (s : State) (h_s : MemWf s) :
    OutWf (execVaccwr tile half row data g s) := by
  unfold execVaccwr
  with_reducible apply wf_tileSlot
  · assumption
  · intro a1
    with_reducible apply wf_State_modGroup
    assumption

theorem wf_execTokv (tile : BitVec 3) (g : Guard) (s : State) (h_s : MemWf s) :
    OutWf (execTokv tile g s) := by
  unfold execTokv
  with_reducible apply wf_slotNext
  · assumption
  · intro a1
    with_reducible refine wf_ite (fun h2 => ?_) (fun h3 => ?_)
    · assumption
    · with_reducible refine wf_ite (fun h4 => ?_) (fun h5 => ?_)
      · with_reducible apply wf_State_modGroup
        assumption
      · assumption

theorem wf_execTokm (tile : BitVec 3) (g : Guard) (s : State) (h_s : MemWf s) :
    OutWf (execTokm tile g s) := by
  unfold execTokm
  with_reducible apply wf_slotNext
  · assumption
  · intro a1
    with_reducible refine wf_ite (fun h2 => ?_) (fun h3 => ?_)
    · assumption
    · with_reducible apply wf_State_modGroup
      assumption

theorem wf_execVxtov (vd : BitVec 8) (xa : BitVec 4) (hi : Bool) (g : Guard) (s : State) (h_s : MemWf s) :
    OutWf (execVxtov vd xa hi g s) := by
  unfold execVxtov
  with_reducible apply wf_framed
  · assumption
  · intro a1
    with_reducible apply wf_State_flyV
    assumption

theorem wf_execVvtox (xd : BitVec 4) (va : BitVec 8) (zero : Bool) (g : Guard) (s : State) (h_s : MemWf s) :
    OutWf (execVvtox xd va zero g s) := by
  unfold execVvtox
  with_reducible apply wf_framed
  · assumption
  · intro a1
    with_reducible apply wf_State_flyX
    assumption

/-! ### Function -/

theorem wf_tableSlot (s : State) (i : Instr) (g : Guard) (tb : BitVec 3) (effect : Issue → State) (h_s : MemWf s) (h_effect : ∀ (a0 : Issue), MemWf (effect a0)) :
    OutWf (tableSlot s i g tb effect) := by
  unfold tableSlot
  with_reducible apply wf_slotCond
  · assumption
  · intro a1
    with_reducible apply wf_slotHeld
    · assumption
    · intro a2
      with_reducible refine wf_ite (fun h3 => ?_) (fun h4 => ?_)
      · with_reducible apply h_effect
      · with_reducible apply wf_State_modGroup
        with_reducible apply h_effect

theorem wf_evSlot (i : Instr) (vd va : BitVec 8) (tb : BitVec 3) (g : Guard) (f : List Byte → Nat → Nat × Flags) (s : State) (h_s : MemWf s) :
    OutWf (evSlot i vd va tb g f s) := by
  unfold evSlot
  with_reducible apply wf_tableSlot
  · assumption
  · intro a1
    with_reducible apply wf_State_flyVF
    assumption

theorem wf_execFev (vd va : BitVec 8) (tb : BitVec 3) (g : Guard) (s : State) (h_s : MemWf s) :
    OutWf (execFev vd va tb g s) := by
  unfold execFev
  with_reducible apply wf_evSlot
  assumption

theorem wf_execFevE2 (vd va : BitVec 8) (tb : BitVec 3) (g : Guard) (s : State) (h_s : MemWf s) :
    OutWf (execFevE2 vd va tb g s) := by
  unfold execFevE2
  with_reducible apply wf_evSlot
  assumption

theorem wf_execFevL2 (vd va : BitVec 8) (tb : BitVec 3) (g : Guard) (s : State) (h_s : MemWf s) :
    OutWf (execFevL2 vd va tb g s) := by
  unfold execFevL2
  with_reducible apply wf_evSlot
  assumption

theorem wf_execFevRc (vd va : BitVec 8) (tb : BitVec 3) (g : Guard) (s : State) (h_s : MemWf s) :
    OutWf (execFevRc vd va tb g s) := by
  unfold execFevRc
  with_reducible apply wf_evSlot
  assumption

theorem wf_execFevRs (vd va : BitVec 8) (tb : BitVec 3) (g : Guard) (s : State) (h_s : MemWf s) :
    OutWf (execFevRs vd va tb g s) := by
  unfold execFevRs
  with_reducible apply wf_evSlot
  assumption

theorem wf_execFevPd (vd va : BitVec 8) (tb : BitVec 3) (g : Guard) (s : State) (h_s : MemWf s) :
    OutWf (execFevPd vd va tb g s) := by
  unfold execFevPd
  with_reducible apply wf_evSlot
  assumption

theorem wf_execFseg (vd va : BitVec 8) (tb : BitVec 3) (g : Guard) (s : State) (h_s : MemWf s) :
    OutWf (execFseg vd va tb g s) := by
  unfold execFseg
  with_reducible apply wf_tableSlot
  · assumption
  · intro a1
    with_reducible apply wf_State_flyV
    assumption

theorem wf_execFdom (pd : BitVec 4) (va : BitVec 8) (tb : BitVec 3) (g : Guard) (s : State) (h_s : MemWf s) :
    OutWf (execFdom pd va tb g s) := by
  unfold execFdom
  with_reducible apply wf_tableSlot
  · assumption
  · intro a1
    with_reducible apply wf_State_flyP
    assumption

theorem wf_State_mapTable (s : State) (group core tb : Nat) (byte : Byte) (h_s : MemWf s) :
    MemWf (State.mapTable s group core tb byte) := by
  unfold State.mapTable
  with_reducible apply wf_State_modGroup
  assumption

theorem wf_execTsel (tb : BitVec 3) (xa : BitVec 4) (g : Guard) (s : State) (h_s : MemWf s) :
    OutWf (execTsel tb xa g s) := by
  unfold execTsel
  with_reducible apply wf_slotNext
  · assumption
  · intro a1
    split
    · assumption
    · with_reducible apply wf_State_mapTable
      assumption

/-! ### MemorySlots -/

theorem wf_memSlot (s : State) (i : Instr) (cond : Issue → Option Cond) (effect : Issue → State) (h_s : MemWf s) (h_effect : ∀ (a0 : Issue), MemWf (effect a0)) :
    OutWf (memSlot s i cond effect) := by
  unfold memSlot
  with_reducible apply wf_slotCond
  · assumption
  · intro a1
    with_reducible refine wf_next ?_
    with_reducible apply h_effect

theorem wf_State_sendLoad (s : State) (q : Issue) (tk e off len access : Nat) (h_s : MemWf s) :
    MemWf (State.sendLoad s q tk e off len access).1 := by
  unfold State.sendLoad
  extract_lets x1 x2 x3
  clear_value x1
  have hx2 : MemWf x2 := by
    unfold x2
    with_reducible apply wf_State_nextId
    assumption
  clear_value x2
  clear_value x3
  dsimp only
  with_reducible apply wf_State_fabSend
  with_reducible apply wf_lit
  assumption

theorem wf_State_hintLine (s : State) (core loc hint : Nat) (attr : Attr) (h_s : MemWf s) :
    MemWf (State.hintLine s core loc hint attr) := by
  unfold State.hintLine
  with_reducible refine wf_ite (fun h1 => ?_) (fun h2 => ?_)
  · with_reducible apply wf_State_noteHint
    assumption
  · assumption

theorem wf_State_readPortion (s : State) (q : Issue) (tk access : Nat) (ea : DWord) (whole : Bool) (hint : Nat) (p : Nat × Nat) (h_s : MemWf s) :
    MemWf (State.readPortion s q tk access ea whole hint p).1 := by
  unfold State.readPortion
  extract_lets x1
  clear_value x1
  split
  · dsimp only
    with_reducible apply wf_State_hintLine
    assumption
  · extract_lets x2
    have hx2 : MemWf x2.1 := by
      unfold x2
      with_reducible apply wf_State_sendLoad
      assumption
    clear_value x2
    dsimp only
    assumption
  · extract_lets x3
    have hx3 : MemWf x3.1 := by
      unfold x3
      with_reducible apply wf_State_sendLoad
      assumption
    clear_value x3
    dsimp only
    assumption
  · dsimp only
    assumption

theorem wf_State_readLane (s : State) (q : Issue) (tk access : Nat) (ea : DWord) (len : Nat) (whole scr : Bool) (hint : Nat) (h_s : MemWf s) :
    MemWf (State.readLane s q tk access ea len whole scr hint).1 := by
  unfold State.readLane
  with_reducible refine wf_iteP (fun h1 => ?_) (fun h2 => ?_)
  · dsimp only
    assumption
  · with_reducible apply wf_foldlP
    · dsimp only
      with_reducible apply wf_State_markRange
      assumption
    · intro a3
      intro a4
      intro h5
      extract_lets x6
      have hx6 : MemWf x6.1 := by
        unfold x6
        with_reducible apply wf_State_readPortion
        assumption
      clear_value x6
      dsimp only
      assumption

theorem wf_State_startLoad (s : State) (q : Issue) (ps : List (Nat × Nat)) (ea : Nat × Nat → DWord) (len words lat : Nat) (x : Ext) (whole scr : Bool) (hint data : Nat) (h_s : MemWf s) :
    MemWf (State.startLoad s q ps ea len words lat x whole scr hint data) := by
  unfold State.startLoad
  with_reducible refine wf_ite (fun h1 => ?_) (fun h2 => ?_)
  · assumption
  · extract_lets x3 x4 x5 x6 x7
    clear_value x3
    have hx4 : MemWf x4.1 := by
      unfold x4
      with_reducible apply wf_foldlP
      · dsimp only
        with_reducible apply wf_State_nextId
        assumption
      · intro a8
        intro a9
        intro h10
        extract_lets x11
        have hx11 : MemWf x11.1 := by
          unfold x11
          with_reducible apply wf_State_readLane
          assumption
        clear_value x11
        dsimp only
        assumption
    clear_value x4
    clear_value x5
    have hx6 : MemWf x6 := by
      unfold x6
      assumption
    clear_value x6
    have hx7 : MemWf x7 := by
      unfold x7
      with_reducible apply wf_lit
      assumption
    clear_value x7
    with_reducible apply wf_foldl
    · assumption
    · intro a12
      intro a13
      intro h14
      with_reducible apply wf_State_flyWait
      assumption

theorem wf_loadSlot (i : Instr) (o : MOp) (size words : Nat) (x : Ext) (whole scr : Bool) (s : State) (h_s : MemWf s) :
    OutWf (loadSlot i o size words x whole scr s) := by
  unfold loadSlot
  with_reducible apply wf_memSlot
  · assumption
  · intro a1
    with_reducible apply wf_State_startLoad
    assumption

theorem wf_execLdZ8 (o : MOp) (s : State) (h_s : MemWf s) :
    OutWf (execLdZ8 o s) := by
  unfold execLdZ8
  with_reducible apply wf_loadSlot
  assumption

theorem wf_execLdS8 (o : MOp) (s : State) (h_s : MemWf s) :
    OutWf (execLdS8 o s) := by
  unfold execLdS8
  with_reducible apply wf_loadSlot
  assumption

theorem wf_execLdZ16 (o : MOp) (s : State) (h_s : MemWf s) :
    OutWf (execLdZ16 o s) := by
  unfold execLdZ16
  with_reducible apply wf_loadSlot
  assumption

theorem wf_execLdS16 (o : MOp) (s : State) (h_s : MemWf s) :
    OutWf (execLdS16 o s) := by
  unfold execLdS16
  with_reducible apply wf_loadSlot
  assumption

theorem wf_execLd32 (o : MOp) (s : State) (h_s : MemWf s) :
    OutWf (execLd32 o s) := by
  unfold execLd32
  with_reducible apply wf_loadSlot
  assumption

theorem wf_execLd64 (o : MOp) (s : State) (h_s : MemWf s) :
    OutWf (execLd64 o s) := by
  unfold execLd64
  with_reducible apply wf_loadSlot
  assumption

theorem wf_execLd128 (o : MOp) (s : State) (h_s : MemWf s) :
    OutWf (execLd128 o s) := by
  unfold execLd128
  with_reducible apply wf_loadSlot
  assumption

theorem wf_execLdA16 (o : MOp) (s : State) (h_s : MemWf s) :
    OutWf (execLdA16 o s) := by
  unfold execLdA16
  with_reducible apply wf_loadSlot
  assumption

theorem wf_execLdsZ8 (o : MOp) (s : State) (h_s : MemWf s) :
    OutWf (execLdsZ8 o s) := by
  unfold execLdsZ8
  with_reducible apply wf_loadSlot
  assumption

theorem wf_execLdsS8 (o : MOp) (s : State) (h_s : MemWf s) :
    OutWf (execLdsS8 o s) := by
  unfold execLdsS8
  with_reducible apply wf_loadSlot
  assumption

theorem wf_execLdsZ16 (o : MOp) (s : State) (h_s : MemWf s) :
    OutWf (execLdsZ16 o s) := by
  unfold execLdsZ16
  with_reducible apply wf_loadSlot
  assumption

theorem wf_execLdsS16 (o : MOp) (s : State) (h_s : MemWf s) :
    OutWf (execLdsS16 o s) := by
  unfold execLdsS16
  with_reducible apply wf_loadSlot
  assumption

theorem wf_execLds32 (o : MOp) (s : State) (h_s : MemWf s) :
    OutWf (execLds32 o s) := by
  unfold execLds32
  with_reducible apply wf_loadSlot
  assumption

theorem wf_execLds64 (o : MOp) (s : State) (h_s : MemWf s) :
    OutWf (execLds64 o s) := by
  unfold execLds64
  with_reducible apply wf_loadSlot
  assumption

theorem wf_execLds128 (o : MOp) (s : State) (h_s : MemWf s) :
    OutWf (execLds128 o s) := by
  unfold execLds128
  with_reducible apply wf_loadSlot
  assumption

theorem wf_execLdsA16 (o : MOp) (s : State) (h_s : MemWf s) :
    OutWf (execLdsA16 o s) := by
  unfold execLdsA16
  with_reducible apply wf_loadSlot
  assumption

theorem wf_State_storeLane (s : State) (q : Issue) (tk : Nat) (ea : DWord) (bs : List Byte) (whole scr : Bool) (hint : Nat) (h_s : MemWf s) :
    MemWf (State.storeLane s q tk ea bs whole scr hint) := by
  unfold State.storeLane
  with_reducible refine wf_ite (fun h1 => ?_) (fun h2 => ?_)
  · with_reducible apply wf_foldl
    · assumption
    · intro a3
      intro a4
      intro h5
      with_reducible apply wf_State_store
      assumption
  · with_reducible apply wf_foldl
    · with_reducible apply wf_State_markRange
      assumption
    · intro a6
      intro a7
      intro h8
      split
      · with_reducible apply wf_State_store
        with_reducible apply wf_State_hintLine
        assumption
      · assumption

theorem wf_storeSlot (i : Instr) (o : MOp) (size : Nat) (whole scr : Bool) (s : State) (h_s : MemWf s) :
    OutWf (storeSlot i o size whole scr s) := by
  unfold storeSlot
  with_reducible apply wf_memSlot
  · assumption
  · intro a1
    with_reducible apply wf_foldl
    · assumption
    · intro a2
      intro a3
      intro h4
      with_reducible apply wf_State_storeLane
      assumption

theorem wf_execSt8 (o : MOp) (s : State) (h_s : MemWf s) :
    OutWf (execSt8 o s) := by
  unfold execSt8
  with_reducible apply wf_storeSlot
  assumption

theorem wf_execSt16 (o : MOp) (s : State) (h_s : MemWf s) :
    OutWf (execSt16 o s) := by
  unfold execSt16
  with_reducible apply wf_storeSlot
  assumption

theorem wf_execSt32 (o : MOp) (s : State) (h_s : MemWf s) :
    OutWf (execSt32 o s) := by
  unfold execSt32
  with_reducible apply wf_storeSlot
  assumption

theorem wf_execSt64 (o : MOp) (s : State) (h_s : MemWf s) :
    OutWf (execSt64 o s) := by
  unfold execSt64
  with_reducible apply wf_storeSlot
  assumption

theorem wf_execSt128 (o : MOp) (s : State) (h_s : MemWf s) :
    OutWf (execSt128 o s) := by
  unfold execSt128
  with_reducible apply wf_storeSlot
  assumption

theorem wf_execStA16 (o : MOp) (s : State) (h_s : MemWf s) :
    OutWf (execStA16 o s) := by
  unfold execStA16
  with_reducible apply wf_storeSlot
  assumption

theorem wf_execSts8 (o : MOp) (s : State) (h_s : MemWf s) :
    OutWf (execSts8 o s) := by
  unfold execSts8
  with_reducible apply wf_storeSlot
  assumption

theorem wf_execSts16 (o : MOp) (s : State) (h_s : MemWf s) :
    OutWf (execSts16 o s) := by
  unfold execSts16
  with_reducible apply wf_storeSlot
  assumption

theorem wf_execSts32 (o : MOp) (s : State) (h_s : MemWf s) :
    OutWf (execSts32 o s) := by
  unfold execSts32
  with_reducible apply wf_storeSlot
  assumption

theorem wf_execSts64 (o : MOp) (s : State) (h_s : MemWf s) :
    OutWf (execSts64 o s) := by
  unfold execSts64
  with_reducible apply wf_storeSlot
  assumption

theorem wf_execSts128 (o : MOp) (s : State) (h_s : MemWf s) :
    OutWf (execSts128 o s) := by
  unfold execSts128
  with_reducible apply wf_storeSlot
  assumption

theorem wf_execStsA16 (o : MOp) (s : State) (h_s : MemWf s) :
    OutWf (execStsA16 o s) := by
  unfold execStsA16
  with_reducible apply wf_storeSlot
  assumption

theorem wf_State_atomLane (s : State) (q : Issue) (o : IxOp) (op : AtomOp) (scr : Bool) (access : Nat) (l : Nat × Nat) (h_s : MemWf s) :
    MemWf (State.atomLane s q o op scr access l).1 := by
  unfold State.atomLane
  split
  · dsimp only
    assumption
  · extract_lets x1
    have hx1 : MemWf x1 := by
      unfold x1
      with_reducible refine wf_ite (fun h2 => ?_) (fun h3 => ?_)
      · assumption
      · with_reducible apply wf_State_markRange
        assumption
    clear_value x1
    dsimp only
    with_reducible apply wf_State_push
    assumption

theorem wf_State_startAtom (s : State) (q : Issue) (ps : List (Nat × Nat)) (o : IxOp) (op : AtomOp) (scr : Bool) (h_s : MemWf s) :
    MemWf (State.startAtom s q ps o op scr) := by
  unfold State.startAtom
  with_reducible refine wf_ite (fun h1 => ?_) (fun h2 => ?_)
  · assumption
  · extract_lets x3 x4 x5 x6
    clear_value x3
    have hx4 : MemWf x4.1 := by
      unfold x4
      with_reducible apply wf_foldlP
      · dsimp only
        with_reducible apply wf_State_nextId
        assumption
      · intro a7
        intro a8
        intro h9
        extract_lets x10
        have hx10 : MemWf x10.1 := by
          unfold x10
          with_reducible apply wf_State_atomLane
          assumption
        clear_value x10
        dsimp only
        assumption
    clear_value x4
    clear_value x5
    have hx6 : MemWf x6 := by
      unfold x6
      assumption
    clear_value x6
    with_reducible apply wf_State_flyWait
    with_reducible apply wf_lit
    assumption

theorem wf_atomSlot (i : Instr) (o : IxOp) (op : AtomOp) (scr : Bool) (s : State) (h_s : MemWf s) :
    OutWf (atomSlot i o op scr s) := by
  unfold atomSlot
  with_reducible apply wf_memSlot
  · assumption
  · intro a1
    with_reducible apply wf_State_startAtom
    assumption

theorem wf_execAtomAdd (o : IxOp) (s : State) (h_s : MemWf s) :
    OutWf (execAtomAdd o s) := by
  unfold execAtomAdd
  with_reducible apply wf_atomSlot
  assumption

theorem wf_execAtomMin (o : IxOp) (s : State) (h_s : MemWf s) :
    OutWf (execAtomMin o s) := by
  unfold execAtomMin
  with_reducible apply wf_atomSlot
  assumption

theorem wf_execAtomMax (o : IxOp) (s : State) (h_s : MemWf s) :
    OutWf (execAtomMax o s) := by
  unfold execAtomMax
  with_reducible apply wf_atomSlot
  assumption

theorem wf_execAtomMinu (o : IxOp) (s : State) (h_s : MemWf s) :
    OutWf (execAtomMinu o s) := by
  unfold execAtomMinu
  with_reducible apply wf_atomSlot
  assumption

theorem wf_execAtomMaxu (o : IxOp) (s : State) (h_s : MemWf s) :
    OutWf (execAtomMaxu o s) := by
  unfold execAtomMaxu
  with_reducible apply wf_atomSlot
  assumption

theorem wf_execAtomAnd (o : IxOp) (s : State) (h_s : MemWf s) :
    OutWf (execAtomAnd o s) := by
  unfold execAtomAnd
  with_reducible apply wf_atomSlot
  assumption

theorem wf_execAtomOr (o : IxOp) (s : State) (h_s : MemWf s) :
    OutWf (execAtomOr o s) := by
  unfold execAtomOr
  with_reducible apply wf_atomSlot
  assumption

theorem wf_execAtomXor (o : IxOp) (s : State) (h_s : MemWf s) :
    OutWf (execAtomXor o s) := by
  unfold execAtomXor
  with_reducible apply wf_atomSlot
  assumption

theorem wf_execAtomExch (o : IxOp) (s : State) (h_s : MemWf s) :
    OutWf (execAtomExch o s) := by
  unfold execAtomExch
  with_reducible apply wf_atomSlot
  assumption

theorem wf_execAtomCas (o : IxOp) (s : State) (h_s : MemWf s) :
    OutWf (execAtomCas o s) := by
  unfold execAtomCas
  with_reducible apply wf_atomSlot
  assumption

theorem wf_execAtomFaddF32 (o : IxOp) (s : State) (h_s : MemWf s) :
    OutWf (execAtomFaddF32 o s) := by
  unfold execAtomFaddF32
  with_reducible apply wf_atomSlot
  assumption

theorem wf_execAtomFaddBf16X2 (o : IxOp) (s : State) (h_s : MemWf s) :
    OutWf (execAtomFaddBf16X2 o s) := by
  unfold execAtomFaddBf16X2
  with_reducible apply wf_atomSlot
  assumption

theorem wf_execAtomsAdd (o : IxOp) (s : State) (h_s : MemWf s) :
    OutWf (execAtomsAdd o s) := by
  unfold execAtomsAdd
  with_reducible apply wf_atomSlot
  assumption

theorem wf_execAtomsMin (o : IxOp) (s : State) (h_s : MemWf s) :
    OutWf (execAtomsMin o s) := by
  unfold execAtomsMin
  with_reducible apply wf_atomSlot
  assumption

theorem wf_execAtomsMax (o : IxOp) (s : State) (h_s : MemWf s) :
    OutWf (execAtomsMax o s) := by
  unfold execAtomsMax
  with_reducible apply wf_atomSlot
  assumption

theorem wf_execAtomsMinu (o : IxOp) (s : State) (h_s : MemWf s) :
    OutWf (execAtomsMinu o s) := by
  unfold execAtomsMinu
  with_reducible apply wf_atomSlot
  assumption

theorem wf_execAtomsMaxu (o : IxOp) (s : State) (h_s : MemWf s) :
    OutWf (execAtomsMaxu o s) := by
  unfold execAtomsMaxu
  with_reducible apply wf_atomSlot
  assumption

theorem wf_execAtomsAnd (o : IxOp) (s : State) (h_s : MemWf s) :
    OutWf (execAtomsAnd o s) := by
  unfold execAtomsAnd
  with_reducible apply wf_atomSlot
  assumption

theorem wf_execAtomsOr (o : IxOp) (s : State) (h_s : MemWf s) :
    OutWf (execAtomsOr o s) := by
  unfold execAtomsOr
  with_reducible apply wf_atomSlot
  assumption

theorem wf_execAtomsXor (o : IxOp) (s : State) (h_s : MemWf s) :
    OutWf (execAtomsXor o s) := by
  unfold execAtomsXor
  with_reducible apply wf_atomSlot
  assumption

theorem wf_execAtomsExch (o : IxOp) (s : State) (h_s : MemWf s) :
    OutWf (execAtomsExch o s) := by
  unfold execAtomsExch
  with_reducible apply wf_atomSlot
  assumption

theorem wf_execAtomsCas (o : IxOp) (s : State) (h_s : MemWf s) :
    OutWf (execAtomsCas o s) := by
  unfold execAtomsCas
  with_reducible apply wf_atomSlot
  assumption

theorem wf_execAtomsFaddF32 (o : IxOp) (s : State) (h_s : MemWf s) :
    OutWf (execAtomsFaddF32 o s) := by
  unfold execAtomsFaddF32
  with_reducible apply wf_atomSlot
  assumption

theorem wf_execAtomsFaddBf16X2 (o : IxOp) (s : State) (h_s : MemWf s) :
    OutWf (execAtomsFaddBf16X2 o s) := by
  unfold execAtomsFaddBf16X2
  with_reducible apply wf_atomSlot
  assumption

theorem wf_execPref (xb : BitVec 4) (off : BitVec 10) (hint : BitVec 3) (g : Guard) (s : State) (h_s : MemWf s) :
    OutWf (execPref xb off hint g s) := by
  unfold execPref
  with_reducible apply wf_slotNext
  · assumption
  · intro a1
    with_reducible apply wf_foldl
    · assumption
    · intro a2
      intro a3
      intro h4
      split
      · with_reducible refine wf_ite (fun h5 => ?_) (fun h6 => ?_)
        · assumption
        · with_reducible apply wf_State_readCopy
          with_reducible apply wf_State_hintLine
          assumption
      · assumption

theorem wf_lineSlot (i : Instr) (xb : BitVec 4) (off : BitVec 10) (g : Guard) (drop : Bool) (s : State) (h_s : MemWf s) :
    OutWf (lineSlot i xb off g drop s) := by
  unfold lineSlot
  with_reducible apply wf_memSlot
  · assumption
  · intro a1
    with_reducible apply wf_foldl
    · assumption
    · intro a2
      intro a3
      intro h4
      extract_lets x5 x6
      clear_value x5
      have hx6 : MemWf x6 := by
        unfold x6
        with_reducible apply wf_State_markRange
        assumption
      clear_value x6
      split
      · assumption
      · extract_lets x7 x8
        have hx7 : MemWf x7 := by
          unfold x7
          with_reducible apply wf_State_writebackL1
          assumption
        clear_value x7
        clear_value x8
        with_reducible refine wf_ite (fun h9 => ?_) (fun h10 => ?_)
        · with_reducible apply wf_State_dirSet
          with_reducible apply wf_State_discardL1
          assumption
        · with_reducible refine wf_ite (fun h11 => ?_) (fun h12 => ?_)
          · with_reducible apply wf_State_dirSet
            assumption
          · assumption

theorem wf_execClean (xb : BitVec 4) (off : BitVec 10) (g : Guard) (s : State) (h_s : MemWf s) :
    OutWf (execClean xb off g s) := by
  unfold execClean
  with_reducible apply wf_lineSlot
  assumption

theorem wf_execInval (xb : BitVec 4) (off : BitVec 10) (g : Guard) (s : State) (h_s : MemWf s) :
    OutWf (execInval xb off g s) := by
  unfold execInval
  with_reducible apply wf_lineSlot
  assumption

theorem wf_execIcinv (xb : BitVec 4) (g : Guard) (s : State) (h_s : MemWf s) :
    OutWf (execIcinv xb g s) := by
  unfold execIcinv
  with_reducible apply wf_memSlot
  · assumption
  · intro a1
    with_reducible apply wf_foldl
    · assumption
    · intro a2
      intro a3
      intro h4
      extract_lets x5 x6
      clear_value x5
      have hx6 : MemWf x6 := by
        unfold x6
        with_reducible apply wf_State_markRange
        assumption
      clear_value x6
      split
      · with_reducible apply wf_State_storeCode
        assumption
      · assumption

theorem wf_State_fence (s : State) (q : Issue) (lanes : List (Nat × Nat)) (k : FenceKind) (prom : Option Nat) (h_s : MemWf s) :
    MemWf (State.fence s q lanes k prom) := by
  unfold State.fence
  with_reducible refine wf_ite (fun h1 => ?_) (fun h2 => ?_)
  · assumption
  · extract_lets x3 x4 x5
    have hx3 : MemWf x3 := by
      unfold x3
      with_reducible apply wf_State_bumpSeq
      assumption
    clear_value x3
    clear_value x4
    have hx5 : MemWf x5 := by
      unfold x5
      with_reducible apply wf_foldl
      · assumption
      · intro a6
        intro a7
        intro h8
        with_reducible apply wf_State_modThread
        assumption
    clear_value x5
    with_reducible apply wf_lit
    assumption

theorem wf_fenceSlot (k : FenceKind) (g : Guard) (s : State) (h_s : MemWf s) :
    OutWf (fenceSlot k g s) := by
  unfold fenceSlot
  with_reducible apply wf_slotNext
  · assumption
  · intro a1
    with_reducible apply wf_State_fence
    assumption

theorem wf_execFenceAcq (g : Guard) (s : State) (h_s : MemWf s) :
    OutWf (execFenceAcq g s) := by
  unfold execFenceAcq
  with_reducible apply wf_fenceSlot
  assumption

theorem wf_execFenceRel (g : Guard) (s : State) (h_s : MemWf s) :
    OutWf (execFenceRel g s) := by
  unfold execFenceRel
  with_reducible apply wf_fenceSlot
  assumption

theorem wf_execFenceAr (g : Guard) (s : State) (h_s : MemWf s) :
    OutWf (execFenceAr g s) := by
  unfold execFenceAr
  with_reducible apply wf_fenceSlot
  assumption

theorem wf_execFenceSc (g : Guard) (s : State) (h_s : MemWf s) :
    OutWf (execFenceSc g s) := by
  unfold execFenceSc
  with_reducible apply wf_fenceSlot
  assumption

theorem wf_execFenceCp (g : Guard) (s : State) (h_s : MemWf s) :
    OutWf (execFenceCp g s) := by
  unfold execFenceCp
  with_reducible apply wf_fenceSlot
  assumption

theorem wf_execDrain (g : Guard) (s : State) (h_s : MemWf s) :
    OutWf (execDrain g s) := by
  unfold execDrain
  with_reducible apply wf_slotNext
  · assumption
  · intro a1
    with_reducible apply wf_foldl
    · assumption
    · intro a2
      intro a3
      intro h4
      with_reducible apply wf_State_modThread
      assumption

/-! ### Commands -/

theorem wf_State_addCmd (s : State) (c : Cmd) (h_s : MemWf s) :
    MemWf (State.addCmd s c) := by
  unfold State.addCmd
  extract_lets x1
  have hx1 : MemWf x1 := by
    unfold x1
    with_reducible apply wf_State_nextId
    assumption
  clear_value x1
  with_reducible apply wf_lit
  assumption

theorem wf_State_engRecall (s : State) (z0 : Eng) (h_s : MemWf s) :
    MemWf (State.engRecall s z0) := by
  unfold State.engRecall
  split
  · with_reducible apply wf_foldl
    · assumption
    · intro a1
      intro a2
      intro h3
      with_reducible refine wf_ite (fun h4 => ?_) (fun h5 => ?_)
      · assumption
      · with_reducible apply wf_State_homeRead
        assumption
  · assumption

theorem wf_State_refreshLocal (s : State) (core loc : Nat) (bs : List Byte) (h_s : MemWf s) :
    MemWf (State.refreshLocal s core loc bs) := by
  unfold State.refreshLocal
  with_reducible apply wf_foldl
  · assumption
  · intro a1
    intro a2
    intro h3
    with_reducible refine wf_ite (fun h4 => ?_) (fun h5 => ?_)
    · with_reducible apply wf_State_modCore
      assumption
    · assumption

theorem wf_State_engWrite (s : State) (c : Cmd) (bs : List Byte) (z0 : Eng) (h_s : MemWf s) :
    MemWf (State.engWrite s c bs z0) := by
  unfold State.engWrite
  split
  · with_reducible apply wf_foldl
    · assumption
    · intro a1
      intro a2
      intro h3
      extract_lets x4
      clear_value x4
      with_reducible apply wf_State_refreshLocal
      with_reducible apply wf_State_put
      assumption
  · assumption

theorem wf_State_engMark (s : State) (c : Cmd) (scr w : Bool) (va : DWord) (len : Nat) (h_s : MemWf s) :
    MemWf (State.engMark s c scr w va len) := by
  unfold State.engMark
  with_reducible refine wf_ite (fun h1 => ?_) (fun h2 => ?_)
  · assumption
  · with_reducible apply wf_State_markRange
    assumption

theorem wf_State_engMiss (s : State) (c : Cmd) (va : DWord) (k : AccKind) (detail : DWord) (h_s : MemWf s) :
    MemWf (State.engMiss s c va k detail).1 := by
  unfold State.engMiss
  with_reducible refine wf_iteP (fun h1 => ?_) (fun h2 => ?_)
  · dsimp only
    with_reducible apply wf_lit
    assumption
  · extract_lets x3
    have hx3 : MemWf x3.1 := by
      unfold x3
      with_reducible apply wf_State_raise
      assumption
    clear_value x3
    dsimp only
    assumption

theorem wf_State_engFail (s : State) (c : Cmd) (k : AccKind) (detail : DWord) (z0 : Eng) (h_s : MemWf s) :
    MemWf (State.engFail s c k detail z0).1 := by
  unfold State.engFail
  split
  · dsimp only
    assumption
  · dsimp only
    assumption
  · with_reducible apply wf_State_engMiss
    assumption

theorem wf_State_setTrl (s : State) (c : Cmd) (h_s : MemWf s) :
    MemWf (State.setTrl s c) := by
  unfold State.setTrl
  with_reducible refine wf_ite (fun h1 => ?_) (fun h2 => ?_)
  · with_reducible apply wf_State_modThread
    assumption
  · assumption

theorem wf_State_settleTokens (s : State) (g : Nat) (h_s : MemWf s) :
    MemWf (State.settleTokens s g) := by
  unfold State.settleTokens
  with_reducible apply wf_foldl
  · assumption
  · intro a1
    intro a2
    intro h3
    with_reducible refine wf_ite (fun h4 => ?_) (fun h5 => ?_)
    · with_reducible apply wf_State_modGroup
      assumption
    · assumption

theorem wf_State_retire (s : State) (c : Cmd) (rec' : Option Rec) (h_s : MemWf s) :
    MemWf (State.retire s c rec') := by
  unfold State.retire
  extract_lets x1
  have hx1 : MemWf x1 := by
    unfold x1
    with_reducible apply wf_State_modGroup
    assumption
  clear_value x1
  with_reducible apply wf_State_dropCmd
  assumption

/-! ### Siphon -/

theorem wf_State_shapeWrite (s : State) (q : Issue) (sh f : Nat) (v : DWord) (h_s : MemWf s) :
    MemWf (State.shapeWrite s q sh f v) := by
  unfold State.shapeWrite
  split
  · assumption
  · with_reducible apply wf_State_fly
    assumption

theorem wf_execShset (sh : BitVec 3) (field : BitVec 5) (xs : BitVec 4) (s : State) (h_s : MemWf s) :
    OutWf (execShset sh field xs s) := by
  unfold execShset
  with_reducible apply wf_slotNext
  · assumption
  · intro a1
    with_reducible apply wf_State_shapeWrite
    assumption

theorem wf_execShseti (sh : BitVec 3) (field : BitVec 5) (imm : BitVec 16) (s : State) (h_s : MemWf s) :
    OutWf (execShseti sh field imm s) := by
  unfold execShseti
  with_reducible apply wf_slotNext
  · assumption
  · intro a1
    with_reducible apply wf_State_shapeWrite
    assumption

theorem wf_State_issueC (s : State) (q : Issue) (op : CmdOp) (o : LoadOp) (f : Cmd → Cmd) (h_s : MemWf s) :
    MemWf (State.issueC s q op o f) := by
  unfold State.issueC
  split
  · assumption
  · extract_lets x1 x2 x3
    clear_value x1
    have hx2 : MemWf x2 := by
      unfold x2
      with_reducible apply wf_State_modGroup
      assumption
    clear_value x2
    clear_value x3
    with_reducible apply wf_State_addCmd
    assumption

theorem wf_execCopy (o : CopyOp) (s : State) (h_s : MemWf s) :
    OutWf (execCopy o s) := by
  unfold execCopy
  with_reducible apply wf_slotNext
  · assumption
  · intro a1
    with_reducible apply wf_State_issueC
    assumption

theorem wf_execCopyx (o : CopyOp) (s : State) (h_s : MemWf s) :
    OutWf (execCopyx o s) := by
  unfold execCopyx
  with_reducible apply wf_slotNext
  · assumption
  · intro a1
    with_reducible apply wf_State_issueC
    assumption

theorem wf_execTload (o : LoadOp) (s : State) (h_s : MemWf s) :
    OutWf (execTload o s) := by
  unfold execTload
  with_reducible apply wf_slotNext
  · assumption
  · intro a1
    with_reducible apply wf_State_issueC
    assumption

theorem wf_execPload (o : LoadOp) (s : State) (h_s : MemWf s) :
    OutWf (execPload o s) := by
  unfold execPload
  with_reducible apply wf_slotNext
  · assumption
  · intro a1
    with_reducible apply wf_State_issueC
    assumption

theorem wf_execDload (o : LoadOp) (s : State) (h_s : MemWf s) :
    OutWf (execDload o s) := by
  unfold execDload
  with_reducible apply wf_slotNext
  · assumption
  · intro a1
    with_reducible apply wf_State_issueC
    assumption

theorem wf_execIntake (o : LoadOp) (s : State) (h_s : MemWf s) :
    OutWf (execIntake o s) := by
  unfold execIntake
  with_reducible apply wf_slotNext
  · assumption
  · intro a1
    with_reducible apply wf_State_issueC
    assumption

theorem wf_State_readElem (s : State) (c : Cmd) (l : Nat) (e : Elem) (h_s : MemWf s) :
    MemWf (State.readElem s c l e).1 := by
  unfold State.readElem
  extract_lets x1 x2 x3 x4 x5 x6
  clear_value x1
  clear_value x2
  clear_value x3
  clear_value x4
  clear_value x5
  clear_value x6
  dsimp only
  with_reducible apply wf_State_engRecall
  with_reducible apply wf_State_engRecall
  with_reducible apply wf_State_engMark
  assumption

theorem wf_State_readNext (s : State) (c : Cmd) (h_s : MemWf s) :
    MemWf (State.readNext s c).1 := by
  unfold State.readNext
  with_reducible refine wf_iteP (fun h1 => ?_) (fun h2 => ?_)
  · dsimp only
    assumption
  · extract_lets x3 x4
    clear_value x3
    clear_value x4
    split
    · with_reducible refine wf_iteP (fun h5 => ?_) (fun h6 => ?_)
      · with_reducible apply wf_State_engFail
        assumption
      · split
        · dsimp only
          with_reducible apply wf_State_raise
          assumption
        · dsimp only
          assumption
    · with_reducible refine wf_iteP (fun h7 => ?_) (fun h8 => ?_)
      · dsimp only
        with_reducible apply wf_State_askFor
        assumption
      · with_reducible apply wf_State_readElem
        assumption

theorem wf_State_landElem (s : State) (c : Cmd) (v : List Byte) (e : Elem) (h_s : MemWf s) :
    MemWf (State.landElem s c v e).1 := by
  unfold State.landElem
  extract_lets x1
  have hx1 : MemWf x1 := by
    unfold x1
    with_reducible apply wf_State_engMark
    with_reducible apply wf_State_engMark
    assumption
  clear_value x1
  dsimp only
  with_reducible apply wf_State_engWrite
  with_reducible apply wf_State_engWrite
  assumption

theorem wf_State_landNext (s : State) (c : Cmd) (h_s : MemWf s) :
    MemWf (State.landNext s c).1 := by
  unfold State.landNext
  with_reducible refine wf_iteP (fun h1 => ?_) (fun h2 => ?_)
  · dsimp only
    assumption
  · extract_lets x3 x4
    clear_value x3
    clear_value x4
    split
    · with_reducible apply wf_State_engFail
      assumption
    · with_reducible refine wf_iteP (fun h5 => ?_) (fun h6 => ?_)
      · dsimp only
        with_reducible apply wf_State_askFor
        assumption
      · with_reducible apply wf_State_landElem
        assumption

theorem wf_State_stageNext (s : State) (c : Cmd) (h_s : MemWf s) :
    MemWf (State.stageNext s c).1 := by
  unfold State.stageNext
  extract_lets x1 x2 x3 x4 x5
  clear_value x1
  clear_value x2
  clear_value x3
  clear_value x4
  clear_value x5
  dsimp only
  with_reducible apply wf_State_modGroup
  assumption

theorem wf_copyStep (s : State) (c : Cmd) (h_s : MemWf s) :
    MemWf (copyStep s c).1 := by
  unfold copyStep
  extract_lets x1 x2 x3
  have hx1 : MemWf x1.1 := by
    unfold x1
    with_reducible apply wf_State_landNext
    assumption
  clear_value x1
  have hx2 : MemWf x2.1 := by
    unfold x2
    with_reducible refine wf_iteP (fun h4 => ?_) (fun h5 => ?_)
    · assumption
    · with_reducible apply wf_State_readNext
      assumption
  clear_value x2
  have hx3 : MemWf x3.1 := by
    unfold x3
    with_reducible apply wf_State_stageNext
    assumption
  clear_value x3
  with_reducible refine wf_iteP (fun h6 => ?_) (fun h7 => ?_)
  · assumption
  · with_reducible refine wf_iteP (fun h8 => ?_) (fun h9 => ?_)
    · assumption
    · dsimp only
      assumption

theorem wf_copyRun (s : State) (c : Cmd) (z0 : Nat) (h_s : MemWf s) :
    MemWf (copyRun s c z0).1 := by
  induction z0 generalizing s c with
  | zero =>
    unfold copyRun
    dsimp only
    assumption
  | succ n ih =>
    unfold copyRun
    with_reducible refine wf_iteP (fun h1 => ?_) (fun h2 => ?_)
    · dsimp only
      assumption
    · with_reducible refine wf_iteP (fun h3 => ?_) (fun h4 => ?_)
      · dsimp only
        assumption
      · extract_lets x5
        have hx5 : MemWf x5.1 := by
          unfold x5
          with_reducible apply wf_copyStep
          assumption
        clear_value x5
        with_reducible apply ih
        assumption

theorem wf_advanceCopy (s : State) (c : Cmd) (h_s : MemWf s) :
    MemWf (advanceCopy s c).1 := by
  unfold advanceCopy
  split
  · dsimp only
    assumption
  · with_reducible apply wf_copyRun
    assumption

theorem wf_pull (s : State) (c : Cmd) (base : DWord) (chunk total : Nat) (z0 : Nat) (h_s : MemWf s) :
    MemWf (pull s c base chunk total z0).1 := by
  induction z0 generalizing s c base chunk total with
  | zero =>
    unfold pull
    dsimp only
    assumption
  | succ n ih =>
    unfold pull
    with_reducible refine wf_iteP (fun h1 => ?_) (fun h2 => ?_)
    · dsimp only
      assumption
    · extract_lets x3
      clear_value x3
      split
      · with_reducible refine wf_iteP (fun h4 => ?_) (fun h5 => ?_)
        · dsimp only
          with_reducible apply wf_State_askFor
          assumption
        · extract_lets x6
          clear_value x6
          with_reducible apply ih
          with_reducible apply wf_State_engRecall
          with_reducible apply wf_State_engMark
          assumption
      · with_reducible apply wf_State_engFail
        assumption

theorem wf_State_syncOwner (s : State) (core slot : Nat) (h_s : MemWf s) :
    MemWf (State.syncOwner s core slot) := by
  unfold State.syncOwner
  with_reducible apply wf_State_modCore
  assumption

theorem wf_State_setLoadSlot (s : State) (c : Cmd) (st : SlotState) (img : List Byte) (h_s : MemWf s) :
    MemWf (State.setLoadSlot s c st img) := by
  unfold State.setLoadSlot
  with_reducible apply wf_State_modCore
  assumption

theorem wf_tloadRead (s : State) (c : Cmd) (h_s : MemWf s) :
    MemWf (tloadRead s c).1 := by
  unfold tloadRead
  extract_lets x1 x2 x3
  have hx1 : MemWf x1.1 := by
    unfold x1
    with_reducible refine wf_iteP (fun h4 => ?_) (fun h5 => ?_)
    · with_reducible apply wf_pull
      assumption
    · dsimp only
      assumption
  clear_value x1
  have hx2 : MemWf x2.1 := by
    unfold x2
    with_reducible refine wf_iteP (fun h6 => ?_) (fun h7 => ?_)
    · assumption
    · with_reducible apply wf_pull
      assumption
  clear_value x2
  clear_value x3
  with_reducible refine wf_iteP (fun h8 => ?_) (fun h9 => ?_)
  · assumption
  · with_reducible refine wf_iteP (fun h10 => ?_) (fun h11 => ?_)
    · dsimp only
      assumption
    · with_reducible refine wf_iteP (fun h12 => ?_) (fun h13 => ?_)
      · assumption
      · with_reducible refine wf_iteP (fun h14 => ?_) (fun h15 => ?_)
        · dsimp only
          assumption
        · dsimp only
          assumption

theorem wf_advanceTload (s : State) (c : Cmd) (h_s : MemWf s) :
    MemWf (advanceTload s c).1 := by
  unfold advanceTload
  with_reducible refine wf_iteP (fun h1 => ?_) (fun h2 => ?_)
  · with_reducible apply wf_tloadRead
    assumption
  · with_reducible refine wf_iteP (fun h3 => ?_) (fun h4 => ?_)
    · dsimp only
      with_reducible refine wf_ite (fun h5 => ?_) (fun h6 => ?_)
      · with_reducible apply wf_State_setLoadSlot
        assumption
      · assumption
    · split
      · dsimp only
        assumption
      · with_reducible apply wf_tloadRead
        with_reducible apply wf_State_setLoadSlot
        assumption

theorem wf_State_retireTload (s : State) (c : Cmd) (h_s : MemWf s) :
    MemWf (State.retireTload s c) := by
  unfold State.retireTload
  with_reducible refine wf_ite (fun h1 => ?_) (fun h2 => ?_)
  · with_reducible apply wf_State_syncOwner
    with_reducible refine wf_ite (fun h3 => ?_) (fun h4 => ?_)
    · with_reducible apply wf_State_setLoadSlot
      assumption
    · with_reducible apply wf_State_setLoadSlot
      assumption
  · assumption

theorem wf_ploadRun (s : State) (c : Cmd) (bank : Bool) (z0 : Nat) (h_s : MemWf s) :
    MemWf (ploadRun s c bank z0).1 := by
  induction z0 generalizing s c bank with
  | zero =>
    unfold ploadRun
    dsimp only
    assumption
  | succ n ih =>
    unfold ploadRun
    extract_lets x1
    clear_value x1
    with_reducible refine wf_iteP (fun h2 => ?_) (fun h3 => ?_)
    · dsimp only
      assumption
    · split
      · extract_lets x4 x5
        clear_value x4
        have hx5 : MemWf x5 := by
          unfold x5
          with_reducible apply wf_State_modCore
          with_reducible apply wf_State_engRecall
          with_reducible apply wf_State_engMark
          assumption
        clear_value x5
        with_reducible refine wf_iteP (fun h6 => ?_) (fun h7 => ?_)
        · dsimp only
          with_reducible apply wf_State_askFor
          assumption
        · with_reducible apply ih
          assumption
      · with_reducible apply wf_State_engFail
        assumption

theorem wf_advancePload (s : State) (c : Cmd) (bank : Bool) (h_s : MemWf s) :
    MemWf (advancePload s c bank).1 := by
  unfold advancePload
  with_reducible refine wf_iteP (fun h1 => ?_) (fun h2 => ?_)
  · dsimp only
    assumption
  · with_reducible refine wf_iteP (fun h3 => ?_) (fun h4 => ?_)
    · dsimp only
      assumption
    · with_reducible apply wf_ploadRun
      assumption

theorem wf_dloadRun (s : State) (c : Cmd) (z0 : Nat) (h_s : MemWf s) :
    MemWf (dloadRun s c z0).1 := by
  induction z0 generalizing s c with
  | zero =>
    unfold dloadRun
    dsimp only
    assumption
  | succ n ih =>
    unfold dloadRun
    extract_lets x1
    clear_value x1
    with_reducible refine wf_iteP (fun h2 => ?_) (fun h3 => ?_)
    · dsimp only
      assumption
    · split
      · extract_lets x4 x5
        clear_value x4
        have hx5 : MemWf x5 := by
          unfold x5
          with_reducible apply wf_State_modCore
          with_reducible apply wf_State_engRecall
          with_reducible apply wf_State_engMark
          assumption
        clear_value x5
        with_reducible refine wf_iteP (fun h6 => ?_) (fun h7 => ?_)
        · dsimp only
          with_reducible apply wf_State_askFor
          assumption
        · with_reducible refine wf_iteP (fun h8 => ?_) (fun h9 => ?_)
          · dsimp only
            assumption
          · with_reducible apply ih
            assumption
      · with_reducible apply wf_State_engFail
        assumption

theorem wf_advanceDload (s : State) (c : Cmd) (h_s : MemWf s) :
    MemWf (advanceDload s c).1 := by
  unfold advanceDload
  with_reducible refine wf_iteP (fun h1 => ?_) (fun h2 => ?_)
  · with_reducible apply wf_dloadRun
    assumption
  · with_reducible refine wf_iteP (fun h3 => ?_) (fun h4 => ?_)
    · dsimp only
      assumption
    · extract_lets x5 x6
      have hx5 : MemWf x5 := by
        unfold x5
        with_reducible apply wf_State_modCore
        assumption
      clear_value x5
      with_reducible refine wf_iteP (fun h7 => ?_) (fun h8 => ?_)
      · dsimp only
        assumption
      · with_reducible apply wf_dloadRun
        assumption

theorem wf_State_retireDload (s : State) (c : Cmd) (h_s : MemWf s) :
    MemWf (State.retireDload s c) := by
  unfold State.retireDload
  with_reducible refine wf_ite (fun h1 => ?_) (fun h2 => ?_)
  · with_reducible apply wf_State_modCore
    assumption
  · assumption

/-! ### Intake -/

theorem wf_intakeWrite (s : State) (c : Cmd) (z0 : Nat) (h_s : MemWf s) :
    MemWf (intakeWrite s c z0).1 := by
  induction z0 generalizing s c with
  | zero =>
    unfold intakeWrite
    dsimp only
    assumption
  | succ n ih =>
    unfold intakeWrite
    split
    · dsimp only
      assumption
    · extract_lets x1
      clear_value x1
      split
      · extract_lets x2
        clear_value x2
        with_reducible refine wf_iteP (fun h3 => ?_) (fun h4 => ?_)
        · dsimp only
          with_reducible apply wf_State_askFor
          assumption
        · with_reducible apply ih
          with_reducible apply wf_State_engWrite
          with_reducible apply wf_State_engMark
          assumption
      · with_reducible apply wf_State_engFail
        assumption

theorem wf_intakeRead (s : State) (c : Cmd) (h_s : MemWf s) :
    MemWf (intakeRead s c).1 := by
  unfold intakeRead
  extract_lets x1 x2 x3
  clear_value x1
  clear_value x2
  have hx3 : MemWf x3.1 := by
    unfold x3
    with_reducible apply wf_pull
    assumption
  clear_value x3
  split
  · dsimp only
    assumption
  · with_reducible refine wf_iteP (fun h4 => ?_) (fun h5 => ?_)
    · assumption
    · extract_lets x6
      clear_value x6
      with_reducible apply wf_intakeWrite
      assumption

theorem wf_advanceIntake (s : State) (c : Cmd) (h_s : MemWf s) :
    MemWf (advanceIntake s c).1 := by
  unfold advanceIntake
  with_reducible refine wf_iteP (fun h1 => ?_) (fun h2 => ?_)
  · with_reducible apply wf_intakeWrite
    assumption
  · with_reducible refine wf_iteP (fun h3 => ?_) (fun h4 => ?_)
    · dsimp only
      assumption
    · extract_lets x5
      have hx5 : MemWf x5.1 := by
        unfold x5
        with_reducible refine wf_iteP (fun h6 => ?_) (fun h7 => ?_)
        · with_reducible apply wf_pull
          assumption
        · dsimp only
          assumption
      clear_value x5
      with_reducible refine wf_iteP (fun h8 => ?_) (fun h9 => ?_)
      · assumption
      · with_reducible refine wf_iteP (fun h10 => ?_) (fun h11 => ?_)
        · dsimp only
          assumption
        · with_reducible apply wf_intakeRead
          assumption

/-! ### Matrix -/

theorem wf_State_issueX (s : State) (q : Issue) (op : CmdOp) (h : Sync) (xs xd : DWord) (h_s : MemWf s) :
    MemWf (State.issueX s q op h xs xd) := by
  unfold State.issueX
  split
  · assumption
  · with_reducible apply wf_State_addCmd
    assumption

theorem wf_execMma (o : MmaOp) (s : State) (h_s : MemWf s) :
    OutWf (execMma o s) := by
  unfold execMma
  with_reducible apply wf_slotCond
  · assumption
  · intro a1
    extract_lets x2
    clear_value x2
    with_reducible refine wf_next ?_
    with_reducible apply wf_State_issueX
    assumption

theorem wf_execAccz (h : Sync) (tile : BitVec 3) (s : State) (h_s : MemWf s) :
    OutWf (execAccz h tile s) := by
  unfold execAccz
  with_reducible apply wf_slotCond
  · assumption
  · intro a1
    with_reducible refine wf_next ?_
    with_reducible apply wf_State_issueX
    assumption

theorem wf_execMst (h : Sync) (tile : BitVec 3) (xa xb : BitVec 4) (fmt : BitVec 5) (s : State) (h_s : MemWf s) :
    OutWf (execMst h tile xa xb fmt s) := by
  unfold execMst
  with_reducible apply wf_slotCond
  · assumption
  · intro a1
    with_reducible refine wf_next ?_
    with_reducible apply wf_State_issueX
    assumption

theorem wf_execMld (h : Sync) (tile : BitVec 3) (xa xb : BitVec 4) (s : State) (h_s : MemWf s) :
    OutWf (execMld h tile xa xb s) := by
  unfold execMld
  with_reducible apply wf_slotCond
  · assumption
  · intro a1
    with_reducible refine wf_next ?_
    with_reducible apply wf_State_issueX
    assumption

theorem wf_execMsync (h : Sync) (s : State) (h_s : MemWf s) :
    OutWf (execMsync h s) := by
  unfold execMsync
  with_reducible apply wf_slotNext
  · assumption
  · intro a1
    with_reducible apply wf_State_issueX
    assumption

theorem wf_execMstat (h : Sync) (tile : BitVec 3) (xa : BitVec 4) (s : State) (h_s : MemWf s) :
    OutWf (execMstat h tile xa s) := by
  unfold execMstat
  with_reducible apply wf_slotCond
  · assumption
  · intro a1
    with_reducible refine wf_next ?_
    with_reducible apply wf_State_issueX
    assumption

theorem wf_scaleSlot (side lb : Bool) (xa : BitVec 4) (s : State) (h_s : MemWf s) :
    OutWf (scaleSlot side lb xa s) := by
  unfold scaleSlot
  with_reducible apply wf_slotCond
  · assumption
  · intro a1
    extract_lets x2
    clear_value x2
    with_reducible refine wf_next ?_
    with_reducible apply wf_State_issueX
    assumption

theorem wf_execScla (lb : Bool) (xa : BitVec 4) (s : State) (h_s : MemWf s) :
    OutWf (execScla lb xa s) := by
  unfold execScla
  with_reducible apply wf_scaleSlot
  assumption

theorem wf_execSclb (lb : Bool) (xa : BitVec 4) (s : State) (h_s : MemWf s) :
    OutWf (execSclb lb xa s) := by
  unfold execSclb
  with_reducible apply wf_scaleSlot
  assumption

theorem wf_execSclz (side lb : Bool) (s : State) (h_s : MemWf s) :
    OutWf (execSclz side lb s) := by
  unfold execSclz
  with_reducible apply wf_slotNext
  · assumption
  · intro a1
    with_reducible apply wf_State_issueX
    assumption

theorem wf_State_setLatches (s : State) (core : Nat) (side lb : Bool) (data : Option (List Byte)) (h_s : MemWf s) :
    MemWf (State.setLatches s core side lb data) := by
  unfold State.setLatches
  extract_lets x1
  clear_value x1
  with_reducible apply wf_State_modCore
  assumption

theorem wf_State_startMatrix (s : State) (c : Cmd) (h_s : MemWf s) :
    MemWf (State.startMatrix s c) := by
  unfold State.startMatrix
  extract_lets x1 x2 x3
  clear_value x1
  clear_value x2
  clear_value x3
  split
  · extract_lets x4 x5 x6
    clear_value x4
    clear_value x5
    clear_value x6
    with_reducible apply wf_State_modCmd
    with_reducible apply wf_State_modGroup
    assumption
  · with_reducible apply wf_State_modCmd
    assumption
  · with_reducible apply wf_State_modCmd
    with_reducible apply wf_State_setLatches
    assumption
  · with_reducible apply wf_State_modCmd
    assumption

theorem wf_State_putScr (s : State) (c : Cmd) (a : DWord) (bs : List Byte) (h_s : MemWf s) :
    MemWf (State.putScr s c a bs) := by
  unfold State.putScr
  with_reducible apply wf_foldl
  · assumption
  · intro a1
    intro a2
    intro h3
    split
    · with_reducible apply wf_State_setByte
      assumption
    · assumption

theorem wf_State_mstWrite (s : State) (c : Cmd) (t : Tile) (fmt : Nat) (h_s : MemWf s) :
    MemWf (State.mstWrite s c t fmt) := by
  unfold State.mstWrite
  extract_lets x1 x2
  clear_value x1
  have hx2 : MemWf x2 := by
    unfold x2
    with_reducible apply wf_foldl
    · assumption
    · intro a3
      intro a4
      intro h5
      with_reducible apply wf_State_putScr
      assumption
  clear_value x2
  with_reducible refine wf_ite (fun h6 => ?_) (fun h7 => ?_)
  · with_reducible apply wf_State_putScr
    assumption
  · assumption

theorem wf_State_retireEffect (s : State) (c : Cmd) (h_s : MemWf s) :
    MemWf (State.retireEffect s c) := by
  unfold State.retireEffect
  extract_lets x1
  have hx1 : ∀ n m, MemWf (x1 n m) := fun n m => wf_State_modGroup _ _ _ h_s
  split
  · exact hx1 _ _
  · exact hx1 _ _
  · split
    · exact wf_State_setTrl _ _ (hx1 _ _)
    · exact hx1 _ _
  · exact wf_State_mstWrite _ _ _ _ h_s
  · exact wf_State_retireTload _ _ h_s
  · exact wf_State_retireDload _ _ h_s
  · exact wf_ite (fun _ => wf_State_setTrl _ _ h_s) (fun _ => h_s)
  · exact wf_ite (fun _ => wf_State_setTrl _ _ h_s) (fun _ => h_s)
  · exact h_s

theorem wf_State_tryRetire (s : State) (c : Cmd) (h_s : MemWf s) :
    MemWf (State.tryRetire s c) := by
  unfold State.tryRetire
  extract_lets x1
  clear_value x1
  with_reducible refine wf_ite (fun h2 => ?_) (fun h3 => ?_)
  · assumption
  · with_reducible apply wf_State_retire
    with_reducible apply wf_State_retireEffect
    assumption

theorem wf_advanceCmd (s : State) (c : Cmd) (h_s : MemWf s) :
    MemWf (advanceCmd s c).1 := by
  unfold advanceCmd
  split
  · with_reducible apply wf_advanceCopy
    assumption
  · with_reducible apply wf_advanceCopy
    assumption
  · with_reducible apply wf_advanceTload
    assumption
  · with_reducible apply wf_advancePload
    assumption
  · with_reducible apply wf_advanceDload
    assumption
  · with_reducible apply wf_advanceIntake
    assumption
  · dsimp only
    assumption

theorem wf_State_stepCmd (s : State) (c : Cmd) (h_s : MemWf s) :
    MemWf (State.stepCmd s c) := by
  unfold State.stepCmd
  with_reducible refine wf_ite (fun h1 => ?_) (fun h2 => ?_)
  · assumption
  · extract_lets x3
    have hx3 : MemWf x3.1 := by
      unfold x3
      with_reducible apply wf_advanceCmd
      assumption
    clear_value x3
    with_reducible apply wf_State_modCmd
    assumption

theorem wf_State_startSiphon (s : State) (c : Cmd) (h_s : MemWf s) :
    MemWf (State.startSiphon s c) := by
  unfold State.startSiphon
  extract_lets x1 x2
  clear_value x1
  have hx2 : MemWf x2 := by
    unfold x2
    with_reducible apply wf_State_stepCmd
    with_reducible apply wf_State_modCore
    with_reducible apply wf_State_modCmd
    with_reducible apply wf_State_nextId
    assumption
  clear_value x2
  split
  · assumption
  · with_reducible refine wf_ite (fun h3 => ?_) (fun h4 => ?_)
    · with_reducible apply wf_State_tryRetire
      assumption
    · assumption

theorem wf_execSiphonCommandStart (core : Nat) (s : State) (h_s : MemWf s) :
    OutWf (execSiphonCommandStart core s) := by
  unfold execSiphonCommandStart
  split
  · with_reducible refine wf_next ?_
    assumption
  · with_reducible refine wf_next ?_
    with_reducible apply wf_State_startSiphon
    assumption

theorem wf_execTimedCopyStartTime (cmd : Nat) (s : State) (h_s : MemWf s) :
    OutWf (execTimedCopyStartTime cmd s) := by
  unfold execTimedCopyStartTime
  split
  · with_reducible refine wf_next ?_
    assumption
  · with_reducible refine wf_iteO (fun h1 => ?_) (fun h2 => ?_)
    · with_reducible refine wf_next ?_
      with_reducible apply wf_State_startSiphon
      assumption
    · with_reducible refine wf_next ?_
      assumption

theorem wf_State_retireDone (s : State) (cmd : Nat) (h_s : MemWf s) :
    MemWf (State.retireDone s cmd) := by
  unfold State.retireDone
  split
  · assumption
  · with_reducible refine wf_ite (fun h1 => ?_) (fun h2 => ?_)
    · with_reducible apply wf_State_tryRetire
      assumption
    · assumption

theorem wf_execMatrixCommandStart (core : Nat) (s : State) (h_s : MemWf s) :
    OutWf (execMatrixCommandStart core s) := by
  unfold execMatrixCommandStart
  split
  · with_reducible refine wf_next ?_
    assumption
  · extract_lets x1
    have hx1 : MemWf x1 := by
      unfold x1
      with_reducible apply wf_State_modCore
      with_reducible apply wf_State_startMatrix
      assumption
    clear_value x1
    with_reducible refine wf_next ?_
    with_reducible refine wf_ite (fun h2 => ?_) (fun h3 => ?_)
    · with_reducible apply wf_State_retireDone
      assumption
    · assumption

theorem wf_execCommandRetire (cmd : Nat) (s : State) (h_s : MemWf s) :
    OutWf (execCommandRetire cmd s) := by
  unfold execCommandRetire
  split
  · with_reducible refine wf_next ?_
    assumption
  · with_reducible refine wf_iteO (fun h1 => ?_) (fun h2 => ?_)
    · with_reducible refine wf_next ?_
      assumption
    · extract_lets x3
      have hx3 : MemWf x3 := by
        unfold x3
        with_reducible apply wf_State_stepCmd
        assumption
      clear_value x3
      split
      · with_reducible refine wf_next ?_
        assumption
      · with_reducible refine wf_next ?_
        with_reducible refine wf_ite (fun h4 => ?_) (fun h5 => ?_)
        · with_reducible apply wf_State_tryRetire
          assumption
        · assumption

/-! ### Fabric -/

theorem wf_State_strayEvent (s : State) (h : DWord) (h_s : MemWf s) :
    MemWf (State.strayEvent s h) := by
  unfold State.strayEvent
  with_reducible apply wf_State_send
  with_reducible apply wf_State_setReg
  with_reducible apply wf_State_setReg
  assumption

theorem wf_State_applySignal (s : State) (h : DWord) (inc : Nat) (h_s : MemWf s) :
    OptWf (State.applySignal s h inc) := by
  unfold State.applySignal
  split
  · exact wf_none
  · extract_lets x1 x2 x3 x4
    clear_value x1
    clear_value x2
    clear_value x3
    clear_value x4
    with_reducible refine wf_iteN (fun h5 => ?_) (fun h6 => ?_)
    · refine wf_some ?_
      with_reducible apply wf_lit
      assumption
    · with_reducible refine wf_iteN (fun h7 => ?_) (fun h8 => ?_)
      · exact wf_none
      · refine wf_some ?_
        with_reducible apply wf_State_modGroup
        assumption

theorem wf_State_countVoid (s : State) (launch : Nat) (h_s : MemWf s) :
    MemWf (State.countVoid s launch) := by
  unfold State.countVoid
  with_reducible apply wf_State_modLaunch
  assumption

theorem wf_State_dropOp (s : State) (id : Nat) (h_s : MemWf s) :
    MemWf (State.dropOp s id) := by
  unfold State.dropOp
  with_reducible apply wf_lit
  assumption

theorem wf_State_ackFrom (s : State) (target : Nat) (h_s : MemWf s) :
    MemWf (State.ackFrom s target) := by
  unfold State.ackFrom
  with_reducible apply wf_lit
  assumption

theorem wf_State_lateAck (s : State) (id : Nat) (h_s : MemWf s) :
    MemWf (State.lateAck s id) := by
  unfold State.lateAck
  split
  · with_reducible apply wf_State_ackFrom
    with_reducible apply wf_lit
    assumption
  · assumption

theorem wf_State_noteHeard (s : State) (src : Nat) (h_s : MemWf s) :
    MemWf (State.noteHeard s src) := by
  unfold State.noteHeard
  with_reducible apply wf_lit
  assumption

theorem wf_State_hear (s : State) (src id : Nat) (h_s : MemWf s) :
    MemWf (State.hear s src id) := by
  unfold State.hear
  with_reducible apply wf_State_noteHeard
  with_reducible apply wf_lit
  assumption

theorem wf_State_ignore (s : State) (src id : Nat) (h_s : MemWf s) :
    MemWf (State.ignore s src id) := by
  unfold State.ignore
  with_reducible refine wf_ite (fun h1 => ?_) (fun h2 => ?_)
  · with_reducible apply wf_State_noteHeard
    assumption
  · assumption

theorem wf_State_fabReply (s : State) (src : Nat) (m : Msg) (h_s : MemWf s) :
    MemWf (State.fabReply s src m) := by
  unfold State.fabReply
  with_reducible apply wf_State_fabSend
  assumption

theorem wf_State_sendSignal (s : State) (o : OutOp) (h_s : MemWf s) :
    MemWf (State.sendSignal s o) := by
  unfold State.sendSignal
  split
  · extract_lets x1 x2 x3
    have hx1 : MemWf x1 := by
      unfold x1
      with_reducible apply wf_State_writebackL1
      assumption
    clear_value x1
    clear_value x2
    have hx3 : MemWf x3 := by
      unfold x3
      with_reducible apply wf_lit
      assumption
    clear_value x3
    with_reducible refine wf_ite (fun h4 => ?_) (fun h5 => ?_)
    · assumption
    · with_reducible apply wf_State_fabSend
      assumption
  · assumption

theorem wf_State_sendSignals (s : State) (core : Nat) (h_s : MemWf s) :
    MemWf (State.sendSignals s core) := by
  unfold State.sendSignals
  with_reducible apply wf_foldl
  · assumption
  · intro a1
    intro a2
    intro h3
    with_reducible refine wf_ite (fun h4 => ?_) (fun h5 => ?_)
    · assumption
    · with_reducible refine wf_ite (fun h6 => ?_) (fun h7 => ?_)
      · with_reducible apply wf_State_askFor
        assumption
      · with_reducible refine wf_ite (fun h8 => ?_) (fun h9 => ?_)
        · assumption
        · with_reducible apply wf_State_sendSignal
          assumption

theorem wf_State_fstLane (s : State) (q : Issue) (tk : Nat) (ea : DWord) (data : QWord) (h_s : MemWf s) :
    MemWf (State.fstLane s q tk ea data) := by
  unfold State.fstLane
  extract_lets x1 x2 x3 x4
  have hx1 : MemWf x1 := by
    unfold x1
    with_reducible apply wf_State_markRange
    assumption
  clear_value x1
  have hx2 : MemWf x2 := by
    unfold x2
    with_reducible apply wf_State_nextId
    assumption
  clear_value x2
  clear_value x3
  have hx4 : ∀ a0 a1 a2 , MemWf (x4 a0 a1 a2) := by
    intros
    unfold x4
    extract_lets x5 x6
    clear_value x5
    have hx6 : MemWf x6 := by
      unfold x6
      with_reducible apply wf_lit
      assumption
    clear_value x6
    with_reducible refine wf_ite (fun h7 => ?_) (fun h8 => ?_)
    · with_reducible apply wf_State_fabSend
      assumption
    · assumption
  clear_value x4
  split
  · with_reducible apply hx4
  · with_reducible apply hx4
  · with_reducible apply hx4
  · assumption

theorem wf_execFst (o : IxOp) (s : State) (h_s : MemWf s) :
    OutWf (execFst o s) := by
  unfold execFst
  with_reducible apply wf_memSlot
  · assumption
  · intro a1
    with_reducible apply wf_foldl
    · assumption
    · intro a2
      intro a3
      intro h4
      with_reducible apply wf_State_fstLane
      assumption

theorem wf_State_fsigLane (s : State) (q : Issue) (tk : Nat) (h : DWord) (inc : Nat) (h_s : MemWf s) :
    MemWf (State.fsigLane s q tk h inc) := by
  unfold State.fsigLane
  with_reducible refine wf_ite (fun h1 => ?_) (fun h2 => ?_)
  · with_reducible apply wf_State_strayEvent
    with_reducible apply wf_State_countVoid
    assumption
  · extract_lets x3 x4 x5
    clear_value x3
    have hx4 : MemWf x4 := by
      unfold x4
      with_reducible apply wf_State_nextId
      assumption
    clear_value x4
    clear_value x5
    with_reducible apply wf_lit
    assumption

theorem wf_execFsig (xb : BitVec 4) (inc : BitVec 10) (g : Guard) (s : State) (h_s : MemWf s) :
    OutWf (execFsig xb inc g s) := by
  unfold execFsig
  with_reducible apply wf_slotNext
  · assumption
  · intro a1
    with_reducible apply wf_State_sendSignals
    with_reducible apply wf_foldl
    · assumption
    · intro a2
      intro a3
      intro h4
      with_reducible apply wf_State_fsigLane
      assumption

theorem wf_State_joinBatch (s : State) (q : Issue) (lanes : List (Nat × Nat × Nat)) (h_s : MemWf s) :
    MemWf (State.joinBatch s q lanes) := by
  unfold State.joinBatch
  with_reducible refine wf_ite (fun h1 => ?_) (fun h2 => ?_)
  · with_reducible apply wf_lit
    assumption
  · extract_lets x3 x4
    have hx3 : MemWf x3 := by
      unfold x3
      with_reducible apply wf_State_nextId
      assumption
    clear_value x3
    clear_value x4
    with_reducible apply wf_lit
    assumption

theorem wf_State_askHub (s : State) (q : Issue) (lanes : List (Nat × Nat)) (words : Nat) (data : BitVec 8) (answer : List (Nat × QWord)) (h_s : MemWf s) :
    MemWf (State.askHub s q lanes words data answer) := by
  unfold State.askHub
  extract_lets x1 x2
  clear_value x1
  have hx2 : MemWf x2 := by
    unfold x2
    with_reducible apply wf_State_nextId
    assumption
  clear_value x2
  with_reducible apply wf_foldl
  · with_reducible apply wf_lit
    assumption
  · intro a3
    intro a4
    intro h5
    with_reducible apply wf_State_flyWait
    assumption

theorem wf_execLaunch (data : BitVec 8) (xb : BitVec 4) (g : Guard) (s : State) (h_s : MemWf s) :
    OutWf (execLaunch data xb g s) := by
  unfold execLaunch
  extract_lets x1
  clear_value x1
  with_reducible apply wf_memSlot
  · assumption
  · intro a2
    extract_lets x3 x4 x5 x6 x7 x8
    clear_value x3
    clear_value x4
    have hx5 : MemWf x5 := by
      unfold x5
      with_reducible apply wf_foldl
      · assumption
      · intro a9
        intro a10
        intro h11
        with_reducible apply wf_State_markRange
        assumption
    clear_value x5
    have hx6 : MemWf x6 := by
      unfold x6
      with_reducible apply wf_State_fly
      with_reducible apply wf_State_fly
      assumption
    clear_value x6
    clear_value x7
    have hx8 : MemWf x8 := by
      unfold x8
      with_reducible apply wf_State_askHub
      assumption
    clear_value x8
    with_reducible refine wf_ite (fun h12 => ?_) (fun h13 => ?_)
    · assumption
    · with_reducible apply wf_State_joinBatch
      assumption

theorem wf_execAcqProm (xb : BitVec 4) (g : Guard) (s : State) (h_s : MemWf s) :
    OutWf (execAcqProm xb g s) := by
  unfold execAcqProm
  with_reducible apply wf_slotNext
  · assumption
  · intro a1
    split
    · assumption
    · extract_lets x2 x3 x4 x5
      clear_value x2
      clear_value x3
      have hx4 : MemWf x4 := by
        unfold x4
        with_reducible apply wf_State_nextId
        assumption
      clear_value x4
      clear_value x5
      with_reducible refine wf_ite (fun h6 => ?_) (fun h7 => ?_)
      · with_reducible apply wf_State_fence
        with_reducible apply wf_lit
        assumption
      · with_reducible apply wf_State_fence
        assumption

theorem wf_execPromotionAtVictim (prom : Nat) (s : State) (h_s : MemWf s) :
    OutWf (execPromotionAtVictim prom s) := by
  unfold execPromotionAtVictim
  with_reducible refine wf_next ?_
  with_reducible apply wf_lit
  assumption

theorem wf_execPromotionAck (prom : Nat) (s : State) (h_s : MemWf s) :
    OutWf (execPromotionAck prom s) := by
  unfold execPromotionAck
  split
  · with_reducible refine wf_next ?_
    assumption
  · extract_lets x1 x2 x3
    clear_value x1
    have hx2 : MemWf x2 := by
      unfold x2
      with_reducible apply wf_State_discardL1
      with_reducible apply wf_State_writebackL1
      assumption
    clear_value x2
    clear_value x3
    with_reducible refine wf_iteO (fun h4 => ?_) (fun h5 => ?_)
    · with_reducible refine wf_next ?_
      assumption
    · with_reducible refine wf_iteO (fun h6 => ?_) (fun h7 => ?_)
      · with_reducible refine wf_next ?_
        with_reducible apply wf_State_askFor
        assumption
      · with_reducible refine wf_next ?_
        with_reducible apply wf_State_settleCore
        with_reducible apply wf_lit
        assumption

theorem wf_execRemoteLoadRequest (src id addr len : Nat) (s : State) (h_s : MemWf s) :
    OutWf (execRemoteLoadRequest src id addr len s) := by
  unfold execRemoteLoadRequest
  with_reducible refine wf_iteO (fun h1 => ?_) (fun h2 => ?_)
  · with_reducible refine wf_next ?_
    with_reducible apply wf_State_ignore
    assumption
  · with_reducible refine wf_iteO (fun h3 => ?_) (fun h4 => ?_)
    · with_reducible refine wf_next ?_
      assumption
    · with_reducible refine wf_iteO (fun h5 => ?_) (fun h6 => ?_)
      · with_reducible refine wf_next ?_
        with_reducible apply wf_State_askFor
        assumption
      · with_reducible refine wf_next ?_
        with_reducible apply wf_State_fabReply
        with_reducible apply wf_State_hear
        with_reducible apply wf_foldl
        · assumption
        · intro a7
          intro a8
          intro h9
          with_reducible apply wf_State_homeRead
          assumption

theorem wf_execRemoteLoadResponse (id : Nat) (bytes : List (BitVec 8)) (s : State) (h_s : MemWf s) :
    OutWf (execRemoteLoadResponse id bytes s) := by
  unfold execRemoteLoadResponse
  split
  · with_reducible refine wf_next ?_
    with_reducible refine wf_ite (fun h1 => ?_) (fun h2 => ?_)
    · with_reducible apply wf_State_lateAck
      assumption
    · assumption
  · split
    · with_reducible refine wf_iteO (fun h3 => ?_) (fun h4 => ?_)
      · with_reducible refine wf_next ?_
        assumption
      · with_reducible refine wf_next ?_
        with_reducible apply wf_State_settleCore
        with_reducible apply wf_State_fillAnswer
        with_reducible apply wf_State_ackFrom
        with_reducible apply wf_State_dropOp
        assumption
    · with_reducible refine wf_next ?_
      assumption

theorem wf_State_performFst (s : State) (o : OutOp) (h_s : MemWf s) :
    MemWf (State.performFst s o) := by
  unfold State.performFst
  split
  · with_reducible apply wf_State_dropOp
    with_reducible apply wf_State_put
    with_reducible apply wf_State_fixReads
    assumption
  · assumption

theorem wf_execFstApply (src id addr : Nat) (data : BitVec 128) (s : State) (h_s : MemWf s) :
    OutWf (execFstApply src id addr data s) := by
  unfold execFstApply
  with_reducible refine wf_iteO (fun h1 => ?_) (fun h2 => ?_)
  · with_reducible refine wf_next ?_
    with_reducible apply wf_State_ignore
    assumption
  · with_reducible refine wf_iteO (fun h3 => ?_) (fun h4 => ?_)
    · with_reducible refine wf_next ?_
      with_reducible apply wf_State_askFor
      assumption
    · with_reducible refine wf_iteO (fun h5 => ?_) (fun h6 => ?_)
      · split
        · with_reducible refine wf_next ?_
          assumption
        · with_reducible refine wf_iteO (fun h7 => ?_) (fun h8 => ?_)
          · with_reducible refine wf_next ?_
            assumption
          · with_reducible refine wf_next ?_
            with_reducible apply wf_State_settleCore
            with_reducible apply wf_State_performFst
            assumption
      · with_reducible refine wf_iteO (fun h9 => ?_) (fun h10 => ?_)
        · with_reducible refine wf_next ?_
          with_reducible apply wf_State_ignore
          assumption
        · with_reducible refine wf_next ?_
          with_reducible apply wf_State_fabReply
          with_reducible apply wf_State_hear
          with_reducible apply wf_State_put
          assumption

theorem wf_execFstAck (id : Nat) (s : State) (h_s : MemWf s) :
    OutWf (execFstAck id s) := by
  unfold execFstAck
  split
  · with_reducible refine wf_next ?_
    with_reducible refine wf_ite (fun h1 => ?_) (fun h2 => ?_)
    · with_reducible apply wf_State_lateAck
      assumption
    · assumption
  · split
    · with_reducible refine wf_next ?_
      with_reducible apply wf_State_settleCore
      with_reducible apply wf_State_ackFrom
      with_reducible apply wf_State_dropOp
      assumption
    · with_reducible refine wf_next ?_
      assumption

theorem wf_execFsigApply (src id : Nat) (handle : BitVec 64) (inc : Nat) (s : State) (h_s : MemWf s) :
    OutWf (execFsigApply src id handle inc s) := by
  unfold execFsigApply
  with_reducible refine wf_iteO (fun h1 => ?_) (fun h2 => ?_)
  · with_reducible refine wf_next ?_
    assumption
  · with_reducible refine wf_iteO (fun h3 => ?_) (fun h4 => ?_)
    · split
      · with_reducible refine wf_next ?_
        assumption
      · split
        · with_reducible refine wf_next ?_
          with_reducible apply wf_State_settleCore
          with_reducible apply wf_State_dropOp
          (refine wf_get (by assumption) ?_)
          with_reducible apply wf_State_applySignal
          assumption
        · with_reducible refine wf_next ?_
          with_reducible apply wf_State_settleCore
          with_reducible apply wf_State_dropOp
          with_reducible apply wf_State_strayEvent
          with_reducible apply wf_State_countVoid
          assumption
    · with_reducible refine wf_iteO (fun h5 => ?_) (fun h6 => ?_)
      · with_reducible refine wf_next ?_
        with_reducible apply wf_State_ignore
        assumption
      · extract_lets x7
        have hx7 : MemWf x7 := by
          unfold x7
          with_reducible apply wf_State_hear
          assumption
        clear_value x7
        split
        · with_reducible refine wf_next ?_
          with_reducible apply wf_State_fabReply
          (refine wf_get (by assumption) ?_)
          with_reducible apply wf_State_applySignal
          assumption
        · with_reducible refine wf_next ?_
          with_reducible apply wf_State_fabReply
          with_reducible apply wf_State_strayEvent
          assumption

theorem wf_execFsigAck (id : Nat) (void : Bool) (s : State) (h_s : MemWf s) :
    OutWf (execFsigAck id void s) := by
  unfold execFsigAck
  split
  · with_reducible refine wf_next ?_
    with_reducible refine wf_ite (fun h1 => ?_) (fun h2 => ?_)
    · with_reducible apply wf_State_lateAck
      assumption
    · assumption
  · extract_lets x3
    have hx3 : MemWf x3 := by
      unfold x3
      with_reducible apply wf_State_ackFrom
      with_reducible apply wf_State_dropOp
      assumption
    clear_value x3
    with_reducible refine wf_next ?_
    with_reducible apply wf_State_settleCore
    with_reducible refine wf_ite (fun h4 => ?_) (fun h5 => ?_)
    · with_reducible apply wf_State_countVoid
      assumption
    · assumption

theorem wf_State_sawHop (s : State) (src id hops : Nat) (h_s : MemWf s) :
    MemWf (State.sawHop s src id hops) := by
  unfold State.sawHop
  with_reducible apply wf_lit
  assumption

theorem wf_execFsigForward (src id : Nat) (handle : BitVec 64) (inc hops : Nat) (s : State) (h_s : MemWf s) :
    OutWf (execFsigForward src id handle inc hops s) := by
  unfold execFsigForward
  with_reducible refine wf_iteO (fun h1 => ?_) (fun h2 => ?_)
  · with_reducible refine wf_next ?_
    assumption
  · extract_lets x3 x4
    have hx3 : MemWf x3 := by
      unfold x3
      with_reducible apply wf_State_sawHop
      assumption
    clear_value x3
    clear_value x4
    with_reducible refine wf_iteO (fun h5 => ?_) (fun h6 => ?_)
    · with_reducible refine wf_next ?_
      with_reducible apply wf_State_fabReply
      with_reducible apply wf_State_strayEvent
      assumption
    · with_reducible refine wf_iteO (fun h7 => ?_) (fun h8 => ?_)
      · with_reducible refine wf_next ?_
        with_reducible apply wf_State_send
        assumption
      · with_reducible refine wf_next ?_
        with_reducible apply wf_lit
        assumption

theorem wf_State_flushForwards (s : State) (h_s : MemWf s) :
    MemWf (State.flushForwards s) := by
  unfold State.flushForwards
  with_reducible apply wf_State_flushQueue
  with_reducible apply wf_foldl
  · with_reducible apply wf_lit
    assumption
  · intro a1
    intro a2
    intro h3
    with_reducible apply wf_State_send
    assumption

theorem wf_State_setPort (s : State) (port : BitVec 4) (width st : Nat) (h_s : MemWf s) :
    MemWf (State.setPort s port width st) := by
  unfold State.setPort
  with_reducible apply wf_State_setField
  with_reducible apply wf_State_setField
  assumption

theorem wf_execLinkUp (port : BitVec 4) (width : BitVec 2) (s : State) (h_s : MemWf s) :
    OutWf (execLinkUp port width s) := by
  unfold execLinkUp
  with_reducible refine wf_iteO (fun h1 => ?_) (fun h2 => ?_)
  · with_reducible refine wf_next ?_
    assumption
  · with_reducible refine wf_next ?_
    with_reducible apply wf_State_flushForwards
    with_reducible apply wf_State_setPort
    assumption

theorem wf_execLinkRetrain (port : BitVec 4) (lanes : Nat) (s : State) (h_s : MemWf s) :
    OutWf (execLinkRetrain port lanes s) := by
  unfold execLinkRetrain
  with_reducible refine wf_iteO (fun h1 => ?_) (fun h2 => ?_)
  · with_reducible refine wf_next ?_
    assumption
  · with_reducible refine wf_next ?_
    with_reducible apply wf_State_setPort
    assumption

theorem wf_execLinkFail (port : BitVec 4) (s : State) (h_s : MemWf s) :
    OutWf (execLinkFail port s) := by
  unfold execLinkFail
  with_reducible refine wf_next ?_
  with_reducible apply wf_State_setPort
  assumption

/-! ### Transactions -/

theorem wf_State_stagePart (s : State) (coord : Nat) (h : Word) (seq addr : Nat) (data : QWord) (h_s : MemWf s) :
    MemWf (State.stagePart s coord h seq addr data).1 := by
  unfold State.stagePart
  extract_lets x1 x2
  clear_value x1
  clear_value x2
  with_reducible refine wf_iteP (fun h3 => ?_) (fun h4 => ?_)
  · dsimp only
    assumption
  · with_reducible refine wf_iteP (fun h5 => ?_) (fun h6 => ?_)
    · dsimp only
      assumption
    · dsimp only
      with_reducible apply wf_State_setPart
      assumption

theorem wf_State_votePart (s : State) (coord : Nat) (h : Word) (h_s : MemWf s) :
    MemWf (State.votePart s coord h).1 := by
  unfold State.votePart
  split
  · dsimp only
    assumption
  · extract_lets x1 x2 x3
    clear_value x1
    have hx2 : MemWf x2 := by
      unfold x2
      with_reducible apply wf_State_setPart
      assumption
    clear_value x2
    clear_value x3
    with_reducible refine wf_iteP (fun h4 => ?_) (fun h5 => ?_)
    · dsimp only
      assumption
    · with_reducible refine wf_iteP (fun h6 => ?_) (fun h7 => ?_)
      · dsimp only
        assumption
      · with_reducible refine wf_iteP (fun h8 => ?_) (fun h9 => ?_)
        · dsimp only
          assumption
        · dsimp only
          with_reducible apply wf_lit
          assumption

theorem wf_State_applyPart (s : State) (p : Part) (h_s : MemWf s) :
    MemWf (State.applyPart s p) := by
  unfold State.applyPart
  extract_lets x1
  have hx1 : MemWf x1 := by
    unfold x1
    with_reducible apply wf_foldl
    · assumption
    · intro a2
      intro a3
      intro h4
      with_reducible apply wf_State_fixReads
      assumption
  clear_value x1
  with_reducible apply wf_State_closePart
  with_reducible apply wf_foldl
  · assumption
  · intro a5
    intro a6
    intro h7
    with_reducible apply wf_State_put
    assumption

theorem wf_State_decidePart (s : State) (coord : Nat) (h : Word) (commit : Bool) (h_s : MemWf s) :
    MemWf (State.decidePart s coord h commit).1 := by
  unfold State.decidePart
  split
  · dsimp only
    assumption
  · with_reducible refine wf_iteP (fun h1 => ?_) (fun h2 => ?_)
    · dsimp only
      with_reducible apply wf_State_closePart
      assumption
    · with_reducible refine wf_iteP (fun h3 => ?_) (fun h4 => ?_)
      · dsimp only
        assumption
      · with_reducible refine wf_iteP (fun h5 => ?_) (fun h6 => ?_)
        · dsimp only
          with_reducible apply wf_State_askFor
          assumption
        · dsimp only
          with_reducible apply wf_State_applyPart
          assumption

theorem wf_State_writeLog (s : State) (t : Tx) (outcome : Word) (h_s : MemWf s) :
    MemWf (State.writeLog s t outcome).1 := by
  unfold State.writeLog
  split
  · dsimp only
    assumption
  · extract_lets x1 x2 x3
    clear_value x1
    have hx2 : MemWf x2 := by
      unfold x2
      with_reducible apply wf_State_hubPut
      assumption
    clear_value x2
    clear_value x3
    with_reducible refine wf_iteP (fun h4 => ?_) (fun h5 => ?_)
    · dsimp only
      assumption
    · with_reducible refine wf_iteP (fun h6 => ?_) (fun h7 => ?_)
      · dsimp only
        with_reducible apply wf_State_askFor
        assumption
      · dsimp only
        with_reducible apply wf_State_modTx
        with_reducible apply wf_lit
        assumption

theorem wf_State_answerHub (s : State) (access tk : Nat) (v : QWord) (h_s : MemWf s) :
    MemWf (State.answerHub s access tk v) := by
  unfold State.answerHub
  with_reducible apply wf_lit
  assumption

theorem wf_State_announce (s : State) (t : Tx) (commit : Bool) (outcome : Word) (h_s : MemWf s) :
    MemWf (State.announce s t commit outcome) := by
  unfold State.announce
  extract_lets x1 x2
  have hx1 : MemWf x1 := by
    unfold x1
    split
    · with_reducible apply wf_State_answerHub
      assumption
    · assumption
  clear_value x1
  have hx2 : MemWf x2 := by
    unfold x2
    with_reducible apply wf_State_modTx
    assumption
  clear_value x2
  with_reducible apply wf_foldl
  · assumption
  · intro a3
    intro a4
    intro h5
    with_reducible apply wf_State_txSend
    assumption

theorem wf_State_decideTx (s : State) (t : Tx) (commit : Bool) (outcome : Word) (h_s : MemWf s) :
    MemWf (State.decideTx s t commit outcome) := by
  unfold State.decideTx
  extract_lets x1
  have hx1 : MemWf x1.1 := by
    unfold x1
    with_reducible apply wf_State_writeLog
    assumption
  clear_value x1
  with_reducible refine wf_ite (fun h2 => ?_) (fun h3 => ?_)
  · with_reducible apply wf_State_announce
    assumption
  · assumption

theorem wf_State_prepareAll (s : State) (t : Tx) (access : Nat) (h_s : MemWf s) :
    MemWf (State.prepareAll s t access) := by
  unfold State.prepareAll
  extract_lets x1 x2 x3
  have hx1 : MemWf x1 := by
    unfold x1
    with_reducible apply wf_State_modTx
    assumption
  clear_value x1
  have hx2 : MemWf x2 := by
    unfold x2
    with_reducible apply wf_foldl
    · assumption
    · intro a4
      intro a5
      intro h6
      with_reducible apply wf_State_txSend
      assumption
  clear_value x2
  have hx3 : MemWf x3.1 := by
    unfold x3
    with_reducible apply wf_State_votePart
    assumption
  clear_value x3
  with_reducible refine wf_ite (fun h7 => ?_) (fun h8 => ?_)
  · with_reducible apply wf_State_modTx
    assumption
  · assumption

theorem wf_State_writeRecord (s : State) (t : Tx) (h_s : MemWf s) :
    MemWf (State.writeRecord s t) := by
  unfold State.writeRecord
  extract_lets x1 x2
  have hx1 : ∀ a0 , MemWf a0 → MemWf (x1 a0) := by
    intros
    unfold x1
    with_reducible apply wf_State_modTx
    assumption
  clear_value x1
  have hx2 : MemWf x2.1 := by
    unfold x2
    with_reducible apply wf_State_raise
    assumption
  clear_value x2
  with_reducible refine wf_ite (fun h3 => ?_) (fun h4 => ?_)
  · with_reducible apply hx1
    assumption
  · split
    · extract_lets x5
      clear_value x5
      with_reducible refine wf_ite (fun h6 => ?_) (fun h7 => ?_)
      · with_reducible apply wf_State_askFor
        assumption
      · with_reducible refine wf_ite (fun h8 => ?_) (fun h9 => ?_)
        · assumption
        · with_reducible apply hx1
          with_reducible apply wf_State_put
          with_reducible apply wf_State_markUsed
          assumption
    · with_reducible apply hx1
      assumption
    · with_reducible refine wf_ite (fun h10 => ?_) (fun h11 => ?_)
      · with_reducible refine wf_ite (fun h12 => ?_) (fun h13 => ?_)
        · assumption
        · with_reducible apply wf_State_modTx
          assumption
      · with_reducible apply hx1
        assumption

theorem wf_State_hubSignal (s : State) (h : DWord) (h_s : MemWf s) :
    MemWf (State.hubSignal s h) := by
  unfold State.hubSignal
  with_reducible refine wf_ite (fun h1 => ?_) (fun h2 => ?_)
  · assumption
  · with_reducible refine wf_ite (fun h3 => ?_) (fun h4 => ?_)
    · with_reducible apply wf_getD
      · with_reducible apply wf_State_applySignal
        assumption
      · with_reducible apply wf_State_strayEvent
        assumption
    · with_reducible refine wf_ite (fun h5 => ?_) (fun h6 => ?_)
      · with_reducible apply wf_State_strayEvent
        assumption
      · extract_lets x7 x8 x9
        clear_value x7
        have hx8 : MemWf x8 := by
          unfold x8
          with_reducible apply wf_State_nextId
          assumption
        clear_value x8
        clear_value x9
        with_reducible apply wf_State_fabSend
        with_reducible apply wf_lit
        assumption

theorem wf_State_settleTx (s : State) (t : Tx) (h_s : MemWf s) :
    MemWf (State.settleTx s t) := by
  unfold State.settleTx
  split
  · assumption
  · split
    · with_reducible refine wf_ite (fun h1 => ?_) (fun h2 => ?_)
      · with_reducible apply wf_State_decideTx
        assumption
      · with_reducible apply wf_State_announce
        assumption
    · with_reducible refine wf_ite (fun h3 => ?_) (fun h4 => ?_)
      · assumption
      · with_reducible refine wf_ite (fun h5 => ?_) (fun h6 => ?_)
        · with_reducible apply wf_State_decideTx
          assumption
        · with_reducible apply wf_State_prepareAll
          assumption
  · split
    · with_reducible apply wf_State_decideTx
      assumption
    · with_reducible refine wf_ite (fun h7 => ?_) (fun h8 => ?_)
      · with_reducible apply wf_State_decideTx
        assumption
      · assumption
  · extract_lets x9
    have hx9 : MemWf x9 := by
      unfold x9
      with_reducible apply wf_State_decidePart
      assumption
    clear_value x9
    with_reducible refine wf_ite (fun h10 => ?_) (fun h11 => ?_)
    · assumption
    · with_reducible refine wf_ite (fun h12 => ?_) (fun h13 => ?_)
      · with_reducible apply wf_State_writeRecord
        assumption
      · with_reducible apply wf_State_endRecord
        with_reducible apply wf_State_hubSignal
        assumption

theorem wf_settleTxsN (s : State) (z0 : Nat) (h_s : MemWf s) :
    MemWf (settleTxsN s z0) := by
  induction z0 generalizing s with
  | zero =>
    unfold settleTxsN
    assumption
  | succ n ih =>
    unfold settleTxsN
    with_reducible apply ih
    with_reducible apply wf_foldl
    · assumption
    · intro a1
      intro a2
      intro h3
      split
      · with_reducible apply wf_State_settleTx
        assumption
      · assumption

theorem wf_State_settleTxs (s : State) (h_s : MemWf s) :
    MemWf (State.settleTxs s) := by
  unfold State.settleTxs
  with_reducible apply wf_settleTxsN
  assumption

theorem wf_State_txBegin (s : State) (q : Issue) (tk : Nat) (bs : List Byte) (h_s : MemWf s) :
    MemWf (State.txBegin s q tk bs).1 := by
  unfold State.txBegin
  with_reducible refine wf_iteP (fun h1 => ?_) (fun h2 => ?_)
  · dsimp only
    assumption
  · with_reducible refine wf_iteP (fun h3 => ?_) (fun h4 => ?_)
    · dsimp only
      with_reducible apply wf_lit
      assumption
    · with_reducible refine wf_iteP (fun h5 => ?_) (fun h6 => ?_)
      · dsimp only
        assumption
      · with_reducible refine wf_iteP (fun h7 => ?_) (fun h8 => ?_)
        · dsimp only
          assumption
        · extract_lets x9 x10 x11
          clear_value x9
          clear_value x10
          clear_value x11
          dsimp only
          with_reducible apply wf_lit
          assumption

theorem wf_execTxbegin (data : BitVec 8) (xb : BitVec 4) (g : Guard) (s : State) (h_s : MemWf s) :
    OutWf (execTxbegin data xb g s) := by
  unfold execTxbegin
  with_reducible apply wf_memSlot
  · assumption
  · intro a1
    extract_lets x2 x3
    clear_value x2
    have hx3 : MemWf x3.1 := by
      unfold x3
      with_reducible apply wf_foldlP
      · dsimp only
        assumption
      · intro a4
        intro a5
        intro h6
        extract_lets x7 x8 x9
        have hx7 : MemWf x7 := by
          unfold x7
          with_reducible apply wf_State_markRange
          assumption
        clear_value x7
        clear_value x8
        have hx9 : MemWf x9.1 := by
          unfold x9
          with_reducible apply wf_State_txBegin
          assumption
        clear_value x9
        dsimp only
        assumption
    clear_value x3
    with_reducible refine wf_ite (fun h10 => ?_) (fun h11 => ?_)
    · assumption
    · with_reducible apply wf_State_askHub
      assumption

theorem wf_State_txStore (s : State) (q : Issue) (tk : Nat) (ea : DWord) (data : QWord) (h_s : MemWf s) :
    MemWf (State.txStore s q tk ea data) := by
  unfold State.txStore
  extract_lets x1 x2
  have hx1 : MemWf x1 := by
    unfold x1
    with_reducible apply wf_State_markRange
    assumption
  clear_value x1
  clear_value x2
  split
  · with_reducible refine wf_ite (fun h3 => ?_) (fun h4 => ?_)
    · assumption
    · with_reducible apply wf_lit
      assumption
  · extract_lets x5
    have hx5 : ∀ a0 a1 , MemWf (x5 a0 a1) := by
      intros
      unfold x5
      with_reducible refine wf_ite (fun h6 => ?_) (fun h7 => ?_)
      · assumption
      · with_reducible refine wf_ite (fun h8 => ?_) (fun h9 => ?_)
        · with_reducible apply wf_State_modTx
          assumption
        · extract_lets x10 x11
          have hx10 : MemWf x10 := by
            unfold x10
            with_reducible apply wf_State_modTx
            assumption
          clear_value x10
          have hx11 : MemWf x11.1 := by
            unfold x11
            with_reducible apply wf_State_stagePart
            assumption
          clear_value x11
          with_reducible refine wf_ite (fun h12 => ?_) (fun h13 => ?_)
          · split
            · assumption
            · with_reducible apply wf_State_modTx
              assumption
          · with_reducible apply wf_State_txSend
            assumption
    clear_value x5
    split
    · with_reducible apply hx5
    · with_reducible apply hx5
    · assumption

theorem wf_execTxst (o : IxOp) (s : State) (h_s : MemWf s) :
    OutWf (execTxst o s) := by
  unfold execTxst
  with_reducible apply wf_memSlot
  · assumption
  · intro a1
    with_reducible apply wf_foldl
    · assumption
    · intro a2
      intro a3
      intro h4
      with_reducible apply wf_State_txStore
      assumption

theorem wf_execTxcommit (data : BitVec 8) (g : Guard) (s : State) (h_s : MemWf s) :
    OutWf (execTxcommit data g s) := by
  unfold execTxcommit
  with_reducible apply wf_memSlot
  · assumption
  · intro a1
    extract_lets x2 x3 x4
    clear_value x2
    clear_value x3
    have hx4 : MemWf x4 := by
      unfold x4
      with_reducible apply wf_State_askHub
      assumption
    clear_value x4
    with_reducible refine wf_ite (fun h5 => ?_) (fun h6 => ?_)
    · assumption
    · with_reducible apply wf_State_settleTxs
      with_reducible apply wf_foldl
      · assumption
      · intro a7
        intro a8
        intro h9
        split
        · with_reducible refine wf_ite (fun h10 => ?_) (fun h11 => ?_)
          · with_reducible apply wf_State_modTx
            assumption
          · with_reducible apply wf_State_answerHub
            assumption
        · with_reducible apply wf_State_answerHub
          assumption

theorem wf_execTxabort (g : Guard) (s : State) (h_s : MemWf s) :
    OutWf (execTxabort g s) := by
  unfold execTxabort
  with_reducible apply wf_slotNext
  · assumption
  · intro a1
    with_reducible apply wf_foldl
    · assumption
    · intro a2
      intro a3
      intro h4
      with_reducible apply wf_State_abortTx
      assumption

theorem wf_execTxStage (msg : FabName) (handle : BitVec 32) (place : TxPlace) (data : BitVec 128) (s : State) (h_s : MemWf s) :
    OutWf (execTxStage msg handle place data s) := by
  unfold execTxStage
  with_reducible refine wf_iteO (fun h1 => ?_) (fun h2 => ?_)
  · with_reducible refine wf_next ?_
    with_reducible apply wf_State_ignore
    assumption
  · with_reducible refine wf_iteO (fun h3 => ?_) (fun h4 => ?_)
    · with_reducible refine wf_next ?_
      assumption
    · with_reducible refine wf_iteO (fun h5 => ?_) (fun h6 => ?_)
      · with_reducible refine wf_next ?_
        with_reducible apply wf_State_fabReply
        with_reducible apply wf_State_hear
        assumption
      · extract_lets x7
        have hx7 : MemWf x7.1 := by
          unfold x7
          with_reducible apply wf_State_stagePart
          with_reducible apply wf_State_hear
          assumption
        clear_value x7
        with_reducible refine wf_next ?_
        with_reducible apply wf_State_fabReply
        assumption

theorem wf_State_acked (s : State) (peer : Nat) (h_s : MemWf s) :
    MemWf (State.acked s peer) := by
  unfold State.acked
  with_reducible refine wf_ite (fun h1 => ?_) (fun h2 => ?_)
  · with_reducible apply wf_State_ackFrom
    assumption
  · assumption

theorem wf_execTxStageAck (handle : BitVec 32) (msg : FabName) (doom : Option (BitVec 32)) (s : State) (h_s : MemWf s) :
    OutWf (execTxStageAck handle msg doom s) := by
  unfold execTxStageAck
  extract_lets x1
  have hx1 : MemWf x1 := by
    unfold x1
    with_reducible apply wf_State_acked
    assumption
  clear_value x1
  split
  · with_reducible refine wf_next ?_
    assumption
  · with_reducible refine wf_iteO (fun h2 => ?_) (fun h3 => ?_)
    · with_reducible refine wf_next ?_
      assumption
    · with_reducible refine wf_next ?_
      with_reducible apply wf_State_settleTxs
      with_reducible apply wf_State_modTx
      assumption

theorem wf_execTxPrepare (msg : FabName) (handle : BitVec 32) (s : State) (h_s : MemWf s) :
    OutWf (execTxPrepare msg handle s) := by
  unfold execTxPrepare
  with_reducible refine wf_iteO (fun h1 => ?_) (fun h2 => ?_)
  · with_reducible refine wf_next ?_
    with_reducible apply wf_State_ignore
    assumption
  · extract_lets x3
    have hx3 : MemWf x3.1 := by
      unfold x3
      with_reducible apply wf_State_votePart
      with_reducible apply wf_State_hear
      assumption
    clear_value x3
    with_reducible refine wf_next ?_
    with_reducible apply wf_State_fabReply
    assumption

theorem wf_execTxVote (handle : BitVec 32) (msg : FabName) (no : Option (BitVec 32)) (s : State) (h_s : MemWf s) :
    OutWf (execTxVote handle msg no s) := by
  unfold execTxVote
  extract_lets x1
  have hx1 : MemWf x1 := by
    unfold x1
    with_reducible apply wf_State_acked
    assumption
  clear_value x1
  split
  · with_reducible refine wf_next ?_
    assumption
  · split
    · with_reducible refine wf_iteO (fun h2 => ?_) (fun h3 => ?_)
      · with_reducible refine wf_next ?_
        assumption
      · with_reducible refine wf_next ?_
        with_reducible apply wf_State_settleTxs
        with_reducible apply wf_State_modTx
        assumption
    · with_reducible refine wf_next ?_
      assumption

theorem wf_execTxVoteTimeout (handle : BitVec 32) (s : State) (h_s : MemWf s) :
    OutWf (execTxVoteTimeout handle s) := by
  unfold execTxVoteTimeout
  split
  · with_reducible refine wf_next ?_
    assumption
  · split
    · with_reducible refine wf_iteO (fun h1 => ?_) (fun h2 => ?_)
      · with_reducible refine wf_next ?_
        with_reducible apply wf_State_settleTxs
        with_reducible apply wf_State_modTx
        assumption
      · with_reducible refine wf_next ?_
        assumption
    · with_reducible refine wf_next ?_
      assumption

theorem wf_State_notePartEnd (s : State) (coord : Nat) (h : Word) (id : Nat) (h_s : MemWf s) :
    MemWf (State.notePartEnd s coord h id) := by
  unfold State.notePartEnd
  with_reducible apply wf_lit
  assumption

theorem wf_execTxDecision (msg : FabName) (handle : BitVec 32) (commit : Bool) (s : State) (h_s : MemWf s) :
    OutWf (execTxDecision msg handle commit s) := by
  unfold execTxDecision
  with_reducible refine wf_iteO (fun h1 => ?_) (fun h2 => ?_)
  · with_reducible refine wf_next ?_
    with_reducible apply wf_State_ignore
    assumption
  · extract_lets x3
    have hx3 : MemWf x3.1 := by
      unfold x3
      with_reducible apply wf_State_decidePart
      assumption
    clear_value x3
    with_reducible refine wf_iteO (fun h4 => ?_) (fun h5 => ?_)
    · with_reducible refine wf_next ?_
      with_reducible apply wf_State_fabReply
      with_reducible apply wf_State_notePartEnd
      with_reducible apply wf_State_ackFrom
      with_reducible apply wf_State_hear
      assumption
    · with_reducible refine wf_next ?_
      with_reducible apply wf_State_noteHeard
      assumption

theorem wf_execTxRecovery (coord : Nat) (handle : BitVec 32) (commit : Bool) (s : State) (h_s : MemWf s) :
    OutWf (execTxRecovery coord handle commit s) := by
  unfold execTxRecovery
  with_reducible refine wf_iteO (fun h1 => ?_) (fun h2 => ?_)
  · with_reducible refine wf_next ?_
    assumption
  · extract_lets x3
    have hx3 : MemWf x3.1 := by
      unfold x3
      with_reducible apply wf_State_decidePart
      assumption
    clear_value x3
    with_reducible refine wf_iteO (fun h4 => ?_) (fun h5 => ?_)
    · with_reducible refine wf_next ?_
      with_reducible apply wf_State_fabReply
      with_reducible apply wf_State_ackFrom
      assumption
    · with_reducible refine wf_next ?_
      assumption

theorem wf_execTxApplyAck (handle : BitVec 32) (msg : FabName) (s : State) (h_s : MemWf s) :
    OutWf (execTxApplyAck handle msg s) := by
  unfold execTxApplyAck
  extract_lets x1 x2 x3
  have hx1 : MemWf x1 := by
    unfold x1
    with_reducible apply wf_State_acked
    assumption
  clear_value x1
  clear_value x2
  have hx3 : MemWf x3 := by
    unfold x3
    with_reducible refine wf_ite (fun h4 => ?_) (fun h5 => ?_)
    · with_reducible apply wf_lit
      assumption
    · assumption
  clear_value x3
  split
  · with_reducible refine wf_next ?_
    assumption
  · with_reducible refine wf_iteO (fun h6 => ?_) (fun h7 => ?_)
    · with_reducible refine wf_next ?_
      with_reducible apply wf_State_settleTxs
      with_reducible apply wf_State_modTx
      assumption
    · with_reducible refine wf_next ?_
      assumption

theorem wf_execTxPartTimeout (coord : Nat) (handle : BitVec 32) (s : State) (h_s : MemWf s) :
    OutWf (execTxPartTimeout coord handle s) := by
  unfold execTxPartTimeout
  split
  · with_reducible refine wf_next ?_
    assumption
  · with_reducible refine wf_iteO (fun h1 => ?_) (fun h2 => ?_)
    · with_reducible refine wf_next ?_
      assumption
    · extract_lets x3
      have hx3 : MemWf x3 := by
        unfold x3
        with_reducible apply wf_State_setPart
        assumption
      clear_value x3
      with_reducible refine wf_iteO (fun h4 => ?_) (fun h5 => ?_)
      · with_reducible refine wf_next ?_
        with_reducible apply wf_State_settleTxs
        with_reducible apply wf_State_modTx
        assumption
      · with_reducible refine wf_next ?_
        assumption

theorem wf_State_loseOp (s : State) (o : OutOp) (h_s : MemWf s) :
    MemWf (State.loseOp s o) := by
  unfold State.loseOp
  extract_lets x1 x2 x3
  have hx1 : MemWf x1 := by
    unfold x1
    with_reducible apply wf_State_dropOp
    assumption
  clear_value x1
  clear_value x2
  have hx3 : MemWf x3 := by
    unfold x3
    with_reducible apply wf_lit
    assumption
  clear_value x3
  split
  · with_reducible apply wf_State_strayEvent
    with_reducible apply wf_State_countVoid
    assumption
  · with_reducible apply wf_State_endLaunch
    assumption

theorem wf_execTargetLost (pkg : Nat) (s : State) (h_s : MemWf s) :
    OutWf (execTargetLost pkg s) := by
  unfold execTargetLost
  with_reducible refine wf_iteO (fun h1 => ?_) (fun h2 => ?_)
  · with_reducible refine wf_next ?_
    assumption
  · extract_lets x3 x4 x5 x6
    have hx3 : MemWf x3 := by
      unfold x3
      with_reducible apply wf_foldl
      · assumption
      · intro a7
        intro a8
        intro h9
        with_reducible apply wf_State_loseOp
        assumption
    clear_value x3
    have hx4 : MemWf x4 := by
      unfold x4
      with_reducible apply wf_foldl
      · assumption
      · intro a10
        intro a11
        intro h12
        with_reducible apply wf_State_fabReply
        with_reducible apply wf_State_strayEvent
        assumption
    clear_value x4
    clear_value x5
    have hx6 : MemWf x6 := by
      unfold x6
      with_reducible apply wf_lit
      assumption
    clear_value x6
    with_reducible refine wf_next ?_
    with_reducible apply wf_State_settleTxs
    assumption

/-! ### Frame -/

theorem wf_State_wlPut (s : State) (tk : Nat) (va : DWord) (bs : List Byte) (z0 : Wl) (h_s : MemWf s) :
    MemWf (State.wlPut s tk va bs z0) := by
  unfold State.wlPut
  split
  · with_reducible apply wf_foldl
    · with_reducible apply wf_State_markRange
      assumption
    · intro a1
      intro a2
      intro h3
      with_reducible apply wf_State_put
      assumption
  · assumption

theorem wf_State_pushFrame (s : State) (tk : Nat) (e : Entry) (carried : List Word) (dem : Nat) (h_s : MemWf s) :
    MemWf (State.pushFrame s tk e carried dem) := by
  unfold State.pushFrame
  extract_lets x1 x2
  clear_value x1
  have hx2 : MemWf x2 := by
    unfold x2
    split
    · assumption
    · with_reducible apply wf_State_wlPut
      assumption
  clear_value x2
  with_reducible apply wf_State_modThread
  assumption

theorem wf_State_freed (s : State) (core lane n : Nat) (h_s : MemWf s) :
    MemWf (State.freed s core lane n) := by
  unfold State.freed
  with_reducible refine wf_ite (fun h1 => ?_) (fun h2 => ?_)
  · assumption
  · with_reducible apply wf_State_modCore
    assumption

theorem wf_State_freedGroup (s : State) (k : Nat) (h_s : MemWf s) :
    MemWf (State.freedGroup s k) := by
  unfold State.freedGroup
  with_reducible refine wf_ite (fun h1 => ?_) (fun h2 => ?_)
  · assumption
  · with_reducible apply wf_foldl
    · assumption
    · intro a3
      intro a4
      intro h5
      with_reducible apply wf_State_freed
      assumption

theorem wf_State_dropFlights (s : State) (run tk depth : Nat) (h_s : MemWf s) :
    MemWf (State.dropFlights s run tk depth) := by
  unfold State.dropFlights
  with_reducible apply wf_State_modRun
  assumption

theorem wf_State_restoreLoop (s : State) (q : Issue) (tk : Nat) (e : Entry) (h_s : MemWf s) :
    MemWf (State.restoreLoop s q tk e) := by
  unfold State.restoreLoop
  with_reducible apply wf_State_fly
  with_reducible apply wf_State_fly
  assumption

theorem wf_State_way (s : State) (lane : Nat) (w : Way) (h_s : MemWf s) :
    MemWf (State.way s lane w) := by
  unfold State.way
  with_reducible apply wf_lit
  assumption

theorem wf_State_callLane (s : State) (q : Issue) (l : Nat × Nat) (target : DWord) (dem carry : Nat) (mark : Bool) (h_s : MemWf s) :
    MemWf (State.callLane s q l target dem carry mark) := by
  unfold State.callLane
  extract_lets x1 x2
  clear_value x1
  clear_value x2
  with_reducible refine wf_ite (fun h3 => ?_) (fun h4 => ?_)
  · with_reducible apply wf_State_way
    with_reducible apply wf_State_endGroupLaunch
    assumption
  · with_reducible refine wf_ite (fun h5 => ?_) (fun h6 => ?_)
    · split
      · with_reducible apply wf_State_way
        with_reducible apply wf_State_endGroupLaunch
        assumption
      · with_reducible apply wf_State_way
        with_reducible apply wf_State_restoreLoop
        with_reducible apply wf_State_pushFrame
        assumption
    · with_reducible apply wf_State_way
      with_reducible apply wf_State_modCore
      assumption

theorem wf_State_wlStop (s : State) (q : Issue) (z0 : Wl) (h_s : MemWf s) :
    OptWf (State.wlStop s q z0) := by
  unfold State.wlStop
  split
  · exact wf_none
  · refine wf_some ?_
    with_reducible apply wf_State_hold
    assumption
  · refine wf_some ?_
    with_reducible refine wf_ite (fun h1 => ?_) (fun h2 => ?_)
    · with_reducible apply wf_State_leaveIssue
      with_reducible apply wf_State_endGroupLaunch
      assumption
    · with_reducible apply wf_State_holdPage
      assumption
  · refine wf_some ?_
    with_reducible apply wf_State_leaveIssue
    with_reducible apply wf_State_endGroupLaunch
    assumption

theorem wf_frameSlot (s : State) (needs : Issue → Wl) (cond : Issue → Option Cond) (effect : Issue → State) (h_s : MemWf s) (h_effect : ∀ (a0 : Issue), MemWf (effect a0)) :
    OutWf (frameSlot s needs cond effect) := by
  unfold frameSlot
  with_reducible apply wf_withIssue
  · assumption
  · intro a1
    with_reducible refine wf_iteO (fun h2 => ?_) (fun h3 => ?_)
    · with_reducible refine wf_next ?_
      with_reducible apply h_effect
    · split
      · with_reducible refine wf_next ?_
        (refine wf_get (by assumption) ?_)
        with_reducible apply wf_State_wlStop
        assumption
      · split
        · with_reducible refine wf_next ?_
          with_reducible apply wf_State_takeCond
          assumption
        · with_reducible refine wf_next ?_
          with_reducible apply h_effect

theorem wf_execCall (b : BitVec 3) (dem : BitVec 4) (carry : BitVec 3) (mark : Bool) (s : State) (h_s : MemWf s) :
    OutWf (execCall b dem carry mark s) := by
  unfold execCall
  with_reducible apply wf_frameSlot
  · assumption
  · intro a1
    with_reducible apply wf_foldl
    · assumption
    · intro a2
      intro a3
      intro h4
      with_reducible apply wf_State_callLane
      assumption

theorem wf_State_shedStubs (s : State) (q : Issue) (x : BitVec 4) (h_s : MemWf s) :
    MemWf (State.shedStubs s q x).1 := by
  unfold State.shedStubs
  extract_lets x1 x2
  clear_value x1
  clear_value x2
  split
  · dsimp only
    assumption
  · with_reducible refine wf_iteP (fun h3 => ?_) (fun h4 => ?_)
    · dsimp only
      assumption
    · extract_lets x5 x6 x7 x8 x9 x10
      have hx5 : MemWf x5 := by
        unfold x5
        with_reducible apply wf_State_modRun
        with_reducible apply wf_State_landAll
        assumption
      clear_value x5
      have hx6 : MemWf x6 := by
        unfold x6
        with_reducible apply wf_State_leaveRun
        assumption
      clear_value x6
      clear_value x7
      have hx8 : MemWf x8 := by
        unfold x8
        with_reducible apply wf_State_startRun
        assumption
      clear_value x8
      clear_value x9
      have hx10 : MemWf x10 := by
        unfold x10
        with_reducible apply wf_State_takeCond
        assumption
      clear_value x10
      dsimp only
      with_reducible apply wf_lit
      assumption

theorem wf_State_calliLanes (s : State) (q : Issue) (x : BitVec 4) (carry : BitVec 3) (mark : Bool) (h_s : MemWf s) :
    MemWf (State.calliLanes s q x carry mark) := by
  unfold State.calliLanes
  with_reducible apply wf_foldl
  · assumption
  · intro a1
    intro a2
    intro h3
    extract_lets x4 x5
    clear_value x4
    have hx5 : MemWf x5 := by
      unfold x5
      with_reducible refine wf_ite (fun h6 => ?_) (fun h7 => ?_)
      · assumption
      · with_reducible apply wf_State_markRange
        assumption
    clear_value x5
    with_reducible apply wf_State_callLane
    assumption

theorem wf_execCalli (x : BitVec 4) (carry : BitVec 3) (mark : Bool) (s : State) (h_s : MemWf s) :
    OutWf (execCalli x carry mark s) := by
  unfold execCalli
  with_reducible apply wf_withIssue
  · assumption
  · intro a1
    with_reducible refine wf_iteO (fun h2 => ?_) (fun h3 => ?_)
    · with_reducible refine wf_next ?_
      with_reducible apply wf_State_calliLanes
      assumption
    · split
      · with_reducible refine wf_next ?_
        with_reducible apply wf_State_takeCond
        assumption
      · split
        · with_reducible refine wf_next ?_
          with_reducible apply wf_State_takeCond
          assumption
        · extract_lets x4 x5
          clear_value x4
          have hx5 : MemWf x5.1 := by
            unfold x5
            with_reducible apply wf_State_shedStubs
            assumption
          clear_value x5
          split
          · with_reducible refine wf_next ?_
            with_reducible apply wf_State_hold
            assumption
          · split
            · with_reducible refine wf_next ?_
              (refine wf_get (by assumption) ?_)
              with_reducible apply wf_State_wlStop
              assumption
            · with_reducible refine wf_next ?_
              with_reducible apply wf_State_calliLanes
              assumption

theorem wf_State_dropFrames (s : State) (core lane tk n : Nat) (h_s : MemWf s) :
    MemWf (State.dropFrames s core lane tk n) := by
  unfold State.dropFrames
  extract_lets x1 x2
  clear_value x1
  clear_value x2
  with_reducible apply wf_State_freed
  with_reducible apply wf_State_modThread
  assumption

theorem wf_State_askRefill (s : State) (q : Issue) (l : Nat × Nat) (r : RefillReq) (h_s : MemWf s) :
    MemWf (State.askRefill s q l r) := by
  unfold State.askRefill
  with_reducible apply wf_State_way
  with_reducible apply wf_State_modCore
  assumption

theorem wf_State_popTo (s : State) (q : Issue) (l : Nat × Nat) (n : Nat) (e : Entry) (carried : List Word) (h_s : MemWf s) :
    MemWf (State.popTo s q l n e carried) := by
  unfold State.popTo
  extract_lets x1 x2 x3
  clear_value x1
  have hx2 : MemWf x2 := by
    unfold x2
    with_reducible apply wf_State_restoreLoop
    with_reducible apply wf_State_dropFrames
    with_reducible apply wf_State_dropFlights
    assumption
  clear_value x2
  clear_value x3
  with_reducible refine wf_ite (fun h4 => ?_) (fun h5 => ?_)
  · with_reducible apply wf_State_askRefill
    assumption
  · with_reducible apply wf_State_way
    with_reducible apply wf_foldl
    · assumption
    · intro a6
      intro a7
      intro h8
      with_reducible apply wf_State_fly
      assumption

theorem wf_State_popLane (s : State) (q : Issue) (l : Nat × Nat) (n : Nat) (carried : List Word) (h_s : MemWf s) :
    MemWf (State.popLane s q l n carried) := by
  unfold State.popLane
  extract_lets x1 x2
  clear_value x1
  clear_value x2
  with_reducible refine wf_ite (fun h3 => ?_) (fun h4 => ?_)
  · with_reducible apply wf_State_popTo
    assumption
  · with_reducible apply wf_State_askRefill
    assumption

theorem wf_execRet (carry : BitVec 3) (s : State) (h_s : MemWf s) :
    OutWf (execRet carry s) := by
  unfold execRet
  with_reducible apply wf_frameSlot
  · assumption
  · intro a1
    with_reducible apply wf_foldl
    · assumption
    · intro a2
      intro a3
      intro h4
      with_reducible apply wf_State_popLane
      assumption

theorem wf_State_unwindLane (s : State) (q : Issue) (l : Nat × Nat) (n : Nat) (h_s : MemWf s) :
    MemWf (State.unwindLane s q l n) := by
  unfold State.unwindLane
  with_reducible refine wf_ite (fun h1 => ?_) (fun h2 => ?_)
  · with_reducible apply wf_State_way
    assumption
  · with_reducible apply wf_State_popLane
    assumption

theorem wf_execUnwind (x : BitVec 4) (s : State) (h_s : MemWf s) :
    OutWf (execUnwind x s) := by
  unfold execUnwind
  with_reducible apply wf_frameSlot
  · assumption
  · intro a1
    with_reducible apply wf_foldl
    · assumption
    · intro a2
      intro a3
      intro h4
      with_reducible apply wf_State_unwindLane
      assumption

theorem wf_State_readMarks (s : State) (l : Nat × Nat) (h_s : MemWf s) :
    MemWf (State.readMarks s l) := by
  unfold State.readMarks
  extract_lets x1 x2
  clear_value x1
  clear_value x2
  with_reducible apply wf_foldl
  · assumption
  · intro a3
    intro a4
    intro h5
    with_reducible apply wf_State_markRange
    assumption

theorem wf_State_unwindToMark (s : State) (q : Issue) (l : Nat × Nat) (d : Nat) (h_s : MemWf s) :
    MemWf (State.unwindToMark s q l d) := by
  unfold State.unwindToMark
  split
  · with_reducible apply wf_State_popTo
    assumption
  · assumption

theorem wf_execUnwindMark (s : State) (h_s : MemWf s) :
    OutWf (execUnwindMark s) := by
  unfold execUnwindMark
  with_reducible apply wf_withIssue
  · assumption
  · intro a1
    extract_lets x2 x3
    have hx2 : MemWf x2 := by
      unfold x2
      with_reducible apply wf_foldl
      · assumption
      · intro a4
        intro a5
        intro h6
        with_reducible apply wf_State_readMarks
        assumption
    clear_value x2
    have hx3 : MemWf x3 := by
      unfold x3
      with_reducible apply wf_foldl
      · assumption
      · intro a7
        intro a8
        intro h9
        with_reducible apply wf_State_unwindToMark
        assumption
    clear_value x3
    with_reducible refine wf_iteO (fun h10 => ?_) (fun h11 => ?_)
    · with_reducible refine wf_next ?_
      assumption
    · split
      · with_reducible refine wf_next ?_
        (refine wf_get (by assumption) ?_)
        with_reducible apply wf_State_wlStop
        assumption
      · split
        · with_reducible refine wf_next ?_
          with_reducible apply wf_State_takeCond
          assumption
        · with_reducible refine wf_next ?_
          assumption

theorem wf_State_spill (s : State) (core lane : Nat) (v : Nat × Nat) (w : Wl) (h_s : MemWf s) :
    MemWf (State.spill s core lane v w) := by
  unfold State.spill
  extract_lets x1 x2
  clear_value x1
  have hx2 : MemWf x2 := by
    unfold x2
    with_reducible apply wf_State_wlPut
    assumption
  clear_value x2
  with_reducible apply wf_State_freed
  with_reducible apply wf_State_modThread
  assumption

theorem wf_spillUntil (s : State) (core lane need : Nat) (first : Option (Nat × Nat)) (z0 : Nat) (h_s : MemWf s) :
    MemWf (spillUntil s core lane need first z0).1 := by
  induction z0 generalizing s core lane need first with
  | zero =>
    unfold spillUntil
    dsimp only
    assumption
  | succ n ih =>
    unfold spillUntil
    with_reducible refine wf_iteP (fun h1 => ?_) (fun h2 => ?_)
    · dsimp only
      assumption
    · split
      · dsimp only
        assumption
      · split
        · with_reducible apply ih
          with_reducible apply wf_State_spill
          assumption
        · dsimp only
          assumption

theorem wf_State_wlWait (s : State) (tk : Nat) (w : Wl) (h_s : MemWf s) :
    MemWf (State.wlWait s tk w).1 := by
  unfold State.wlWait
  split
  · dsimp only
    with_reducible apply wf_State_endGroupLaunch
    assumption
  · extract_lets x1
    have hx1 : MemWf x1.1 := by
      unfold x1
      with_reducible apply wf_State_raise
      assumption
    clear_value x1
    dsimp only
    assumption
  · dsimp only
    with_reducible apply wf_State_askLine
    assumption
  · dsimp only
    with_reducible apply wf_State_askCopy
    assumption
  · dsimp only
    assumption

theorem wf_State_setWaiter (s : State) (core tk : Nat) (f : Waiter → Option Waiter) (h_s : MemWf s) :
    MemWf (State.setWaiter s core tk f) := by
  unfold State.setWaiter
  with_reducible apply wf_State_modCore
  assumption

theorem wf_State_grantWaiter (s : State) (core : Nat) (w : Waiter) (h_s : MemWf s) :
    MemWf (State.grantWaiter s core w) := by
  unfold State.grantWaiter
  split
  · extract_lets x1 x2
    have hx1 : MemWf x1 := by
      unfold x1
      with_reducible apply wf_State_pushFrame
      assumption
    clear_value x1
    have hx2 : MemWf x2 := by
      unfold x2
      with_reducible apply wf_State_setWaiter
      assumption
    clear_value x2
    with_reducible apply wf_State_release
    with_reducible apply wf_State_modThread
    assumption
  · extract_lets x3
    have hx3 : MemWf x3.1 := by
      unfold x3
      with_reducible apply wf_State_wlWait
      assumption
    clear_value x3
    with_reducible apply wf_State_setWaiter
    assumption

theorem wf_execFrameGrant (core lane : Nat) (s : State) (h_s : MemWf s) :
    OutWf (execFrameGrant core lane s) := by
  unfold execFrameGrant
  split
  · with_reducible refine wf_next ?_
    assumption
  · with_reducible refine wf_iteO (fun h1 => ?_) (fun h2 => ?_)
    · with_reducible refine wf_next ?_
      with_reducible apply wf_State_grantWaiter
      assumption
    · with_reducible refine wf_next ?_
      assumption

theorem wf_State_setSpilling (s : State) (core lane : Nat) (v : Option (Nat × Option (Nat × Nat))) (h_s : MemWf s) :
    MemWf (State.setSpilling s core lane v) := by
  unfold State.setSpilling
  with_reducible apply wf_State_modCore
  assumption

theorem wf_execSpillTimeout (core lane : Nat) (s : State) (h_s : MemWf s) :
    OutWf (execSpillTimeout core lane s) := by
  unfold execSpillTimeout
  split
  · with_reducible refine wf_next ?_
    assumption
  · extract_lets x1 x2 x3
    clear_value x1
    clear_value x2
    have hx3 : MemWf x3.1 := by
      unfold x3
      with_reducible apply wf_spillUntil
      assumption
    clear_value x3
    with_reducible refine wf_iteO (fun h4 => ?_) (fun h5 => ?_)
    · split
      · extract_lets x6
        have hx6 : MemWf x6.1 := by
          unfold x6
          with_reducible apply wf_State_wlWait
          with_reducible apply wf_State_setSpilling
          assumption
        clear_value x6
        with_reducible refine wf_next ?_
        with_reducible apply wf_State_setWaiter
        assumption
      · with_reducible refine wf_next ?_
        with_reducible apply wf_State_setSpilling
        assumption
    · with_reducible refine wf_next ?_
      assumption

theorem wf_State_setRefill (s : State) (core tk : Nat) (f : RefillReq → Option RefillReq) (h_s : MemWf s) :
    MemWf (State.setRefill s core tk f) := by
  unfold State.setRefill
  with_reducible apply wf_State_modCore
  assumption

theorem wf_State_finishRefill (s : State) (core : Nat) (r : RefillReq) (h_s : MemWf s) :
    MemWf (State.finishRefill s core r) := by
  unfold State.finishRefill
  extract_lets x1
  have hx1 : MemWf x1 := by
    unfold x1
    with_reducible apply wf_State_setRefill
    assumption
  clear_value x1
  with_reducible apply wf_State_release
  with_reducible apply wf_State_modThread
  assumption

theorem wf_State_refillFrame (s : State) (core : Nat) (r : RefillReq) (h_s : MemWf s) :
    MemWf (State.refillFrame s core r) := by
  unfold State.refillFrame
  extract_lets x1 x2 x3 x4
  clear_value x1
  clear_value x2
  have hx3 : MemWf x3 := by
    unfold x3
    with_reducible apply wf_State_markRange
    assumption
  clear_value x3
  have hx4 : MemWf x4.1 := by
    unfold x4
    with_reducible apply wf_spillUntil
    assumption
  clear_value x4
  with_reducible refine wf_ite (fun h5 => ?_) (fun h6 => ?_)
  · with_reducible apply wf_State_finishRefill
    assumption
  · split
    · with_reducible refine wf_ite (fun h7 => ?_) (fun h8 => ?_)
      · with_reducible apply wf_State_finishRefill
        with_reducible apply wf_State_modThread
        assumption
      · split
        · extract_lets x9
          have hx9 : MemWf x9.1 := by
            unfold x9
            with_reducible apply wf_State_wlWait
            with_reducible apply wf_State_setSpilling
            assumption
          clear_value x9
          with_reducible apply wf_State_setRefill
          assumption
        · with_reducible apply wf_State_setSpilling
          assumption
    · extract_lets x10
      have hx10 : MemWf x10.1 := by
        unfold x10
        with_reducible apply wf_State_wlWait
        assumption
      clear_value x10
      with_reducible apply wf_State_setRefill
      assumption

theorem wf_execRefill (core lane : Nat) (s : State) (h_s : MemWf s) :
    OutWf (execRefill core lane s) := by
  unfold execRefill
  split
  · with_reducible refine wf_next ?_
    assumption
  · with_reducible refine wf_iteO (fun h1 => ?_) (fun h2 => ?_)
    · with_reducible refine wf_next ?_
      assumption
    · split
      · with_reducible refine wf_next ?_
        with_reducible apply wf_State_refillFrame
        assumption
      · split
        · extract_lets x3 x4 x5 x6
          clear_value x3
          have hx4 : MemWf x4 := by
            unfold x4
            with_reducible apply wf_State_markRange
            assumption
          clear_value x4
          have hx5 : MemWf x5 := by
            unfold x5
            with_reducible apply wf_State_modThread
            with_reducible apply wf_State_dropFrames
            assumption
          clear_value x5
          clear_value x6
          with_reducible refine wf_next ?_
          with_reducible apply wf_State_refillFrame
          with_reducible apply wf_State_setRefill
          assumption
        · extract_lets x7
          have hx7 : MemWf x7.1 := by
            unfold x7
            with_reducible apply wf_State_wlWait
            assumption
          clear_value x7
          with_reducible refine wf_next ?_
          with_reducible apply wf_State_setRefill
          assumption

/-! ### Service -/

theorem wf_State_postService (s : State) (q : Issue) (num : BitVec 16) (h_s : MemWf s) :
    MemWf (State.postService s q num) := by
  unfold State.postService
  with_reducible apply wf_State_bumpSeq
  with_reducible apply wf_State_modCore
  assumption

theorem wf_State_writeSvcRecord (s : State) (core : Nat) (q : SvcReq) (h_s : MemWf s) :
    MemWf (State.writeSvcRecord s core q) := by
  unfold State.writeSvcRecord
  extract_lets x1
  clear_value x1
  with_reducible refine wf_ite (fun h2 => ?_) (fun h3 => ?_)
  · assumption
  · with_reducible refine wf_ite (fun h4 => ?_) (fun h5 => ?_)
    · with_reducible apply wf_State_askFor
      assumption
    · with_reducible apply wf_State_modCore
      with_reducible apply wf_State_hubPut
      assumption

theorem wf_State_writeSvcRecords (s : State) (h_s : MemWf s) :
    MemWf (State.writeSvcRecords s) := by
  unfold State.writeSvcRecords
  with_reducible apply wf_foldl
  · assumption
  · intro a1
    intro a2
    intro h3
    with_reducible apply wf_foldl
    · assumption
    · intro a4
      intro a5
      intro h6
      with_reducible apply wf_State_writeSvcRecord
      assumption

theorem wf_State_enterService (s : State) (core : Nat) (q : SvcReq) (rest : List SvcReq) (h_s : MemWf s) :
    MemWf (State.enterService s core q rest) := by
  unfold State.enterService
  extract_lets x1 x2 x3 x4
  have hx1 : MemWf x1 := by
    unfold x1
    with_reducible apply wf_State_modCore
    assumption
  clear_value x1
  have hx2 : MemWf x2 := by
    unfold x2
    with_reducible apply wf_State_setGroup
    assumption
  clear_value x2
  clear_value x3
  have hx4 : MemWf x4 := by
    unfold x4
    with_reducible apply wf_foldl
    · assumption
    · intro a5
      intro a6
      intro h7
      with_reducible apply wf_State_setThread
      assumption
  clear_value x4
  with_reducible apply wf_State_startRun
  assumption

theorem wf_State_noteYield (s : State) (q : Issue) (h_s : MemWf s) :
    MemWf (State.noteYield s q) := by
  unfold State.noteYield
  with_reducible apply wf_State_modCore
  assumption

theorem wf_execServiceEntry (core : Nat) (s : State) (h_s : MemWf s) :
    OutWf (execServiceEntry core s) := by
  unfold execServiceEntry
  split
  · with_reducible refine wf_next ?_
    assumption
  · with_reducible refine wf_next ?_
    with_reducible refine wf_ite (fun h1 => ?_) (fun h2 => ?_)
    · with_reducible apply wf_State_enterService
      assumption
    · assumption

theorem wf_execServiceDeadline (core : Nat) (s : State) (h_s : MemWf s) :
    OutWf (execServiceDeadline core s) := by
  unfold execServiceDeadline
  split
  · with_reducible refine wf_next ?_
    assumption
  · with_reducible refine wf_next ?_
    with_reducible refine wf_ite (fun h1 => ?_) (fun h2 => ?_)
    · with_reducible apply wf_State_enterService
      assumption
    · assumption

theorem wf_State_settleShadow (s : State) (k tk : Nat) (h_s : MemWf s) :
    MemWf (State.settleShadow s k tk) := by
  unfold State.settleShadow
  extract_lets x1 x2
  clear_value x1
  have hx2 : ∀ a0 , MemWf a0 → MemWf (x2 a0) := by
    intros
    unfold x2
    with_reducible apply wf_State_modGroup
    assumption
  clear_value x2
  with_reducible refine wf_ite (fun h3 => ?_) (fun h4 => ?_)
  · assumption
  · split
    · extract_lets x5
      clear_value x5
      with_reducible refine wf_ite (fun h6 => ?_) (fun h7 => ?_)
      · with_reducible apply wf_State_askFor
        assumption
      · with_reducible refine wf_ite (fun h8 => ?_) (fun h9 => ?_)
        · assumption
        · with_reducible apply hx2
          with_reducible apply wf_foldl
          · with_reducible apply wf_State_markRange
            assumption
          · intro a10
            intro a11
            intro h12
            with_reducible apply wf_State_put
            assumption
    · with_reducible refine wf_ite (fun h13 => ?_) (fun h14 => ?_)
      · extract_lets x15
        have hx15 : MemWf x15.1 := by
          unfold x15
          with_reducible apply wf_State_raise
          assumption
        clear_value x15
        with_reducible apply wf_State_modGroup
        assumption
      · with_reducible apply hx2
        with_reducible apply wf_State_endGroupLaunch
        assumption

theorem wf_State_settleShadows (s : State) (h_s : MemWf s) :
    MemWf (State.settleShadows s) := by
  unfold State.settleShadows
  with_reducible apply wf_foldl
  · assumption
  · intro a1
    intro a2
    intro h3
    with_reducible apply wf_foldl
    · assumption
    · intro a4
      intro a5
      intro h6
      with_reducible apply wf_State_settleShadow
      assumption

theorem wf_State_endService (s : State) (core : Nat) (h_s : MemWf s) :
    MemWf (State.endService s core) := by
  unfold State.endService
  split
  · assumption
  · extract_lets x1 x2 x3
    clear_value x1
    clear_value x2
    have hx3 : MemWf x3 := by
      unfold x3
      with_reducible apply wf_State_clearService
      with_reducible apply wf_State_hubSeen
      assumption
    clear_value x3
    with_reducible apply wf_foldl
    · assumption
    · intro a4
      intro a5
      intro h6
      with_reducible apply wf_State_noteShadow
      with_reducible apply wf_State_release
      with_reducible apply wf_State_modThread
      assumption

/-! ### Fetch -/

theorem wf_State_keepCode (s : State) (core pa : Nat) (h_s : MemWf s) :
    MemWf (State.keepCode s core pa) := by
  unfold State.keepCode
  extract_lets x1
  clear_value x1
  with_reducible apply wf_State_modCore
  assumption

theorem wf_State_fetched (s : State) (core g : Nat) (va : DWord) (len : Nat) (locs : List Nat) (h_s : MemWf s) :
    MemWf (State.fetched s core g va len locs) := by
  unfold State.fetched
  with_reducible refine wf_ite (fun h1 => ?_) (fun h2 => ?_)
  · assumption
  · with_reducible apply wf_State_markRange
    with_reducible apply wf_foldl
    · assumption
    · intro a3
      intro a4
      intro h5
      with_reducible apply wf_State_keepCode
      assumption

theorem wf_State_markPages (s : State) (g : Nat) (va : DWord) (len : Nat) (h_s : MemWf s) :
    MemWf (State.markPages s g va len) := by
  unfold State.markPages
  with_reducible apply wf_foldl
  · assumption
  · intro a1
    intro a2
    intro h3
    with_reducible apply wf_State_markRange
    assumption

/-! ### Swap -/

theorem wf_State_markMap (s : State) (q : Issue) (tk : Nat) (va : DWord) (h_s : MemWf s) :
    MemWf (State.markMap s q tk va) := by
  unfold State.markMap
  split
  · assumption
  · with_reducible apply wf_State_markPages
    with_reducible apply wf_State_markPages
    assumption

theorem wf_execDswap (xa : BitVec 4) (g : Guard) (s : State) (h_s : MemWf s) :
    OutWf (execDswap xa g s) := by
  unfold execDswap
  with_reducible apply wf_slotCond
  · assumption
  · intro a1
    split
    · with_reducible refine wf_next ?_
      assumption
    · extract_lets x2 x3
      clear_value x2
      have hx3 : MemWf x3 := by
        unfold x3
        with_reducible apply wf_State_withdrawSwap
        assumption
      clear_value x3
      with_reducible refine wf_iteO (fun h4 => ?_) (fun h5 => ?_)
      · with_reducible refine wf_next ?_
        assumption
      · split
        · with_reducible refine wf_next ?_
          with_reducible apply wf_State_markMap
          assumption
        · with_reducible refine wf_next ?_
          with_reducible apply wf_State_modGroup
          with_reducible apply wf_State_markMap
          assumption

theorem wf_State_switchKernel (s : State) (k : Nat) (m : YieldMap) (h_s : MemWf s) :
    MemWf (State.switchKernel s k m) := by
  unfold State.switchKernel
  extract_lets x1 x2 x3 x4
  clear_value x1
  clear_value x2
  have hx3 : MemWf x3 := by
    unfold x3
    with_reducible apply wf_State_modCore
    assumption
  clear_value x3
  have hx4 : MemWf x4 := by
    unfold x4
    with_reducible apply wf_State_modGroup
    assumption
  clear_value x4
  with_reducible apply wf_foldl
  · assumption
  · intro a5
    intro a6
    intro h7
    with_reducible apply wf_State_release
    with_reducible apply wf_State_modThread
    assumption

theorem wf_execSwapCommit (group : Nat) (s : State) (h_s : MemWf s) :
    OutWf (execSwapCommit group s) := by
  unfold execSwapCommit
  extract_lets x1
  clear_value x1
  split
  · with_reducible refine wf_next ?_
    assumption
  · with_reducible refine wf_iteO (fun h2 => ?_) (fun h3 => ?_)
    · with_reducible refine wf_next ?_
      assumption
    · with_reducible refine wf_iteO (fun h4 => ?_) (fun h5 => ?_)
      · with_reducible refine wf_next ?_
        with_reducible apply wf_State_switchKernel
        assumption
      · with_reducible refine wf_next ?_
        with_reducible apply wf_State_withdrawSwap
        assumption

/-! ### Sequencer -/

theorem wf_execBr (tests : List Test) (file : Bool) (s : State) (h_s : MemWf s) :
    OutWf (execBr tests file s) := by
  unfold execBr
  with_reducible apply wf_slotNext
  · assumption
  · intro a1
    extract_lets x2
    have hx2 : MemWf x2 := by
      unfold x2
      with_reducible apply wf_lit
      assumption
    clear_value x2
    with_reducible apply wf_foldl
    · assumption
    · intro a3
      intro a4
      intro h5
      split
      · with_reducible apply wf_State_way
        assumption
      · assumption

theorem wf_execLoop (x : BitVec 4) (epi : BitVec 8) (rot : BitVec 3) (s : State) (h_s : MemWf s) :
    OutWf (execLoop x epi rot s) := by
  unfold execLoop
  with_reducible apply wf_slotCond
  · assumption
  · intro a1
    with_reducible refine wf_next ?_
    with_reducible apply wf_State_fly
    assumption

theorem wf_execLoopL1 (x : BitVec 4) (s : State) (h_s : MemWf s) :
    OutWf (execLoopL1 x s) := by
  unfold execLoopL1
  with_reducible apply wf_slotNext
  · assumption
  · intro a1
    with_reducible apply wf_State_fly
    assumption

theorem wf_execLend1 (s : State) (h_s : MemWf s) :
    OutWf (execLend1 s) := by
  unfold execLend1
  with_reducible apply wf_slotNext
  · assumption
  · intro a1
    with_reducible apply wf_foldl
    · assumption
    · intro a2
      intro a3
      intro h4
      extract_lets x5
      clear_value x5
      with_reducible refine wf_ite (fun h6 => ?_) (fun h7 => ?_)
      · with_reducible apply wf_State_way
        assumption
      · with_reducible apply wf_State_way
        with_reducible apply wf_State_fly
        assumption

theorem wf_State_closeLoop (s : State) (q : Issue) (l : Nat × Nat) (h_s : MemWf s) :
    MemWf (State.closeLoop s q l) := by
  unfold State.closeLoop
  split
  · with_reducible apply wf_State_way
    assumption
  · with_reducible apply wf_State_way
    with_reducible apply wf_State_fly
    assumption

theorem wf_execReform (s : State) (h_s : MemWf s) :
    OutWf (execReform s) := by
  unfold execReform
  with_reducible apply wf_slotNext
  · assumption
  · intro a1
    with_reducible apply wf_lit
    assumption

theorem wf_execBar (s : State) (h_s : MemWf s) :
    OutWf (execBar s) := by
  unfold execBar
  with_reducible apply wf_slotCond
  · assumption
  · intro a1
    with_reducible refine wf_next ?_
    with_reducible apply wf_foldl
    · assumption
    · intro a2
      intro a3
      intro h4
      with_reducible apply wf_State_way
      assumption

theorem wf_execTrap (code : BitVec 8) (pred : BitVec 4) (sense : Bool) (s : State) (h_s : MemWf s) :
    OutWf (execTrap code pred sense s) := by
  unfold execTrap
  with_reducible apply wf_slotCond
  · assumption
  · intro a1
    with_reducible refine wf_next ?_
    assumption

theorem wf_execBrk (code : BitVec 8) (s : State) (h_s : MemWf s) :
    OutWf (execBrk code s) := by
  unfold execBrk
  with_reducible apply wf_slotCond
  · assumption
  · intro a1
    with_reducible refine wf_next ?_
    assumption

theorem wf_execSvc (num : BitVec 16) (s : State) (h_s : MemWf s) :
    OutWf (execSvc num s) := by
  unfold execSvc
  with_reducible apply wf_slotHeld
  · assumption
  · intro a1
    with_reducible refine wf_ite (fun h2 => ?_) (fun h3 => ?_)
    · with_reducible apply wf_foldl
      · with_reducible apply wf_State_postService
        assumption
      · intro a4
        intro a5
        intro h6
        with_reducible apply wf_State_way
        assumption
    · extract_lets x7
      have hx7 : MemWf x7 := by
        unfold x7
        with_reducible apply wf_State_fly
        assumption
      clear_value x7
      with_reducible apply wf_lit
      assumption

theorem wf_State_noteExit (s : State) (core : Nat) (h_s : MemWf s) :
    MemWf (State.noteExit s core) := by
  unfold State.noteExit
  with_reducible apply wf_State_modCore
  assumption

theorem wf_State_endThread (s : State) (tk : Nat) (h_s : MemWf s) :
    MemWf (State.endThread s tk) := by
  unfold State.endThread
  extract_lets x1 x2 x3 x4
  clear_value x1
  have hx2 : MemWf x2 := by
    unfold x2
    with_reducible apply wf_State_freed
    assumption
  clear_value x2
  have hx3 : MemWf x3 := by
    unfold x3
    with_reducible apply wf_State_modThread
    assumption
  clear_value x3
  have hx4 : MemWf x4 := by
    unfold x4
    with_reducible apply wf_lit
    assumption
  clear_value x4
  with_reducible apply wf_State_noteExit
  with_reducible apply wf_State_endTx
  assumption

theorem wf_State_exitService (s : State) (q : Issue) (h_s : MemWf s) :
    MemWf (State.exitService s q) := by
  unfold State.exitService
  extract_lets x1
  have hx1 : MemWf x1 := by
    unfold x1
    with_reducible apply wf_foldl
    · with_reducible apply wf_State_leaveRun
      assumption
    · intro a2
      intro a3
      intro h4
      with_reducible apply wf_State_modThread
      with_reducible apply wf_State_endTx
      assumption
  clear_value x1
  with_reducible refine wf_ite (fun h5 => ?_) (fun h6 => ?_)
  · with_reducible apply wf_State_endService
    assumption
  · assumption

theorem wf_State_landShapes (s : State) (run : Nat) (h_s : MemWf s) :
    MemWf (State.landShapes s run) := by
  unfold State.landShapes
  split
  · assumption
  · with_reducible apply wf_State_landAll
    assumption

theorem wf_execExit (s : State) (h_s : MemWf s) :
    OutWf (execExit s) := by
  unfold execExit
  with_reducible apply wf_slotCond
  · assumption
  · intro a1
    with_reducible refine wf_iteO (fun h2 => ?_) (fun h3 => ?_)
    · split
      · with_reducible refine wf_next ?_
        with_reducible apply wf_State_hold
        assumption
      · with_reducible refine wf_next ?_
        with_reducible apply wf_State_exitService
        assumption
    · extract_lets x4
      have hx4 : MemWf x4 := by
        unfold x4
        with_reducible apply wf_foldl
        · with_reducible apply wf_State_leaveRun
          with_reducible apply wf_State_landShapes
          assumption
        · intro a5
          intro a6
          intro h7
          with_reducible apply wf_State_endThread
          assumption
      clear_value x4
      with_reducible refine wf_next ?_
      with_reducible apply wf_State_barCheck
      assumption

theorem wf_State_clearGroup (s : State) (g : Nat) (h_s : MemWf s) :
    MemWf (State.clearGroup s g) := by
  unfold State.clearGroup
  extract_lets x1
  have hx1 : MemWf x1 := by
    unfold x1
    with_reducible apply wf_State_freedGroup
    assumption
  clear_value x1
  with_reducible apply wf_lit
  assumption

theorem wf_State_freePool (s : State) (t addr : Nat) (h_s : MemWf s) :
    MemWf (State.freePool s t addr) := by
  unfold State.freePool
  with_reducible apply wf_lit
  assumption

theorem wf_State_endGroup (s : State) (k : Nat) (h_s : MemWf s) :
    MemWf (State.endGroup s k) := by
  unfold State.endGroup
  extract_lets x1 x2 x3
  clear_value x1
  have hx2 : MemWf x2 := by
    unfold x2
    split
    · with_reducible apply wf_State_freePool
      assumption
    · assumption
  clear_value x2
  have hx3 : MemWf x3 := by
    unfold x3
    split
    · with_reducible apply wf_State_freePool
      assumption
    · assumption
  clear_value x3
  with_reducible apply wf_State_modLaunch
  with_reducible apply wf_State_setGroup
  with_reducible apply wf_State_clearGroup
  assumption

theorem wf_execGroupEnd (group : Nat) (s : State) (h_s : MemWf s) :
    OutWf (execGroupEnd group s) := by
  unfold execGroupEnd
  extract_lets x1
  clear_value x1
  with_reducible refine wf_iteO (fun h2 => ?_) (fun h3 => ?_)
  · with_reducible refine wf_next ?_
    with_reducible apply wf_State_endGroup
    assumption
  · with_reducible refine wf_next ?_
    assumption

theorem wf_State_defaultWays (s : State) (q : Issue) (h_s : MemWf s) :
    MemWf (State.defaultWays s q) := by
  unfold State.defaultWays
  with_reducible apply wf_foldl
  · assumption
  · intro a1
    intro a2
    intro h3
    with_reducible refine wf_ite (fun h4 => ?_) (fun h5 => ?_)
    · assumption
    · with_reducible refine wf_ite (fun h6 => ?_) (fun h7 => ?_)
      · with_reducible apply wf_State_closeLoop
        assumption
      · with_reducible apply wf_State_way
        assumption

theorem wf_State_noteSwapDue (s : State) (q : Issue) (ways : List (Nat × Way)) (h_s : MemWf s) :
    MemWf (State.noteSwapDue s q ways) := by
  unfold State.noteSwapDue
  with_reducible refine wf_ite (fun h1 => ?_) (fun h2 => ?_)
  · assumption
  · with_reducible apply wf_foldl
    · assumption
    · intro a3
      intro a4
      intro h5
      split
      · with_reducible refine wf_ite (fun h6 => ?_) (fun h7 => ?_)
        · assumption
        · with_reducible apply wf_State_modThread
          assumption
      · assumption

theorem wf_State_yieldStop (s : State) (q : Issue) (h_s : MemWf s) :
    MemWf (State.yieldStop s q) := by
  unfold State.yieldStop
  with_reducible refine wf_ite (fun h1 => ?_) (fun h2 => ?_)
  · with_reducible apply wf_State_modGroup
    assumption
  · assumption

theorem wf_State_finishIssue (s : State) (h_s : MemWf s) :
    MemWf (State.finishIssue s) := by
  unfold State.finishIssue
  split
  · assumption
  · extract_lets x1 x2
    have hx1 : MemWf x1 := by
      unfold x1
      with_reducible apply wf_State_endWait
      with_reducible apply wf_State_yieldStop
      with_reducible apply wf_State_noteYield
      assumption
    clear_value x1
    have hx2 : MemWf x2 := by
      unfold x2
      with_reducible apply wf_State_defaultWays
      assumption
    clear_value x2
    split
    · with_reducible apply wf_State_leaveIssue
      assumption
    · split
      · extract_lets x3 x4 x5 x6
        clear_value x3
        have hx4 : MemWf x4 := by
          unfold x4
          with_reducible apply wf_State_noteSwapDue
          with_reducible apply wf_foldl
          · assumption
          · intro a7
            intro a8
            intro h9
            with_reducible apply wf_State_modThread
            assumption
        clear_value x4
        have hx5 : MemWf x5 := by
          unfold x5
          with_reducible apply wf_State_modRun
          assumption
        clear_value x5
        have hx6 : MemWf x6 := by
          unfold x6
          with_reducible apply wf_State_leaveIssue
          assumption
        clear_value x6
        split
        · with_reducible apply wf_State_modRun
          assumption
        · split
          · with_reducible apply wf_State_settleRun
            with_reducible apply wf_State_modRun
            assumption
          · assumption
      · with_reducible apply wf_State_leaveIssue
        assumption

/-! ### Resume -/

theorem wf_State_takeResumeStop (s : State) (q : Issue) (z0 : ResumeStop) (h_s : MemWf s) :
    MemWf (State.takeResumeStop s q z0) := by
  unfold State.takeResumeStop
  split
  · with_reducible apply wf_State_takeCond
    assumption
  · with_reducible refine wf_ite (fun h1 => ?_) (fun h2 => ?_)
    · with_reducible apply wf_State_leaveIssue
      with_reducible apply wf_State_endGroupLaunch
      assumption
    · with_reducible apply wf_State_holdPage
      assumption
  · with_reducible apply wf_State_leaveIssue
    with_reducible apply wf_State_endGroupLaunch
    assumption

theorem wf_State_reloadThread (s : State) (q : Issue) (tk : Nat) (h_s : MemWf s) :
    MemWf (State.reloadThread s q tk) := by
  unfold State.reloadThread
  split
  · with_reducible apply wf_State_modThread
    with_reducible apply wf_State_markRange
    assumption
  · assumption

theorem wf_State_resume (s : State) (q : Issue) (r : TrapRec) (a : DWord) (bs : List Byte) (h_s : MemWf s) :
    MemWf (State.resume s q r a bs) := by
  unfold State.resume
  extract_lets x1 x2 x3 x4 x5 x6 x7
  clear_value x1
  clear_value x2
  have hx3 : MemWf x3 := by
    unfold x3
    with_reducible apply wf_foldl
    · assumption
    · intro a8
      intro a9
      intro h10
      with_reducible apply wf_State_reloadThread
      assumption
  clear_value x3
  clear_value x4
  have hx5 : MemWf x5 := by
    unfold x5
    with_reducible apply wf_State_leaveRun
    assumption
  clear_value x5
  have hx6 : MemWf x6 := by
    unfold x6
    with_reducible apply wf_lit
    assumption
  clear_value x6
  clear_value x7
  with_reducible refine wf_ite (fun h11 => ?_) (fun h12 => ?_)
  · with_reducible apply wf_State_startRun
    assumption
  · with_reducible apply wf_State_modRun
    with_reducible apply wf_State_startRun
    assumption

theorem wf_execResumeSlots (xa xb : BitVec 4) (g : Guard) (s : State) (h_s : MemWf s) :
    OutWf (execResumeSlots xa xb g s) := by
  unfold execResumeSlots
  with_reducible apply wf_withIssue
  · assumption
  · intro a1
    split
    · with_reducible refine wf_next ?_
      with_reducible apply wf_State_takeResumeStop
      assumption
    · split
      · with_reducible refine wf_next ?_
        assumption
      · extract_lets x2 x3
        clear_value x2
        clear_value x3
        split
        · with_reducible refine wf_next ?_
          with_reducible apply wf_State_resume
          with_reducible apply wf_State_markPages
          assumption
        · with_reducible refine wf_next ?_
          assumption

/-! ### BundleIssue -/

theorem wf_State_latchOne (s : State) (q : Issue) (pos : Nat) (h_s : MemWf s) :
    MemWf (State.latchOne s q pos) := by
  unfold State.latchOne
  with_reducible apply wf_lit
  assumption

theorem wf_State_freeBin (s : State) (core run : Nat) (h_s : MemWf s) :
    MemWf (State.freeBin s core run) := by
  unfold State.freeBin
  with_reducible apply wf_State_modCore
  assumption

theorem wf_State_latchAll (s : State) (q : Issue) (is : List (Nat × Instr)) (h_s : MemWf s) :
    MemWf (State.latchAll s q is) := by
  unfold State.latchAll
  extract_lets x1 x2
  have hx1 : MemWf x1 := by
    unfold x1
    with_reducible apply wf_State_freeBin
    assumption
  clear_value x1
  have hx2 : MemWf x2 := by
    unfold x2
    with_reducible apply wf_lit
    assumption
  clear_value x2
  with_reducible refine wf_ite (fun h3 => ?_) (fun h4 => ?_)
  · with_reducible apply wf_State_finishIssue
    assumption
  · assumption

theorem wf_State_latchCalli (s : State) (q : Issue) (is : List (Nat × Instr)) (x : BitVec 4) (h_s : MemWf s) :
    MemWf (State.latchCalli s q is x).1 := by
  unfold State.latchCalli
  extract_lets x1 x2 x3
  clear_value x1
  clear_value x2
  have hx3 : MemWf x3.1 := by
    unfold x3
    with_reducible apply wf_State_shedStubs
    assumption
  clear_value x3
  split
  · dsimp only
    with_reducible apply wf_State_hold
    assumption
  · split
    · dsimp only
      (refine wf_get (by assumption) ?_)
      with_reducible apply wf_State_wlStop
      assumption
    · dsimp only
      with_reducible apply wf_State_latchAll
      assumption

theorem wf_State_tryBundle (s : State) (q : Issue) (is : List (Nat × Instr)) (h_s : MemWf s) :
    MemWf (State.tryBundle s q is).1 := by
  unfold State.tryBundle
  split
  · dsimp only
    with_reducible apply wf_State_latchOne
    assumption
  · split
    · dsimp only
      with_reducible apply wf_State_hold
      assumption
    · split
      · dsimp only
        with_reducible apply wf_State_latchOne
        assumption
      · split
        · with_reducible apply wf_State_latchCalli
          assumption
        · split
          · dsimp only
            (refine wf_get (by assumption) ?_)
            with_reducible apply wf_State_wlStop
            assumption
          · dsimp only
            with_reducible apply wf_State_latchAll
            assumption

theorem wf_State_tryCond (s : State) (q : Issue) (c : Cond) (h_s : MemWf s) :
    MemWf (State.tryCond s q c).1 := by
  unfold State.tryCond
  extract_lets x1
  have hx1 : MemWf x1 := by
    unfold x1
    with_reducible apply wf_State_takeCond
    assumption
  clear_value x1
  dsimp only
  assumption

theorem wf_State_tryRun (s : State) (r : Run) (h_s : MemWf s) :
    MemWf (State.tryRun s r).1 := by
  unfold State.tryRun
  split
  · dsimp only
    with_reducible apply wf_State_hold
    assumption
  · extract_lets x1 x2
    have hx1 : MemWf x1 := by
      unfold x1
      with_reducible apply wf_State_bumpSeq
      with_reducible apply wf_State_landDue
      assumption
    clear_value x1
    clear_value x2
    split
    · dsimp only
      with_reducible apply wf_State_hold
      assumption
    · with_reducible apply wf_State_tryCond
      assumption
    · split
      · dsimp only
        with_reducible apply wf_State_hold
        assumption
      · extract_lets x3 x4 x5
        have hx3 : MemWf x3 := by
          unfold x3
          with_reducible apply wf_State_modRun
          with_reducible apply wf_State_fetched
          assumption
        clear_value x3
        clear_value x4
        clear_value x5
        split
        · dsimp only
          with_reducible apply wf_State_hold
          assumption
        · split
          · dsimp only
            (refine wf_get (by assumption) ?_)
            with_reducible apply wf_State_wlStop
            assumption
          · split
            · with_reducible apply wf_State_tryCond
              assumption
            · with_reducible apply wf_State_tryBundle
              assumption

theorem wf_State_freeHolds (s : State) (h_s : MemWf s) :
    MemWf (State.freeHolds s) := by
  unfold State.freeHolds
  with_reducible apply wf_lit
  assumption

theorem wf_State_tryCandidate (s : State) (core : Nat) (c : Candidate) (h_s : MemWf s) :
    MemWf (State.tryCandidate s core c).1 := by
  unfold State.tryCandidate
  split
  · split
    · with_reducible apply wf_State_tryRun
      assumption
    · dsimp only
      assumption
  · extract_lets x1 x2
    clear_value x1
    have hx2 : MemWf x2 := by
      unfold x2
      with_reducible apply wf_State_startRun
      with_reducible apply wf_State_modCore
      assumption
    clear_value x2
    split
    · with_reducible apply wf_State_tryRun
      assumption
    · dsimp only
      assumption

theorem wf_State_holdRest (s : State) (core : Nat) (rest : List Candidate) (h_s : MemWf s) :
    MemWf (State.holdRest s core rest) := by
  unfold State.holdRest
  with_reducible apply wf_foldl
  · assumption
  · intro a1
    intro a2
    intro h3
    extract_lets x4 x5
    have hx4 : MemWf x4.1 := by
      unfold x4
      with_reducible apply wf_State_tryCandidate
      assumption
    clear_value x4
    have hx5 : MemWf x5 := by
      unfold x5
      assumption
    clear_value x5
    with_reducible refine wf_ite (fun h6 => ?_) (fun h7 => ?_)
    · assumption
    · with_reducible apply wf_lit
      assumption

theorem wf_tryAll (s : State) (core : Nat) (z0 : List Candidate) (h_s : MemWf s) :
    MemWf (tryAll s core z0) := by
  induction z0 generalizing s core with
  | nil =>
    unfold tryAll
    assumption
  | cons y ys ih =>
    unfold tryAll
    extract_lets x1
    have hx1 : MemWf x1.1 := by
      unfold x1
      with_reducible apply wf_State_tryCandidate
      assumption
    clear_value x1
    with_reducible refine wf_ite (fun h2 => ?_) (fun h3 => ?_)
    · with_reducible apply wf_State_modCore
      with_reducible apply wf_State_holdRest
      assumption
    · with_reducible apply ih
      assumption

theorem wf_execBundleIssue (core : Nat) (s : State) (h_s : MemWf s) :
    OutWf (execBundleIssue core s) := by
  unfold execBundleIssue
  with_reducible refine wf_iteO (fun h1 => ?_) (fun h2 => ?_)
  · with_reducible refine wf_next ?_
    assumption
  · extract_lets x3
    have hx3 : MemWf x3 := by
      unfold x3
      with_reducible apply wf_State_sendSignals
      with_reducible apply wf_State_settleCore
      assumption
    clear_value x3
    with_reducible refine wf_next ?_
    with_reducible apply wf_tryAll
    assumption

theorem wf_execBinAged (core bin : Nat) (s : State) (h_s : MemWf s) :
    OutWf (execBinAged core bin s) := by
  unfold execBinAged
  split
  · with_reducible refine wf_next ?_
    assumption
  · with_reducible refine wf_iteO (fun h1 => ?_) (fun h2 => ?_)
    · with_reducible refine wf_next ?_
      with_reducible apply wf_State_modCore
      assumption
    · with_reducible refine wf_next ?_
      assumption

theorem wf_State_readPiece (s : State) (id tk at_ : Nat) (h_s : MemWf s) :
    MemWf (State.readPiece s id tk at_) := by
  unfold State.readPiece
  split
  · assumption
  · split
    · assumption
    · with_reducible refine wf_ite (fun h1 => ?_) (fun h2 => ?_)
      · assumption
      · with_reducible apply wf_State_readCopy
        with_reducible apply wf_lit
        assumption

theorem wf_State_readPieces (s : State) (a : Access) (f : Nat → Nat → Bool) (h_s : MemWf s) :
    MemWf (State.readPieces s a f) := by
  unfold State.readPieces
  with_reducible apply wf_foldl
  · assumption
  · intro a1
    intro a2
    intro h3
    with_reducible apply wf_State_readPiece
    assumption

theorem wf_State_readSome (s : State) (h_s : MemWf s) :
    MemWf (State.readSome s) := by
  unfold State.readSome
  with_reducible apply wf_foldl
  · assumption
  · intro a1
    intro a2
    intro h3
    with_reducible apply wf_State_readPieces
    assumption

theorem wf_State_arriveAll (s : State) (a : Access) (h_s : MemWf s) :
    MemWf (State.arriveAll s a) := by
  unfold State.arriveAll
  extract_lets x1
  clear_value x1
  with_reducible apply wf_lit
  assumption

theorem wf_execLoadValueArrives (flight : Nat) (s : State) (h_s : MemWf s) :
    OutWf (execLoadValueArrives flight s) := by
  unfold execLoadValueArrives
  split
  · with_reducible refine wf_next ?_
    assumption
  · with_reducible refine wf_iteO (fun h1 => ?_) (fun h2 => ?_)
    · with_reducible refine wf_next ?_
      with_reducible apply wf_State_askFor
      assumption
    · extract_lets x3
      have hx3 : MemWf x3 := by
        unfold x3
        with_reducible apply wf_State_readPieces
        assumption
      clear_value x3
      split
      · with_reducible refine wf_next ?_
        assumption
      · with_reducible refine wf_iteO (fun h4 => ?_) (fun h5 => ?_)
        · with_reducible refine wf_next ?_
          with_reducible apply wf_State_settleCore
          with_reducible apply wf_State_arriveAll
          assumption
        · with_reducible refine wf_next ?_
          assumption

/-! ### Accept -/

theorem wf_State_markReads (s : State) (t : Nat) (rs : List (DWord × Nat)) (h_s : MemWf s) :
    MemWf (State.markReads s t rs) := by
  unfold State.markReads
  with_reducible apply wf_foldl
  · with_reducible apply wf_foldl
    · assumption
    · intro a1
      intro a2
      intro h3
      with_reducible apply wf_State_markUsed
      assumption
  · intro a4
    intro a5
    intro h6
    with_reducible apply wf_State_sawVa
    assumption

theorem wf_State_dropStream (s : State) (t : Nat) (k : Kernel) (h_s : MemWf s) :
    MemWf (State.dropStream s t k) := by
  unfold State.dropStream
  extract_lets x1 x2
  clear_value x1
  clear_value x2
  with_reducible apply wf_State_dropCode
  assumption

theorem wf_State_evalCond (s : State) (l : Launch) (h_s : MemWf s) :
    MemWf (State.evalCond s l) := by
  unfold State.evalCond
  with_reducible refine wf_ite (fun h1 => ?_) (fun h2 => ?_)
  · assumption
  · split
    · extract_lets x3 x4
      clear_value x3
      have hx4 : MemWf x4 := by
        unfold x4
        with_reducible apply wf_State_homeReads
        with_reducible apply wf_State_markUsed
        assumption
      clear_value x4
      with_reducible refine wf_ite (fun h5 => ?_) (fun h6 => ?_)
      · with_reducible apply wf_State_askFor
        assumption
      · with_reducible refine wf_ite (fun h7 => ?_) (fun h8 => ?_)
        · assumption
        · with_reducible refine wf_ite (fun h9 => ?_) (fun h10 => ?_)
          · with_reducible apply wf_State_modLaunch
            assumption
          · assumption
    · with_reducible apply wf_State_endLaunch
      assumption
    · with_reducible refine wf_ite (fun h11 => ?_) (fun h12 => ?_)
      · extract_lets x13
        have hx13 : MemWf x13.1 := by
          unfold x13
          with_reducible apply wf_State_raise
          assumption
        clear_value x13
        with_reducible apply wf_State_modLaunch
        assumption
      · with_reducible apply wf_State_endLaunch
        assumption

theorem wf_State_settleReady (s : State) (h_s : MemWf s) :
    MemWf (State.settleReady s) := by
  unfold State.settleReady
  with_reducible apply wf_lit
  assumption

theorem wf_State_settleConds (s : State) (h_s : MemWf s) :
    MemWf (State.settleConds s) := by
  unfold State.settleConds
  with_reducible apply wf_State_settleReady
  with_reducible apply wf_foldl
  · assumption
  · intro a1
    intro a2
    intro h3
    split
    · with_reducible apply wf_State_evalCond
      assumption
    · assumption

theorem wf_State_accept (s : State) (tenant : Nat) (ws : List DWord) (h_s : MemWf s) :
    MemWf (State.accept s tenant ws).1 := by
  unfold State.accept
  extract_lets x1
  clear_value x1
  split
  · dsimp only
    assumption
  · dsimp only
    assumption
  · extract_lets x2 x3 x4 x5
    clear_value x2
    have hx3 : MemWf x3 := by
      unfold x3
      with_reducible apply wf_State_dropStream
      with_reducible apply wf_State_markReads
      assumption
    clear_value x3
    clear_value x4
    have hx5 : MemWf x5 := by
      unfold x5
      with_reducible apply wf_lit
      assumption
    clear_value x5
    dsimp only
    with_reducible apply wf_State_settleReady
    with_reducible apply wf_State_evalCond
    assumption

theorem wf_execMemoryConditionPoll (launch : Nat) (s : State) (h_s : MemWf s) :
    OutWf (execMemoryConditionPoll launch s) := by
  unfold execMemoryConditionPoll
  split
  · with_reducible refine wf_next ?_
    assumption
  · with_reducible refine wf_next ?_
    with_reducible apply wf_State_settleReady
    with_reducible apply wf_State_evalCond
    assumption

theorem wf_State_setCell (s : State) (k : Nat) (c : Cell) (h_s : MemWf s) :
    MemWf (State.setCell s k c) := by
  unfold State.setCell
  with_reducible apply wf_lit
  assumption

theorem wf_State_writeCell (s : State) (k off : Nat) (bytes : List Byte) (h_s : MemWf s) :
    MemWf (State.writeCell s k off bytes) := by
  unfold State.writeCell
  with_reducible refine wf_ite (fun h1 => ?_) (fun h2 => ?_)
  · assumption
  · extract_lets x3
    clear_value x3
    with_reducible apply wf_State_setCell
    assumption

theorem wf_execLaunchWindowWrite (tenant : BitVec 6) (cell : BitVec 5) (off : BitVec 7) (bytes : List (BitVec 8)) (s : State) (h_s : MemWf s) :
    OutWf (execLaunchWindowWrite tenant cell off bytes s) := by
  unfold execLaunchWindowWrite
  with_reducible refine wf_iteO (fun h1 => ?_) (fun h2 => ?_)
  · with_reducible refine wf_next ?_
    with_reducible apply wf_State_writeCell
    assumption
  · with_reducible refine wf_next ?_
    assumption

theorem wf_State_takeCell (s : State) (tenant k : Nat) (h_s : MemWf s) :
    MemWf (State.takeCell s tenant k) := by
  unfold State.takeCell
  extract_lets x1 x2
  have hx1 : MemWf x1.1 := by
    unfold x1
    with_reducible apply wf_State_accept
    assumption
  clear_value x1
  clear_value x2
  with_reducible apply wf_State_setCell
  assumption

theorem wf_execLaunchWindowRead (tenant : BitVec 6) (cell : BitVec 5) (off : BitVec 7) (len : Nat) (s : State) (h_s : MemWf s) :
    OutWf (execLaunchWindowRead tenant cell off len s) := by
  unfold execLaunchWindowRead
  extract_lets x1 x2
  clear_value x1
  have hx2 : MemWf x2 := by
    unfold x2
    with_reducible refine wf_ite (fun h3 => ?_) (fun h4 => ?_)
    · assumption
    · with_reducible apply wf_State_takeCell
      assumption
  clear_value x2
  with_reducible refine wf_iteO (fun h5 => ?_) (fun h6 => ?_)
  · with_reducible refine wf_next ?_
    with_reducible apply wf_State_send
    assumption
  · with_reducible refine wf_iteO (fun h7 => ?_) (fun h8 => ?_)
    · with_reducible refine wf_next ?_
      with_reducible apply wf_State_send
      assumption
    · with_reducible refine wf_iteO (fun h9 => ?_) (fun h10 => ?_)
      · with_reducible refine wf_next ?_
        with_reducible apply wf_State_askFor
        assumption
      · with_reducible refine wf_next ?_
        with_reducible apply wf_State_send
        assumption

theorem wf_State_takeLane (s : State) (tenant : Nat) (l : Nat × Nat × List DWord) (h_s : MemWf s) :
    MemWf (State.takeLane s tenant l) := by
  unfold State.takeLane
  extract_lets x1
  have hx1 : MemWf x1.1 := by
    unfold x1
    with_reducible apply wf_State_accept
    assumption
  clear_value x1
  with_reducible apply wf_State_answerHub
  assumption

theorem wf_State_takeBatch (s : State) (t : Nat) (b : Batch) (h_s : MemWf s) :
    MemWf (State.takeBatch s t b) := by
  unfold State.takeBatch
  extract_lets x1 x2
  clear_value x1
  have hx2 : MemWf x2 := by
    unfold x2
    with_reducible apply wf_foldl
    · with_reducible apply wf_lit
      assumption
    · intro a3
      intro a4
      intro h5
      with_reducible apply wf_State_homeReads
      assumption
  clear_value x2
  with_reducible apply wf_foldl
  · assumption
  · intro a6
    intro a7
    intro h8
    with_reducible apply wf_State_takeLane
    assumption

theorem wf_execLaunchBatchAccept (batch : Nat) (s : State) (h_s : MemWf s) :
    OutWf (execLaunchBatchAccept batch s) := by
  unfold execLaunchBatchAccept
  split
  · with_reducible refine wf_next ?_
    assumption
  · extract_lets x1 x2 x3
    clear_value x1
    clear_value x2
    have hx3 : MemWf x3 := by
      unfold x3
      with_reducible apply wf_State_writebackL1
      assumption
    clear_value x3
    with_reducible refine wf_iteO (fun h4 => ?_) (fun h5 => ?_)
    · with_reducible refine wf_next ?_
      with_reducible apply wf_State_askFor
      assumption
    · with_reducible refine wf_iteO (fun h6 => ?_) (fun h7 => ?_)
      · with_reducible refine wf_next ?_
        assumption
      · with_reducible refine wf_iteO (fun h8 => ?_) (fun h9 => ?_)
        · with_reducible refine wf_next ?_
          with_reducible apply wf_State_askFor
          assumption
        · with_reducible refine wf_iteO (fun h10 => ?_) (fun h11 => ?_)
          · with_reducible refine wf_next ?_
            assumption
          · with_reducible refine wf_next ?_
            with_reducible apply wf_State_takeBatch
            assumption

theorem wf_State_setQueue (s : State) (k : Nat) (q : Queue) (h_s : MemWf s) :
    MemWf (State.setQueue s k q) := by
  unfold State.setQueue
  with_reducible apply wf_lit
  assumption

theorem wf_execQueueAging (tenant : BitVec 6) (level : BitVec 3) (s : State) (h_s : MemWf s) :
    OutWf (execQueueAging tenant level s) := by
  unfold execQueueAging
  extract_lets x1 x2 x3
  clear_value x1
  clear_value x2
  clear_value x3
  split
  · with_reducible refine wf_next ?_
    assumption
  · extract_lets x4
    clear_value x4
    with_reducible refine wf_iteO (fun h5 => ?_) (fun h6 => ?_)
    · with_reducible refine wf_next ?_
      with_reducible apply wf_State_setQueue
      assumption
    · with_reducible refine wf_next ?_
      assumption

/-! ### Placement -/

theorem wf_State_freshL1 (s : State) (core : Nat) (h_s : MemWf s) :
    MemWf (State.freshL1 s core) := by
  unfold State.freshL1
  with_reducible apply wf_State_discardL1
  with_reducible apply wf_State_writebackL1
  assumption

theorem wf_State_dropCopies (s : State) (cluster : Nat) (h_s : MemWf s) :
    MemWf (State.dropCopies s cluster) := by
  unfold State.dropCopies
  with_reducible apply wf_foldl
  · with_reducible apply wf_lit
    assumption
  · intro a1
    intro a2
    intro h3
    with_reducible apply wf_State_modCore
    assumption

theorem wf_State_setMode (s : State) (cluster : Nat) (fuse : Bool) (h_s : MemWf s) :
    MemWf (State.setMode s cluster fuse) := by
  unfold State.setMode
  with_reducible refine wf_ite (fun h1 => ?_) (fun h2 => ?_)
  · assumption
  · extract_lets x3 x4
    have hx3 : MemWf x3 := by
      unfold x3
      with_reducible apply wf_State_dropCopies
      with_reducible apply wf_foldl
      · assumption
      · intro a5
        intro a6
        intro h7
        with_reducible apply wf_State_freshL1
        assumption
    clear_value x3
    clear_value x4
    with_reducible apply wf_lit
    assumption

theorem wf_State_takePool (s : State) (t addr size : Nat) (h_s : MemWf s) :
    MemWf (State.takePool s t addr size) := by
  unfold State.takePool
  with_reducible apply wf_lit
  assumption

theorem wf_State_takeFixed (s : State) (t size : Nat) (h_s : MemWf s) :
    OptPWf (State.takeFixed s t size) := by
  unfold State.takeFixed
  refine wf_iteNP (fun h1 => ?_) (fun h2 => wf_someP h_s)
  intro u hu
  cases he : s.poolFit t size 65536 with
  | none => rw [he] at hu; cases hu
  | some a => rw [he] at hu; cases hu; exact wf_State_takePool _ _ _ _ h_s

theorem wf_State_bindBank (s : State) (core tenant : Nat) (k : Kernel) (p : Seat) (dict : Sparse (BitVec 384)) (h_s : MemWf s) :
    MemWf (State.bindBank s core tenant k p dict) := by
  unfold State.bindBank
  with_reducible refine wf_ite (fun h1 => ?_) (fun h2 => ?_)
  · with_reducible apply wf_State_modCore
    assumption
  · assumption

theorem wf_State_clearLatches (s : State) (core : Nat) (k : Kernel) (h_s : MemWf s) :
    MemWf (State.clearLatches s core k) := by
  unfold State.clearLatches
  with_reducible refine wf_ite (fun h1 => ?_) (fun h2 => ?_)
  · with_reducible apply wf_State_modCore
    assumption
  · assumption

theorem wf_State_placeGroup (s : State) (l : Launch) (gid core : Nat) (region : Nat × Nat) (dict : Sparse (BitVec 384)) (h_s : MemWf s) :
    OptWf (State.placeGroup s l gid core region dict) := by
  unfold State.placeGroup
  split
  · extract_lets x1 x2 x3 x4 x5 x6 x7 x8
    clear_value x1
    have hx2 : MemWf x2 := by
      unfold x2
      with_reducible apply wf_State_clearLatches
      with_reducible apply wf_State_bindBank
      (refine wf_getP (by assumption) ?_)
      with_reducible apply wf_State_takeFixed
      assumption
    clear_value x2
    have hx3 : MemWf x3 := by
      unfold x3
      with_reducible apply wf_State_setGroup
      assumption
    clear_value x3
    have hx4 : MemWf x4 := by
      unfold x4
      with_reducible apply wf_foldl
      · assumption
      · intro a9
        intro a10
        intro h11
        with_reducible apply wf_State_mapTable
        assumption
    clear_value x4
    clear_value x5
    have hx6 : MemWf x6 := by
      unfold x6
      with_reducible apply wf_foldl
      · assumption
      · intro a12
        intro a13
        intro h14
        with_reducible apply wf_State_setThread
        assumption
    clear_value x6
    clear_value x7
    have hx8 : MemWf x8 := by
      unfold x8
      with_reducible apply wf_lit
      assumption
    clear_value x8
    refine wf_some ?_
    with_reducible apply wf_State_fileAll
    assumption
  · exact wf_none

theorem wf_State_clearRegion (s : State) (cluster half : Nat) (region : Nat × Nat) (h_s : MemWf s) :
    MemWf (State.clearRegion s cluster half region) := by
  unfold State.clearRegion
  exact ⟨h_s.1, spWf_filter _ _ h_s.2⟩

theorem wf_placeAll (s : State) (l : Launch) (region : Nat × Nat) (dict : Sparse (BitVec 384)) (z0 : List (Nat × Nat)) (h_s : MemWf s) :
    OptWf (placeAll s l region dict z0) := by
  induction z0 generalizing s l region dict with
  | nil =>
    unfold placeAll
    refine wf_some ?_
    assumption
  | cons y ys ih =>
    unfold placeAll
    split
    · with_reducible apply ih
      (refine wf_get (by assumption) ?_)
      with_reducible apply wf_State_placeGroup
      assumption
    · exact wf_none

theorem wf_State_placeGang (s : State) (l : Launch) (gid : Nat) (cores : List Nat) (dict : Sparse (BitVec 384)) (h_s : MemWf s) :
    OptWf (State.placeGang s l gid cores dict) := by
  unfold State.placeGang
  extract_lets x1
  clear_value x1
  with_reducible refine wf_iteN (fun h2 => ?_) (fun h3 => ?_)
  · exact wf_none
  · split
    · exact wf_none
    · with_reducible apply wf_placeAll
      with_reducible apply wf_State_clearRegion
      with_reducible apply wf_foldl
      · with_reducible apply wf_State_setMode
        assumption
      · intro a4
        intro a5
        intro h6
        with_reducible apply wf_State_freshL1
        assumption

theorem wf_placeGangs (s : State) (l : Launch) (gid : Nat) (cores : List Nat) (dict : Sparse (BitVec 384)) (z0 : Nat) (h_s : MemWf s) :
    OptWf (placeGangs s l gid cores dict z0) := by
  induction z0 generalizing s l gid cores dict with
  | zero =>
    unfold placeGangs
    refine wf_some ?_
    assumption
  | succ n ih =>
    unfold placeGangs
    split
    · with_reducible apply ih
      (refine wf_get (by assumption) ?_)
      with_reducible apply wf_State_placeGang
      assumption
    · exact wf_none

theorem wf_State_savedSeats (s : State) (cluster : Nat) (z0 z1 : List Nat) (h_s : MemWf s) :
    OptWf (State.savedSeats s cluster z0 z1) := by
  induction z0 generalizing s z1 with
  | nil => unfold State.savedSeats; exact wf_some h_s
  | cons k rest ih =>
    unfold State.savedSeats
    intro t ht
    obtain ⟨c, _, hc⟩ := List.exists_of_findSome?_eq_some ht
    split at hc
    · cases hc
    · split at hc
      · exact ih _ _ (wf_State_modGroup _ _ _ h_s) t hc
      · cases hc

theorem wf_State_savedPut (s : State) (ks : List Nat) (cluster : Nat) (h_s : MemWf s) :
    OptWf (State.savedPut s ks cluster) := by
  unfold State.savedPut
  extract_lets x1
  clear_value x1
  split
  · extract_lets x2 x3
    have hx2 : MemWf x2 := by
      unfold x2
      with_reducible apply wf_foldl
      · assumption
      · intro a4
        intro a5
        intro h6
        with_reducible apply wf_State_modGroup
        assumption
    clear_value x2
    clear_value x3
    with_reducible apply wf_State_savedSeats
    with_reducible apply wf_lit
    assumption
  · exact wf_none

theorem wf_State_payFor (s : State) (p : Pick) (h_s : MemWf s) :
    MemWf (State.payFor s p) := by
  unfold State.payFor
  extract_lets x1 x2 x3 x4
  clear_value x1
  clear_value x2
  clear_value x3
  have hx4 : MemWf x4 := by
    unfold x4
    with_reducible apply wf_lit
    assumption
  clear_value x4
  with_reducible apply wf_State_setQueue
  assumption

/-! ### Parking -/

theorem wf_execWaitParkCandidate (group : Nat) (s : State) (h_s : MemWf s) :
    OutWf (execWaitParkCandidate group s) := by
  unfold execWaitParkCandidate
  with_reducible refine wf_iteO (fun h1 => ?_) (fun h2 => ?_)
  · with_reducible refine wf_next ?_
    with_reducible apply wf_State_modGroup
    assumption
  · with_reducible refine wf_next ?_
    assumption

theorem wf_State_park (s : State) (k : Nat) (h_s : MemWf s) :
    MemWf (State.park s k) := by
  unfold State.park
  extract_lets x1 x2 x3 x4 x5
  clear_value x1
  clear_value x2
  have hx3 : MemWf x3 := by
    unfold x3
    with_reducible apply wf_State_freedGroup
    assumption
  clear_value x3
  clear_value x4
  have hx5 : MemWf x5 := by
    unfold x5
    with_reducible apply wf_State_modCore
    assumption
  clear_value x5
  with_reducible apply wf_State_modGroup
  assumption

theorem wf_execParkGroup (group : Nat) (s : State) (h_s : MemWf s) :
    OutWf (execParkGroup group s) := by
  unfold execParkGroup
  with_reducible refine wf_iteO (fun h1 => ?_) (fun h2 => ?_)
  · with_reducible refine wf_next ?_
    with_reducible apply wf_State_park
    assumption
  · with_reducible refine wf_next ?_
    assumption

theorem wf_State_fileFree (s : State) (k : Nat) (h_s : MemWf s) :
    MemWf (State.fileFree s k) := by
  unfold State.fileFree
  with_reducible apply wf_foldl
  · assumption
  · intro a1
    intro a2
    intro h3
    with_reducible apply wf_State_release
    assumption

theorem wf_execUnparkGroup (group : Nat) (s : State) (h_s : MemWf s) :
    OutWf (execUnparkGroup group s) := by
  unfold execUnparkGroup
  split
  · with_reducible refine wf_next ?_
    assumption
  · extract_lets x1 x2 x3
    clear_value x1
    have hx2 : MemWf x2 := by
      unfold x2
      with_reducible refine wf_ite (fun h4 => ?_) (fun h5 => ?_)
      · with_reducible apply wf_State_modCore
        assumption
      · assumption
    clear_value x2
    have hx3 : MemWf x3 := by
      unfold x3
      with_reducible apply wf_State_modGroup
      assumption
    clear_value x3
    with_reducible refine wf_next ?_
    with_reducible apply wf_State_barCheck
    with_reducible apply wf_State_fileFree
    assumption

theorem wf_State_notePlaced (s : State) (l : Launch) (h_s : MemWf s) :
    MemWf (State.notePlaced s l) := by
  unfold State.notePlaced
  with_reducible apply wf_State_modLaunch
  assumption

theorem wf_State_placeWith (s : State) (p : Pick) (cores : List Nat) (dict : Sparse (BitVec 384)) (h_s : MemWf s) :
    MemWf (State.placeWith s p cores dict) := by
  unfold State.placeWith
  extract_lets x1
  have hx1 : MemWf x1 := by
    unfold x1
    with_reducible refine wf_ite (fun h2 => ?_) (fun h3 => ?_)
    · with_reducible apply wf_State_dropStream
      assumption
    · assumption
  clear_value x1
  split
  · with_reducible apply wf_State_notePlaced
    with_reducible apply wf_State_payFor
    (refine wf_get (by assumption) ?_)
    with_reducible apply wf_placeGangs
    assumption
  · assumption

theorem wf_State_dropBank (s : State) (core : Nat) (b : Bool) (h_s : MemWf s) :
    MemWf (State.dropBank s core b) := by
  unfold State.dropBank
  with_reducible apply wf_State_modCore
  assumption

theorem wf_State_dropBanks (s : State) (bs : List (Nat × Bool)) (h_s : MemWf s) :
    MemWf (State.dropBanks s bs) := by
  unfold State.dropBanks
  with_reducible apply wf_foldl
  · assumption
  · intro a1
    intro a2
    intro h3
    with_reducible apply wf_State_dropBank
    assumption

theorem wf_State_placeLoading (s : State) (p : Pick) (cores : List Nat) (h_s : MemWf s) :
    MemWf (State.placeLoading s p cores) := by
  unfold State.placeLoading
  extract_lets x1
  clear_value x1
  with_reducible refine wf_ite (fun h2 => ?_) (fun h3 => ?_)
  · with_reducible apply wf_State_askFor
    assumption
  · with_reducible refine wf_ite (fun h4 => ?_) (fun h5 => ?_)
    · assumption
    · split
      · with_reducible apply wf_State_placeWith
        with_reducible apply wf_State_markReads
        assumption
      · extract_lets x6
        have hx6 : MemWf x6.1 := by
          unfold x6
          with_reducible apply wf_State_raise
          with_reducible apply wf_State_dropBanks
          assumption
        clear_value x6
        with_reducible apply wf_State_modLaunch
        assumption
      · with_reducible apply wf_State_endLaunch
        with_reducible apply wf_State_dropBanks
        assumption

theorem wf_execPlaceGang (cores : List Nat) (s : State) (h_s : MemWf s) :
    OutWf (execPlaceGang cores s) := by
  unfold execPlaceGang
  split
  · with_reducible refine wf_next ?_
    assumption
  · extract_lets x1
    clear_value x1
    with_reducible refine wf_iteO (fun h2 => ?_) (fun h3 => ?_)
    · with_reducible refine wf_next ?_
      assumption
    · with_reducible refine wf_iteO (fun h4 => ?_) (fun h5 => ?_)
      · with_reducible refine wf_next ?_
        with_reducible apply wf_State_askFor
        assumption
      · with_reducible refine wf_iteO (fun h6 => ?_) (fun h7 => ?_)
        · with_reducible refine wf_next ?_
          with_reducible apply wf_State_askFor
          assumption
        · with_reducible refine wf_iteO (fun h8 => ?_) (fun h9 => ?_)
          · with_reducible refine wf_next ?_
            with_reducible apply wf_State_placeLoading
            assumption
          · with_reducible refine wf_next ?_
            with_reducible apply wf_State_placeWith
            assumption

/-! ### Context -/

theorem wf_State_landGroup (s : State) (k : Nat) (h_s : MemWf s) :
    MemWf (State.landGroup s k) := by
  unfold State.landGroup
  with_reducible apply wf_foldl
  · assumption
  · intro a1
    intro a2
    intro h3
    with_reducible apply wf_State_landDue
    assumption

theorem wf_State_moveWaits (s : State) (k old new : Nat) (h_s : MemWf s) :
    MemWf (State.moveWaits s k old new) := by
  unfold State.moveWaits
  extract_lets x1 x2 x3 x4 x5
  clear_value x1
  clear_value x2
  clear_value x3
  have hx4 : MemWf x4 := by
    unfold x4
    with_reducible apply wf_State_modCore
    assumption
  clear_value x4
  clear_value x5
  with_reducible apply wf_State_modCore
  assumption

theorem wf_State_moveGroup (s : State) (k core : Nat) (h_s : MemWf s) :
    MemWf (State.moveGroup s k core) := by
  unfold State.moveGroup
  with_reducible apply wf_State_moveWaits
  with_reducible apply wf_lit
  assumption

theorem wf_State_noRegion (s : State) (k : Nat) (h_s : MemWf s) :
    MemWf (State.noRegion s k) := by
  unfold State.noRegion
  with_reducible apply wf_lit
  assumption

theorem wf_State_leaveCore (s : State) (k : Nat) (addr size : Nat) (region : Bool) (h_s : MemWf s) :
    MemWf (State.leaveCore s k addr size region) := by
  unfold State.leaveCore
  extract_lets x1 x2 x3
  clear_value x1
  have hx2 : MemWf x2 := by
    unfold x2
    with_reducible apply wf_State_modCore
    with_reducible apply wf_State_takePool
    with_reducible apply wf_State_freedGroup
    assumption
  clear_value x2
  have hx3 : MemWf x3 := by
    unfold x3
    with_reducible refine wf_ite (fun h4 => ?_) (fun h5 => ?_)
    · with_reducible apply wf_State_noRegion
      assumption
    · assumption
  clear_value x3
  with_reducible apply wf_State_modGroup
  with_reducible apply wf_State_moveGroup
  assumption

theorem wf_State_saveFails (s : State) (k : Nat) (h_s : MemWf s) :
    MemWf (State.saveFails s k) := by
  unfold State.saveFails
  with_reducible apply wf_State_modGroup
  assumption

theorem wf_State_poolStop (s : State) (k code : Nat) (va : DWord) (kind : AccKind) (h_s : MemWf s) :
    MemWf (State.poolStop s k code va kind) := by
  unfold State.poolStop
  with_reducible refine wf_ite (fun h1 => ?_) (fun h2 => ?_)
  · extract_lets x3
    have hx3 : MemWf x3.1 := by
      unfold x3
      with_reducible apply wf_State_raise
      assumption
    clear_value x3
    with_reducible apply wf_State_modGroup
    assumption
  · with_reducible apply wf_State_endGroupLaunch
    assumption

theorem wf_State_saveGroup (s0 : State) (k : Nat) (h_s0 : MemWf s0) :
    MemWf (State.saveGroup s0 k) := by
  unfold State.saveGroup
  extract_lets x1 x2 x3 x4
  have hx1 : MemWf x1 := by
    unfold x1
    with_reducible apply wf_State_landGroup
    assumption
  clear_value x1
  clear_value x2
  clear_value x3
  have hx4 : MemWf x4 := by
    unfold x4
    with_reducible apply wf_State_writebackL1
    assumption
  clear_value x4
  split
  · with_reducible apply wf_State_saveFails
    assumption
  · extract_lets x5
    clear_value x5
    split
    · with_reducible apply wf_State_poolStop
      assumption
    · with_reducible refine wf_ite (fun h6 => ?_) (fun h7 => ?_)
      · with_reducible apply wf_State_askFor
        assumption
      · with_reducible refine wf_ite (fun h8 => ?_) (fun h9 => ?_)
        · assumption
        · extract_lets x10 x11
          have hx10 : MemWf x10 := by
            unfold x10
            with_reducible apply wf_foldl
            · assumption
            · intro a12
              intro a13
              intro h14
              with_reducible apply wf_State_put
              assumption
          clear_value x10
          have hx11 : MemWf x11 := by
            unfold x11
            with_reducible apply wf_foldl
            · assumption
            · intro a15
              intro a16
              intro h17
              with_reducible apply wf_State_markUsed
              assumption
          clear_value x11
          with_reducible apply wf_State_leaveCore
          assumption

theorem wf_execContextSave (group : Nat) (s : State) (h_s : MemWf s) :
    OutWf (execContextSave group s) := by
  unfold execContextSave
  with_reducible refine wf_iteO (fun h1 => ?_) (fun h2 => ?_)
  · with_reducible refine wf_next ?_
    with_reducible apply wf_State_saveGroup
    assumption
  · with_reducible refine wf_next ?_
    assumption

theorem wf_State_cmdsFrom (s : State) (k core : Nat) (bs : List Byte) (h_s : MemWf s) :
    MemWf (State.cmdsFrom s k core bs) := by
  unfold State.cmdsFrom
  extract_lets x1 x2
  clear_value x1
  clear_value x2
  with_reducible apply wf_lit
  assumption

theorem wf_State_runsFrom (s : State) (k core : Nat) (bs : List Byte) (h_s : MemWf s) :
    MemWf (State.runsFrom s k core bs) := by
  unfold State.runsFrom
  extract_lets x1 x2 x3 x4
  clear_value x1
  clear_value x2
  clear_value x3
  clear_value x4
  with_reducible apply wf_lit
  assumption

theorem wf_State_trapsFrom (s : State) (k core : Nat) (bs : List Byte) (h_s : MemWf s) :
    MemWf (State.trapsFrom s k core bs) := by
  unfold State.trapsFrom
  extract_lets x1 x2
  clear_value x1
  clear_value x2
  with_reducible apply wf_lit
  assumption

theorem wf_State_threadFrom (s : State) (tk : Nat) (bs frames : List Byte) (h_s : MemWf s) :
    MemWf (State.threadFrom s tk bs frames) := by
  unfold State.threadFrom
  with_reducible apply wf_State_modThread
  assumption

theorem wf_State_fillRegion (s : State) (loc : Nat) (bs : List Byte) (h_s : MemWf s) :
    MemWf (State.fillRegion s loc bs) := by
  unfold State.fillRegion
  with_reducible apply wf_State_setBytes
  assumption

theorem wf_State_restoreGroup (s : State) (k core : Nat) (p : Seat) (region : Nat × Nat) (dict : Sparse (BitVec 384)) (b : SavedBytes) (h_s : MemWf s) :
    MemWf (State.restoreGroup s k core p region dict b) := by
  unfold State.restoreGroup
  extract_lets x1 x2 x3 x4 x5 x6 x7 x8 x9
  clear_value x1
  have hx2 : MemWf x2 := by
    unfold x2
    with_reducible apply wf_State_bindBank
    assumption
  clear_value x2
  have hx3 : MemWf x3 := by
    unfold x3
    with_reducible refine wf_ite (fun h10 => ?_) (fun h11 => ?_)
    · assumption
    · with_reducible apply wf_State_fillRegion
      with_reducible apply wf_State_fillRegion
      assumption
  clear_value x3
  clear_value x4
  have hx5 : MemWf x5 := by
    unfold x5
    with_reducible apply wf_State_modCore
    assumption
  clear_value x5
  have hx6 : MemWf x6 := by
    unfold x6
    with_reducible apply wf_foldl
    · assumption
    · intro a12
      intro a13
      intro h14
      with_reducible apply wf_State_threadFrom
      assumption
  clear_value x6
  have hx7 : MemWf x7 := by
    unfold x7
    with_reducible apply wf_State_trapsFrom
    with_reducible apply wf_State_runsFrom
    with_reducible apply wf_State_cmdsFrom
    with_reducible apply wf_State_moveGroup
    assumption
  clear_value x7
  have hx8 : MemWf x8 := by
    unfold x8
    split
    · with_reducible apply wf_State_freePool
      assumption
    · assumption
  clear_value x8
  have hx9 : MemWf x9 := by
    unfold x9
    with_reducible apply wf_State_modGroup
    assumption
  clear_value x9
  with_reducible apply wf_State_barCheck
  with_reducible apply wf_State_fileFree
  assumption

theorem wf_restoreAll (s0 s : State) (region : Nat × Nat) (z0 : List (Nat × Nat)) (h_s0 : MemWf s0) (h_s : MemWf s) :
    OptPWf (restoreAll s0 s region z0) := by
  induction z0 generalizing s0 s region with
  | nil =>
    unfold restoreAll
    refine wf_someP ?_
    dsimp only
    assumption
  | cons y ys ih =>
    unfold restoreAll
    split
    · exact wf_noneP
    · split
      · refine wf_someP ?_
        dsimp only
        with_reducible apply wf_State_poolStop
        assumption
      · extract_lets x1
        have hx1 : MemWf x1.1 := by
          unfold x1
          with_reducible apply wf_State_raise
          with_reducible refine wf_ite (fun h2 => ?_) (fun h3 => ?_)
          · with_reducible apply wf_State_dropBank
            assumption
          · assumption
        clear_value x1
        refine wf_someP ?_
        dsimp only
        with_reducible apply wf_State_modLaunch
        assumption
      · refine wf_someP ?_
        dsimp only
        with_reducible apply wf_State_endGroupLaunch
        with_reducible apply wf_State_dropBank
        assumption
      · with_reducible apply ih
        · assumption
        · with_reducible apply wf_State_restoreGroup
          with_reducible apply wf_State_freshL1
          assumption

theorem wf_restoreGangs (s0 s : State) (z0 : List (List Nat)) (z1 : List Nat) (h_s0 : MemWf s0) (h_s : MemWf s) :
    OptPWf (restoreGangs s0 s z0 z1) := by
  induction z0 generalizing s0 s z1 with
  | nil =>
    unfold restoreGangs
    refine wf_someP ?_
    dsimp only
    assumption
  | cons y ys ih =>
    unfold restoreGangs
    extract_lets x1 x2 x3 x4 x5
    clear_value x1
    clear_value x2
    clear_value x3
    clear_value x4
    have hx5 : MemWf x5 := by
      unfold x5
      with_reducible apply wf_State_setMode
      assumption
    clear_value x5
    with_reducible refine wf_iteNP (fun h6 => ?_) (fun h7 => ?_)
    · exact wf_noneP
    · split
      · exact wf_noneP
      · extract_lets x8
        have hx8 : MemWf x8 := by
          unfold x8
          with_reducible refine wf_ite (fun h9 => ?_) (fun h10 => ?_)
          · with_reducible apply wf_State_clearRegion
            assumption
          · assumption
        clear_value x8
        split
        · with_reducible apply ih
          · assumption
          · (refine wf_getP (by assumption) ?_)
            with_reducible apply wf_restoreAll
            · assumption
            · assumption
        · with_reducible apply wf_restoreAll
          · assumption
          · assumption

theorem wf_execContextRestore (group : Nat) (cores : List Nat) (s : State) (h_s : MemWf s) :
    OutWf (execContextRestore group cores s) := by
  unfold execContextRestore
  split
  · with_reducible refine wf_next ?_
    assumption
  · split
    · with_reducible refine wf_next ?_
      assumption
    · with_reducible refine wf_iteO (fun h1 => ?_) (fun h2 => ?_)
      · with_reducible refine wf_next ?_
        assumption
      · with_reducible refine wf_iteO (fun h3 => ?_) (fun h4 => ?_)
        · with_reducible refine wf_next ?_
          with_reducible apply wf_State_askFor
          assumption
        · split
          · with_reducible refine wf_next ?_
            assumption
          · with_reducible refine wf_next ?_
            with_reducible apply wf_State_payFor
            with_reducible apply wf_foldl
            · (refine wf_getP (by assumption) ?_)
              with_reducible apply wf_restoreGangs
              · assumption
              · assumption
            · intro a5
              intro a6
              intro h7
              with_reducible apply wf_State_markReads
              assumption
          · with_reducible refine wf_next ?_
            (refine wf_getP (by assumption) ?_)
            with_reducible apply wf_restoreGangs
            · assumption
            · assumption

theorem wf_State_without (s : State) (ks : List Nat) (h_s : MemWf s) :
    MemWf (State.without s ks) := by
  unfold State.without
  with_reducible apply wf_foldl
  · assumption
  · intro a1
    intro a2
    intro h3
    with_reducible apply wf_State_modGroup
    assumption

theorem wf_execPreempt (cluster : Nat) (s : State) (h_s : MemWf s) :
    OutWf (execPreempt cluster s) := by
  unfold execPreempt
  split
  · with_reducible refine wf_next ?_
    assumption
  · with_reducible refine wf_next ?_
    with_reducible apply wf_foldl
    · assumption
    · intro a1
      intro a2
      intro h3
      with_reducible apply wf_State_modGroup
      assumption

theorem wf_execPreemptDeadline (group : Nat) (s : State) (h_s : MemWf s) :
    OutWf (execPreemptDeadline group s) := by
  unfold execPreemptDeadline
  extract_lets x1
  clear_value x1
  with_reducible refine wf_iteO (fun h2 => ?_) (fun h3 => ?_)
  · with_reducible refine wf_next ?_
    with_reducible apply wf_State_modGroup
    assumption
  · with_reducible refine wf_next ?_
    assumption

/-! ### Completion -/

theorem wf_State_abortGroup (s : State) (k : Nat) (h_s : MemWf s) :
    MemWf (State.abortGroup s k) := by
  unfold State.abortGroup
  extract_lets x1 x2 x3 x4
  clear_value x1
  have hx2 : MemWf x2 := by
    unfold x2
    with_reducible apply wf_lit
    assumption
  clear_value x2
  have hx3 : MemWf x3 := by
    unfold x3
    with_reducible apply wf_foldl
    · assumption
    · intro a5
      intro a6
      intro h7
      with_reducible apply wf_State_endTx
      assumption
  clear_value x3
  have hx4 : MemWf x4 := by
    unfold x4
    with_reducible apply wf_State_modGroup
    with_reducible apply wf_State_clearGroup
    assumption
  clear_value x4
  with_reducible refine wf_ite (fun h8 => ?_) (fun h9 => ?_)
  · assumption
  · with_reducible apply wf_State_endGroup
    assumption

theorem wf_execLaunchAbort (launch : Nat) (s : State) (h_s : MemWf s) :
    OutWf (execLaunchAbort launch s) := by
  unfold execLaunchAbort
  split
  · with_reducible refine wf_next ?_
    assumption
  · with_reducible refine wf_iteO (fun h1 => ?_) (fun h2 => ?_)
    · with_reducible refine wf_next ?_
      assumption
    · extract_lets x3 x4 x5 x6 x7
      have hx3 : MemWf x3 := by
        unfold x3
        with_reducible apply wf_foldl
        · assumption
        · intro a8
          intro a9
          intro h10
          with_reducible apply wf_State_abortGroup
          assumption
      clear_value x3
      clear_value x4
      clear_value x5
      clear_value x6
      have hx7 : MemWf x7 := by
        unfold x7
        with_reducible apply wf_lit
        assumption
      clear_value x7
      with_reducible refine wf_next ?_
      with_reducible apply wf_State_modLaunch
      assumption

theorem wf_State_finishLaunch (s : State) (l : Launch) (h_s : MemWf s) :
    MemWf (State.finishLaunch s l) := by
  unfold State.finishLaunch
  extract_lets x1 x2 x3 x4 x5
  have hx1 : MemWf x1 := by
    unfold x1
    with_reducible refine wf_ite (fun h6 => ?_) (fun h7 => ?_)
    · with_reducible apply wf_State_send
      assumption
    · assumption
  clear_value x1
  have hx2 : MemWf x2 := by
    unfold x2
    with_reducible apply wf_State_modLaunch
    assumption
  clear_value x2
  clear_value x3
  have hx4 : MemWf x4 := by
    unfold x4
    with_reducible apply wf_foldl
    · assumption
    · intro a8
      intro a9
      intro h10
      with_reducible apply wf_State_modLaunch
      assumption
  clear_value x4
  have hx5 : MemWf x5 := by
    unfold x5
    with_reducible apply wf_foldl
    · assumption
    · intro a11
      intro a12
      intro h13
      with_reducible refine wf_ite (fun h14 => ?_) (fun h15 => ?_)
      · with_reducible apply wf_State_endLaunch
        assumption
      · assumption
  clear_value x5
  with_reducible apply wf_State_settleReady
  assumption

theorem wf_State_completeLaunch (s : State) (l : Launch) (h_s : MemWf s) :
    MemWf (State.completeLaunch s l) := by
  unfold State.completeLaunch
  with_reducible refine wf_ite (fun h1 => ?_) (fun h2 => ?_)
  · with_reducible apply wf_State_finishLaunch
    assumption
  · split
    · extract_lets x3
      clear_value x3
      with_reducible refine wf_ite (fun h4 => ?_) (fun h5 => ?_)
      · with_reducible apply wf_State_askFor
        assumption
      · with_reducible refine wf_ite (fun h6 => ?_) (fun h7 => ?_)
        · assumption
        · with_reducible apply wf_State_finishLaunch
          with_reducible apply wf_State_put
          with_reducible apply wf_State_markUsed
          assumption
    · with_reducible apply wf_State_finishLaunch
      assumption
    · with_reducible refine wf_ite (fun h8 => ?_) (fun h9 => ?_)
      · extract_lets x10
        have hx10 : MemWf x10.1 := by
          unfold x10
          with_reducible apply wf_State_raise
          assumption
        clear_value x10
        with_reducible apply wf_State_modLaunch
        assumption
      · with_reducible apply wf_State_finishLaunch
        assumption

theorem wf_execLaunchComplete (launch : Nat) (s : State) (h_s : MemWf s) :
    OutWf (execLaunchComplete launch s) := by
  unfold execLaunchComplete
  split
  · with_reducible refine wf_next ?_
    assumption
  · extract_lets x1
    clear_value x1
    with_reducible refine wf_iteO (fun h2 => ?_) (fun h3 => ?_)
    · with_reducible refine wf_next ?_
      assumption
    · with_reducible refine wf_iteO (fun h4 => ?_) (fun h5 => ?_)
      · with_reducible refine wf_next ?_
        with_reducible apply wf_State_askFor
        assumption
      · with_reducible refine wf_next ?_
        with_reducible apply wf_State_completeLaunch
        with_reducible apply wf_foldl
        · assumption
        · intro a6
          intro a7
          intro h8
          with_reducible apply wf_State_writebackL1
          assumption

/-! ### Bus -/

theorem wf_State_settleDump (s : State) (h_s : MemWf s) :
    MemWf (State.settleDump s) := by
  unfold State.settleDump
  with_reducible refine wf_ite (fun h1 => ?_) (fun h2 => ?_)
  · assumption
  · extract_lets x3 x4
    clear_value x3
    have hx4 : MemWf x4 := by
      unfold x4
      with_reducible apply wf_lit
      assumption
    clear_value x4
    split
    · assumption
    · with_reducible refine wf_ite (fun h5 => ?_) (fun h6 => ?_)
      · with_reducible apply wf_State_askFor
        assumption
      · with_reducible refine wf_ite (fun h7 => ?_) (fun h8 => ?_)
        · assumption
        · with_reducible apply wf_State_put
          assumption

theorem wf_State_enterFatal (s : State) (cause : Nat) (detail : DWord) (h_s : MemWf s) :
    MemWf (State.enterFatal s cause detail) := by
  unfold State.enterFatal
  with_reducible refine wf_ite (fun h1 => ?_) (fun h2 => ?_)
  · assumption
  · with_reducible apply wf_State_settleDump
    with_reducible apply wf_lit
    assumption

theorem wf_execFatalError (cause : BitVec 8) (detail : BitVec 64) (s : State) (h_s : MemWf s) :
    OutWf (execFatalError cause detail s) := by
  unfold execFatalError
  with_reducible refine wf_iteO (fun h1 => ?_) (fun h2 => ?_)
  · with_reducible refine wf_next ?_
    assumption
  · with_reducible refine wf_next ?_
    with_reducible apply wf_State_enterFatal
    assumption

theorem wf_State_settleCores (s : State) (h_s : MemWf s) :
    MemWf (State.settleCores s) := by
  unfold State.settleCores
  with_reducible apply wf_foldl
  · assumption
  · intro a1
    intro a2
    intro h3
    with_reducible apply wf_State_settleCore
    assumption

theorem wf_State_flushFrame (s : State) (f : Nat) (h_s : MemWf s) :
    MemWf (State.flushFrame s f) := by
  unfold State.flushFrame
  extract_lets x1 x2 x3
  clear_value x1
  have hx2 : MemWf x2 := by
    unfold x2
    with_reducible apply wf_foldl
    · assumption
    · intro a4
      intro a5
      intro h6
      with_reducible apply wf_foldl
      · assumption
      · intro a7
        intro a8
        intro h9
        with_reducible apply wf_State_performWrite
        assumption
  clear_value x2
  have hx3 : MemWf x3 := by
    unfold x3
    with_reducible apply wf_foldl
    · assumption
    · intro a10
      intro a11
      intro h12
      with_reducible apply wf_State_performFst
      assumption
  clear_value x3
  with_reducible apply wf_foldl
  · assumption
  · intro a13
    intro a14
    intro h15
    with_reducible apply wf_State_fixReads
    assumption

theorem wf_State_enterFrame (s : State) (f : Nat) (h_s : MemWf s) :
    MemWf (State.enterFrame s f) := by
  unfold State.enterFrame
  extract_lets x1 x2
  have hx1 : MemWf x1 := by
    unfold x1
    with_reducible apply wf_State_flushFrame
    assumption
  clear_value x1
  clear_value x2
  with_reducible apply wf_State_settleCores
  with_reducible apply wf_lit
  assumption

theorem wf_State_addFrame (s : State) (f : Nat) (h_s : MemWf s) :
    MemWf (State.addFrame s f) := by
  unfold State.addFrame
  with_reducible refine wf_ite (fun h1 => ?_) (fun h2 => ?_)
  · assumption
  · with_reducible refine wf_ite (fun h3 => ?_) (fun h4 => ?_)
    · with_reducible apply wf_State_enterFatal
      assumption
    · with_reducible apply wf_State_enterFrame
      assumption

theorem wf_execPfadd (frame : BitVec 28) (s : State) (h_s : MemWf s) :
    OutWf (execPfadd frame s) := by
  unfold execPfadd
  with_reducible refine wf_next ?_
  with_reducible apply wf_State_addFrame
  assumption

theorem wf_State_zeroFrame (s : State) (f : Nat) (h_s : MemWf s) :
    MemWf (State.zeroFrame s f) := by
  unfold State.zeroFrame
  with_reducible apply wf_foldl
  · assumption
  · intro a1
    intro a2
    intro h3
    with_reducible apply wf_State_put
    assumption

theorem wf_execPfdel (frame : BitVec 28) (s : State) (h_s : MemWf s) :
    OutWf (execPfdel frame s) := by
  unfold execPfdel
  extract_lets x1 x2
  clear_value x1
  have hx2 : MemWf x2 := by
    unfold x2
    with_reducible apply wf_State_zeroFrame
    assumption
  clear_value x2
  with_reducible refine wf_iteO (fun h3 => ?_) (fun h4 => ?_)
  · with_reducible refine wf_next ?_
    assumption
  · with_reducible refine wf_iteO (fun h5 => ?_) (fun h6 => ?_)
    · with_reducible refine wf_next ?_
      with_reducible apply wf_State_askFor
      assumption
    · with_reducible refine wf_next ?_
      with_reducible apply wf_lit
      assumption

theorem wf_State_errorMet (s : State) (addr : Nat) (z0 : ErrMet) (h_s : MemWf s) :
    MemWf (State.errorMet s addr z0) := by
  unfold State.errorMet
  split
  · assumption
  · with_reducible apply wf_State_endGroupLaunch
    assumption
  · split
    · assumption
    · with_reducible apply wf_State_modCmd
      assumption
  · with_reducible apply wf_State_endGroupLaunch
    assumption

theorem wf_execUncorrectableError (addr : Nat) (met : ErrMet) (s : State) (h_s : MemWf s) :
    OutWf (execUncorrectableError addr met s) := by
  unfold execUncorrectableError
  with_reducible refine wf_iteO (fun h1 => ?_) (fun h2 => ?_)
  · with_reducible refine wf_next ?_
    assumption
  · with_reducible refine wf_next ?_
    with_reducible apply wf_State_addFrame
    with_reducible apply wf_State_errorMet
    assumption

theorem wf_execScrub (stack : Nat) (found : Option (BitVec 28)) (s : State) (h_s : MemWf s) :
    OutWf (execScrub stack found s) := by
  unfold execScrub
  split
  · with_reducible refine wf_next ?_
    assumption
  · with_reducible refine wf_iteO (fun h1 => ?_) (fun h2 => ?_)
    · with_reducible refine wf_next ?_
      with_reducible apply wf_State_addFrame
      assumption
    · with_reducible refine wf_next ?_
      assumption

theorem wf_State_raiseLevel (s : State) (core : Nat) (w : PendWrite) (level : Nat) (h_s : MemWf s) :
    MemWf (State.raiseLevel s core w level) := by
  unfold State.raiseLevel
  with_reducible apply wf_State_modCore
  assumption

theorem wf_execWritePerforms (core write : Nat) (s : State) (h_s : MemWf s) :
    OutWf (execWritePerforms core write s) := by
  unfold execWritePerforms
  extract_lets x1 x2
  have hx1 : MemWf x1 := by
    unfold x1
    with_reducible apply wf_State_settleCore
    assumption
  clear_value x1
  clear_value x2
  split
  · with_reducible refine wf_next ?_
    assumption
  · with_reducible refine wf_iteO (fun h3 => ?_) (fun h4 => ?_)
    · with_reducible refine wf_next ?_
      with_reducible apply wf_State_sendSignals
      with_reducible apply wf_State_settleCore
      with_reducible apply wf_State_raiseLevel
      assumption
    · with_reducible refine wf_iteO (fun h5 => ?_) (fun h6 => ?_)
      · with_reducible refine wf_next ?_
        with_reducible apply wf_State_askFor
        assumption
      · with_reducible refine wf_iteO (fun h7 => ?_) (fun h8 => ?_)
        · with_reducible refine wf_next ?_
          assumption
        · with_reducible refine wf_next ?_
          with_reducible apply wf_State_settleConds
          with_reducible apply wf_State_sendSignals
          with_reducible apply wf_State_settleCore
          with_reducible apply wf_State_performWrite
          assumption

theorem wf_execLineEviction (core line : Nat) (s : State) (h_s : MemWf s) :
    OutWf (execLineEviction core line s) := by
  unfold execLineEviction
  with_reducible refine wf_iteO (fun h1 => ?_) (fun h2 => ?_)
  · with_reducible refine wf_next ?_
    assumption
  · with_reducible refine wf_iteO (fun h3 => ?_) (fun h4 => ?_)
    · with_reducible refine wf_next ?_
      with_reducible apply wf_State_dirSet
      assumption
    · extract_lets x5 x6
      clear_value x5
      have hx6 : MemWf x6 := by
        unfold x6
        with_reducible apply wf_State_dirSet
        with_reducible apply wf_State_discardLines
        with_reducible apply wf_State_writeback
        assumption
      clear_value x6
      with_reducible refine wf_iteO (fun h7 => ?_) (fun h8 => ?_)
      · with_reducible refine wf_next ?_
        assumption
      · with_reducible refine wf_iteO (fun h9 => ?_) (fun h10 => ?_)
        · with_reducible refine wf_next ?_
          with_reducible apply wf_State_askFor
          assumption
        · with_reducible refine wf_next ?_
          with_reducible apply wf_State_settleCore
          with_reducible apply wf_State_modCore
          assumption

/-! ### Pages -/

theorem wf_State_posted (s : State) (q : PageReq) (h_s : MemWf s) :
    MemWf (State.posted s q) := by
  unfold State.posted
  with_reducible apply wf_State_send
  with_reducible apply wf_State_setField
  with_reducible apply wf_lit
  assumption

theorem wf_execPageRequestPost (req : Nat) (s : State) (h_s : MemWf s) :
    OutWf (execPageRequestPost req s) := by
  unfold execPageRequestPost
  split
  · with_reducible refine wf_next ?_
    assumption
  · with_reducible refine wf_iteO (fun h1 => ?_) (fun h2 => ?_)
    · with_reducible refine wf_next ?_
      assumption
    · with_reducible refine wf_iteO (fun h3 => ?_) (fun h4 => ?_)
      · with_reducible refine wf_next ?_
        assumption
      · with_reducible refine wf_iteO (fun h5 => ?_) (fun h6 => ?_)
        · with_reducible refine wf_next ?_
          with_reducible apply wf_State_askFor
          assumption
        · with_reducible refine wf_next ?_
          with_reducible apply wf_State_posted
          with_reducible apply wf_State_hubPut
          assumption

theorem wf_State_refuseReq (s : State) (q : PageReq) (h_s : MemWf s) :
    MemWf (State.refuseReq s q) := by
  unfold State.refuseReq
  extract_lets x1 x2 x3 x4 x5 x6 x7
  clear_value x1
  clear_value x2
  clear_value x3
  clear_value x4
  clear_value x5
  clear_value x6
  have hx7 : MemWf x7 := by
    unfold x7
    with_reducible apply wf_lit
    assumption
  clear_value x7
  with_reducible apply wf_foldl
  · assumption
  · intro a8
    intro a9
    intro h10
    with_reducible apply wf_State_endGroupLaunch
    assumption

theorem wf_execPrrespWrite (id : BitVec 16) (refuse : Bool) (s : State) (h_s : MemWf s) :
    OutWf (execPrrespWrite id refuse s) := by
  unfold execPrrespWrite
  split
  · with_reducible refine wf_next ?_
    assumption
  · extract_lets x1 x2
    have hx1 : MemWf x1 := by
      unfold x1
      with_reducible apply wf_lit
      assumption
    clear_value x1
    have hx2 : MemWf x2 := by
      unfold x2
      with_reducible refine wf_ite (fun h3 => ?_) (fun h4 => ?_)
      · with_reducible apply wf_State_refuseReq
        assumption
      · assumption
    clear_value x2
    with_reducible refine wf_next ?_
    with_reducible apply wf_State_settleTxs
    with_reducible apply wf_State_settleConds
    assumption

theorem wf_State_startInval (s : State) (op : Nat) (asid : BitVec 16) (count : Nat) (h_s : MemWf s) :
    MemWf (State.startInval s op asid count) := by
  unfold State.startInval
  with_reducible refine wf_ite (fun h1 => ?_) (fun h2 => ?_)
  · with_reducible apply wf_State_setField
    assumption
  · extract_lets x3
    have hx3 : MemWf x3 := by
      unfold x3
      with_reducible apply wf_State_setField
      assumption
    clear_value x3
    with_reducible apply wf_lit
    assumption

theorem wf_execTlbinvAsid (asid : BitVec 16) (s : State) (h_s : MemWf s) :
    OutWf (execTlbinvAsid asid s) := by
  unfold execTlbinvAsid
  with_reducible refine wf_next ?_
  with_reducible apply wf_State_startInval
  assumption

theorem wf_execTlbinvRange (asid : BitVec 16) (count : BitVec 24) (s : State) (h_s : MemWf s) :
    OutWf (execTlbinvRange asid count s) := by
  unfold execTlbinvRange
  with_reducible refine wf_next ?_
  with_reducible apply wf_State_startInval
  assumption

theorem wf_execTlbinvAll (s : State) (h_s : MemWf s) :
    OutWf (execTlbinvAll s) := by
  unfold execTlbinvAll
  with_reducible refine wf_next ?_
  with_reducible apply wf_State_startInval
  assumption

theorem wf_State_cleanEntry (s : State) (e : TlbEntry) (h_s : MemWf s) :
    MemWf (State.cleanEntry s e) := by
  unfold State.cleanEntry
  with_reducible apply wf_foldl
  · assumption
  · intro a1
    intro a2
    intro h3
    with_reducible apply wf_State_writeback
    assumption

theorem wf_execTlbInvalidationDone (s : State) (h_s : MemWf s) :
    OutWf (execTlbInvalidationDone s) := by
  unfold execTlbInvalidationDone
  split
  · with_reducible refine wf_next ?_
    assumption
  · extract_lets x1 x2
    clear_value x1
    have hx2 : MemWf x2 := by
      unfold x2
      with_reducible apply wf_foldl
      · assumption
      · intro a3
        intro a4
        intro h5
        with_reducible apply wf_State_cleanEntry
        assumption
    clear_value x2
    with_reducible refine wf_iteO (fun h6 => ?_) (fun h7 => ?_)
    · with_reducible refine wf_next ?_
      assumption
    · with_reducible refine wf_iteO (fun h8 => ?_) (fun h9 => ?_)
      · with_reducible refine wf_next ?_
        with_reducible apply wf_State_askFor
        assumption
      · with_reducible refine wf_next ?_
        with_reducible apply wf_State_setField
        with_reducible apply wf_lit
        assumption

/-! ### Snapshots -/

theorem wf_State_setRes (s : State) (code : Nat) (h_s : MemWf s) :
    MemWf (State.setRes s code) := by
  unfold State.setRes
  with_reducible apply wf_State_setReg
  assumption

theorem wf_State_domCmd (s : State) (d : Nat) (states : List Nat) (f : State → State) (h_s : MemWf s) (h_f : ∀ (a0 : State), MemWf a0 → MemWf (f a0)) :
    MemWf (State.domCmd s d states f) := by
  unfold State.domCmd
  with_reducible refine wf_ite (fun h1 => ?_) (fun h2 => ?_)
  · with_reducible apply h_f
    assumption
  · with_reducible apply wf_State_setRes
    assumption

theorem wf_State_setMembers (s : State) (d first count : Nat) (dest : Option Nat) (h_s : MemWf s) :
    MemWf (State.setMembers s d first count dest) := by
  unfold State.setMembers
  extract_lets x1 x2 x3 x4
  clear_value x1
  have hx2 : MemWf x2 := by
    unfold x2
    with_reducible apply wf_State_setRes
    assumption
  clear_value x2
  clear_value x3
  clear_value x4
  with_reducible refine wf_ite (fun h5 => ?_) (fun h6 => ?_)
  · assumption
  · with_reducible apply wf_lit
    assumption

theorem wf_execSnadd (dom : BitVec 4) (first count : BitVec 24) (s : State) (h_s : MemWf s) :
    OutWf (execSnadd dom first count s) := by
  unfold execSnadd
  with_reducible refine wf_next ?_
  with_reducible apply wf_State_domCmd
  · assumption
  · intro a1
    intro h2
    with_reducible apply wf_State_setMembers
    assumption

theorem wf_execSnrem (dom : BitVec 4) (first count : BitVec 24) (s : State) (h_s : MemWf s) :
    OutWf (execSnrem dom first count s) := by
  unfold execSnrem
  with_reducible refine wf_next ?_
  with_reducible apply wf_State_domCmd
  · assumption
  · intro a1
    intro h2
    with_reducible apply wf_State_setMembers
    assumption

theorem wf_State_setCopyBits (s : State) (pages : List Nat) (b : Bool) (h_s : MemWf s) :
    MemWf (State.setCopyBits s pages b) := by
  unfold State.setCopyBits
  with_reducible apply wf_lit
  assumption

theorem wf_State_cut (s : State) (d : Nat) (h_s : MemWf s) :
    MemWf (State.cut s d) := by
  unfold State.cut
  with_reducible apply wf_State_setDomState
  with_reducible apply wf_State_setReg
  with_reducible apply wf_State_setCopyBits
  assumption

theorem wf_execSnap (dom : BitVec 4) (s : State) (h_s : MemWf s) :
    OutWf (execSnap dom s) := by
  unfold execSnap
  with_reducible refine wf_next ?_
  with_reducible apply wf_State_domCmd
  · assumption
  · intro a1
    intro h2
    with_reducible refine wf_ite (fun h3 => ?_) (fun h4 => ?_)
    · with_reducible apply wf_State_setRes
      assumption
    · with_reducible apply wf_State_setRes
      with_reducible apply wf_State_cut
      assumption

theorem wf_State_copyPage (s : State) (src dst : Nat) (h_s : MemWf s) :
    MemWf (State.copyPage s src dst) := by
  unfold State.copyPage
  refine ⟨?_, h_s.2⟩
  have hm : spWf memDefault s.mem = true := h_s.1
  have hf : ∀ f, spWf memDefault (s.mem.filter f) = true := fun f => spWf_filter _ f hm
  have hmoved : spWf memDefault ((s.mem.filter (fun q => q.1 / 2 ^ 16 == src)).map
      (fun (q : Nat × Byte) => (dst * 2 ^ 16 + q.1 % 2 ^ 16, q.2))) = true := by
    refine spWf_map memDefault (fun k => dst * 2 ^ 16 + k % 2 ^ 16) (hf _) ?_ ?_
    · intro x hx y hy hxy
      have h1 := of_decide_eq_true (List.mem_filter.mp hx).2
      have h2 := of_decide_eq_true (List.mem_filter.mp hy).2
      omega
    · intro x hx
      exact spWf_ne memDefault (hf _) hx
  have hlow : ∀ x ∈ s.mem.filter (fun q => decide (q.1 / 2 ^ 16 < dst)), x.1 < dst * 2 ^ 16 := by
    intro x hx
    have h1 := of_decide_eq_true (List.mem_filter.mp hx).2
    omega
  have hhigh : ∀ x ∈ s.mem.filter (fun q => decide (dst < q.1 / 2 ^ 16)), (dst + 1) * 2 ^ 16 ≤ x.1 := by
    intro x hx
    have h1 := of_decide_eq_true (List.mem_filter.mp hx).2
    omega
  have hmid : ∀ x ∈ (s.mem.filter (fun q => q.1 / 2 ^ 16 == src)).map
      (fun (q : Nat × Byte) => (dst * 2 ^ 16 + q.1 % 2 ^ 16, q.2)), dst * 2 ^ 16 ≤ x.1 ∧ x.1 < (dst + 1) * 2 ^ 16 := by
    intro x hx
    obtain ⟨q, _, rfl⟩ := List.mem_map.mp hx
    simp only
    omega
  refine spWf_append _ (spWf_append _ (hf _) hmoved ?_) (hf _) ?_
  · intro x hx y hy
    have h1 := hlow x hx
    have h2 := hmid y hy
    omega
  · intro x hx y hy
    have h2 := hhigh y hy
    rcases List.mem_append.mp hx with h | h
    · have h1 := hlow x h
      omega
    · have h1 := hmid x h
      omega

theorem wf_execCopyBeforeWrite (page : Nat) (s : State) (h_s : MemWf s) :
    OutWf (execCopyBeforeWrite page s) := by
  unfold execCopyBeforeWrite
  split
  · extract_lets x1 x2
    have hx1 : MemWf x1 := by
      unfold x1
      with_reducible apply wf_State_setCopyBits
      with_reducible apply wf_State_copyPage
      assumption
    clear_value x1
    clear_value x2
    with_reducible refine wf_next ?_
    with_reducible apply wf_State_settleTxs
    with_reducible apply wf_lit
    assumption
  · with_reducible refine wf_next ?_
    assumption

theorem wf_State_drainEnd (s : State) (d : Nat) (h_s : MemWf s) :
    MemWf (State.drainEnd s d) := by
  unfold State.drainEnd
  with_reducible refine wf_ite (fun h1 => ?_) (fun h2 => ?_)
  · with_reducible apply wf_State_send
    extract_lets x3 x4
    have hx3 : MemWf x3 := by
      unfold x3
      with_reducible apply wf_State_setDomState
      assumption
    clear_value x3
    clear_value x4
    with_reducible apply wf_lit
    assumption
  · assumption

theorem wf_execSnout (dom : BitVec 4) (s : State) (h_s : MemWf s) :
    OutWf (execSnout dom s) := by
  unfold execSnout
  extract_lets x1
  clear_value x1
  with_reducible refine wf_next ?_
  with_reducible apply wf_State_domCmd
  · assumption
  · intro a2
    intro h3
    with_reducible refine wf_ite (fun h4 => ?_) (fun h5 => ?_)
    · with_reducible apply wf_State_setRes
      assumption
    · with_reducible apply wf_State_drainEnd
      extract_lets x6 x7
      have hx6 : MemWf x6 := by
        unfold x6
        with_reducible apply wf_State_setRes
        with_reducible apply wf_State_setDomState
        assumption
      clear_value x6
      clear_value x7
      with_reducible apply wf_lit
      assumption

theorem wf_State_sendPage (s : State) (d page : Nat) (h_s : MemWf s) :
    MemWf (State.sendPage s d page) := by
  unfold State.sendPage
  extract_lets x1 x2 x3 x4 x5 x6 x7 x8
  clear_value x1
  clear_value x2
  clear_value x3
  clear_value x4
  have hx5 : MemWf x5 := by
    unfold x5
    with_reducible refine wf_ite (fun h9 => ?_) (fun h10 => ?_)
    · with_reducible apply wf_State_setField
      assumption
    · assumption
  clear_value x5
  have hx6 : MemWf x6 := by
    unfold x6
    with_reducible refine wf_ite (fun h11 => ?_) (fun h12 => ?_)
    · with_reducible apply wf_State_send
      with_reducible apply wf_State_send
      assumption
    · with_reducible apply wf_State_fabSend
      assumption
  clear_value x6
  have hx7 : MemWf x7 := by
    unfold x7
    with_reducible refine wf_ite (fun h13 => ?_) (fun h14 => ?_)
    · with_reducible apply wf_State_setCopyBits
      with_reducible apply wf_State_homeReads
      assumption
    · assumption
  clear_value x7
  clear_value x8
  with_reducible apply wf_lit
  assumption

theorem wf_execDrainPageSend (dom : BitVec 4) (s : State) (h_s : MemWf s) :
    OutWf (execDrainPageSend dom s) := by
  unfold execDrainPageSend
  extract_lets x1
  clear_value x1
  with_reducible refine wf_iteO (fun h2 => ?_) (fun h3 => ?_)
  · with_reducible refine wf_next ?_
    assumption
  · split
    · with_reducible refine wf_next ?_
      assumption
    · with_reducible refine wf_iteO (fun h4 => ?_) (fun h5 => ?_)
      · with_reducible refine wf_next ?_
        assumption
      · with_reducible refine wf_iteO (fun h6 => ?_) (fun h7 => ?_)
        · with_reducible refine wf_next ?_
          with_reducible apply wf_State_askFor
          assumption
        · with_reducible refine wf_next ?_
          with_reducible apply wf_State_settleTxs
          with_reducible apply wf_State_sendPage
          assumption

theorem wf_execDrainPageAck (dom : BitVec 4) (page : Nat) (s : State) (h_s : MemWf s) :
    OutWf (execDrainPageAck dom page s) := by
  unfold execDrainPageAck
  extract_lets x1 x2
  clear_value x1
  clear_value x2
  with_reducible refine wf_iteO (fun h3 => ?_) (fun h4 => ?_)
  · with_reducible refine wf_next ?_
    assumption
  · with_reducible refine wf_next ?_
    with_reducible apply wf_State_drainEnd
    with_reducible apply wf_lit
    assumption

theorem wf_State_drainFails (s : State) (d : Nat) (h_s : MemWf s) :
    MemWf (State.drainFails s d) := by
  unfold State.drainFails
  with_reducible refine wf_ite (fun h1 => ?_) (fun h2 => ?_)
  · assumption
  · with_reducible apply wf_State_send
    extract_lets x3 x4
    have hx3 : MemWf x3 := by
      unfold x3
      with_reducible apply wf_State_setField
      with_reducible apply wf_State_setDomState
      assumption
    clear_value x3
    clear_value x4
    with_reducible apply wf_lit
    assumption

theorem wf_execDrainTargetFail (dom : BitVec 4) (s : State) (h_s : MemWf s) :
    OutWf (execDrainTargetFail dom s) := by
  unfold execDrainTargetFail
  with_reducible refine wf_next ?_
  with_reducible apply wf_State_drainFails
  assumption

theorem wf_execSnstop (dom : BitVec 4) (s : State) (h_s : MemWf s) :
    OutWf (execSnstop dom s) := by
  unfold execSnstop
  extract_lets x1
  clear_value x1
  with_reducible refine wf_next ?_
  with_reducible apply wf_State_domCmd
  · assumption
  · intro a2
    intro h3
    extract_lets x4 x5
    have hx4 : MemWf x4 := by
      unfold x4
      with_reducible apply wf_State_setRes
      with_reducible apply wf_State_setDomState
      with_reducible apply wf_State_setCopyBits
      assumption
    clear_value x4
    clear_value x5
    with_reducible apply wf_State_settleTxs
    with_reducible apply wf_lit
    assumption

theorem wf_execSnpoolWrite (value : BitVec 64) (s : State) (h_s : MemWf s) :
    OutWf (execSnpoolWrite value s) := by
  unfold execSnpoolWrite
  with_reducible refine wf_iteO (fun h1 => ?_) (fun h2 => ?_)
  · with_reducible refine wf_next ?_
    with_reducible apply wf_State_setReg
    assumption
  · with_reducible refine wf_next ?_
    with_reducible apply wf_State_setRes
    assumption

/-! ### Dies -/

theorem wf_State_spreadHomes (s : State) (d : Nat) (h_s : MemWf s) :
    MemWf (State.spreadHomes s d) := by
  unfold State.spreadHomes
  extract_lets x1 x2 x3 x4
  clear_value x1
  clear_value x2
  clear_value x3
  clear_value x4
  with_reducible refine wf_ite (fun h5 => ?_) (fun h6 => ?_)
  · assumption
  · with_reducible apply wf_lit
    assumption

theorem wf_State_returnHomes (s : State) (d : Nat) (h_s : MemWf s) :
    MemWf (State.returnHomes s d) := by
  unfold State.returnHomes
  with_reducible apply wf_lit
  assumption

theorem wf_State_dieFails (s : State) (d : Nat) (h_s : MemWf s) :
    MemWf (State.dieFails s d) := by
  unfold State.dieFails
  extract_lets x1
  have hx1 : MemWf x1 := by
    unfold x1
    with_reducible apply wf_State_setDieState
    assumption
  clear_value x1
  with_reducible refine wf_ite (fun h2 => ?_) (fun h3 => ?_)
  · with_reducible apply wf_State_spreadHomes
    assumption
  · with_reducible refine wf_ite (fun h4 => ?_) (fun h5 => ?_)
    · assumption
    · with_reducible refine wf_ite (fun h6 => ?_) (fun h7 => ?_)
      · with_reducible apply wf_State_enterFatal
        assumption
      · with_reducible refine wf_ite (fun h8 => ?_) (fun h9 => ?_)
        · with_reducible apply wf_State_enterFatal
          assumption
        · assumption

theorem wf_State_nextDie (s : State) (h_s : MemWf s) :
    MemWf (State.nextDie s) := by
  unfold State.nextDie
  split
  · assumption
  · with_reducible refine wf_ite (fun h1 => ?_) (fun h2 => ?_)
    · assumption
    · with_reducible apply wf_State_setDieState
      assumption

theorem wf_State_setGrant (s : State) (d : Nat) (g : Option DieGrant) (h_s : MemWf s) :
    MemWf (State.setGrant s d g) := by
  unfold State.setGrant
  with_reducible apply wf_lit
  assumption

theorem wf_State_setCaps (s : State) (d : Nat) (table : List (BitVec 8)) (h_s : MemWf s) :
    MemWf (State.setCaps s d table) := by
  unfold State.setCaps
  with_reducible apply wf_lit
  assumption

theorem wf_State_judgeDie (s : State) (d : Nat) (table : List (BitVec 8)) (h_s : MemWf s) :
    MemWf (State.judgeDie s d table) := by
  unfold State.judgeDie
  with_reducible refine wf_ite (fun h1 => ?_) (fun h2 => ?_)
  · extract_lets x3
    have hx3 : MemWf x3 := by
      unfold x3
      with_reducible apply wf_State_setGrant
      with_reducible apply wf_State_setField
      with_reducible apply wf_State_setDieState
      assumption
    clear_value x3
    with_reducible refine wf_ite (fun h4 => ?_) (fun h5 => ?_)
    · with_reducible apply wf_State_returnHomes
      assumption
    · assumption
  · with_reducible apply wf_State_dieFails
    with_reducible apply wf_State_setGrant
    assumption

theorem wf_execDieEnumerate (die : BitVec 8) (table : List (BitVec 8)) (s : State) (h_s : MemWf s) :
    OutWf (execDieEnumerate die table s) := by
  unfold execDieEnumerate
  extract_lets x1
  clear_value x1
  with_reducible refine wf_iteO (fun h2 => ?_) (fun h3 => ?_)
  · with_reducible refine wf_next ?_
    assumption
  · with_reducible refine wf_next ?_
    with_reducible apply wf_State_nextDie
    with_reducible apply wf_State_judgeDie
    with_reducible apply wf_State_setCaps
    assumption

theorem wf_execPackageReset (s : State) (h_s : MemWf s) :
    OutWf (execPackageReset s) := by
  unfold execPackageReset
  extract_lets x1 x2 x3
  have hx1 : MemWf x1 := by
    unfold x1
    with_reducible apply wf_State_reset
  clear_value x1
  clear_value x2
  have hx3 : MemWf x3 := by
    unfold x3
    with_reducible apply wf_lit
    assumption
  clear_value x3
  with_reducible refine wf_next ?_
  with_reducible apply wf_State_nextDie
  assumption

theorem wf_State_restartCount (s : State) (core : Nat) (h_s : MemWf s) :
    MemWf (State.restartCount s core) := by
  unfold State.restartCount
  with_reducible apply wf_lit
  assumption

theorem wf_State_resetCore (s : State) (core : Nat) (h_s : MemWf s) :
    MemWf (State.resetCore s core) := by
  unfold State.resetCore
  extract_lets x1 x2
  have hx1 : MemWf x1 := by
    unfold x1
    with_reducible apply wf_State_clearService
    assumption
  clear_value x1
  have hx2 : MemWf x2 := by
    unfold x2
    with_reducible apply wf_lit
    assumption
  clear_value x2
  with_reducible apply wf_State_restartCount
  with_reducible apply wf_State_setReg
  with_reducible apply wf_State_setReg
  assumption

theorem wf_State_flushReset (s : State) (cores : List Nat) (h_s : MemWf s) :
    MemWf (State.flushReset s cores) := by
  unfold State.flushReset
  extract_lets x1
  have hx1 : MemWf x1 := by
    unfold x1
    with_reducible apply wf_foldl
    · assumption
    · intro a2
      intro a3
      intro h4
      with_reducible apply wf_State_writeback
      assumption
  clear_value x1
  with_reducible apply wf_foldl
  · assumption
  · intro a5
    intro a6
    intro h7
    with_reducible apply wf_State_resetCore
    assumption

theorem wf_State_endOnDie (s : State) (d : Nat) (h_s : MemWf s) :
    MemWf (State.endOnDie s d) := by
  unfold State.endOnDie
  with_reducible apply wf_foldl
  · assumption
  · intro a1
    intro a2
    intro h3
    with_reducible apply wf_State_endGroupLaunch
    assumption

theorem wf_State_portsDown (s : State) (d : Nat) (h_s : MemWf s) :
    MemWf (State.portsDown s d) := by
  unfold State.portsDown
  extract_lets x1
  have hx1 : MemWf x1 := by
    unfold x1
    with_reducible apply wf_foldl
    · assumption
    · intro a2
      intro a3
      intro h4
      with_reducible apply wf_State_setPort
      assumption
  clear_value x1
  with_reducible refine wf_ite (fun h5 => ?_) (fun h6 => ?_)
  · with_reducible apply wf_foldl
    · assumption
    · intro a7
      intro a8
      intro h9
      with_reducible apply wf_State_drainFails
      assumption
  · assumption

theorem wf_State_isolate (s : State) (d : Nat) (h_s : MemWf s) :
    MemWf (State.isolate s d) := by
  unfold State.isolate
  extract_lets x1 x2
  have hx1 : MemWf x1 := by
    unfold x1
    with_reducible apply wf_State_setField
    with_reducible apply wf_State_setDieState
    assumption
  clear_value x1
  clear_value x2
  with_reducible refine wf_ite (fun h3 => ?_) (fun h4 => ?_)
  · with_reducible apply wf_State_endOnDie
    assumption
  · with_reducible refine wf_ite (fun h5 => ?_) (fun h6 => ?_)
    · with_reducible apply wf_lit
      assumption
    · with_reducible apply wf_State_portsDown
      assumption

theorem wf_State_dieCommand (s : State) (op d : Nat) (h_s : MemWf s) :
    MemWf (State.dieCommand s op d) := by
  unfold State.dieCommand
  with_reducible refine wf_ite (fun h1 => ?_) (fun h2 => ?_)
  · assumption
  · with_reducible refine wf_ite (fun h3 => ?_) (fun h4 => ?_)
    · with_reducible apply wf_State_isolate
      assumption
    · with_reducible refine wf_ite (fun h5 => ?_) (fun h6 => ?_)
      · with_reducible apply wf_State_setDieState
        assumption
      · assumption

theorem wf_execDieIsolate (die : BitVec 8) (s : State) (h_s : MemWf s) :
    OutWf (execDieIsolate die s) := by
  unfold execDieIsolate
  with_reducible refine wf_next ?_
  with_reducible apply wf_State_dieCommand
  assumption

theorem wf_execDieRejoin (die : BitVec 8) (s : State) (h_s : MemWf s) :
    OutWf (execDieRejoin die s) := by
  unfold execDieRejoin
  with_reducible refine wf_next ?_
  with_reducible apply wf_State_dieCommand
  assumption

theorem wf_execDieInternalError (die : BitVec 8) (s : State) (h_s : MemWf s) :
    OutWf (execDieInternalError die s) := by
  unfold execDieInternalError
  with_reducible refine wf_iteO (fun h1 => ?_) (fun h2 => ?_)
  · with_reducible refine wf_next ?_
    with_reducible apply wf_State_isolate
    assumption
  · with_reducible refine wf_next ?_
    assumption

theorem wf_execIsolationComplete (die : BitVec 8) (lost : List (BitVec 28)) (s : State) (h_s : MemWf s) :
    OutWf (execIsolationComplete die lost s) := by
  unfold execIsolationComplete
  extract_lets x1 x2 x3 x4
  clear_value x1
  clear_value x2
  have hx3 : MemWf x3 := by
    unfold x3
    with_reducible refine wf_ite (fun h5 => ?_) (fun h6 => ?_)
    · with_reducible apply wf_State_spreadHomes
      with_reducible apply wf_State_flushReset
      assumption
    · with_reducible refine wf_ite (fun h7 => ?_) (fun h8 => ?_)
      · with_reducible apply wf_lit
        assumption
      · assumption
  clear_value x3
  have hx4 : MemWf x4 := by
    unfold x4
    with_reducible refine wf_ite (fun h9 => ?_) (fun h10 => ?_)
    · with_reducible apply wf_foldl
      · assumption
      · intro a11
        intro a12
        intro h13
        with_reducible apply wf_State_addFrame
        assumption
    · assumption
  clear_value x4
  with_reducible refine wf_iteO (fun h14 => ?_) (fun h15 => ?_)
  · with_reducible refine wf_next ?_
    assumption
  · with_reducible refine wf_iteO (fun h16 => ?_) (fun h17 => ?_)
    · with_reducible refine wf_next ?_
      with_reducible apply wf_State_askFor
      assumption
    · with_reducible refine wf_next ?_
      with_reducible apply wf_State_setDieState
      assumption

theorem wf_State_setIslandState (s : State) (n v : Nat) (h_s : MemWf s) :
    MemWf (State.setIslandState s n v) := by
  unfold State.setIslandState
  with_reducible apply wf_State_setField
  assumption

theorem wf_State_noteClock (s : State) (n : Nat) (h_s : MemWf s) :
    MemWf (State.noteClock s n) := by
  unfold State.noteClock
  with_reducible refine wf_ite (fun h1 => ?_) (fun h2 => ?_)
  · with_reducible apply wf_State_setIslandState
    assumption
  · assumption

theorem wf_State_setFreq (s : State) (n f : Nat) (h_s : MemWf s) :
    MemWf (State.setFreq s n f) := by
  unfold State.setFreq
  with_reducible apply wf_State_noteClock
  with_reducible apply wf_State_setField
  assumption

theorem wf_State_gateOn (s : State) (n : Nat) (h_s : MemWf s) :
    MemWf (State.gateOn s n) := by
  unfold State.gateOn
  with_reducible refine wf_ite (fun h1 => ?_) (fun h2 => ?_)
  · assumption
  · extract_lets x3 x4
    have hx3 : MemWf x3 := by
      unfold x3
      with_reducible apply wf_State_setIslandState
      with_reducible apply wf_State_setField
      assumption
    clear_value x3
    clear_value x4
    with_reducible apply wf_lit
    assumption

theorem wf_State_gateOff (s : State) (n : Nat) (h_s : MemWf s) :
    MemWf (State.gateOff s n) := by
  unfold State.gateOff
  with_reducible refine wf_ite (fun h1 => ?_) (fun h2 => ?_)
  · assumption
  · extract_lets x3 x4 x5
    have hx3 : MemWf x3 := by
      unfold x3
      with_reducible refine wf_ite (fun h6 => ?_) (fun h7 => ?_)
      · with_reducible apply wf_foldl
        · assumption
        · intro a8
          intro a9
          intro h10
          with_reducible apply wf_State_restartCount
          assumption
      · assumption
    clear_value x3
    have hx4 : MemWf x4 := by
      unfold x4
      with_reducible apply wf_State_setIslandState
      with_reducible apply wf_State_setField
      assumption
    clear_value x4
    clear_value x5
    with_reducible apply wf_lit
    assumption

theorem wf_execIslandFreqWrite (island freq : BitVec 7) (s : State) (h_s : MemWf s) :
    OutWf (execIslandFreqWrite island freq s) := by
  unfold execIslandFreqWrite
  with_reducible refine wf_iteO (fun h1 => ?_) (fun h2 => ?_)
  · with_reducible refine wf_next ?_
    with_reducible apply wf_State_setFreq
    assumption
  · with_reducible refine wf_next ?_
    assumption

theorem wf_execIslandGate (island : BitVec 7) (s : State) (h_s : MemWf s) :
    OutWf (execIslandGate island s) := by
  unfold execIslandGate
  with_reducible refine wf_iteO (fun h1 => ?_) (fun h2 => ?_)
  · with_reducible refine wf_next ?_
    with_reducible apply wf_State_gateOn
    assumption
  · with_reducible refine wf_next ?_
    assumption

theorem wf_execIslandUngate (island : BitVec 7) (s : State) (h_s : MemWf s) :
    OutWf (execIslandUngate island s) := by
  unfold execIslandUngate
  with_reducible refine wf_iteO (fun h1 => ?_) (fun h2 => ?_)
  · with_reducible refine wf_next ?_
    with_reducible apply wf_State_gateOff
    assumption
  · with_reducible refine wf_next ?_
    assumption

theorem wf_execIslandGated (island : BitVec 7) (s : State) (h_s : MemWf s) :
    OutWf (execIslandGated island s) := by
  unfold execIslandGated
  extract_lets x1
  clear_value x1
  with_reducible refine wf_iteO (fun h2 => ?_) (fun h3 => ?_)
  · with_reducible refine wf_next ?_
    assumption
  · with_reducible refine wf_iteO (fun h4 => ?_) (fun h5 => ?_)
    · with_reducible refine wf_next ?_
      with_reducible apply wf_State_askFor
      assumption
    · with_reducible refine wf_next ?_
      with_reducible apply wf_State_setIslandState
      with_reducible apply wf_State_flushReset
      assumption

theorem wf_execIslandChangeComplete (island : BitVec 7) (s : State) (h_s : MemWf s) :
    OutWf (execIslandChangeComplete island s) := by
  unfold execIslandChangeComplete
  extract_lets x1 x2 x3 x4
  clear_value x1
  have hx2 : MemWf x2 := by
    unfold x2
    with_reducible apply wf_State_setField
    assumption
  clear_value x2
  have hx3 : MemWf x3 := by
    unfold x3
    with_reducible apply wf_State_setIslandState
    assumption
  clear_value x3
  clear_value x4
  with_reducible refine wf_iteO (fun h5 => ?_) (fun h6 => ?_)
  · with_reducible refine wf_next ?_
    assumption
  · with_reducible refine wf_iteO (fun h7 => ?_) (fun h8 => ?_)
    · with_reducible refine wf_next ?_
      assumption
    · with_reducible refine wf_next ?_
      with_reducible apply wf_lit
      assumption

theorem wf_execThrottle (lower : Bool) (s : State) (h_s : MemWf s) :
    OutWf (execThrottle lower s) := by
  unfold execThrottle
  extract_lets x1 x2
  clear_value x1
  clear_value x2
  with_reducible refine wf_next ?_
  with_reducible apply wf_foldl
  · with_reducible apply wf_lit
    assumption
  · intro a3
    intro a4
    intro h5
    with_reducible apply wf_State_noteClock
    assumption

/-! ### Firmware -/

theorem wf_State_setMgmt (s : State) (f : Mgmt → Mgmt) (h_s : MemWf s) :
    MemWf (State.setMgmt s f) := by
  unfold State.setMgmt
  with_reducible apply wf_lit
  assumption

theorem wf_State_loadService (s : State) (bs : List Byte) (h_s : MemWf s) :
    MemWf (State.loadService s bs) := by
  unfold State.loadService
  with_reducible refine wf_ite (fun h1 => ?_) (fun h2 => ?_)
  · assumption
  · with_reducible apply wf_State_setMgmt
    assumption

theorem wf_State_loadHarts (s : State) (bs : List Byte) (h_s : MemWf s) :
    MemWf (State.loadHarts s bs) := by
  unfold State.loadHarts
  with_reducible refine wf_ite (fun h1 => ?_) (fun h2 => ?_)
  · with_reducible apply wf_State_setMgmt
    assumption
  · assumption

theorem wf_execFirmwareVerify (image : List (BitVec 8)) (s : State) (h_s : MemWf s) :
    OutWf (execFirmwareVerify image s) := by
  unfold execFirmwareVerify
  with_reducible refine wf_iteO (fun h1 => ?_) (fun h2 => ?_)
  · with_reducible refine wf_next ?_
    with_reducible apply wf_State_setMgmt
    assumption
  · with_reducible refine wf_next ?_
    with_reducible apply wf_State_loadHarts
    with_reducible apply wf_State_loadService
    assumption

theorem wf_execBoot (hub : List (BitVec 8)) (service : List (BitVec 8)) (hart : List (BitVec 8)) (s : State) (h_s : MemWf s) :
    OutWf (execBoot hub service hart s) := by
  unfold execBoot
  split
  · with_reducible refine wf_next ?_
    assumption
  · with_reducible refine wf_iteO (fun h1 => ?_) (fun h2 => ?_)
    · with_reducible refine wf_next ?_
      assumption
    · extract_lets x3
      have hx3 : MemWf x3 := by
        unfold x3
        with_reducible apply wf_State_setReg
        with_reducible apply wf_State_setMgmt
        assumption
      clear_value x3
      with_reducible refine wf_next ?_
      with_reducible apply wf_State_loadHarts
      with_reducible apply wf_State_loadService
      assumption

theorem wf_State_noteTerm (s : State) (term : Nat) (h_s : MemWf s) :
    MemWf (State.noteTerm s term) := by
  unfold State.noteTerm
  with_reducible apply wf_State_setMgmt
  assumption

theorem wf_State_stepDown (s : State) (yes : Bool) (h_s : MemWf s) :
    MemWf (State.stepDown s yes) := by
  unfold State.stepDown
  with_reducible refine wf_ite (fun h1 => ?_) (fun h2 => ?_)
  · with_reducible apply wf_State_setMgmt
    assumption
  · assumption

theorem wf_execClaim (term sender : Nat) (key : BootKey) (s : State) (h_s : MemWf s) :
    OutWf (execClaim term sender key s) := by
  unfold execClaim
  with_reducible refine wf_iteO (fun h1 => ?_) (fun h2 => ?_)
  · with_reducible refine wf_next ?_
    assumption
  · extract_lets x3
    clear_value x3
    with_reducible refine wf_next ?_
    with_reducible apply wf_State_noteTerm
    with_reducible apply wf_State_stepDown
    assumption

theorem wf_execLease (term sender : Nat) (s : State) (h_s : MemWf s) :
    OutWf (execLease term sender s) := by
  unfold execLease
  with_reducible refine wf_iteO (fun h1 => ?_) (fun h2 => ?_)
  · with_reducible refine wf_next ?_
    assumption
  · extract_lets x3
    have hx3 : MemWf x3 := by
      unfold x3
      with_reducible apply wf_State_noteTerm
      with_reducible apply wf_State_stepDown
      assumption
    clear_value x3
    with_reducible refine wf_iteO (fun h4 => ?_) (fun h5 => ?_)
    · with_reducible refine wf_next ?_
      with_reducible apply wf_State_setMgmt
      assumption
    · with_reducible refine wf_next ?_
      assumption

theorem wf_execLoad (term sender off : Nat) (bytes : List (BitVec 8)) (s : State) (h_s : MemWf s) :
    OutWf (execLoad term sender off bytes s) := by
  unfold execLoad
  with_reducible refine wf_iteO (fun h1 => ?_) (fun h2 => ?_)
  · with_reducible refine wf_next ?_
    assumption
  · extract_lets x3
    have hx3 : MemWf x3 := by
      unfold x3
      with_reducible apply wf_State_noteTerm
      assumption
    clear_value x3
    with_reducible refine wf_iteO (fun h4 => ?_) (fun h5 => ?_)
    · with_reducible refine wf_next ?_
      assumption
    · with_reducible refine wf_next ?_
      with_reducible apply wf_State_setMgmt
      assumption

theorem wf_execDone (term sender : Nat) (s : State) (h_s : MemWf s) :
    OutWf (execDone term sender s) := by
  unfold execDone
  with_reducible refine wf_iteO (fun h1 => ?_) (fun h2 => ?_)
  · with_reducible refine wf_next ?_
    assumption
  · extract_lets x3 x4
    have hx3 : MemWf x3 := by
      unfold x3
      with_reducible apply wf_State_noteTerm
      assumption
    clear_value x3
    have hx4 : MemWf x4 := by
      unfold x4
      split
      · with_reducible refine wf_ite (fun h5 => ?_) (fun h6 => ?_)
        · with_reducible apply wf_State_setMgmt
          assumption
        · assumption
      · assumption
    clear_value x4
    with_reducible refine wf_iteO (fun h7 => ?_) (fun h8 => ?_)
    · with_reducible refine wf_next ?_
      assumption
    · with_reducible refine wf_next ?_
      with_reducible apply wf_State_setMgmt
      assumption

theorem wf_execLeaseTimeout (s : State) (h_s : MemWf s) :
    OutWf (execLeaseTimeout s) := by
  unfold execLeaseTimeout
  extract_lets x1
  clear_value x1
  with_reducible refine wf_iteO (fun h2 => ?_) (fun h3 => ?_)
  · with_reducible refine wf_next ?_
    assumption
  · with_reducible refine wf_next ?_
    with_reducible apply wf_State_fabSend
    with_reducible apply wf_State_setMgmt
    assumption

theorem wf_execClaimTimeout (s : State) (h_s : MemWf s) :
    OutWf (execClaimTimeout s) := by
  unfold execClaimTimeout
  extract_lets x1 x2
  clear_value x1
  have hx2 : MemWf x2 := by
    unfold x2
    with_reducible apply wf_State_fabSend
    with_reducible apply wf_State_setMgmt
    assumption
  clear_value x2
  with_reducible refine wf_iteO (fun h3 => ?_) (fun h4 => ?_)
  · with_reducible refine wf_next ?_
    assumption
  · with_reducible refine wf_next ?_
    with_reducible apply wf_State_fabSend
    with_reducible apply wf_State_fabSend
    assumption

theorem wf_execLeasePeriod (s : State) (h_s : MemWf s) :
    OutWf (execLeasePeriod s) := by
  unfold execLeasePeriod
  with_reducible refine wf_iteO (fun h1 => ?_) (fun h2 => ?_)
  · with_reducible refine wf_next ?_
    assumption
  · with_reducible refine wf_next ?_
    with_reducible apply wf_State_fabSend
    with_reducible apply wf_State_setMgmt
    assumption

theorem wf_State_countReg (s : State) (off : Nat) (h_s : MemWf s) :
    MemWf (State.countReg s off) := by
  unfold State.countReg
  with_reducible apply wf_State_setReg
  assumption

theorem wf_execMonitorSample (mon : BitVec 5) (value : BitVec 64) (s : State) (h_s : MemWf s) :
    OutWf (execMonitorSample mon value s) := by
  unfold execMonitorSample
  extract_lets x1 x2 x3 x4 x5
  clear_value x1
  clear_value x2
  clear_value x3
  clear_value x4
  clear_value x5
  with_reducible refine wf_iteO (fun h6 => ?_) (fun h7 => ?_)
  · with_reducible refine wf_next ?_
    assumption
  · with_reducible refine wf_next ?_
    with_reducible apply wf_State_countReg
    with_reducible apply wf_State_countReg
    with_reducible apply wf_State_setReg
    with_reducible apply wf_State_setReg
    assumption

theorem wf_State_clearMonitor (s : State) (m : Nat) (h_s : MemWf s) :
    MemWf (State.clearMonitor s m) := by
  unfold State.clearMonitor
  with_reducible apply wf_State_setReg
  with_reducible apply wf_foldl
  · assumption
  · intro a1
    intro a2
    intro h3
    with_reducible apply wf_State_setReg
    assumption

theorem wf_execMonitorClear (mon : BitVec 5) (s : State) (h_s : MemWf s) :
    OutWf (execMonitorClear mon s) := by
  unfold execMonitorClear
  with_reducible refine wf_next ?_
  with_reducible apply wf_State_clearMonitor
  assumption

theorem wf_State_writeMonitor (s : State) (m : Nat) (v : DWord) (h_s : MemWf s) :
    MemWf (State.writeMonitor s m v) := by
  unfold State.writeMonitor
  extract_lets x1
  have hx1 : MemWf x1 := by
    unfold x1
    with_reducible apply wf_State_writeReg
    assumption
  clear_value x1
  with_reducible refine wf_ite (fun h2 => ?_) (fun h3 => ?_)
  · with_reducible apply wf_State_clearMonitor
    assumption
  · assumption

theorem wf_execMgmtDie (op : BitVec 4) (die : BitVec 8) (s : State) (h_s : MemWf s) :
    OutWf (execMgmtDie op die s) := by
  unfold execMgmtDie
  with_reducible refine wf_next ?_
  with_reducible apply wf_State_dieCommand
  assumption

theorem wf_execMgmtIsland (island freq : BitVec 7) (gate : Bool) (s : State) (h_s : MemWf s) :
    OutWf (execMgmtIsland island freq gate s) := by
  unfold execMgmtIsland
  extract_lets x1 x2
  clear_value x1
  have hx2 : MemWf x2 := by
    unfold x2
    with_reducible apply wf_State_setFreq
    assumption
  clear_value x2
  with_reducible refine wf_iteO (fun h3 => ?_) (fun h4 => ?_)
  · with_reducible refine wf_next ?_
    assumption
  · with_reducible refine wf_next ?_
    with_reducible refine wf_ite (fun h5 => ?_) (fun h6 => ?_)
    · with_reducible apply wf_State_gateOn
      assumption
    · with_reducible apply wf_State_gateOff
      assumption

theorem wf_execMgmtMonitor (mon : BitVec 5) (cfg : Option (BitVec 64)) (s : State) (h_s : MemWf s) :
    OutWf (execMgmtMonitor mon cfg s) := by
  unfold execMgmtMonitor
  split
  · with_reducible refine wf_next ?_
    with_reducible apply wf_State_writeMonitor
    assumption
  · with_reducible refine wf_next ?_
    with_reducible apply wf_State_send
    assumption

theorem wf_execMgmtKeySlot (slot : BitVec 8) (tenant : BitVec 6) (wrapped : List (BitVec 8)) (s : State) (h_s : MemWf s) :
    OutWf (execMgmtKeySlot slot tenant wrapped s) := by
  unfold execMgmtKeySlot
  split
  · with_reducible refine wf_next ?_
    assumption
  · with_reducible refine wf_next ?_
    with_reducible apply wf_State_setMgmt
    assumption

theorem wf_execMgmtServiceStore (image : List (BitVec 8)) (s : State) (h_s : MemWf s) :
    OutWf (execMgmtServiceStore image s) := by
  unfold execMgmtServiceStore
  with_reducible refine wf_next ?_
  with_reducible apply wf_State_loadService
  assumption

theorem wf_execMgmtImage (image : List (BitVec 8)) (s : State) (h_s : MemWf s) :
    OutWf (execMgmtImage image s) := by
  unfold execMgmtImage
  with_reducible refine wf_iteO (fun h1 => ?_) (fun h2 => ?_)
  · with_reducible refine wf_next ?_
    with_reducible apply wf_State_setMgmt
    assumption
  · with_reducible refine wf_next ?_
    assumption

theorem wf_execMgmtDump (s : State) (h_s : MemWf s) :
    OutWf (execMgmtDump s) := by
  unfold execMgmtDump
  with_reducible refine wf_next ?_
  with_reducible apply wf_State_send
  assumption

theorem wf_State_spdm (s : State) (code arg : Nat) (h_s : MemWf s) :
    MemWf (State.spdm s code arg) := by
  unfold State.spdm
  with_reducible apply wf_State_send
  assumption

theorem wf_execGetVersion (s : State) (h_s : MemWf s) :
    OutWf (execGetVersion s) := by
  unfold execGetVersion
  with_reducible refine wf_next ?_
  with_reducible apply wf_State_send
  assumption

theorem wf_execGetCapabilities (s : State) (h_s : MemWf s) :
    OutWf (execGetCapabilities s) := by
  unfold execGetCapabilities
  with_reducible refine wf_next ?_
  with_reducible apply wf_State_spdm
  assumption

theorem wf_execNegotiateAlgorithms (offersP384 offersSha384 : Bool) (s : State) (h_s : MemWf s) :
    OutWf (execNegotiateAlgorithms offersP384 offersSha384 s) := by
  unfold execNegotiateAlgorithms
  with_reducible refine wf_next ?_
  with_reducible apply wf_State_send
  assumption

theorem wf_execGetDigests (s : State) (h_s : MemWf s) :
    OutWf (execGetDigests s) := by
  unfold execGetDigests
  with_reducible refine wf_next ?_
  with_reducible apply wf_State_spdm
  assumption

theorem wf_execGetCertificate (slot off len : Nat) (s : State) (h_s : MemWf s) :
    OutWf (execGetCertificate slot off len s) := by
  unfold execGetCertificate
  with_reducible refine wf_next ?_
  with_reducible apply wf_State_spdm
  assumption

theorem wf_execChallenge (slot nonce : Nat) (s : State) (h_s : MemWf s) :
    OutWf (execChallenge slot nonce s) := by
  unfold execChallenge
  with_reducible refine wf_next ?_
  with_reducible apply wf_State_spdm
  assumption

theorem wf_execGetMeasurements (index : Nat) (s : State) (h_s : MemWf s) :
    OutWf (execGetMeasurements index s) := by
  unfold execGetMeasurements
  extract_lets x1
  clear_value x1
  with_reducible refine wf_next ?_
  with_reducible apply wf_State_send
  assumption

/-! ### Registers -/

theorem wf_State_writeTabown (s : State) (core : Nat) (hi : Bool) (v : DWord) (h_s : MemWf s) :
    MemWf (State.writeTabown s core hi v) := by
  unfold State.writeTabown
  extract_lets x1
  have hx1 : MemWf x1 := by
    unfold x1
    with_reducible apply wf_State_setReg
    assumption
  clear_value x1
  with_reducible apply wf_foldl
  · assumption
  · intro a2
    intro a3
    intro h4
    with_reducible apply wf_State_syncOwner
    assumption

theorem wf_execTabownWrite (core : Nat) (hi : Bool) (value : BitVec 64) (s : State) (h_s : MemWf s) :
    OutWf (execTabownWrite core hi value s) := by
  unfold execTabownWrite
  with_reducible refine wf_iteO (fun h1 => ?_) (fun h2 => ?_)
  · with_reducible refine wf_next ?_
    with_reducible apply wf_State_writeTabown
    assumption
  · with_reducible refine wf_next ?_
    assumption

theorem wf_State_writeTlbinv (s : State) (v : DWord) (h_s : MemWf s) :
    OutWf (State.writeTlbinv s v) := by
  unfold State.writeTlbinv
  extract_lets x1 x2
  clear_value x1
  clear_value x2
  with_reducible refine wf_iteO (fun h3 => ?_) (fun h4 => ?_)
  · with_reducible apply wf_execTlbinvAsid
    assumption
  · with_reducible refine wf_iteO (fun h5 => ?_) (fun h6 => ?_)
    · with_reducible apply wf_execTlbinvRange
      assumption
    · with_reducible refine wf_iteO (fun h7 => ?_) (fun h8 => ?_)
      · with_reducible apply wf_execTlbinvAll
        assumption
      · with_reducible refine wf_next ?_
        assumption

theorem wf_State_writeSncmd (s : State) (v : DWord) (h_s : MemWf s) :
    OutWf (State.writeSncmd s v) := by
  unfold State.writeSncmd
  extract_lets x1 x2 x3 x4
  clear_value x1
  clear_value x2
  clear_value x3
  clear_value x4
  with_reducible refine wf_iteO (fun h5 => ?_) (fun h6 => ?_)
  · with_reducible apply wf_execSnadd
    assumption
  · with_reducible refine wf_iteO (fun h7 => ?_) (fun h8 => ?_)
    · with_reducible apply wf_execSnrem
      assumption
    · with_reducible refine wf_iteO (fun h9 => ?_) (fun h10 => ?_)
      · with_reducible apply wf_execSnap
        assumption
      · with_reducible refine wf_iteO (fun h11 => ?_) (fun h12 => ?_)
        · with_reducible apply wf_execSnout
          assumption
        · with_reducible refine wf_iteO (fun h13 => ?_) (fun h14 => ?_)
          · with_reducible apply wf_execSnstop
            assumption
          · with_reducible refine wf_next ?_
            with_reducible apply wf_State_setRes
            assumption

theorem wf_State_writeIsland (s : State) (n : Nat) (v : DWord) (h_s : MemWf s) :
    MemWf (State.writeIsland s n v) := by
  unfold State.writeIsland
  with_reducible refine wf_ite (fun h1 => ?_) (fun h2 => ?_)
  · assumption
  · extract_lets x3
    have hx3 : MemWf x3 := by
      unfold x3
      with_reducible apply wf_State_setFreq
      assumption
    clear_value x3
    with_reducible refine wf_ite (fun h4 => ?_) (fun h5 => ?_)
    · with_reducible apply wf_State_gateOn
      assumption
    · with_reducible apply wf_State_gateOff
      assumption

theorem wf_State_clearBits (s : State) (off lo n : Nat) (v : DWord) (h_s : MemWf s) :
    MemWf (State.clearBits s off lo n v) := by
  unfold State.clearBits
  with_reducible apply wf_State_setReg
  assumption

theorem wf_State_plainWrite (s : State) (off : Nat) (v : DWord) (h_s : MemWf s) :
    MemWf (State.plainWrite s off v) := by
  unfold State.plainWrite
  with_reducible refine wf_ite (fun h1 => ?_) (fun h2 => ?_)
  · assumption
  · extract_lets x3
    have hx3 : MemWf x3 := by
      unfold x3
      with_reducible apply wf_State_writeReg
      assumption
    clear_value x3
    with_reducible refine wf_ite (fun h4 => ?_) (fun h5 => ?_)
    · with_reducible apply wf_State_flushForwards
      assumption
    · assumption

theorem wf_State_hubWrite (s : State) (off : Nat) (v : DWord) (h_s : MemWf s) :
    OutWf (State.hubWrite s off v) := by
  unfold State.hubWrite
  with_reducible refine wf_iteO (fun h1 => ?_) (fun h2 => ?_)
  · with_reducible refine wf_next ?_
    assumption
  · with_reducible refine wf_iteO (fun h3 => ?_) (fun h4 => ?_)
    · with_reducible apply wf_execLaunchWindowWrite
      assumption
    · with_reducible refine wf_iteO (fun h5 => ?_) (fun h6 => ?_)
      · with_reducible refine wf_next ?_
        with_reducible apply wf_State_writeTabown
        assumption
      · with_reducible refine wf_iteO (fun h7 => ?_) (fun h8 => ?_)
        · with_reducible refine wf_next ?_
          with_reducible apply wf_State_dieCommand
          assumption
        · with_reducible refine wf_iteO (fun h9 => ?_) (fun h10 => ?_)
          · with_reducible apply wf_execPfadd
            assumption
          · with_reducible refine wf_iteO (fun h11 => ?_) (fun h12 => ?_)
            · with_reducible apply wf_execPfdel
              assumption
            · with_reducible refine wf_iteO (fun h13 => ?_) (fun h14 => ?_)
              · with_reducible apply wf_State_writeTlbinv
                assumption
              · with_reducible refine wf_iteO (fun h15 => ?_) (fun h16 => ?_)
                · with_reducible refine wf_next ?_
                  with_reducible apply wf_State_clearBits
                  assumption
                · with_reducible refine wf_iteO (fun h17 => ?_) (fun h18 => ?_)
                  · with_reducible apply wf_execPrrespWrite
                    assumption
                  · with_reducible refine wf_iteO (fun h19 => ?_) (fun h20 => ?_)
                    · with_reducible apply wf_State_writeSncmd
                      assumption
                    · with_reducible refine wf_iteO (fun h21 => ?_) (fun h22 => ?_)
                      · with_reducible apply wf_execSnpoolWrite
                        assumption
                      · with_reducible refine wf_iteO (fun h23 => ?_) (fun h24 => ?_)
                        · with_reducible refine wf_next ?_
                          with_reducible apply wf_State_clearBits
                          assumption
                        · with_reducible refine wf_iteO (fun h25 => ?_) (fun h26 => ?_)
                          · with_reducible refine wf_next ?_
                            with_reducible apply wf_State_writeIsland
                            assumption
                          · with_reducible refine wf_iteO (fun h27 => ?_) (fun h28 => ?_)
                            · with_reducible refine wf_next ?_
                              with_reducible apply wf_State_writeMonitor
                              assumption
                            · with_reducible refine wf_next ?_
                              with_reducible apply wf_State_plainWrite
                              assumption

theorem wf_execRegisterWrite (off size : Nat) (value : BitVec 64) (s : State) (h_s : MemWf s) :
    OutWf (execRegisterWrite off size value s) := by
  unfold execRegisterWrite
  with_reducible refine wf_iteO (fun h1 => ?_) (fun h2 => ?_)
  · with_reducible apply wf_State_hubWrite
    assumption
  · with_reducible refine wf_next ?_
    assumption

theorem wf_State_reply (s : State) (agent : Nat) (bs : List Byte) (h_s : MemWf s) :
    MemWf (State.reply s agent bs) := by
  unfold State.reply
  with_reducible apply wf_State_send
  assumption

theorem wf_State_hubLoad (s : State) (agent off len : Nat) (h_s : MemWf s) :
    OutWf (State.hubLoad s agent off len) := by
  unfold State.hubLoad
  with_reducible refine wf_iteO (fun h1 => ?_) (fun h2 => ?_)
  · with_reducible refine wf_next ?_
    with_reducible apply wf_State_reply
    assumption
  · with_reducible refine wf_iteO (fun h3 => ?_) (fun h4 => ?_)
    · with_reducible apply wf_execLaunchWindowRead
      assumption
    · with_reducible refine wf_next ?_
      with_reducible apply wf_State_reply
      assumption

theorem wf_State_hubStore (s : State) (off : Nat) (bs : List Byte) (h_s : MemWf s) :
    OutWf (State.hubStore s off bs) := by
  unfold State.hubStore
  with_reducible refine wf_iteO (fun h1 => ?_) (fun h2 => ?_)
  · with_reducible apply wf_State_hubWrite
    assumption
  · with_reducible refine wf_next ?_
    assumption

theorem wf_State_putRun (s : State) (loc : Nat) (bs : List Byte) (h_s : MemWf s) :
    MemWf (State.putRun s loc bs) := by
  unfold State.putRun
  with_reducible apply wf_foldl
  · assumption
  · intro a1
    intro a2
    intro h3
    extract_lets x4
    clear_value x4
    with_reducible apply wf_State_put
    assumption

theorem wf_State_busReply (s : State) (agent : Nat) (bs : List Byte) (h_s : MemWf s) :
    MemWf (State.busReply s agent bs) := by
  unfold State.busReply
  with_reducible refine wf_ite (fun h1 => ?_) (fun h2 => ?_)
  · with_reducible apply wf_State_fabSend
    assumption
  · with_reducible apply wf_State_reply
    assumption

theorem wf_State_busAccess (s : State) (agent loc : Nat) (z0 : BusOp) (h_s : MemWf s) :
    OutWf (State.busAccess s agent loc z0) := by
  unfold State.busAccess
  split
  · with_reducible refine wf_iteO (fun h1 => ?_) (fun h2 => ?_)
    · with_reducible refine wf_next ?_
      assumption
    · with_reducible refine wf_iteO (fun h3 => ?_) (fun h4 => ?_)
      · with_reducible refine wf_next ?_
        with_reducible apply wf_State_askFor
        assumption
      · with_reducible refine wf_next ?_
        with_reducible apply wf_State_busReply
        with_reducible apply wf_State_homeReads
        assumption
  · with_reducible refine wf_iteO (fun h5 => ?_) (fun h6 => ?_)
    · with_reducible refine wf_next ?_
      assumption
    · with_reducible refine wf_iteO (fun h7 => ?_) (fun h8 => ?_)
      · with_reducible refine wf_next ?_
        with_reducible apply wf_State_askFor
        assumption
      · with_reducible refine wf_next ?_
        with_reducible apply wf_State_putRun
        assumption

theorem wf_execHostAccess (addr : Nat) (op : BusOp) (s : State) (h_s : MemWf s) :
    OutWf (execHostAccess addr op s) := by
  unfold execHostAccess
  with_reducible refine wf_iteO (fun h1 => ?_) (fun h2 => ?_)
  · with_reducible refine wf_next ?_
    assumption
  · split
    · with_reducible apply wf_State_busAccess
      assumption
    · with_reducible apply wf_State_hubLoad
      assumption
    · with_reducible apply wf_State_hubStore
      assumption
    · with_reducible refine wf_next ?_
      assumption

theorem wf_execPcieMemoryRequest (port addr : Nat) (op : BusOp) (s : State) (h_s : MemWf s) :
    OutWf (execPcieMemoryRequest port addr op s) := by
  unfold execPcieMemoryRequest
  with_reducible refine wf_iteO (fun h1 => ?_) (fun h2 => ?_)
  · with_reducible refine wf_next ?_
    assumption
  · split
    · with_reducible apply wf_State_busAccess
      assumption
    · with_reducible refine wf_next ?_
      assumption

theorem wf_State_hartPut (s : State) (hart loc : Nat) (bs : List Byte) (h_s : MemWf s) :
    MemWf (State.hartPut s hart loc bs) := by
  unfold State.hartPut
  extract_lets x1 x2
  have hx1 : MemWf x1 := by
    unfold x1
    with_reducible apply wf_foldl
    · with_reducible apply wf_State_putRun
      assumption
    · intro a3
      intro a4
      intro h5
      with_reducible apply wf_State_dirSet
      assumption
  clear_value x1
  clear_value x2
  with_reducible apply wf_lit
  assumption

theorem wf_State_hartRead (s : State) (loc len : Nat) (h_s : MemWf s) :
    MemWf (State.hartRead s loc len) := by
  unfold State.hartRead
  with_reducible apply wf_foldl
  · assumption
  · intro a1
    intro a2
    intro h3
    with_reducible apply wf_State_dirRead
    assumption

theorem wf_State_reserve (s : State) (hart : Nat) (r : Option (Nat × Nat)) (h_s : MemWf s) :
    MemWf (State.reserve s hart r) := by
  unfold State.reserve
  with_reducible apply wf_lit
  assumption

theorem wf_State_dropReserved (s : State) (h_s : MemWf s) :
    MemWf (State.dropReserved s) := by
  unfold State.dropReserved
  with_reducible apply wf_lit
  assumption

theorem wf_State_hartMemory (s : State) (hart agent loc : Nat) (z0 : HartOp) (h_s : MemWf s) :
    OutWf (State.hartMemory s hart agent loc z0) := by
  unfold State.hartMemory
  split
  · with_reducible refine wf_next ?_
    assumption
  · with_reducible refine wf_iteO (fun h1 => ?_) (fun h2 => ?_)
    · with_reducible refine wf_next ?_
      assumption
    · with_reducible refine wf_iteO (fun h3 => ?_) (fun h4 => ?_)
      · with_reducible refine wf_next ?_
        with_reducible apply wf_State_askFor
        assumption
      · with_reducible refine wf_next ?_
        with_reducible apply wf_State_reply
        with_reducible apply wf_State_hartRead
        assumption
  · with_reducible refine wf_iteO (fun h5 => ?_) (fun h6 => ?_)
    · with_reducible refine wf_next ?_
      assumption
    · with_reducible refine wf_iteO (fun h7 => ?_) (fun h8 => ?_)
      · with_reducible refine wf_next ?_
        with_reducible apply wf_State_askFor
        assumption
      · with_reducible refine wf_next ?_
        with_reducible apply wf_State_hartPut
        assumption
  · with_reducible refine wf_iteO (fun h9 => ?_) (fun h10 => ?_)
    · with_reducible refine wf_next ?_
      assumption
    · with_reducible refine wf_iteO (fun h11 => ?_) (fun h12 => ?_)
      · with_reducible refine wf_next ?_
        with_reducible apply wf_State_askFor
        assumption
      · with_reducible refine wf_next ?_
        with_reducible apply wf_State_reply
        with_reducible apply wf_State_reserve
        with_reducible apply wf_State_hartRead
        assumption
  · with_reducible refine wf_iteO (fun h13 => ?_) (fun h14 => ?_)
    · with_reducible refine wf_next ?_
      assumption
    · with_reducible refine wf_iteO (fun h15 => ?_) (fun h16 => ?_)
      · with_reducible refine wf_next ?_
        with_reducible apply wf_State_reply
        with_reducible apply wf_State_reserve
        assumption
      · with_reducible refine wf_iteO (fun h17 => ?_) (fun h18 => ?_)
        · with_reducible refine wf_next ?_
          with_reducible apply wf_State_askFor
          assumption
        · with_reducible refine wf_next ?_
          with_reducible apply wf_State_reply
          with_reducible apply wf_State_reserve
          with_reducible apply wf_State_hartPut
          assumption
  · with_reducible refine wf_iteO (fun h19 => ?_) (fun h20 => ?_)
    · with_reducible refine wf_next ?_
      assumption
    · with_reducible refine wf_iteO (fun h21 => ?_) (fun h22 => ?_)
      · with_reducible refine wf_next ?_
        with_reducible apply wf_State_askFor
        assumption
      · extract_lets x23
        clear_value x23
        with_reducible refine wf_next ?_
        with_reducible apply wf_State_reply
        with_reducible apply wf_State_hartPut
        assumption

theorem wf_State_hartRegister (s : State) (agent off : Nat) (z0 : HartOp) (h_s : MemWf s) :
    OutWf (State.hartRegister s agent off z0) := by
  unfold State.hartRegister
  split
  · with_reducible refine wf_next ?_
    assumption
  · with_reducible apply wf_State_hubLoad
    assumption
  · with_reducible apply wf_State_hubStore
    assumption
  · with_reducible apply wf_State_hubLoad
    assumption
  · with_reducible refine wf_next ?_
    with_reducible apply wf_State_reply
    assumption
  · split
    · with_reducible refine wf_iteO (fun h1 => ?_) (fun h2 => ?_)
      · with_reducible refine wf_next ?_
        (refine wf_outGet (by assumption) ?_)
        with_reducible apply wf_State_hubLoad
        assumption
      · with_reducible apply wf_State_hubStore
        (refine wf_outGet (by assumption) ?_)
        with_reducible apply wf_State_hubLoad
        assumption
    · with_reducible apply wf_State_hubLoad
      assumption

theorem wf_execHartAccess (hart addr : Nat) (op : HartOp) (s : State) (h_s : MemWf s) :
    OutWf (execHartAccess hart addr op s) := by
  unfold execHartAccess
  with_reducible refine wf_iteO (fun h1 => ?_) (fun h2 => ?_)
  · with_reducible refine wf_next ?_
    assumption
  · split
    · with_reducible apply wf_State_hartMemory
      assumption
    · with_reducible apply wf_State_hartRegister
      assumption
    · with_reducible refine wf_next ?_
      assumption

theorem wf_State_setHostLine (s : State) (l level : Nat) (h_s : MemWf s) :
    MemWf (State.setHostLine s l level) := by
  unfold State.setHostLine
  with_reducible apply wf_lit
  assumption

theorem wf_execHostSnoop (line : Nat) (s : State) (h_s : MemWf s) :
    OutWf (execHostSnoop line s) := by
  unfold execHostSnoop
  extract_lets x1
  clear_value x1
  with_reducible refine wf_iteO (fun h2 => ?_) (fun h3 => ?_)
  · with_reducible refine wf_next ?_
    assumption
  · with_reducible refine wf_next ?_
    with_reducible apply wf_State_fabSend
    with_reducible apply wf_State_setHostLine
    with_reducible apply wf_State_dirDrop
    assumption

theorem wf_execDirectoryResponse (ask : DirAsk) (s : State) (h_s : MemWf s) :
    OutWf (execDirectoryResponse ask s) := by
  unfold execDirectoryResponse
  extract_lets x1 x2 x3
  clear_value x1
  clear_value x2
  have hx3 : MemWf x3 := by
    unfold x3
    with_reducible apply wf_lit
    assumption
  clear_value x3
  with_reducible refine wf_iteO (fun h4 => ?_) (fun h5 => ?_)
  · with_reducible refine wf_next ?_
    assumption
  · with_reducible refine wf_next ?_
    with_reducible apply wf_State_settleConds
    with_reducible apply wf_State_settleCores
    with_reducible apply wf_State_setHostLine
    assumption

/-! ### Dispatch -/

theorem wf_exec (i : Instr) (s : State) (h_s : MemWf s) :
    OutWf (exec i s) := by
  unfold exec
  split
  · with_reducible apply wf_execBr
    assumption
  · with_reducible apply wf_execCall
    assumption
  · with_reducible apply wf_execCalli
    assumption
  · with_reducible apply wf_execRet
    assumption
  · with_reducible apply wf_execUnwind
    assumption
  · with_reducible apply wf_execUnwindMark
    assumption
  · with_reducible apply wf_execReform
    assumption
  · with_reducible apply wf_execBar
    assumption
  · with_reducible apply wf_execExit
    assumption
  · with_reducible apply wf_execLoop
    assumption
  · with_reducible apply wf_execLoopL1
    assumption
  · with_reducible apply wf_execLend1
    assumption
  · with_reducible apply wf_execTrap
    assumption
  · with_reducible apply wf_execSvc
    assumption
  · with_reducible apply wf_execBrk
    assumption
  · with_reducible apply wf_execAdd
    assumption
  · with_reducible apply wf_execSub
    assumption
  · with_reducible apply wf_execMul
    assumption
  · with_reducible apply wf_execMulh
    assumption
  · with_reducible apply wf_execMulhu
    assumption
  · with_reducible apply wf_execMin
    assumption
  · with_reducible apply wf_execMax
    assumption
  · with_reducible apply wf_execMinu
    assumption
  · with_reducible apply wf_execMaxu
    assumption
  · with_reducible apply wf_execAnd
    assumption
  · with_reducible apply wf_execOr
    assumption
  · with_reducible apply wf_execXor
    assumption
  · with_reducible apply wf_execAndn
    assumption
  · with_reducible apply wf_execSll
    assumption
  · with_reducible apply wf_execSrl
    assumption
  · with_reducible apply wf_execSra
    assumption
  · with_reducible apply wf_execAddImm
    assumption
  · with_reducible apply wf_execMulImm
    assumption
  · with_reducible apply wf_execAndImm
    assumption
  · with_reducible apply wf_execOrImm
    assumption
  · with_reducible apply wf_execXorImm
    assumption
  · with_reducible apply wf_execSllImm
    assumption
  · with_reducible apply wf_execSrlImm
    assumption
  · with_reducible apply wf_execSraImm
    assumption
  · with_reducible apply wf_execSh1add
    assumption
  · with_reducible apply wf_execSh2add
    assumption
  · with_reducible apply wf_execSh3add
    assumption
  · with_reducible apply wf_execClz
    assumption
  · with_reducible apply wf_execCtz
    assumption
  · with_reducible apply wf_execPopc
    assumption
  · with_reducible apply wf_execBext
    assumption
  · with_reducible apply wf_execBextu
    assumption
  · with_reducible apply wf_execBins
    assumption
  · with_reducible apply wf_execCmpeq
    assumption
  · with_reducible apply wf_execCmpne
    assumption
  · with_reducible apply wf_execCmplt
    assumption
  · with_reducible apply wf_execCmpltu
    assumption
  · with_reducible apply wf_execCmple
    assumption
  · with_reducible apply wf_execCmpleu
    assumption
  · with_reducible apply wf_execCmpeqImm
    assumption
  · with_reducible apply wf_execCmpneImm
    assumption
  · with_reducible apply wf_execCmpltImm
    assumption
  · with_reducible apply wf_execCmpltuImm
    assumption
  · with_reducible apply wf_execCmpgtImm
    assumption
  · with_reducible apply wf_execCmpgtuImm
    assumption
  · with_reducible apply wf_execSel
    assumption
  · with_reducible apply wf_execLimm
    assumption
  · with_reducible apply wf_execAdr
    assumption
  · with_reducible apply wf_execTgtLabel
    assumption
  · with_reducible apply wf_execTgtReg
    assumption
  · with_reducible apply wf_execGetsr
    assumption
  · with_reducible apply wf_execSetsr
    assumption
  · with_reducible apply wf_execSemset
    assumption
  · with_reducible apply wf_execSemadd
    assumption
  · with_reducible apply wf_execSemwait
    assumption
  · with_reducible apply wf_execTagwa
    assumption
  · with_reducible apply wf_execTagwl
    assumption
  · with_reducible apply wf_execTagff
    assumption
  · with_reducible apply wf_execTsel
    assumption
  · with_reducible apply wf_execPswap
    assumption
  · with_reducible apply wf_execFtset
    assumption
  · with_reducible apply wf_execSqrd
    assumption
  · with_reducible apply wf_execResumeSlots
    assumption
  · with_reducible apply wf_execDswap
    assumption
  · with_reducible apply wf_execVadd
    assumption
  · with_reducible apply wf_execVsub
    assumption
  · with_reducible apply wf_execVmul
    assumption
  · with_reducible apply wf_execVmulh
    assumption
  · with_reducible apply wf_execVmad
    assumption
  · with_reducible apply wf_execVdot4
    assumption
  · with_reducible apply wf_execVmin
    assumption
  · with_reducible apply wf_execVmax
    assumption
  · with_reducible apply wf_execVabs
    assumption
  · with_reducible apply wf_execVand
    assumption
  · with_reducible apply wf_execVor
    assumption
  · with_reducible apply wf_execVxor
    assumption
  · with_reducible apply wf_execVandn
    assumption
  · with_reducible apply wf_execVshl
    assumption
  · with_reducible apply wf_execVshr
    assumption
  · with_reducible apply wf_execVclz
    assumption
  · with_reducible apply wf_execVpopc
    assumption
  · with_reducible apply wf_execVmov
    assumption
  · with_reducible apply wf_execVcmpeq
    assumption
  · with_reducible apply wf_execVcmpne
    assumption
  · with_reducible apply wf_execVcmplt
    assumption
  · with_reducible apply wf_execVcmple
    assumption
  · with_reducible apply wf_execVsel
    assumption
  · with_reducible apply wf_execVfadd
    assumption
  · with_reducible apply wf_execVfsub
    assumption
  · with_reducible apply wf_execVfmul
    assumption
  · with_reducible apply wf_execVfma
    assumption
  · with_reducible apply wf_execVfmin
    assumption
  · with_reducible apply wf_execVfmax
    assumption
  · with_reducible apply wf_execVfabs
    assumption
  · with_reducible apply wf_execVfneg
    assumption
  · with_reducible apply wf_execVhadd
    assumption
  · with_reducible apply wf_execVhsub
    assumption
  · with_reducible apply wf_execVhmul
    assumption
  · with_reducible apply wf_execVhfma
    assumption
  · with_reducible apply wf_execVbadd
    assumption
  · with_reducible apply wf_execVbsub
    assumption
  · with_reducible apply wf_execVbmul
    assumption
  · with_reducible apply wf_execVbfma
    assumption
  · with_reducible apply wf_execVcvtf
    assumption
  · with_reducible apply wf_execVcvts
    assumption
  · with_reducible apply wf_execVcvtx
    assumption
  · with_reducible apply wf_execVftoi
    assumption
  · with_reducible apply wf_execVitof
    assumption
  · with_reducible apply wf_execVcvth
    assumption
  · with_reducible apply wf_execVnps
    assumption
  · with_reducible apply wf_execVnpm
    assumption
  · with_reducible apply wf_execVshfl
    assumption
  · with_reducible apply wf_execVperm
    assumption
  · with_reducible apply wf_execVmatch
    assumption
  · with_reducible apply wf_execVballot
    assumption
  · with_reducible apply wf_execVvote
    assumption
  · with_reducible apply wf_execVscan
    assumption
  · with_reducible apply wf_execVred
    assumption
  · with_reducible apply wf_execVbcast
    assumption
  · with_reducible apply wf_execVaccrd
    assumption
  · with_reducible apply wf_execVaccwr
    assumption
  · with_reducible apply wf_execTokv
    assumption
  · with_reducible apply wf_execTokm
    assumption
  · with_reducible apply wf_execVxtov
    assumption
  · with_reducible apply wf_execVvtox
    assumption
  · with_reducible apply wf_execFev
    assumption
  · with_reducible apply wf_execFevE2
    assumption
  · with_reducible apply wf_execFevL2
    assumption
  · with_reducible apply wf_execFevRc
    assumption
  · with_reducible apply wf_execFevRs
    assumption
  · with_reducible apply wf_execFevPd
    assumption
  · with_reducible apply wf_execFseg
    assumption
  · with_reducible apply wf_execFdom
    assumption
  · with_reducible apply wf_execLdZ8
    assumption
  · with_reducible apply wf_execLdS8
    assumption
  · with_reducible apply wf_execLdZ16
    assumption
  · with_reducible apply wf_execLdS16
    assumption
  · with_reducible apply wf_execLd32
    assumption
  · with_reducible apply wf_execLd64
    assumption
  · with_reducible apply wf_execLd128
    assumption
  · with_reducible apply wf_execLdA16
    assumption
  · with_reducible apply wf_execLdsZ8
    assumption
  · with_reducible apply wf_execLdsS8
    assumption
  · with_reducible apply wf_execLdsZ16
    assumption
  · with_reducible apply wf_execLdsS16
    assumption
  · with_reducible apply wf_execLds32
    assumption
  · with_reducible apply wf_execLds64
    assumption
  · with_reducible apply wf_execLds128
    assumption
  · with_reducible apply wf_execLdsA16
    assumption
  · with_reducible apply wf_execSt8
    assumption
  · with_reducible apply wf_execSt16
    assumption
  · with_reducible apply wf_execSt32
    assumption
  · with_reducible apply wf_execSt64
    assumption
  · with_reducible apply wf_execSt128
    assumption
  · with_reducible apply wf_execStA16
    assumption
  · with_reducible apply wf_execSts8
    assumption
  · with_reducible apply wf_execSts16
    assumption
  · with_reducible apply wf_execSts32
    assumption
  · with_reducible apply wf_execSts64
    assumption
  · with_reducible apply wf_execSts128
    assumption
  · with_reducible apply wf_execStsA16
    assumption
  · with_reducible apply wf_execAtomAdd
    assumption
  · with_reducible apply wf_execAtomMin
    assumption
  · with_reducible apply wf_execAtomMax
    assumption
  · with_reducible apply wf_execAtomMinu
    assumption
  · with_reducible apply wf_execAtomMaxu
    assumption
  · with_reducible apply wf_execAtomAnd
    assumption
  · with_reducible apply wf_execAtomOr
    assumption
  · with_reducible apply wf_execAtomXor
    assumption
  · with_reducible apply wf_execAtomExch
    assumption
  · with_reducible apply wf_execAtomCas
    assumption
  · with_reducible apply wf_execAtomFaddF32
    assumption
  · with_reducible apply wf_execAtomFaddBf16X2
    assumption
  · with_reducible apply wf_execAtomsAdd
    assumption
  · with_reducible apply wf_execAtomsMin
    assumption
  · with_reducible apply wf_execAtomsMax
    assumption
  · with_reducible apply wf_execAtomsMinu
    assumption
  · with_reducible apply wf_execAtomsMaxu
    assumption
  · with_reducible apply wf_execAtomsAnd
    assumption
  · with_reducible apply wf_execAtomsOr
    assumption
  · with_reducible apply wf_execAtomsXor
    assumption
  · with_reducible apply wf_execAtomsExch
    assumption
  · with_reducible apply wf_execAtomsCas
    assumption
  · with_reducible apply wf_execAtomsFaddF32
    assumption
  · with_reducible apply wf_execAtomsFaddBf16X2
    assumption
  · with_reducible apply wf_execPref
    assumption
  · with_reducible apply wf_execClean
    assumption
  · with_reducible apply wf_execInval
    assumption
  · with_reducible apply wf_execIcinv
    assumption
  · with_reducible apply wf_execFenceAcq
    assumption
  · with_reducible apply wf_execFenceRel
    assumption
  · with_reducible apply wf_execFenceAr
    assumption
  · with_reducible apply wf_execFenceSc
    assumption
  · with_reducible apply wf_execFenceCp
    assumption
  · with_reducible apply wf_execDrain
    assumption
  · with_reducible apply wf_execFst
    assumption
  · with_reducible apply wf_execFsig
    assumption
  · with_reducible apply wf_execLaunch
    assumption
  · with_reducible apply wf_execAcqProm
    assumption
  · with_reducible apply wf_execTxbegin
    assumption
  · with_reducible apply wf_execTxst
    assumption
  · with_reducible apply wf_execTxcommit
    assumption
  · with_reducible apply wf_execTxabort
    assumption
  · with_reducible apply wf_execMma
    assumption
  · with_reducible apply wf_execAccz
    assumption
  · with_reducible apply wf_execMst
    assumption
  · with_reducible apply wf_execMld
    assumption
  · with_reducible apply wf_execMsync
    assumption
  · with_reducible apply wf_execMstat
    assumption
  · with_reducible apply wf_execScla
    assumption
  · with_reducible apply wf_execSclb
    assumption
  · with_reducible apply wf_execSclz
    assumption
  · with_reducible apply wf_execCopy
    assumption
  · with_reducible apply wf_execCopyx
    assumption
  · with_reducible apply wf_execTload
    assumption
  · with_reducible apply wf_execPload
    assumption
  · with_reducible apply wf_execDload
    assumption
  · with_reducible apply wf_execIntake
    assumption
  · with_reducible apply wf_execShset
    assumption
  · with_reducible apply wf_execShseti
    assumption
  · with_reducible apply wf_execBundleIssue
    assumption
  · with_reducible apply wf_execBinAged
    assumption
  · with_reducible apply wf_execLoadValueArrives
    assumption
  · with_reducible apply wf_execSwapCommit
    assumption
  · with_reducible apply wf_execPageRequestPost
    assumption
  · with_reducible apply wf_execPrrespWrite
    assumption
  · with_reducible apply wf_execWaitParkCandidate
    assumption
  · with_reducible apply wf_execParkGroup
    assumption
  · with_reducible apply wf_execUnparkGroup
    assumption
  · with_reducible apply wf_execGroupEnd
    assumption
  · with_reducible apply wf_execSiphonCommandStart
    assumption
  · with_reducible apply wf_execTimedCopyStartTime
    assumption
  · with_reducible apply wf_execMatrixCommandStart
    assumption
  · with_reducible apply wf_execCommandRetire
    assumption
  · with_reducible apply wf_execFrameGrant
    assumption
  · with_reducible apply wf_execSpillTimeout
    assumption
  · with_reducible apply wf_execRefill
    assumption
  · with_reducible apply wf_execWritePerforms
    assumption
  · with_reducible apply wf_execLineEviction
    assumption
  · with_reducible apply wf_execPromotionAtVictim
    assumption
  · with_reducible apply wf_execPromotionAck
    assumption
  · with_reducible apply wf_execLaunchWindowWrite
    assumption
  · with_reducible apply wf_execLaunchWindowRead
    assumption
  · with_reducible apply wf_execLaunchBatchAccept
    assumption
  · with_reducible apply wf_execMemoryConditionPoll
    assumption
  · with_reducible apply wf_execQueueAging
    assumption
  · with_reducible apply wf_execPlaceGang
    assumption
  · with_reducible apply wf_execPreempt
    assumption
  · with_reducible apply wf_execPreemptDeadline
    assumption
  · with_reducible apply wf_execContextSave
    assumption
  · with_reducible apply wf_execContextRestore
    assumption
  · with_reducible apply wf_execLaunchComplete
    assumption
  · with_reducible apply wf_execLaunchAbort
    assumption
  · with_reducible apply wf_execTabownWrite
    assumption
  · with_reducible apply wf_execRegisterWrite
    assumption
  · with_reducible apply wf_execServiceEntry
    assumption
  · with_reducible apply wf_execServiceDeadline
    assumption
  · with_reducible apply wf_execPfadd
    assumption
  · with_reducible apply wf_execPfdel
    assumption
  · with_reducible apply wf_execUncorrectableError
    assumption
  · with_reducible apply wf_execScrub
    assumption
  · with_reducible apply wf_execTlbinvAsid
    assumption
  · with_reducible apply wf_execTlbinvRange
    assumption
  · with_reducible apply wf_execTlbinvAll
    assumption
  · with_reducible apply wf_execTlbInvalidationDone
    assumption
  · with_reducible apply wf_execSnadd
    assumption
  · with_reducible apply wf_execSnrem
    assumption
  · with_reducible apply wf_execSnap
    assumption
  · with_reducible apply wf_execSnout
    assumption
  · with_reducible apply wf_execSnstop
    assumption
  · with_reducible apply wf_execSnpoolWrite
    assumption
  · with_reducible apply wf_execCopyBeforeWrite
    assumption
  · with_reducible apply wf_execDrainPageSend
    assumption
  · with_reducible apply wf_execDrainPageAck
    assumption
  · with_reducible apply wf_execDrainTargetFail
    assumption
  · with_reducible apply wf_execLinkRetrain
    assumption
  · with_reducible apply wf_execLinkFail
    assumption
  · with_reducible apply wf_execRemoteLoadRequest
    assumption
  · with_reducible apply wf_execRemoteLoadResponse
    assumption
  · with_reducible apply wf_execFstApply
    assumption
  · with_reducible apply wf_execFstAck
    assumption
  · with_reducible apply wf_execFsigApply
    assumption
  · with_reducible apply wf_execFsigForward
    assumption
  · with_reducible apply wf_execTargetLost
    assumption
  · with_reducible apply wf_execTxStage
    assumption
  · with_reducible apply wf_execTxStageAck
    assumption
  · with_reducible apply wf_execTxPrepare
    assumption
  · with_reducible apply wf_execTxVote
    assumption
  · with_reducible apply wf_execTxVoteTimeout
    assumption
  · with_reducible apply wf_execTxDecision
    assumption
  · with_reducible apply wf_execTxApplyAck
    assumption
  · with_reducible apply wf_execTxPartTimeout
    assumption
  · with_reducible apply wf_execTxRecovery
    assumption
  · with_reducible apply wf_execHostAccess
    assumption
  · with_reducible apply wf_execHostSnoop
    assumption
  · with_reducible apply wf_execPackageReset
    assumption
  · with_reducible apply wf_execDieEnumerate
    assumption
  · with_reducible apply wf_execDieIsolate
    assumption
  · with_reducible apply wf_execDieRejoin
    assumption
  · with_reducible apply wf_execDieInternalError
    assumption
  · with_reducible apply wf_execIsolationComplete
    assumption
  · with_reducible apply wf_execIslandFreqWrite
    assumption
  · with_reducible apply wf_execIslandGate
    assumption
  · with_reducible apply wf_execIslandGated
    assumption
  · with_reducible apply wf_execIslandUngate
    assumption
  · with_reducible apply wf_execThrottle
    assumption
  · with_reducible apply wf_execFatalError
    assumption
  · with_reducible apply wf_execBoot
    assumption
  · with_reducible apply wf_execFirmwareVerify
    assumption
  · with_reducible apply wf_execClaim
    assumption
  · with_reducible apply wf_execLease
    assumption
  · with_reducible apply wf_execLoad
    assumption
  · with_reducible apply wf_execDone
    assumption
  · with_reducible apply wf_execLeaseTimeout
    assumption
  · with_reducible apply wf_execClaimTimeout
    assumption
  · with_reducible apply wf_execLeasePeriod
    assumption
  · with_reducible apply wf_execMgmtDie
    assumption
  · with_reducible apply wf_execMgmtIsland
    assumption
  · with_reducible apply wf_execMgmtMonitor
    assumption
  · with_reducible apply wf_execMgmtKeySlot
    assumption
  · with_reducible apply wf_execMgmtServiceStore
    assumption
  · with_reducible apply wf_execMgmtImage
    assumption
  · with_reducible apply wf_execMgmtDump
    assumption
  · with_reducible apply wf_execGetVersion
    assumption
  · with_reducible apply wf_execGetCapabilities
    assumption
  · with_reducible apply wf_execNegotiateAlgorithms
    assumption
  · with_reducible apply wf_execGetDigests
    assumption
  · with_reducible apply wf_execGetCertificate
    assumption
  · with_reducible apply wf_execChallenge
    assumption
  · with_reducible apply wf_execGetMeasurements
    assumption
  · with_reducible apply wf_execMonitorSample
    assumption
  · with_reducible apply wf_execMonitorClear
    assumption
  · with_reducible apply wf_execLinkUp
    assumption
  · with_reducible apply wf_execFsigAck
    assumption
  · with_reducible apply wf_execHartAccess
    assumption
  · with_reducible apply wf_execPcieMemoryRequest
    assumption
  · with_reducible apply wf_execDirectoryResponse
    assumption
  · with_reducible apply wf_execIslandChangeComplete
    assumption

end Sys2Proof.Laws
end

