-- ==== Sys2Proof/Laws/PerInstr.lean ====
section
/-! SUPPORT. The decoder gives back every well-formed instruction that the encoder encodes, one lemma per constructor.
The events of the table have no encoding, and the statement says nothing of them. -/

namespace Sys2Proof.Laws.RoundTrip

set_option Elab.async false
set_option linter.unusedSimpArgs false
set_option linter.constructorNameAsVariable false

/-- The bits that the encoder gives a well-formed instruction decode to it. -/
def Statement (i : Instr) : Prop :=
  ∀ (k : SlotKind) (w : BitVec 64), i.wf = true → encode i = some (k, w) → decodeSlot k w = some i

theorem of_code {i : Instr} {k : SlotKind} {w : BitVec 64} (he : encode i = some (k, w))
    (hd : rawDecode k w = some i) : Statement i := by
  intro k' w' hw h
  obtain ⟨rfl, rfl⟩ : k = k' ∧ w = w' := by simpa [he] using h
  simp [decodeSlot, keepWf, hd, hw]

theorem no_code {i : Instr} (he : encode i = none) : Statement i := by
  intro k w _ h
  simp [he] at h

theorem test_bits_lt (t : Test) : t.bits.toNat < 256 := t.bits.isLt

theorem testOf_ofNat (t : Test) (n : Nat) (h : n % 256 = t.bits.toNat) : testOf (BitVec.ofNat 8 n) = t := by
  have : BitVec.ofNat 8 n = t.bits := BitVec.eq_of_toNat_eq (by simpa using h)
  rw [this, testOf_bits]

/-- The number of a tree's bits. -/
theorem br_toNat (tests : List Test) (file : Bool) (n : Nat) (hn : n < 2 ^ 35) (h : (brBits tests file) =
    BitVec.ofNat 60 (n + 2 ^ 35 * file.toNat)) : (brBits tests file).toNat = n + 2 ^ 35 * file.toNat := by
  rw [h, BitVec.toNat_ofNat]
  apply Nat.mod_eq_of_lt
  have : file.toNat ≤ 1 := by cases file <;> decide
  omega

/-- A tree of a number, once its tests and its filing bit are known. -/
theorem br_map (tests : List Test) (file : Bool) (r : BitVec 60) (n : Nat) (hr : r.toNat = n + 2 ^ 35 * file.toNat)
    (hn : n < 2 ^ 35) (hl : n % 8 ≤ 4) (hz : n / 2 ^ (3 + 8 * (n % 8)) = 0) (ht : testsOf r.toNat = tests) :
    mapBr 0 r = some (.br tests file) := by
  have hb : file.toNat ≤ 1 := by cases file <;> decide
  have h8 : r.toNat % 8 = n % 8 := by omega
  have h35 : r.toNat % 2 ^ 35 = n := by omega
  have h36 : r.toNat / 2 ^ 36 = 0 := by omega
  have hf : bitAt r 35 = file := by
    have : r.toNat / 2 ^ 35 = file.toNat := by omega
    simp only [bitAt, BitVec.getLsbD, Nat.testBit, Nat.shiftRight_eq_div_pow, this]
    cases file <;> rfl
  have e : mapBr 0 r = (if r.toNat % 8 ≤ 4 ∧ r.toNat % 2 ^ 35 / 2 ^ (3 + 8 * (r.toNat % 8)) = 0 ∧ r.toNat / 2 ^ 36 = 0
      then some (.br (testsOf r.toNat) (bitAt r 35)) else none) := rfl
  rw [e, if_pos ⟨by omega, by rw [h35, h8]; exact hz, h36⟩, ht, hf]

theorem br (tests : List Test) (file : Bool) : Statement (.br tests file) := by
  intro k w hw he
  have hl : tests.length ≤ 4 := by simpa [Instr.wf] using hw
  refine of_code rfl ?_ k w hw he
  rw [raw_br]
  have hb : file.toNat ≤ 1 := by cases file <;> decide
  match tests, hl with
  | [], _ =>
    have hr := br_toNat [] file 0 (by decide) (by simp [brBits])
    exact br_map [] file _ 0 hr (by decide) (by decide) (by decide) (by
      have : (brBits [] file).toNat % 8 = 0 := by omega
      simp [testsOf, this])
  | [a], _ =>
    have ha := test_bits_lt a
    have hr := br_toNat [a] file (1 + a.bits.toNat * 2 ^ 3) (by omega) (by simp only [brBits, List.length_cons, List.length_nil]; congr 1; omega)
    refine br_map [a] file _ _ hr (by omega) (by omega) ?_ ?_
    · have : (1 + a.bits.toNat * 2 ^ 3) % 8 = 1 := by omega
      rw [this]; omega
    · have h : (brBits [a] file).toNat % 8 = 1 := by omega
      simp only [testsOf, h]
      rw [testOf_ofNat a _ (by omega)]
  | [a, b], _ =>
    have ha := test_bits_lt a
    have hb' := test_bits_lt b
    have hr := br_toNat [a, b] file (2 + a.bits.toNat * 2 ^ 3 + b.bits.toNat * 2 ^ 11) (by omega)
      (by simp only [brBits, List.length_cons, List.length_nil]; congr 1; omega)
    refine br_map [a, b] file _ _ hr (by omega) (by omega) ?_ ?_
    · have : (2 + a.bits.toNat * 2 ^ 3 + b.bits.toNat * 2 ^ 11) % 8 = 2 := by omega
      rw [this]; omega
    · have h : (brBits [a, b] file).toNat % 8 = 2 := by omega
      simp only [testsOf, h]
      rw [testOf_ofNat a _ (by omega), testOf_ofNat b _ (by omega)]
  | [a, b, c], _ =>
    have ha := test_bits_lt a
    have hb' := test_bits_lt b
    have hc := test_bits_lt c
    have hr := br_toNat [a, b, c] file (3 + a.bits.toNat * 2 ^ 3 + b.bits.toNat * 2 ^ 11 + c.bits.toNat * 2 ^ 19)
      (by omega) (by simp only [brBits, List.length_cons, List.length_nil]; congr 1; omega)
    refine br_map [a, b, c] file _ _ hr (by omega) (by omega) ?_ ?_
    · have : (3 + a.bits.toNat * 2 ^ 3 + b.bits.toNat * 2 ^ 11 + c.bits.toNat * 2 ^ 19) % 8 = 3 := by omega
      rw [this]; omega
    · have h : (brBits [a, b, c] file).toNat % 8 = 3 := by omega
      simp only [testsOf, h]
      rw [testOf_ofNat a _ (by omega), testOf_ofNat b _ (by omega), testOf_ofNat c _ (by omega)]
  | [a, b, c, d], _ =>
    have ha := test_bits_lt a
    have hb' := test_bits_lt b
    have hc := test_bits_lt c
    have hd := test_bits_lt d
    have hr := br_toNat [a, b, c, d] file
      (4 + a.bits.toNat * 2 ^ 3 + b.bits.toNat * 2 ^ 11 + c.bits.toNat * 2 ^ 19 + d.bits.toNat * 2 ^ 27)
      (by omega) (by simp only [brBits, List.length_cons, List.length_nil]; congr 1; omega)
    refine br_map [a, b, c, d] file _ _ hr (by omega) (by omega) ?_ ?_
    · have : (4 + a.bits.toNat * 2 ^ 3 + b.bits.toNat * 2 ^ 11 + c.bits.toNat * 2 ^ 19 + d.bits.toNat * 2 ^ 27) % 8 = 4 := by
        omega
      rw [this]; omega
    · have h : (brBits [a, b, c, d] file).toNat % 8 = 4 := by omega
      simp only [testsOf, h]
      rw [testOf_ofNat a _ (by omega), testOf_ofNat b _ (by omega), testOf_ofNat c _ (by omega),
        testOf_ofNat d _ (by omega)]

theorem limm (imm : BitVec 25) : Statement (.limm imm) := by
  apply of_code rfl
  have h1 : bitsOf (w := 32) (imm ++ (0x2F : BitVec 7)) 0 7 = 0x2F :=
    (bitsOf_append_lo imm (0x2F : BitVec 7) 0 7 (by decide)).trans (bitsOf_whole _)
  have h2 : bitsOf (w := 32) (imm ++ (0x2F : BitVec 7)) 7 25 = imm :=
    (bitsOf_append_hi imm (0x2F : BitVec 7) 7 25 (by decide)).trans (bitsOf_whole _)
  simp only [rawDecode, BitVec.zeroExtend, bits64_of_32, h1, h2, if_true]

theorem call (b : BitVec 3) (dem : BitVec 4) (carry : BitVec 3) (mark : Bool) : Statement (.call b dem carry mark) := by
  apply of_code rfl
  rw [raw_br]
  generalize hr : ((0 : BitVec 49) ++ BitVec.ofBool mark ++ carry ++ dem ++ b : BitVec 60) = r
  have h0 : bitsOf r 11 49 = 0 := hr ▸ ((bitsOf_append_hi ((0 : BitVec 49) ++ BitVec.ofBool mark ++ carry ++ dem) b 11 49 (by decide)).trans ((bitsOf_append_hi ((0 : BitVec 49) ++ BitVec.ofBool mark ++ carry) dem 8 49 (by decide)).trans ((bitsOf_append_hi ((0 : BitVec 49) ++ BitVec.ofBool mark) carry 4 49 (by decide)).trans ((bitsOf_append_hi ((0 : BitVec 49)) (BitVec.ofBool mark) 1 49 (by decide)).trans (bitsOf_zero (w := 49) 0 49)))))
  have h1 : bitsOf r 0 3 = b := hr ▸ ((bitsOf_append_lo ((0 : BitVec 49) ++ BitVec.ofBool mark ++ carry ++ dem) b 0 3 (by decide)).trans (bitsOf_whole b))
  have h2 : bitsOf r 3 4 = dem := hr ▸ ((bitsOf_append_hi ((0 : BitVec 49) ++ BitVec.ofBool mark ++ carry ++ dem) b 3 4 (by decide)).trans ((bitsOf_append_lo ((0 : BitVec 49) ++ BitVec.ofBool mark ++ carry) dem 0 4 (by decide)).trans (bitsOf_whole dem)))
  have h3 : bitsOf r 7 3 = carry := hr ▸ ((bitsOf_append_hi ((0 : BitVec 49) ++ BitVec.ofBool mark ++ carry ++ dem) b 7 3 (by decide)).trans ((bitsOf_append_hi ((0 : BitVec 49) ++ BitVec.ofBool mark ++ carry) dem 4 3 (by decide)).trans ((bitsOf_append_lo ((0 : BitVec 49) ++ BitVec.ofBool mark) carry 0 3 (by decide)).trans (bitsOf_whole carry))))
  have h4 : bitAt r 10 = mark := hr ▸ ((bitAt_append_hi ((0 : BitVec 49) ++ BitVec.ofBool mark ++ carry ++ dem) b 10 (by decide)).trans ((bitAt_append_hi ((0 : BitVec 49) ++ BitVec.ofBool mark ++ carry) dem 7 (by decide)).trans ((bitAt_append_hi ((0 : BitVec 49) ++ BitVec.ofBool mark) carry 3 (by decide)).trans ((bitAt_append_lo ((0 : BitVec 49)) (BitVec.ofBool mark) 0 (by decide)).trans (bitAt_ofBool mark)))))
  have e : mapBr 0x1 r = (if bitsOf r 11 49 = 0 then some (.call (bitsOf r 0 3) (bitsOf r 3 4) (bitsOf r 7 3) (bitAt r 10)) else none) := rfl
  exact e.trans (by simp [h0, h1, h2, h3, h4])

theorem calli (x : BitVec 4) (carry : BitVec 3) (mark : Bool) : Statement (.calli x carry mark) := by
  apply of_code rfl
  rw [raw_br]
  generalize hr : ((0 : BitVec 52) ++ BitVec.ofBool mark ++ carry ++ x : BitVec 60) = r
  have h0 : bitsOf r 8 52 = 0 := hr ▸ ((bitsOf_append_hi ((0 : BitVec 52) ++ BitVec.ofBool mark ++ carry) x 8 52 (by decide)).trans ((bitsOf_append_hi ((0 : BitVec 52) ++ BitVec.ofBool mark) carry 4 52 (by decide)).trans ((bitsOf_append_hi ((0 : BitVec 52)) (BitVec.ofBool mark) 1 52 (by decide)).trans (bitsOf_zero (w := 52) 0 52))))
  have h1 : bitsOf r 0 4 = x := hr ▸ ((bitsOf_append_lo ((0 : BitVec 52) ++ BitVec.ofBool mark ++ carry) x 0 4 (by decide)).trans (bitsOf_whole x))
  have h2 : bitsOf r 4 3 = carry := hr ▸ ((bitsOf_append_hi ((0 : BitVec 52) ++ BitVec.ofBool mark ++ carry) x 4 3 (by decide)).trans ((bitsOf_append_lo ((0 : BitVec 52) ++ BitVec.ofBool mark) carry 0 3 (by decide)).trans (bitsOf_whole carry)))
  have h3 : bitAt r 7 = mark := hr ▸ ((bitAt_append_hi ((0 : BitVec 52) ++ BitVec.ofBool mark ++ carry) x 7 (by decide)).trans ((bitAt_append_hi ((0 : BitVec 52) ++ BitVec.ofBool mark) carry 3 (by decide)).trans ((bitAt_append_lo ((0 : BitVec 52)) (BitVec.ofBool mark) 0 (by decide)).trans (bitAt_ofBool mark))))
  have e : mapBr 0x2 r = (if bitsOf r 8 52 = 0 then some (.calli (bitsOf r 0 4) (bitsOf r 4 3) (bitAt r 7)) else none) := rfl
  exact e.trans (by simp [h0, h1, h2, h3])

theorem ret (carry : BitVec 3) : Statement (.ret carry) := by
  apply of_code rfl
  rw [raw_br]
  generalize hr : ((0 : BitVec 57) ++ carry : BitVec 60) = r
  have h0 : bitsOf r 3 57 = 0 := hr ▸ ((bitsOf_append_hi ((0 : BitVec 57)) carry 3 57 (by decide)).trans (bitsOf_zero (w := 57) 0 57))
  have h1 : bitsOf r 0 3 = carry := hr ▸ ((bitsOf_append_lo ((0 : BitVec 57)) carry 0 3 (by decide)).trans (bitsOf_whole carry))
  have e : mapBr 0x3 r = (if bitsOf r 3 57 = 0 then some (.ret (bitsOf r 0 3)) else none) := rfl
  exact e.trans (by simp [h0, h1])

theorem unwind (x : BitVec 4) : Statement (.unwind x) := by
  apply of_code rfl
  rw [raw_br]
  generalize hr : ((0 : BitVec 55) ++ x ++ (0 : BitVec 1) : BitVec 60) = r
  have h0 : bitsOf r 5 55 = 0 := hr ▸ ((bitsOf_append_hi ((0 : BitVec 55) ++ x) (0 : BitVec 1) 5 55 (by decide)).trans ((bitsOf_append_hi ((0 : BitVec 55)) x 4 55 (by decide)).trans (bitsOf_zero (w := 55) 0 55)))
  have h1 : bitAt r 0 = false := hr ▸ ((bitAt_append_lo ((0 : BitVec 55) ++ x) (0 : BitVec 1) 0 (by decide)).trans ((by decide)))
  have h2 : bitsOf r 1 4 = x := hr ▸ ((bitsOf_append_hi ((0 : BitVec 55) ++ x) (0 : BitVec 1) 1 4 (by decide)).trans ((bitsOf_append_lo ((0 : BitVec 55)) x 0 4 (by decide)).trans (bitsOf_whole x)))
  have e : mapBr 0x4 r = (if bitsOf r 5 55 ≠ 0 then none else if bitAt r 0 then (if bitsOf r 1 4 = 0 then some .unwindMark else none) else some (.unwind (bitsOf r 1 4))) := rfl
  exact e.trans (by simp [h0, h1, h2])

theorem loop (x : BitVec 4) (epi : BitVec 8) (rot : BitVec 3) : Statement (.loop x epi rot) := by
  apply of_code rfl
  rw [raw_br]
  generalize hr : ((0 : BitVec 45) ++ rot ++ epi ++ x : BitVec 60) = r
  have h0 : bitsOf r 16 44 = 0 := hr ▸ ((bitsOf_append_hi ((0 : BitVec 45) ++ rot ++ epi) x 16 44 (by decide)).trans ((bitsOf_append_hi ((0 : BitVec 45) ++ rot) epi 12 44 (by decide)).trans ((bitsOf_append_hi ((0 : BitVec 45)) rot 4 44 (by decide)).trans (bitsOf_zero (w := 45) 1 44))))
  have h1 : bitAt r 15 = false := hr ▸ ((bitAt_append_hi ((0 : BitVec 45) ++ rot ++ epi) x 15 (by decide)).trans ((bitAt_append_hi ((0 : BitVec 45) ++ rot) epi 11 (by decide)).trans ((bitAt_append_hi ((0 : BitVec 45)) rot 3 (by decide)).trans ((by decide)))))
  have h2 : bitsOf r 0 4 = x := hr ▸ ((bitsOf_append_lo ((0 : BitVec 45) ++ rot ++ epi) x 0 4 (by decide)).trans (bitsOf_whole x))
  have h3 : bitsOf r 4 8 = epi := hr ▸ ((bitsOf_append_hi ((0 : BitVec 45) ++ rot ++ epi) x 4 8 (by decide)).trans ((bitsOf_append_lo ((0 : BitVec 45) ++ rot) epi 0 8 (by decide)).trans (bitsOf_whole epi)))
  have h4 : bitsOf r 12 3 = rot := hr ▸ ((bitsOf_append_hi ((0 : BitVec 45) ++ rot ++ epi) x 12 3 (by decide)).trans ((bitsOf_append_hi ((0 : BitVec 45) ++ rot) epi 8 3 (by decide)).trans ((bitsOf_append_lo ((0 : BitVec 45)) rot 0 3 (by decide)).trans (bitsOf_whole rot))))
  have e : mapBr 0x8 r = (if bitsOf r 16 44 ≠ 0 then none else if bitAt r 15 then (if bitsOf r 4 11 = 0 then some (.loopL1 (bitsOf r 0 4)) else none) else some (.loop (bitsOf r 0 4) (bitsOf r 4 8) (bitsOf r 12 3))) := rfl
  exact e.trans (by simp [h0, h1, h2, h3, h4])

theorem loopL1 (x : BitVec 4) : Statement (.loopL1 x) := by
  apply of_code rfl
  rw [raw_br]
  generalize hr : ((0 : BitVec 44) ++ (1 : BitVec 1) ++ (0 : BitVec 11) ++ x : BitVec 60) = r
  have h0 : bitsOf r 16 44 = 0 := hr ▸ ((bitsOf_append_hi ((0 : BitVec 44) ++ (1 : BitVec 1) ++ (0 : BitVec 11)) x 16 44 (by decide)).trans ((bitsOf_append_hi ((0 : BitVec 44) ++ (1 : BitVec 1)) (0 : BitVec 11) 12 44 (by decide)).trans ((bitsOf_append_hi ((0 : BitVec 44)) (1 : BitVec 1) 1 44 (by decide)).trans (bitsOf_zero (w := 44) 0 44))))
  have h1 : bitAt r 15 = true := hr ▸ ((bitAt_append_hi ((0 : BitVec 44) ++ (1 : BitVec 1) ++ (0 : BitVec 11)) x 15 (by decide)).trans ((bitAt_append_hi ((0 : BitVec 44) ++ (1 : BitVec 1)) (0 : BitVec 11) 11 (by decide)).trans ((bitAt_append_lo ((0 : BitVec 44)) (1 : BitVec 1) 0 (by decide)).trans ((by decide)))))
  have h2 : bitsOf r 4 11 = 0 := hr ▸ ((bitsOf_append_hi ((0 : BitVec 44) ++ (1 : BitVec 1) ++ (0 : BitVec 11)) x 4 11 (by decide)).trans ((bitsOf_append_lo ((0 : BitVec 44) ++ (1 : BitVec 1)) (0 : BitVec 11) 0 11 (by decide)).trans (bitsOf_zero (w := 11) 0 11)))
  have h3 : bitsOf r 0 4 = x := hr ▸ ((bitsOf_append_lo ((0 : BitVec 44) ++ (1 : BitVec 1) ++ (0 : BitVec 11)) x 0 4 (by decide)).trans (bitsOf_whole x))
  have e : mapBr 0x8 r = (if bitsOf r 16 44 ≠ 0 then none else if bitAt r 15 then (if bitsOf r 4 11 = 0 then some (.loopL1 (bitsOf r 0 4)) else none) else some (.loop (bitsOf r 0 4) (bitsOf r 4 8) (bitsOf r 12 3))) := rfl
  exact e.trans (by simp [h0, h1, h2, h3])

theorem trap (code : BitVec 8) (pred : BitVec 4) (sense : Bool) : Statement (.trap code pred sense) := by
  apply of_code rfl
  rw [raw_br]
  generalize hr : ((0 : BitVec 47) ++ BitVec.ofBool sense ++ pred ++ code : BitVec 60) = r
  have h0 : bitsOf r 13 47 = 0 := hr ▸ ((bitsOf_append_hi ((0 : BitVec 47) ++ BitVec.ofBool sense ++ pred) code 13 47 (by decide)).trans ((bitsOf_append_hi ((0 : BitVec 47) ++ BitVec.ofBool sense) pred 5 47 (by decide)).trans ((bitsOf_append_hi ((0 : BitVec 47)) (BitVec.ofBool sense) 1 47 (by decide)).trans (bitsOf_zero (w := 47) 0 47))))
  have h1 : bitsOf r 0 8 = code := hr ▸ ((bitsOf_append_lo ((0 : BitVec 47) ++ BitVec.ofBool sense ++ pred) code 0 8 (by decide)).trans (bitsOf_whole code))
  have h2 : bitsOf r 8 4 = pred := hr ▸ ((bitsOf_append_hi ((0 : BitVec 47) ++ BitVec.ofBool sense ++ pred) code 8 4 (by decide)).trans ((bitsOf_append_lo ((0 : BitVec 47) ++ BitVec.ofBool sense) pred 0 4 (by decide)).trans (bitsOf_whole pred)))
  have h3 : bitAt r 12 = sense := hr ▸ ((bitAt_append_hi ((0 : BitVec 47) ++ BitVec.ofBool sense ++ pred) code 12 (by decide)).trans ((bitAt_append_hi ((0 : BitVec 47) ++ BitVec.ofBool sense) pred 4 (by decide)).trans ((bitAt_append_lo ((0 : BitVec 47)) (BitVec.ofBool sense) 0 (by decide)).trans (bitAt_ofBool sense))))
  have e : mapBr 0xA r = (if bitsOf r 13 47 = 0 then some (.trap (bitsOf r 0 8) (bitsOf r 8 4) (bitAt r 12)) else none) := rfl
  exact e.trans (by simp [h0, h1, h2, h3])

theorem svc (num : BitVec 16) : Statement (.svc num) := by
  apply of_code rfl
  rw [raw_br]
  generalize hr : ((0 : BitVec 44) ++ num : BitVec 60) = r
  have h0 : bitsOf r 16 44 = 0 := hr ▸ ((bitsOf_append_hi ((0 : BitVec 44)) num 16 44 (by decide)).trans (bitsOf_zero (w := 44) 0 44))
  have h1 : bitsOf r 0 16 = num := hr ▸ ((bitsOf_append_lo ((0 : BitVec 44)) num 0 16 (by decide)).trans (bitsOf_whole num))
  have e : mapBr 0xB r = (if bitsOf r 16 44 = 0 then some (.svc (bitsOf r 0 16)) else none) := rfl
  exact e.trans (by simp [h0, h1])

theorem brk (code : BitVec 8) : Statement (.brk code) := by
  apply of_code rfl
  rw [raw_br]
  generalize hr : ((0 : BitVec 52) ++ code : BitVec 60) = r
  have h0 : bitsOf r 8 52 = 0 := hr ▸ ((bitsOf_append_hi ((0 : BitVec 52)) code 8 52 (by decide)).trans (bitsOf_zero (w := 52) 0 52))
  have h1 : bitsOf r 0 8 = code := hr ▸ ((bitsOf_append_lo ((0 : BitVec 52)) code 0 8 (by decide)).trans (bitsOf_whole code))
  have e : mapBr 0xC r = (if bitsOf r 8 52 = 0 then some (.brk (bitsOf r 0 8)) else none) := rfl
  exact e.trans (by simp [h0, h1])

theorem reform : Statement (.reform) := of_code rfl ((raw_br _ _).trans rfl)

theorem bar : Statement (.bar) := of_code rfl ((raw_br _ _).trans rfl)

theorem exit : Statement (.exit) := of_code rfl ((raw_br _ _).trans rfl)

theorem lend1 : Statement (.lend1) := of_code rfl ((raw_br _ _).trans rfl)

theorem unwindMark : Statement (.unwindMark) := of_code rfl ((raw_br _ _).trans rfl)

theorem add (xd : BitVec 4) (xa : BitVec 4) (xb : BitVec 4) (g : Guard) : Statement (.add xd xa xb g) := of_code rfl ((raw_s ⟨xb.zeroExtend 9, xa, xd, g.bits, 1⟩ (op := 1) rfl (by decide)).trans (by (first | (change @ite _ _ _ (some _) none = _) | (change some _ = _)); simp [bitsOf_extend_lo, bitsOf_extend_hi, bitAt_extend_hi]))
theorem sub (xd : BitVec 4) (xa : BitVec 4) (xb : BitVec 4) (g : Guard) : Statement (.sub xd xa xb g) := of_code rfl ((raw_s ⟨xb.zeroExtend 9, xa, xd, g.bits, 2⟩ (op := 2) rfl (by decide)).trans (by (first | (change @ite _ _ _ (some _) none = _) | (change some _ = _)); simp [bitsOf_extend_lo, bitsOf_extend_hi, bitAt_extend_hi]))
theorem mul (xd : BitVec 4) (xa : BitVec 4) (xb : BitVec 4) (g : Guard) : Statement (.mul xd xa xb g) := of_code rfl ((raw_s ⟨xb.zeroExtend 9, xa, xd, g.bits, 3⟩ (op := 3) rfl (by decide)).trans (by (first | (change @ite _ _ _ (some _) none = _) | (change some _ = _)); simp [bitsOf_extend_lo, bitsOf_extend_hi, bitAt_extend_hi]))
theorem mulh (xd : BitVec 4) (xa : BitVec 4) (xb : BitVec 4) (g : Guard) : Statement (.mulh xd xa xb g) := of_code rfl ((raw_s ⟨xb.zeroExtend 9, xa, xd, g.bits, 4⟩ (op := 4) rfl (by decide)).trans (by (first | (change @ite _ _ _ (some _) none = _) | (change some _ = _)); simp [bitsOf_extend_lo, bitsOf_extend_hi, bitAt_extend_hi]))
theorem mulhu (xd : BitVec 4) (xa : BitVec 4) (xb : BitVec 4) (g : Guard) : Statement (.mulhu xd xa xb g) := of_code rfl ((raw_s ⟨xb.zeroExtend 9, xa, xd, g.bits, 5⟩ (op := 5) rfl (by decide)).trans (by (first | (change @ite _ _ _ (some _) none = _) | (change some _ = _)); simp [bitsOf_extend_lo, bitsOf_extend_hi, bitAt_extend_hi]))
theorem min (xd : BitVec 4) (xa : BitVec 4) (xb : BitVec 4) (g : Guard) : Statement (.min xd xa xb g) := of_code rfl ((raw_s ⟨xb.zeroExtend 9, xa, xd, g.bits, 6⟩ (op := 6) rfl (by decide)).trans (by (first | (change @ite _ _ _ (some _) none = _) | (change some _ = _)); simp [bitsOf_extend_lo, bitsOf_extend_hi, bitAt_extend_hi]))
theorem max (xd : BitVec 4) (xa : BitVec 4) (xb : BitVec 4) (g : Guard) : Statement (.max xd xa xb g) := of_code rfl ((raw_s ⟨xb.zeroExtend 9, xa, xd, g.bits, 7⟩ (op := 7) rfl (by decide)).trans (by (first | (change @ite _ _ _ (some _) none = _) | (change some _ = _)); simp [bitsOf_extend_lo, bitsOf_extend_hi, bitAt_extend_hi]))
theorem minu (xd : BitVec 4) (xa : BitVec 4) (xb : BitVec 4) (g : Guard) : Statement (.minu xd xa xb g) := of_code rfl ((raw_s ⟨xb.zeroExtend 9, xa, xd, g.bits, 8⟩ (op := 8) rfl (by decide)).trans (by (first | (change @ite _ _ _ (some _) none = _) | (change some _ = _)); simp [bitsOf_extend_lo, bitsOf_extend_hi, bitAt_extend_hi]))
theorem maxu (xd : BitVec 4) (xa : BitVec 4) (xb : BitVec 4) (g : Guard) : Statement (.maxu xd xa xb g) := of_code rfl ((raw_s ⟨xb.zeroExtend 9, xa, xd, g.bits, 9⟩ (op := 9) rfl (by decide)).trans (by (first | (change @ite _ _ _ (some _) none = _) | (change some _ = _)); simp [bitsOf_extend_lo, bitsOf_extend_hi, bitAt_extend_hi]))
theorem and (xd : BitVec 4) (xa : BitVec 4) (xb : BitVec 4) (g : Guard) : Statement (.and xd xa xb g) := of_code rfl ((raw_s ⟨xb.zeroExtend 9, xa, xd, g.bits, 10⟩ (op := 10) rfl (by decide)).trans (by (first | (change @ite _ _ _ (some _) none = _) | (change some _ = _)); simp [bitsOf_extend_lo, bitsOf_extend_hi, bitAt_extend_hi]))
theorem or (xd : BitVec 4) (xa : BitVec 4) (xb : BitVec 4) (g : Guard) : Statement (.or xd xa xb g) := of_code rfl ((raw_s ⟨xb.zeroExtend 9, xa, xd, g.bits, 11⟩ (op := 11) rfl (by decide)).trans (by (first | (change @ite _ _ _ (some _) none = _) | (change some _ = _)); simp [bitsOf_extend_lo, bitsOf_extend_hi, bitAt_extend_hi]))
theorem xor (xd : BitVec 4) (xa : BitVec 4) (xb : BitVec 4) (g : Guard) : Statement (.xor xd xa xb g) := of_code rfl ((raw_s ⟨xb.zeroExtend 9, xa, xd, g.bits, 12⟩ (op := 12) rfl (by decide)).trans (by (first | (change @ite _ _ _ (some _) none = _) | (change some _ = _)); simp [bitsOf_extend_lo, bitsOf_extend_hi, bitAt_extend_hi]))
theorem andn (xd : BitVec 4) (xa : BitVec 4) (xb : BitVec 4) (g : Guard) : Statement (.andn xd xa xb g) := of_code rfl ((raw_s ⟨xb.zeroExtend 9, xa, xd, g.bits, 13⟩ (op := 13) rfl (by decide)).trans (by (first | (change @ite _ _ _ (some _) none = _) | (change some _ = _)); simp [bitsOf_extend_lo, bitsOf_extend_hi, bitAt_extend_hi]))
theorem sll (xd : BitVec 4) (xa : BitVec 4) (xb : BitVec 4) (g : Guard) : Statement (.sll xd xa xb g) := of_code rfl ((raw_s ⟨xb.zeroExtend 9, xa, xd, g.bits, 14⟩ (op := 14) rfl (by decide)).trans (by (first | (change @ite _ _ _ (some _) none = _) | (change some _ = _)); simp [bitsOf_extend_lo, bitsOf_extend_hi, bitAt_extend_hi]))
theorem srl (xd : BitVec 4) (xa : BitVec 4) (xb : BitVec 4) (g : Guard) : Statement (.srl xd xa xb g) := of_code rfl ((raw_s ⟨xb.zeroExtend 9, xa, xd, g.bits, 15⟩ (op := 15) rfl (by decide)).trans (by (first | (change @ite _ _ _ (some _) none = _) | (change some _ = _)); simp [bitsOf_extend_lo, bitsOf_extend_hi, bitAt_extend_hi]))
theorem sra (xd : BitVec 4) (xa : BitVec 4) (xb : BitVec 4) (g : Guard) : Statement (.sra xd xa xb g) := of_code rfl ((raw_s ⟨xb.zeroExtend 9, xa, xd, g.bits, 16⟩ (op := 16) rfl (by decide)).trans (by (first | (change @ite _ _ _ (some _) none = _) | (change some _ = _)); simp [bitsOf_extend_lo, bitsOf_extend_hi, bitAt_extend_hi]))
theorem addImm (xd : BitVec 4) (xa : BitVec 4) (imm : BitVec 9) (g : Guard) : Statement (.addImm xd xa imm g) := of_code rfl ((raw_s ⟨imm, xa, xd, g.bits, 17⟩ (op := 17) rfl (by decide)).trans (by change some _ = _; simp [bitsOf_extend_lo, bitsOf_extend_hi, bitAt_extend_hi]))
theorem mulImm (xd : BitVec 4) (xa : BitVec 4) (imm : BitVec 9) (g : Guard) : Statement (.mulImm xd xa imm g) := of_code rfl ((raw_s ⟨imm, xa, xd, g.bits, 18⟩ (op := 18) rfl (by decide)).trans (by change some _ = _; simp [bitsOf_extend_lo, bitsOf_extend_hi, bitAt_extend_hi]))
theorem andImm (xd : BitVec 4) (xa : BitVec 4) (imm : BitVec 9) (g : Guard) : Statement (.andImm xd xa imm g) := of_code rfl ((raw_s ⟨imm, xa, xd, g.bits, 19⟩ (op := 19) rfl (by decide)).trans (by change some _ = _; simp [bitsOf_extend_lo, bitsOf_extend_hi, bitAt_extend_hi]))
theorem orImm (xd : BitVec 4) (xa : BitVec 4) (imm : BitVec 9) (g : Guard) : Statement (.orImm xd xa imm g) := of_code rfl ((raw_s ⟨imm, xa, xd, g.bits, 20⟩ (op := 20) rfl (by decide)).trans (by change some _ = _; simp [bitsOf_extend_lo, bitsOf_extend_hi, bitAt_extend_hi]))
theorem xorImm (xd : BitVec 4) (xa : BitVec 4) (imm : BitVec 9) (g : Guard) : Statement (.xorImm xd xa imm g) := of_code rfl ((raw_s ⟨imm, xa, xd, g.bits, 21⟩ (op := 21) rfl (by decide)).trans (by change some _ = _; simp [bitsOf_extend_lo, bitsOf_extend_hi, bitAt_extend_hi]))
theorem sllImm (xd : BitVec 4) (xa : BitVec 4) (imm : BitVec 6) (g : Guard) : Statement (.sllImm xd xa imm g) := of_code rfl ((raw_s ⟨imm.zeroExtend 9, xa, xd, g.bits, 22⟩ (op := 22) rfl (by decide)).trans (by (first | (change @ite _ _ _ (some _) none = _) | (change some _ = _)); simp [bitsOf_extend_lo, bitsOf_extend_hi, bitAt_extend_hi]))
theorem srlImm (xd : BitVec 4) (xa : BitVec 4) (imm : BitVec 6) (g : Guard) : Statement (.srlImm xd xa imm g) := of_code rfl ((raw_s ⟨imm.zeroExtend 9, xa, xd, g.bits, 23⟩ (op := 23) rfl (by decide)).trans (by (first | (change @ite _ _ _ (some _) none = _) | (change some _ = _)); simp [bitsOf_extend_lo, bitsOf_extend_hi, bitAt_extend_hi]))
theorem sraImm (xd : BitVec 4) (xa : BitVec 4) (imm : BitVec 6) (g : Guard) : Statement (.sraImm xd xa imm g) := of_code rfl ((raw_s ⟨imm.zeroExtend 9, xa, xd, g.bits, 24⟩ (op := 24) rfl (by decide)).trans (by (first | (change @ite _ _ _ (some _) none = _) | (change some _ = _)); simp [bitsOf_extend_lo, bitsOf_extend_hi, bitAt_extend_hi]))
theorem sh1add (xd : BitVec 4) (xa : BitVec 4) (xb : BitVec 4) (g : Guard) : Statement (.sh1add xd xa xb g) := of_code rfl ((raw_s ⟨xb.zeroExtend 9, xa, xd, g.bits, 25⟩ (op := 25) rfl (by decide)).trans (by (first | (change @ite _ _ _ (some _) none = _) | (change some _ = _)); simp [bitsOf_extend_lo, bitsOf_extend_hi, bitAt_extend_hi]))
theorem sh2add (xd : BitVec 4) (xa : BitVec 4) (xb : BitVec 4) (g : Guard) : Statement (.sh2add xd xa xb g) := of_code rfl ((raw_s ⟨xb.zeroExtend 9, xa, xd, g.bits, 26⟩ (op := 26) rfl (by decide)).trans (by (first | (change @ite _ _ _ (some _) none = _) | (change some _ = _)); simp [bitsOf_extend_lo, bitsOf_extend_hi, bitAt_extend_hi]))
theorem sh3add (xd : BitVec 4) (xa : BitVec 4) (xb : BitVec 4) (g : Guard) : Statement (.sh3add xd xa xb g) := of_code rfl ((raw_s ⟨xb.zeroExtend 9, xa, xd, g.bits, 27⟩ (op := 27) rfl (by decide)).trans (by (first | (change @ite _ _ _ (some _) none = _) | (change some _ = _)); simp [bitsOf_extend_lo, bitsOf_extend_hi, bitAt_extend_hi]))
theorem clz (xd : BitVec 4) (xa : BitVec 4) (g : Guard) : Statement (.clz xd xa g) := of_code rfl ((raw_s ⟨0, xa, xd, g.bits, 28⟩ (op := 28) rfl (by decide)).trans (by (first | (change @ite _ _ _ (some _) none = _) | (change some _ = _)); simp [bitsOf_extend_lo, bitsOf_extend_hi, bitAt_extend_hi]))
theorem ctz (xd : BitVec 4) (xa : BitVec 4) (g : Guard) : Statement (.ctz xd xa g) := of_code rfl ((raw_s ⟨0, xa, xd, g.bits, 29⟩ (op := 29) rfl (by decide)).trans (by (first | (change @ite _ _ _ (some _) none = _) | (change some _ = _)); simp [bitsOf_extend_lo, bitsOf_extend_hi, bitAt_extend_hi]))
theorem popc (xd : BitVec 4) (xa : BitVec 4) (g : Guard) : Statement (.popc xd xa g) := of_code rfl ((raw_s ⟨0, xa, xd, g.bits, 30⟩ (op := 30) rfl (by decide)).trans (by (first | (change @ite _ _ _ (some _) none = _) | (change some _ = _)); simp [bitsOf_extend_lo, bitsOf_extend_hi, bitAt_extend_hi]))
theorem bext (xd : BitVec 4) (xa : BitVec 4) (xb : BitVec 4) (g : Guard) : Statement (.bext xd xa xb g) := of_code rfl ((raw_s ⟨xb.zeroExtend 9, xa, xd, g.bits, 31⟩ (op := 31) rfl (by decide)).trans (by (first | (change @ite _ _ _ (some _) none = _) | (change some _ = _)); simp [bitsOf_extend_lo, bitsOf_extend_hi, bitAt_extend_hi]))
theorem bextu (xd : BitVec 4) (xa : BitVec 4) (xb : BitVec 4) (g : Guard) : Statement (.bextu xd xa xb g) := of_code rfl ((raw_s ⟨xb.zeroExtend 9, xa, xd, g.bits, 32⟩ (op := 32) rfl (by decide)).trans (by (first | (change @ite _ _ _ (some _) none = _) | (change some _ = _)); simp [bitsOf_extend_lo, bitsOf_extend_hi, bitAt_extend_hi]))
theorem bins (xd : BitVec 4) (xa : BitVec 4) (xb : BitVec 4) (g : Guard) : Statement (.bins xd xa xb g) := of_code rfl ((raw_s ⟨xb.zeroExtend 9, xa, xd, g.bits, 33⟩ (op := 33) rfl (by decide)).trans (by (first | (change @ite _ _ _ (some _) none = _) | (change some _ = _)); simp [bitsOf_extend_lo, bitsOf_extend_hi, bitAt_extend_hi]))
theorem cmpeq (pd : BitVec 4) (xa : BitVec 4) (xb : BitVec 4) (g : Guard) : Statement (.cmpeq pd xa xb g) := of_code rfl ((raw_s ⟨xb.zeroExtend 9, xa, pd, g.bits, 34⟩ (op := 34) rfl (by decide)).trans (by (first | (change @ite _ _ _ (some _) none = _) | (change some _ = _)); simp [bitsOf_extend_lo, bitsOf_extend_hi, bitAt_extend_hi]))
theorem cmpne (pd : BitVec 4) (xa : BitVec 4) (xb : BitVec 4) (g : Guard) : Statement (.cmpne pd xa xb g) := of_code rfl ((raw_s ⟨xb.zeroExtend 9, xa, pd, g.bits, 35⟩ (op := 35) rfl (by decide)).trans (by (first | (change @ite _ _ _ (some _) none = _) | (change some _ = _)); simp [bitsOf_extend_lo, bitsOf_extend_hi, bitAt_extend_hi]))
theorem cmplt (pd : BitVec 4) (xa : BitVec 4) (xb : BitVec 4) (g : Guard) : Statement (.cmplt pd xa xb g) := of_code rfl ((raw_s ⟨xb.zeroExtend 9, xa, pd, g.bits, 36⟩ (op := 36) rfl (by decide)).trans (by (first | (change @ite _ _ _ (some _) none = _) | (change some _ = _)); simp [bitsOf_extend_lo, bitsOf_extend_hi, bitAt_extend_hi]))
theorem cmpltu (pd : BitVec 4) (xa : BitVec 4) (xb : BitVec 4) (g : Guard) : Statement (.cmpltu pd xa xb g) := of_code rfl ((raw_s ⟨xb.zeroExtend 9, xa, pd, g.bits, 37⟩ (op := 37) rfl (by decide)).trans (by (first | (change @ite _ _ _ (some _) none = _) | (change some _ = _)); simp [bitsOf_extend_lo, bitsOf_extend_hi, bitAt_extend_hi]))
theorem cmple (pd : BitVec 4) (xa : BitVec 4) (xb : BitVec 4) (g : Guard) : Statement (.cmple pd xa xb g) := of_code rfl ((raw_s ⟨xb.zeroExtend 9, xa, pd, g.bits, 38⟩ (op := 38) rfl (by decide)).trans (by (first | (change @ite _ _ _ (some _) none = _) | (change some _ = _)); simp [bitsOf_extend_lo, bitsOf_extend_hi, bitAt_extend_hi]))
theorem cmpleu (pd : BitVec 4) (xa : BitVec 4) (xb : BitVec 4) (g : Guard) : Statement (.cmpleu pd xa xb g) := of_code rfl ((raw_s ⟨xb.zeroExtend 9, xa, pd, g.bits, 39⟩ (op := 39) rfl (by decide)).trans (by (first | (change @ite _ _ _ (some _) none = _) | (change some _ = _)); simp [bitsOf_extend_lo, bitsOf_extend_hi, bitAt_extend_hi]))
theorem cmpeqImm (pd : BitVec 4) (xa : BitVec 4) (imm : BitVec 9) (g : Guard) : Statement (.cmpeqImm pd xa imm g) := of_code rfl ((raw_s ⟨imm, xa, pd, g.bits, 40⟩ (op := 40) rfl (by decide)).trans (by change some _ = _; simp [bitsOf_extend_lo, bitsOf_extend_hi, bitAt_extend_hi]))
theorem cmpneImm (pd : BitVec 4) (xa : BitVec 4) (imm : BitVec 9) (g : Guard) : Statement (.cmpneImm pd xa imm g) := of_code rfl ((raw_s ⟨imm, xa, pd, g.bits, 41⟩ (op := 41) rfl (by decide)).trans (by change some _ = _; simp [bitsOf_extend_lo, bitsOf_extend_hi, bitAt_extend_hi]))
theorem cmpltImm (pd : BitVec 4) (xa : BitVec 4) (imm : BitVec 9) (g : Guard) : Statement (.cmpltImm pd xa imm g) := of_code rfl ((raw_s ⟨imm, xa, pd, g.bits, 42⟩ (op := 42) rfl (by decide)).trans (by change some _ = _; simp [bitsOf_extend_lo, bitsOf_extend_hi, bitAt_extend_hi]))
theorem cmpltuImm (pd : BitVec 4) (xa : BitVec 4) (imm : BitVec 9) (g : Guard) : Statement (.cmpltuImm pd xa imm g) := of_code rfl ((raw_s ⟨imm, xa, pd, g.bits, 43⟩ (op := 43) rfl (by decide)).trans (by change some _ = _; simp [bitsOf_extend_lo, bitsOf_extend_hi, bitAt_extend_hi]))
theorem cmpgtImm (pd : BitVec 4) (xa : BitVec 4) (imm : BitVec 9) (g : Guard) : Statement (.cmpgtImm pd xa imm g) := of_code rfl ((raw_s ⟨imm, xa, pd, g.bits, 44⟩ (op := 44) rfl (by decide)).trans (by change some _ = _; simp [bitsOf_extend_lo, bitsOf_extend_hi, bitAt_extend_hi]))
theorem cmpgtuImm (pd : BitVec 4) (xa : BitVec 4) (imm : BitVec 9) (g : Guard) : Statement (.cmpgtuImm pd xa imm g) := of_code rfl ((raw_s ⟨imm, xa, pd, g.bits, 45⟩ (op := 45) rfl (by decide)).trans (by change some _ = _; simp [bitsOf_extend_lo, bitsOf_extend_hi, bitAt_extend_hi]))
theorem sel (xd : BitVec 4) (pn : BitVec 4) (sense : Bool) (xa : BitVec 4) (xb : BitVec 4) (g : Guard) : Statement (.sel xd pn sense xa xb g) := of_code rfl ((raw_s ⟨BitVec.ofBool sense ++ pn ++ xb, xa, xd, g.bits, 0x2E⟩ (op := 0x2E) rfl (by decide)).trans (by change some _ = _; simp [bitsOf_extend_lo, bitsOf_extend_hi, bitAt_extend_hi]))
theorem adr (xd : BitVec 4) (imm : BitVec 9) (g : Guard) : Statement (.adr xd imm g) := of_code rfl ((raw_s ⟨imm, 0, xd, g.bits, 0x30⟩ (op := 0x30) rfl (by decide)).trans (by (first | (change @ite _ _ _ (some _) none = _) | (change some _ = _)); simp [bitsOf_extend_lo, bitsOf_extend_hi, bitAt_extend_hi]))
theorem tgtLabel (bd : BitVec 3) (imm : BitVec 9) (g : Guard) : Statement (.tgtLabel bd imm g) := of_code rfl ((raw_s ⟨imm, 0, bd.zeroExtend 4, g.bits, 0x31⟩ (op := 0x31) rfl (by decide)).trans (by (first | (change @ite _ _ _ (some _) none = _) | (change some _ = _)); simp [bitsOf_extend_lo, bitsOf_extend_hi, bitAt_extend_hi]))
theorem tgtReg (bd : BitVec 3) (xa : BitVec 4) (g : Guard) : Statement (.tgtReg bd xa g) := of_code rfl ((raw_s ⟨0, xa, bd.zeroExtend 4, g.bits, 0x32⟩ (op := 0x32) rfl (by decide)).trans (by (first | (change @ite _ _ _ (some _) none = _) | (change some _ = _)); simp [bitsOf_extend_lo, bitsOf_extend_hi, bitAt_extend_hi]))
theorem getsr (xd : BitVec 4) (sr : BitVec 9) (g : Guard) : Statement (.getsr xd sr g) := of_code rfl ((raw_s ⟨sr, 0, xd, g.bits, 0x33⟩ (op := 0x33) rfl (by decide)).trans (by (first | (change @ite _ _ _ (some _) none = _) | (change some _ = _)); simp [bitsOf_extend_lo, bitsOf_extend_hi, bitAt_extend_hi]))
theorem setsr (sr : BitVec 9) (xa : BitVec 4) (g : Guard) : Statement (.setsr sr xa g) := of_code rfl ((raw_s ⟨sr, xa, 0, g.bits, 0x34⟩ (op := 0x34) rfl (by decide)).trans (by (first | (change @ite _ _ _ (some _) none = _) | (change some _ = _)); simp [bitsOf_extend_lo, bitsOf_extend_hi, bitAt_extend_hi]))
theorem semset (sem : BitVec 8) (xa : BitVec 4) (g : Guard) : Statement (.semset sem xa g) := of_code rfl ((raw_s ⟨sem.zeroExtend 9, xa, 0, g.bits, 53⟩ (op := 53) rfl (by decide)).trans (by (first | (change @ite _ _ _ (some _) none = _) | (change some _ = _)); simp [bitsOf_extend_lo, bitsOf_extend_hi, bitAt_extend_hi]))
theorem semadd (sem : BitVec 8) (xa : BitVec 4) (g : Guard) : Statement (.semadd sem xa g) := of_code rfl ((raw_s ⟨sem.zeroExtend 9, xa, 0, g.bits, 54⟩ (op := 54) rfl (by decide)).trans (by (first | (change @ite _ _ _ (some _) none = _) | (change some _ = _)); simp [bitsOf_extend_lo, bitsOf_extend_hi, bitAt_extend_hi]))
theorem semwait (sem : BitVec 8) (xa : BitVec 4) (g : Guard) : Statement (.semwait sem xa g) := of_code rfl ((raw_s ⟨sem.zeroExtend 9, xa, 0, g.bits, 55⟩ (op := 55) rfl (by decide)).trans (by (first | (change @ite _ _ _ (some _) none = _) | (change some _ = _)); simp [bitsOf_extend_lo, bitsOf_extend_hi, bitAt_extend_hi]))
theorem tagwa (xa : BitVec 4) (g : Guard) : Statement (.tagwa xa g) := of_code rfl ((raw_s ⟨0, xa, 0, g.bits, 56⟩ (op := 56) rfl (by decide)).trans (by (first | (change @ite _ _ _ (some _) none = _) | (change some _ = _)); simp [bitsOf_extend_lo, bitsOf_extend_hi, bitAt_extend_hi]))
theorem tagwl (xa : BitVec 4) (g : Guard) : Statement (.tagwl xa g) := of_code rfl ((raw_s ⟨0, xa, 0, g.bits, 57⟩ (op := 57) rfl (by decide)).trans (by (first | (change @ite _ _ _ (some _) none = _) | (change some _ = _)); simp [bitsOf_extend_lo, bitsOf_extend_hi, bitAt_extend_hi]))
theorem tagff (xd : BitVec 4) (xa : BitVec 4) (g : Guard) : Statement (.tagff xd xa g) := of_code rfl ((raw_s ⟨0, xa, xd, g.bits, 58⟩ (op := 58) rfl (by decide)).trans (by (first | (change @ite _ _ _ (some _) none = _) | (change some _ = _)); simp [bitsOf_extend_lo, bitsOf_extend_hi, bitAt_extend_hi]))
theorem tsel (tb : BitVec 3) (xa : BitVec 4) (g : Guard) : Statement (.tsel tb xa g) := of_code rfl ((raw_s ⟨0, xa, tb.zeroExtend 4, g.bits, 0x3B⟩ (op := 0x3B) rfl (by decide)).trans (by (first | (change @ite _ _ _ (some _) none = _) | (change some _ = _)); simp [bitsOf_extend_lo, bitsOf_extend_hi, bitAt_extend_hi]))
theorem pswap (g : Guard) : Statement (.pswap g) := of_code rfl ((raw_s ⟨0, 0, 0, g.bits, 0x3C⟩ (op := 0x3C) rfl (by decide)).trans (by (first | (change @ite _ _ _ (some _) none = _) | (change some _ = _)); simp [bitsOf_extend_lo, bitsOf_extend_hi, bitAt_extend_hi]))
theorem ftset (ft : BitVec 4) (xa : BitVec 4) (g : Guard) : Statement (.ftset ft xa g) := of_code rfl ((raw_s ⟨ft.zeroExtend 9, xa, 0, g.bits, 0x3D⟩ (op := 0x3D) rfl (by decide)).trans (by (first | (change @ite _ _ _ (some _) none = _) | (change some _ = _)); simp [bitsOf_extend_lo, bitsOf_extend_hi, bitAt_extend_hi]))
theorem sqrd (xd : BitVec 4) (w : BitVec 3) (g : Guard) : Statement (.sqrd xd w g) := of_code rfl ((raw_s ⟨w.zeroExtend 9, 0, xd, g.bits, 0x3E⟩ (op := 0x3E) rfl (by decide)).trans (by (first | (change @ite _ _ _ (some _) none = _) | (change some _ = _)); simp [bitsOf_extend_lo, bitsOf_extend_hi, bitAt_extend_hi]))
theorem resumeSlots (xa : BitVec 4) (xb : BitVec 4) (g : Guard) : Statement (.resumeSlots xa xb g) := of_code rfl ((raw_s ⟨xb.zeroExtend 9, xa, 0, g.bits, 0x3F⟩ (op := 0x3F) rfl (by decide)).trans (by (first | (change @ite _ _ _ (some _) none = _) | (change some _ = _)); simp [bitsOf_extend_lo, bitsOf_extend_hi, bitAt_extend_hi]))
theorem dswap (xa : BitVec 4) (g : Guard) : Statement (.dswap xa g) := of_code rfl ((raw_s ⟨0, xa, 0, g.bits, 64⟩ (op := 64) rfl (by decide)).trans (by (first | (change @ite _ _ _ (some _) none = _) | (change some _ = _)); simp [bitsOf_extend_lo, bitsOf_extend_hi, bitAt_extend_hi]))
theorem vadd (o : AOp) : Statement (.vadd o) := of_code rfl ((raw_v ⟨o.sat, o.b.isImm, 0, o.ty, o.b.bits, o.va, o.vd, o.g.bits, 1⟩).trans (by (first | (change @ite _ _ _ (some _) none = _) | (change some _ = _)); simp [bitsOf_extend_lo, bitsOf_extend_hi, bitAt_extend_hi]))
theorem vsub (o : AOp) : Statement (.vsub o) := of_code rfl ((raw_v ⟨o.sat, o.b.isImm, 0, o.ty, o.b.bits, o.va, o.vd, o.g.bits, 2⟩).trans (by (first | (change @ite _ _ _ (some _) none = _) | (change some _ = _)); simp [bitsOf_extend_lo, bitsOf_extend_hi, bitAt_extend_hi]))
theorem vmul (o : AOp) : Statement (.vmul o) := of_code rfl ((raw_v ⟨o.sat, o.b.isImm, 0, o.ty, o.b.bits, o.va, o.vd, o.g.bits, 3⟩).trans (by (first | (change @ite _ _ _ (some _) none = _) | (change some _ = _)); simp [bitsOf_extend_lo, bitsOf_extend_hi, bitAt_extend_hi]))
theorem vmulh (o : AOp) : Statement (.vmulh o) := of_code rfl ((raw_v ⟨o.sat, o.b.isImm, 0, o.ty, o.b.bits, o.va, o.vd, o.g.bits, 4⟩).trans (by (first | (change @ite _ _ _ (some _) none = _) | (change some _ = _)); simp [bitsOf_extend_lo, bitsOf_extend_hi, bitAt_extend_hi]))
theorem vmad (o : AOp) : Statement (.vmad o) := of_code rfl ((raw_v ⟨o.sat, o.b.isImm, 0, o.ty, o.b.bits, o.va, o.vd, o.g.bits, 5⟩).trans (by (first | (change @ite _ _ _ (some _) none = _) | (change some _ = _)); simp [bitsOf_extend_lo, bitsOf_extend_hi, bitAt_extend_hi]))
theorem vdot4 (o : AOp) : Statement (.vdot4 o) := of_code rfl ((raw_v ⟨o.sat, o.b.isImm, 0, o.ty, o.b.bits, o.va, o.vd, o.g.bits, 6⟩).trans (by (first | (change @ite _ _ _ (some _) none = _) | (change some _ = _)); simp [bitsOf_extend_lo, bitsOf_extend_hi, bitAt_extend_hi]))
theorem vmin (o : AOp) : Statement (.vmin o) := of_code rfl ((raw_v ⟨o.sat, o.b.isImm, 0, o.ty, o.b.bits, o.va, o.vd, o.g.bits, 7⟩).trans (by (first | (change @ite _ _ _ (some _) none = _) | (change some _ = _)); simp [bitsOf_extend_lo, bitsOf_extend_hi, bitAt_extend_hi]))
theorem vmax (o : AOp) : Statement (.vmax o) := of_code rfl ((raw_v ⟨o.sat, o.b.isImm, 0, o.ty, o.b.bits, o.va, o.vd, o.g.bits, 8⟩).trans (by (first | (change @ite _ _ _ (some _) none = _) | (change some _ = _)); simp [bitsOf_extend_lo, bitsOf_extend_hi, bitAt_extend_hi]))
theorem vabs (o : AOp) : Statement (.vabs o) := of_code rfl ((raw_v ⟨o.sat, o.b.isImm, 0, o.ty, o.b.bits, o.va, o.vd, o.g.bits, 9⟩).trans (by (first | (change @ite _ _ _ (some _) none = _) | (change some _ = _)); simp [bitsOf_extend_lo, bitsOf_extend_hi, bitAt_extend_hi]))
theorem vand (o : AOp) : Statement (.vand o) := of_code rfl ((raw_v ⟨o.sat, o.b.isImm, 0, o.ty, o.b.bits, o.va, o.vd, o.g.bits, 10⟩).trans (by (first | (change @ite _ _ _ (some _) none = _) | (change some _ = _)); simp [bitsOf_extend_lo, bitsOf_extend_hi, bitAt_extend_hi]))
theorem vor (o : AOp) : Statement (.vor o) := of_code rfl ((raw_v ⟨o.sat, o.b.isImm, 0, o.ty, o.b.bits, o.va, o.vd, o.g.bits, 11⟩).trans (by (first | (change @ite _ _ _ (some _) none = _) | (change some _ = _)); simp [bitsOf_extend_lo, bitsOf_extend_hi, bitAt_extend_hi]))
theorem vxor (o : AOp) : Statement (.vxor o) := of_code rfl ((raw_v ⟨o.sat, o.b.isImm, 0, o.ty, o.b.bits, o.va, o.vd, o.g.bits, 12⟩).trans (by (first | (change @ite _ _ _ (some _) none = _) | (change some _ = _)); simp [bitsOf_extend_lo, bitsOf_extend_hi, bitAt_extend_hi]))
theorem vandn (o : AOp) : Statement (.vandn o) := of_code rfl ((raw_v ⟨o.sat, o.b.isImm, 0, o.ty, o.b.bits, o.va, o.vd, o.g.bits, 13⟩).trans (by (first | (change @ite _ _ _ (some _) none = _) | (change some _ = _)); simp [bitsOf_extend_lo, bitsOf_extend_hi, bitAt_extend_hi]))
theorem vshl (o : AOp) : Statement (.vshl o) := of_code rfl ((raw_v ⟨o.sat, o.b.isImm, 0, o.ty, o.b.bits, o.va, o.vd, o.g.bits, 14⟩).trans (by (first | (change @ite _ _ _ (some _) none = _) | (change some _ = _)); simp [bitsOf_extend_lo, bitsOf_extend_hi, bitAt_extend_hi]))
theorem vshr (o : AOp) : Statement (.vshr o) := of_code rfl ((raw_v ⟨o.sat, o.b.isImm, 0, o.ty, o.b.bits, o.va, o.vd, o.g.bits, 15⟩).trans (by (first | (change @ite _ _ _ (some _) none = _) | (change some _ = _)); simp [bitsOf_extend_lo, bitsOf_extend_hi, bitAt_extend_hi]))
theorem vclz (o : AOp) : Statement (.vclz o) := of_code rfl ((raw_v ⟨o.sat, o.b.isImm, 0, o.ty, o.b.bits, o.va, o.vd, o.g.bits, 16⟩).trans (by (first | (change @ite _ _ _ (some _) none = _) | (change some _ = _)); simp [bitsOf_extend_lo, bitsOf_extend_hi, bitAt_extend_hi]))
theorem vpopc (o : AOp) : Statement (.vpopc o) := of_code rfl ((raw_v ⟨o.sat, o.b.isImm, 0, o.ty, o.b.bits, o.va, o.vd, o.g.bits, 17⟩).trans (by (first | (change @ite _ _ _ (some _) none = _) | (change some _ = _)); simp [bitsOf_extend_lo, bitsOf_extend_hi, bitAt_extend_hi]))
theorem vmov (o : AOp) : Statement (.vmov o) := of_code rfl ((raw_v ⟨o.sat, o.b.isImm, 0, o.ty, o.b.bits, o.va, o.vd, o.g.bits, 18⟩).trans (by (first | (change @ite _ _ _ (some _) none = _) | (change some _ = _)); simp [bitsOf_extend_lo, bitsOf_extend_hi, bitAt_extend_hi]))
theorem vcmpeq (o : QOp) : Statement (.vcmpeq o) := of_code rfl ((raw_v ⟨false, o.b.isImm, 0, o.ty, o.b.bits, o.va, o.pd.zeroExtend 8, o.g.bits, 19⟩).trans (by (first | (change @ite _ _ _ (some _) none = _) | (change some _ = _)); simp [bitsOf_extend_lo, bitsOf_extend_hi, bitAt_extend_hi]))
theorem vcmpne (o : QOp) : Statement (.vcmpne o) := of_code rfl ((raw_v ⟨false, o.b.isImm, 0, o.ty, o.b.bits, o.va, o.pd.zeroExtend 8, o.g.bits, 20⟩).trans (by (first | (change @ite _ _ _ (some _) none = _) | (change some _ = _)); simp [bitsOf_extend_lo, bitsOf_extend_hi, bitAt_extend_hi]))
theorem vcmplt (o : QOp) : Statement (.vcmplt o) := of_code rfl ((raw_v ⟨false, o.b.isImm, 0, o.ty, o.b.bits, o.va, o.pd.zeroExtend 8, o.g.bits, 21⟩).trans (by (first | (change @ite _ _ _ (some _) none = _) | (change some _ = _)); simp [bitsOf_extend_lo, bitsOf_extend_hi, bitAt_extend_hi]))
theorem vcmple (o : QOp) : Statement (.vcmple o) := of_code rfl ((raw_v ⟨false, o.b.isImm, 0, o.ty, o.b.bits, o.va, o.pd.zeroExtend 8, o.g.bits, 22⟩).trans (by (first | (change @ite _ _ _ (some _) none = _) | (change some _ = _)); simp [bitsOf_extend_lo, bitsOf_extend_hi, bitAt_extend_hi]))
theorem vsel (vd : BitVec 8) (pn : BitVec 4) (sense : Bool) (va : BitVec 8) (vb : BitVec 8) (g : Guard) : Statement (.vsel vd pn sense va vb g) := of_code rfl ((raw_v ⟨false, false, BitVec.ofBool sense ++ bitsOf pn 3 1, bitsOf pn 0 3, vb, va, vd, g.bits, 23⟩).trans (by (first | (change @ite _ _ _ (some _) none = _) | (change some _ = _)); simp [bitsOf_extend_lo, bitsOf_extend_hi, bitAt_extend_hi]))
theorem vfadd (o : FOp) : Statement (.vfadd o) := of_code rfl ((raw_v ⟨false, false, o.rnd, 6, o.vb, o.va, o.vd, o.g.bits, 24⟩).trans (by (first | (change @ite _ _ _ (some _) none = _) | (change some _ = _)); simp [bitsOf_extend_lo, bitsOf_extend_hi, bitAt_extend_hi]))
theorem vfsub (o : FOp) : Statement (.vfsub o) := of_code rfl ((raw_v ⟨false, false, o.rnd, 6, o.vb, o.va, o.vd, o.g.bits, 25⟩).trans (by (first | (change @ite _ _ _ (some _) none = _) | (change some _ = _)); simp [bitsOf_extend_lo, bitsOf_extend_hi, bitAt_extend_hi]))
theorem vfmul (o : FOp) : Statement (.vfmul o) := of_code rfl ((raw_v ⟨false, false, o.rnd, 6, o.vb, o.va, o.vd, o.g.bits, 26⟩).trans (by (first | (change @ite _ _ _ (some _) none = _) | (change some _ = _)); simp [bitsOf_extend_lo, bitsOf_extend_hi, bitAt_extend_hi]))
theorem vfma (o : FOp) : Statement (.vfma o) := of_code rfl ((raw_v ⟨false, false, o.rnd, 6, o.vb, o.va, o.vd, o.g.bits, 27⟩).trans (by (first | (change @ite _ _ _ (some _) none = _) | (change some _ = _)); simp [bitsOf_extend_lo, bitsOf_extend_hi, bitAt_extend_hi]))
theorem vfmin (o : FOp) : Statement (.vfmin o) := of_code rfl ((raw_v ⟨false, false, o.rnd, 6, o.vb, o.va, o.vd, o.g.bits, 28⟩).trans (by (first | (change @ite _ _ _ (some _) none = _) | (change some _ = _)); simp [bitsOf_extend_lo, bitsOf_extend_hi, bitAt_extend_hi]))
theorem vfmax (o : FOp) : Statement (.vfmax o) := of_code rfl ((raw_v ⟨false, false, o.rnd, 6, o.vb, o.va, o.vd, o.g.bits, 29⟩).trans (by (first | (change @ite _ _ _ (some _) none = _) | (change some _ = _)); simp [bitsOf_extend_lo, bitsOf_extend_hi, bitAt_extend_hi]))
theorem vfabs (vd : BitVec 8) (va : BitVec 8) (g : Guard) : Statement (.vfabs vd va g) := of_code rfl ((raw_v ⟨false, false, 0, 6, 0, va, vd, g.bits, 30⟩).trans (by (first | (change @ite _ _ _ (some _) none = _) | (change some _ = _)); simp [bitsOf_extend_lo, bitsOf_extend_hi, bitAt_extend_hi]))
theorem vfneg (vd : BitVec 8) (va : BitVec 8) (g : Guard) : Statement (.vfneg vd va g) := of_code rfl ((raw_v ⟨false, false, 0, 6, 0, va, vd, g.bits, 31⟩).trans (by (first | (change @ite _ _ _ (some _) none = _) | (change some _ = _)); simp [bitsOf_extend_lo, bitsOf_extend_hi, bitAt_extend_hi]))
theorem vhadd (o : FOp) : Statement (.vhadd o) := of_code rfl ((raw_v ⟨false, false, o.rnd, 0, o.vb, o.va, o.vd, o.g.bits, 32⟩).trans (by (first | (change @ite _ _ _ (some _) none = _) | (change some _ = _)); simp [bitsOf_extend_lo, bitsOf_extend_hi, bitAt_extend_hi]))
theorem vhsub (o : FOp) : Statement (.vhsub o) := of_code rfl ((raw_v ⟨false, false, o.rnd, 0, o.vb, o.va, o.vd, o.g.bits, 33⟩).trans (by (first | (change @ite _ _ _ (some _) none = _) | (change some _ = _)); simp [bitsOf_extend_lo, bitsOf_extend_hi, bitAt_extend_hi]))
theorem vhmul (o : FOp) : Statement (.vhmul o) := of_code rfl ((raw_v ⟨false, false, o.rnd, 0, o.vb, o.va, o.vd, o.g.bits, 34⟩).trans (by (first | (change @ite _ _ _ (some _) none = _) | (change some _ = _)); simp [bitsOf_extend_lo, bitsOf_extend_hi, bitAt_extend_hi]))
theorem vhfma (o : FOp) : Statement (.vhfma o) := of_code rfl ((raw_v ⟨false, false, o.rnd, 0, o.vb, o.va, o.vd, o.g.bits, 35⟩).trans (by (first | (change @ite _ _ _ (some _) none = _) | (change some _ = _)); simp [bitsOf_extend_lo, bitsOf_extend_hi, bitAt_extend_hi]))
theorem vbadd (o : FOp) : Statement (.vbadd o) := of_code rfl ((raw_v ⟨false, false, o.rnd, 0, o.vb, o.va, o.vd, o.g.bits, 36⟩).trans (by (first | (change @ite _ _ _ (some _) none = _) | (change some _ = _)); simp [bitsOf_extend_lo, bitsOf_extend_hi, bitAt_extend_hi]))
theorem vbsub (o : FOp) : Statement (.vbsub o) := of_code rfl ((raw_v ⟨false, false, o.rnd, 0, o.vb, o.va, o.vd, o.g.bits, 37⟩).trans (by (first | (change @ite _ _ _ (some _) none = _) | (change some _ = _)); simp [bitsOf_extend_lo, bitsOf_extend_hi, bitAt_extend_hi]))
theorem vbmul (o : FOp) : Statement (.vbmul o) := of_code rfl ((raw_v ⟨false, false, o.rnd, 0, o.vb, o.va, o.vd, o.g.bits, 38⟩).trans (by (first | (change @ite _ _ _ (some _) none = _) | (change some _ = _)); simp [bitsOf_extend_lo, bitsOf_extend_hi, bitAt_extend_hi]))
theorem vbfma (o : FOp) : Statement (.vbfma o) := of_code rfl ((raw_v ⟨false, false, o.rnd, 0, o.vb, o.va, o.vd, o.g.bits, 39⟩).trans (by (first | (change @ite _ _ _ (some _) none = _) | (change some _ = _)); simp [bitsOf_extend_lo, bitsOf_extend_hi, bitAt_extend_hi]))
theorem vcvtf (o : CvtOp) (rnd : BitVec 2) : Statement (.vcvtf o rnd) := of_code rfl ((raw_v ⟨o.sat, o.amx, rnd, 0, o.pos ++ o.fmt, o.va, o.vd, o.g.bits, 40⟩).trans (by (first | (change @ite _ _ _ (some _) none = _) | (change some _ = _)); simp [bitsOf_extend_lo, bitsOf_extend_hi, bitAt_extend_hi]))
theorem vcvts (o : CvtOp) : Statement (.vcvts o) := of_code rfl ((raw_v ⟨o.sat, o.amx, 0, 0, o.pos ++ o.fmt, o.va, o.vd, o.g.bits, 41⟩).trans (by (first | (change @ite _ _ _ (some _) none = _) | (change some _ = _)); simp [bitsOf_extend_lo, bitsOf_extend_hi, bitAt_extend_hi]))
theorem vcvtx (vd : BitVec 8) (va : BitVec 8) (fmt : BitVec 5) (pos : BitVec 3) (g : Guard) : Statement (.vcvtx vd va fmt pos g) := of_code rfl ((raw_v ⟨false, false, 0, 0, pos ++ fmt, va, vd, g.bits, 42⟩).trans (by (first | (change @ite _ _ _ (some _) none = _) | (change some _ = _)); simp [bitsOf_extend_lo, bitsOf_extend_hi, bitAt_extend_hi]))
theorem vftoi (vd : BitVec 8) (va : BitVec 8) (unsig : Bool) (rnd : BitVec 2) (sat : Bool) (g : Guard) : Statement (.vftoi vd va unsig rnd sat g) := of_code rfl ((raw_v ⟨sat, false, rnd, BitVec.zeroExtend 3 (BitVec.ofBool unsig), 0, va, vd, g.bits, 43⟩).trans (by (first | (change @ite _ _ _ (some _) none = _) | (change some _ = _)); simp [bitsOf_extend_lo, bitsOf_extend_hi, bitAt_extend_hi]))
theorem vitof (vd : BitVec 8) (va : BitVec 8) (unsig : Bool) (rnd : BitVec 2) (g : Guard) : Statement (.vitof vd va unsig rnd g) := of_code rfl ((raw_v ⟨false, false, rnd, BitVec.zeroExtend 3 (BitVec.ofBool unsig), 0, va, vd, g.bits, 44⟩).trans (by (first | (change @ite _ _ _ (some _) none = _) | (change some _ = _)); simp [bitsOf_extend_lo, bitsOf_extend_hi, bitAt_extend_hi]))
theorem vcvth (vd : BitVec 8) (va : BitVec 8) (vb : BitVec 8) (bf : Bool) (rnd : BitVec 2) (sat : Bool) (g : Guard) : Statement (.vcvth vd va vb bf rnd sat g) := of_code rfl ((raw_v ⟨sat, false, rnd, BitVec.zeroExtend 3 (BitVec.ofBool bf), vb, va, vd, g.bits, 45⟩).trans (by (first | (change @ite _ _ _ (some _) none = _) | (change some _ = _)); simp [bitsOf_extend_lo, bitsOf_extend_hi, bitAt_extend_hi]))
theorem vnps (vd : BitVec 8) (va : BitVec 8) (plane : BitVec 3) (g : Guard) : Statement (.vnps vd va plane g) := of_code rfl ((raw_v ⟨false, true, 0, 0, plane.zeroExtend 8, va, vd, g.bits, 46⟩).trans (by (first | (change @ite _ _ _ (some _) none = _) | (change some _ = _)); simp [bitsOf_extend_lo, bitsOf_extend_hi, bitAt_extend_hi]))
theorem vnpm (vd : BitVec 8) (va : BitVec 8) (plane : BitVec 3) (g : Guard) : Statement (.vnpm vd va plane g) := of_code rfl ((raw_v ⟨false, true, 0, 0, plane.zeroExtend 8, va, vd, g.bits, 47⟩).trans (by (first | (change @ite _ _ _ (some _) none = _) | (change some _ = _)); simp [bitsOf_extend_lo, bitsOf_extend_hi, bitAt_extend_hi]))
theorem vshfl (vd : BitVec 8) (va : BitVec 8) (vb : VSrc) (width : BitVec 3) (g : Guard) : Statement (.vshfl vd va vb width g) := of_code rfl ((raw_v ⟨false, vb.isImm, 0, width, vb.bits, va, vd, g.bits, 0x30⟩).trans (by (first | (change @ite _ _ _ (some _) none = _) | (change some _ = _)); simp [bitsOf_extend_lo, bitsOf_extend_hi, bitAt_extend_hi]))
theorem vperm (vd : BitVec 8) (va : BitVec 8) (pat : BitVec 6) (g : Guard) : Statement (.vperm vd va pat g) := of_code rfl ((raw_v ⟨false, true, 0, 0, pat.zeroExtend 8, va, vd, g.bits, 0x31⟩).trans (by (first | (change @ite _ _ _ (some _) none = _) | (change some _ = _)); simp [bitsOf_extend_lo, bitsOf_extend_hi, bitAt_extend_hi]))
theorem vmatch (vd : BitVec 8) (va : BitVec 8) (key : Option (BitVec 5 × BitVec 3)) (g : Guard) : Statement (.vmatch vd va key g) := by
  cases key <;> exact of_code rfl ((raw_v _).trans (by (first | (change @ite _ _ _ (some _) none = _) | (change some _ = _)); simp [bitsOf_extend_lo, bitsOf_extend_hi, bitAt_extend_hi]))
theorem vballot (vd : BitVec 8) (pn : BitVec 4) (inv : Bool) (g : Guard) : Statement (.vballot vd pn inv g) := of_code rfl ((raw_v ⟨false, inv, 0, 0, BitVec.zeroExtend 8 (BitVec.ofBool inv), pn.zeroExtend 8, vd, g.bits, 0x33⟩).trans (by (first | (change @ite _ _ _ (some _) none = _) | (change some _ = _)); simp [bitsOf_extend_lo, bitsOf_extend_hi, bitAt_extend_hi]))
theorem vvote (pd : BitVec 4) (pn : BitVec 4) (mode : BitVec 2) (quorum : BitVec 6) (g : Guard) : Statement (.vvote pd pn mode quorum g) := of_code rfl ((raw_v ⟨false, true, 0, 0, mode ++ quorum, pn.zeroExtend 8, pd.zeroExtend 8, g.bits, 0x34⟩).trans (by (first | (change @ite _ _ _ (some _) none = _) | (change some _ = _)); simp [bitsOf_extend_lo, bitsOf_extend_hi, bitAt_extend_hi]))
theorem vscan (vd : BitVec 8) (va : BitVec 8) (op : BitVec 2) (excl : Bool) (ty : BitVec 3) (g : Guard) : Statement (.vscan vd va op excl ty g) := of_code rfl ((raw_v ⟨false, true, 0, ty, (0 : BitVec 5) ++ BitVec.ofBool excl ++ op, va, vd, g.bits, 0x35⟩).trans (by (first | (change @ite _ _ _ (some _) none = _) | (change some _ = _)); simp [bitsOf_extend_lo, bitsOf_extend_hi, bitAt_extend_hi]))
theorem vred (vd : BitVec 8) (va : BitVec 8) (op : BitVec 2) (ty : BitVec 3) (g : Guard) : Statement (.vred vd va op ty g) := of_code rfl ((raw_v ⟨false, true, 0, ty, op.zeroExtend 8, va, vd, g.bits, 0x36⟩).trans (by (first | (change @ite _ _ _ (some _) none = _) | (change some _ = _)); simp [bitsOf_extend_lo, bitsOf_extend_hi, bitAt_extend_hi]))
theorem vbcast (vd : BitVec 8) (va : BitVec 8) (lane : BitVec 5) (g : Guard) : Statement (.vbcast vd va lane g) := of_code rfl ((raw_v ⟨false, true, 0, 0, lane.zeroExtend 8, va, vd, g.bits, 0x37⟩).trans (by (first | (change @ite _ _ _ (some _) none = _) | (change some _ = _)); simp [bitsOf_extend_lo, bitsOf_extend_hi, bitAt_extend_hi]))
theorem vaccrd (vd : BitVec 8) (tile : BitVec 3) (half : Bool) (row : BitVec 8) (g : Guard) : Statement (.vaccrd vd tile half row g) := of_code rfl ((raw_v ⟨false, false, BitVec.zeroExtend 2 (BitVec.ofBool half), tile, 0, row, vd, g.bits, 0x38⟩).trans (by (first | (change @ite _ _ _ (some _) none = _) | (change some _ = _)); simp [bitsOf_extend_lo, bitsOf_extend_hi, bitAt_extend_hi]))
theorem vaccwr (tile : BitVec 3) (half : Bool) (row : BitVec 8) (data : BitVec 8) (g : Guard) : Statement (.vaccwr tile half row data g) := of_code rfl ((raw_v ⟨false, false, BitVec.zeroExtend 2 (BitVec.ofBool half), tile, data, row, 0, g.bits, 0x39⟩).trans (by (first | (change @ite _ _ _ (some _) none = _) | (change some _ = _)); simp [bitsOf_extend_lo, bitsOf_extend_hi, bitAt_extend_hi]))
theorem tokv (tile : BitVec 3) (g : Guard) : Statement (.tokv tile g) := of_code rfl ((raw_v ⟨false, false, 0, tile, 0, 0, 0, g.bits, 58⟩).trans (by (first | (change @ite _ _ _ (some _) none = _) | (change some _ = _)); simp [bitsOf_extend_lo, bitsOf_extend_hi, bitAt_extend_hi]))
theorem tokm (tile : BitVec 3) (g : Guard) : Statement (.tokm tile g) := of_code rfl ((raw_v ⟨false, false, 0, tile, 0, 0, 0, g.bits, 59⟩).trans (by (first | (change @ite _ _ _ (some _) none = _) | (change some _ = _)); simp [bitsOf_extend_lo, bitsOf_extend_hi, bitAt_extend_hi]))
theorem vxtov (vd : BitVec 8) (xa : BitVec 4) (hi : Bool) (g : Guard) : Statement (.vxtov vd xa hi g) := of_code rfl ((raw_v ⟨false, false, 0, BitVec.zeroExtend 3 (BitVec.ofBool hi), 0, xa.zeroExtend 8, vd, g.bits, 0x3C⟩).trans (by (first | (change @ite _ _ _ (some _) none = _) | (change some _ = _)); simp [bitsOf_extend_lo, bitsOf_extend_hi, bitAt_extend_hi]))
theorem vvtox (xd : BitVec 4) (va : BitVec 8) (zero : Bool) (g : Guard) : Statement (.vvtox xd va zero g) := of_code rfl ((raw_v ⟨false, false, 0, BitVec.zeroExtend 3 (BitVec.ofBool zero), 0, va, xd.zeroExtend 8, g.bits, 0x3D⟩).trans (by (first | (change @ite _ _ _ (some _) none = _) | (change some _ = _)); simp [bitsOf_extend_lo, bitsOf_extend_hi, bitAt_extend_hi]))
theorem fev (vd : BitVec 8) (va : BitVec 8) (tb : BitVec 3) (g : Guard) : Statement (.fev vd va tb g) := of_code rfl ((raw_f ⟨tb, va, vd, g.bits, 1⟩).trans (by change some _ = _; simp [bitsOf_extend_lo, bitsOf_extend_hi, bitAt_extend_hi]))
theorem fevE2 (vd : BitVec 8) (va : BitVec 8) (tb : BitVec 3) (g : Guard) : Statement (.fevE2 vd va tb g) := of_code rfl ((raw_f ⟨tb, va, vd, g.bits, 2⟩).trans (by change some _ = _; simp [bitsOf_extend_lo, bitsOf_extend_hi, bitAt_extend_hi]))
theorem fevL2 (vd : BitVec 8) (va : BitVec 8) (tb : BitVec 3) (g : Guard) : Statement (.fevL2 vd va tb g) := of_code rfl ((raw_f ⟨tb, va, vd, g.bits, 3⟩).trans (by change some _ = _; simp [bitsOf_extend_lo, bitsOf_extend_hi, bitAt_extend_hi]))
theorem fevRc (vd : BitVec 8) (va : BitVec 8) (tb : BitVec 3) (g : Guard) : Statement (.fevRc vd va tb g) := of_code rfl ((raw_f ⟨tb, va, vd, g.bits, 4⟩).trans (by change some _ = _; simp [bitsOf_extend_lo, bitsOf_extend_hi, bitAt_extend_hi]))
theorem fevRs (vd : BitVec 8) (va : BitVec 8) (tb : BitVec 3) (g : Guard) : Statement (.fevRs vd va tb g) := of_code rfl ((raw_f ⟨tb, va, vd, g.bits, 5⟩).trans (by change some _ = _; simp [bitsOf_extend_lo, bitsOf_extend_hi, bitAt_extend_hi]))
theorem fevPd (vd : BitVec 8) (va : BitVec 8) (tb : BitVec 3) (g : Guard) : Statement (.fevPd vd va tb g) := of_code rfl ((raw_f ⟨tb, va, vd, g.bits, 6⟩).trans (by change some _ = _; simp [bitsOf_extend_lo, bitsOf_extend_hi, bitAt_extend_hi]))
theorem fseg (vd : BitVec 8) (va : BitVec 8) (tb : BitVec 3) (g : Guard) : Statement (.fseg vd va tb g) := of_code rfl ((raw_f ⟨tb, va, vd, g.bits, 7⟩).trans (by change some _ = _; simp [bitsOf_extend_lo, bitsOf_extend_hi, bitAt_extend_hi]))
theorem fdom (pd : BitVec 4) (va : BitVec 8) (tb : BitVec 3) (g : Guard) : Statement (.fdom pd va tb g) := of_code rfl ((raw_f ⟨tb, va, pd.zeroExtend 8, g.bits, 8⟩).trans (by (first | (change @ite _ _ _ (some _) none = _) | (change some _ = _)); simp [bitsOf_extend_lo, bitsOf_extend_hi, bitAt_extend_hi]))
theorem ldZ8 (o : MOp) : Statement (.ldZ8 o) := by
  obtain ⟨data, xb, vi, ix, off, hint, g⟩ := o
  cases ix <;> exact of_code rfl ((raw_m _).trans (by change some _ = _; simp [bitsOf_extend_lo, bitsOf_extend_hi, bitAt_extend_hi]))
theorem ldS8 (o : MOp) : Statement (.ldS8 o) := by
  obtain ⟨data, xb, vi, ix, off, hint, g⟩ := o
  cases ix <;> exact of_code rfl ((raw_m _).trans (by change some _ = _; simp [bitsOf_extend_lo, bitsOf_extend_hi, bitAt_extend_hi]))
theorem ldZ16 (o : MOp) : Statement (.ldZ16 o) := by
  obtain ⟨data, xb, vi, ix, off, hint, g⟩ := o
  cases ix <;> exact of_code rfl ((raw_m _).trans (by change some _ = _; simp [bitsOf_extend_lo, bitsOf_extend_hi, bitAt_extend_hi]))
theorem ldS16 (o : MOp) : Statement (.ldS16 o) := by
  obtain ⟨data, xb, vi, ix, off, hint, g⟩ := o
  cases ix <;> exact of_code rfl ((raw_m _).trans (by change some _ = _; simp [bitsOf_extend_lo, bitsOf_extend_hi, bitAt_extend_hi]))
theorem ld32 (o : MOp) : Statement (.ld32 o) := by
  obtain ⟨data, xb, vi, ix, off, hint, g⟩ := o
  cases ix <;> exact of_code rfl ((raw_m _).trans (by change some _ = _; simp [bitsOf_extend_lo, bitsOf_extend_hi, bitAt_extend_hi]))
theorem ld64 (o : MOp) : Statement (.ld64 o) := by
  obtain ⟨data, xb, vi, ix, off, hint, g⟩ := o
  cases ix <;> exact of_code rfl ((raw_m _).trans (by change some _ = _; simp [bitsOf_extend_lo, bitsOf_extend_hi, bitAt_extend_hi]))
theorem ld128 (o : MOp) : Statement (.ld128 o) := by
  obtain ⟨data, xb, vi, ix, off, hint, g⟩ := o
  cases ix <;> exact of_code rfl ((raw_m _).trans (by change some _ = _; simp [bitsOf_extend_lo, bitsOf_extend_hi, bitAt_extend_hi]))
theorem ldA16 (o : MOp) : Statement (.ldA16 o) := by
  obtain ⟨data, xb, vi, ix, off, hint, g⟩ := o
  cases ix <;> exact of_code rfl ((raw_m _).trans (by change some _ = _; simp [bitsOf_extend_lo, bitsOf_extend_hi, bitAt_extend_hi]))
theorem ldsZ8 (o : MOp) : Statement (.ldsZ8 o) := by
  obtain ⟨data, xb, vi, ix, off, hint, g⟩ := o
  cases ix <;> exact of_code rfl ((raw_m _).trans (by change some _ = _; simp [bitsOf_extend_lo, bitsOf_extend_hi, bitAt_extend_hi]))
theorem ldsS8 (o : MOp) : Statement (.ldsS8 o) := by
  obtain ⟨data, xb, vi, ix, off, hint, g⟩ := o
  cases ix <;> exact of_code rfl ((raw_m _).trans (by change some _ = _; simp [bitsOf_extend_lo, bitsOf_extend_hi, bitAt_extend_hi]))
theorem ldsZ16 (o : MOp) : Statement (.ldsZ16 o) := by
  obtain ⟨data, xb, vi, ix, off, hint, g⟩ := o
  cases ix <;> exact of_code rfl ((raw_m _).trans (by change some _ = _; simp [bitsOf_extend_lo, bitsOf_extend_hi, bitAt_extend_hi]))
theorem ldsS16 (o : MOp) : Statement (.ldsS16 o) := by
  obtain ⟨data, xb, vi, ix, off, hint, g⟩ := o
  cases ix <;> exact of_code rfl ((raw_m _).trans (by change some _ = _; simp [bitsOf_extend_lo, bitsOf_extend_hi, bitAt_extend_hi]))
theorem lds32 (o : MOp) : Statement (.lds32 o) := by
  obtain ⟨data, xb, vi, ix, off, hint, g⟩ := o
  cases ix <;> exact of_code rfl ((raw_m _).trans (by change some _ = _; simp [bitsOf_extend_lo, bitsOf_extend_hi, bitAt_extend_hi]))
theorem lds64 (o : MOp) : Statement (.lds64 o) := by
  obtain ⟨data, xb, vi, ix, off, hint, g⟩ := o
  cases ix <;> exact of_code rfl ((raw_m _).trans (by change some _ = _; simp [bitsOf_extend_lo, bitsOf_extend_hi, bitAt_extend_hi]))
theorem lds128 (o : MOp) : Statement (.lds128 o) := by
  obtain ⟨data, xb, vi, ix, off, hint, g⟩ := o
  cases ix <;> exact of_code rfl ((raw_m _).trans (by change some _ = _; simp [bitsOf_extend_lo, bitsOf_extend_hi, bitAt_extend_hi]))
theorem ldsA16 (o : MOp) : Statement (.ldsA16 o) := by
  obtain ⟨data, xb, vi, ix, off, hint, g⟩ := o
  cases ix <;> exact of_code rfl ((raw_m _).trans (by change some _ = _; simp [bitsOf_extend_lo, bitsOf_extend_hi, bitAt_extend_hi]))
theorem st8 (o : MOp) : Statement (.st8 o) := by
  obtain ⟨data, xb, vi, ix, off, hint, g⟩ := o
  cases ix <;> exact of_code rfl ((raw_m _).trans (by change some _ = _; simp [bitsOf_extend_lo, bitsOf_extend_hi, bitAt_extend_hi]))
theorem st16 (o : MOp) : Statement (.st16 o) := by
  obtain ⟨data, xb, vi, ix, off, hint, g⟩ := o
  cases ix <;> exact of_code rfl ((raw_m _).trans (by change some _ = _; simp [bitsOf_extend_lo, bitsOf_extend_hi, bitAt_extend_hi]))
theorem st32 (o : MOp) : Statement (.st32 o) := by
  obtain ⟨data, xb, vi, ix, off, hint, g⟩ := o
  cases ix <;> exact of_code rfl ((raw_m _).trans (by change some _ = _; simp [bitsOf_extend_lo, bitsOf_extend_hi, bitAt_extend_hi]))
theorem st64 (o : MOp) : Statement (.st64 o) := by
  obtain ⟨data, xb, vi, ix, off, hint, g⟩ := o
  cases ix <;> exact of_code rfl ((raw_m _).trans (by change some _ = _; simp [bitsOf_extend_lo, bitsOf_extend_hi, bitAt_extend_hi]))
theorem st128 (o : MOp) : Statement (.st128 o) := by
  obtain ⟨data, xb, vi, ix, off, hint, g⟩ := o
  cases ix <;> exact of_code rfl ((raw_m _).trans (by change some _ = _; simp [bitsOf_extend_lo, bitsOf_extend_hi, bitAt_extend_hi]))
theorem stA16 (o : MOp) : Statement (.stA16 o) := by
  obtain ⟨data, xb, vi, ix, off, hint, g⟩ := o
  cases ix <;> exact of_code rfl ((raw_m _).trans (by change some _ = _; simp [bitsOf_extend_lo, bitsOf_extend_hi, bitAt_extend_hi]))
theorem sts8 (o : MOp) : Statement (.sts8 o) := by
  obtain ⟨data, xb, vi, ix, off, hint, g⟩ := o
  cases ix <;> exact of_code rfl ((raw_m _).trans (by change some _ = _; simp [bitsOf_extend_lo, bitsOf_extend_hi, bitAt_extend_hi]))
theorem sts16 (o : MOp) : Statement (.sts16 o) := by
  obtain ⟨data, xb, vi, ix, off, hint, g⟩ := o
  cases ix <;> exact of_code rfl ((raw_m _).trans (by change some _ = _; simp [bitsOf_extend_lo, bitsOf_extend_hi, bitAt_extend_hi]))
theorem sts32 (o : MOp) : Statement (.sts32 o) := by
  obtain ⟨data, xb, vi, ix, off, hint, g⟩ := o
  cases ix <;> exact of_code rfl ((raw_m _).trans (by change some _ = _; simp [bitsOf_extend_lo, bitsOf_extend_hi, bitAt_extend_hi]))
theorem sts64 (o : MOp) : Statement (.sts64 o) := by
  obtain ⟨data, xb, vi, ix, off, hint, g⟩ := o
  cases ix <;> exact of_code rfl ((raw_m _).trans (by change some _ = _; simp [bitsOf_extend_lo, bitsOf_extend_hi, bitAt_extend_hi]))
theorem sts128 (o : MOp) : Statement (.sts128 o) := by
  obtain ⟨data, xb, vi, ix, off, hint, g⟩ := o
  cases ix <;> exact of_code rfl ((raw_m _).trans (by change some _ = _; simp [bitsOf_extend_lo, bitsOf_extend_hi, bitAt_extend_hi]))
theorem stsA16 (o : MOp) : Statement (.stsA16 o) := by
  obtain ⟨data, xb, vi, ix, off, hint, g⟩ := o
  cases ix <;> exact of_code rfl ((raw_m _).trans (by change some _ = _; simp [bitsOf_extend_lo, bitsOf_extend_hi, bitAt_extend_hi]))
theorem atomAdd (o : IxOp) : Statement (.atomAdd o) := of_code rfl ((raw_m ⟨0, o.off, o.vi, o.xb, o.data, o.g.bits, 64⟩).trans (by (first | (change @ite _ _ _ (some _) none = _) | (change some _ = _)); simp [bitsOf_extend_lo, bitsOf_extend_hi, bitAt_extend_hi]))
theorem atomMin (o : IxOp) : Statement (.atomMin o) := of_code rfl ((raw_m ⟨0, o.off, o.vi, o.xb, o.data, o.g.bits, 65⟩).trans (by (first | (change @ite _ _ _ (some _) none = _) | (change some _ = _)); simp [bitsOf_extend_lo, bitsOf_extend_hi, bitAt_extend_hi]))
theorem atomMax (o : IxOp) : Statement (.atomMax o) := of_code rfl ((raw_m ⟨0, o.off, o.vi, o.xb, o.data, o.g.bits, 66⟩).trans (by (first | (change @ite _ _ _ (some _) none = _) | (change some _ = _)); simp [bitsOf_extend_lo, bitsOf_extend_hi, bitAt_extend_hi]))
theorem atomMinu (o : IxOp) : Statement (.atomMinu o) := of_code rfl ((raw_m ⟨0, o.off, o.vi, o.xb, o.data, o.g.bits, 67⟩).trans (by (first | (change @ite _ _ _ (some _) none = _) | (change some _ = _)); simp [bitsOf_extend_lo, bitsOf_extend_hi, bitAt_extend_hi]))
theorem atomMaxu (o : IxOp) : Statement (.atomMaxu o) := of_code rfl ((raw_m ⟨0, o.off, o.vi, o.xb, o.data, o.g.bits, 68⟩).trans (by (first | (change @ite _ _ _ (some _) none = _) | (change some _ = _)); simp [bitsOf_extend_lo, bitsOf_extend_hi, bitAt_extend_hi]))
theorem atomAnd (o : IxOp) : Statement (.atomAnd o) := of_code rfl ((raw_m ⟨0, o.off, o.vi, o.xb, o.data, o.g.bits, 69⟩).trans (by (first | (change @ite _ _ _ (some _) none = _) | (change some _ = _)); simp [bitsOf_extend_lo, bitsOf_extend_hi, bitAt_extend_hi]))
theorem atomOr (o : IxOp) : Statement (.atomOr o) := of_code rfl ((raw_m ⟨0, o.off, o.vi, o.xb, o.data, o.g.bits, 70⟩).trans (by (first | (change @ite _ _ _ (some _) none = _) | (change some _ = _)); simp [bitsOf_extend_lo, bitsOf_extend_hi, bitAt_extend_hi]))
theorem atomXor (o : IxOp) : Statement (.atomXor o) := of_code rfl ((raw_m ⟨0, o.off, o.vi, o.xb, o.data, o.g.bits, 71⟩).trans (by (first | (change @ite _ _ _ (some _) none = _) | (change some _ = _)); simp [bitsOf_extend_lo, bitsOf_extend_hi, bitAt_extend_hi]))
theorem atomExch (o : IxOp) : Statement (.atomExch o) := of_code rfl ((raw_m ⟨0, o.off, o.vi, o.xb, o.data, o.g.bits, 72⟩).trans (by (first | (change @ite _ _ _ (some _) none = _) | (change some _ = _)); simp [bitsOf_extend_lo, bitsOf_extend_hi, bitAt_extend_hi]))
theorem atomCas (o : IxOp) : Statement (.atomCas o) := of_code rfl ((raw_m ⟨0, o.off, o.vi, o.xb, o.data, o.g.bits, 73⟩).trans (by (first | (change @ite _ _ _ (some _) none = _) | (change some _ = _)); simp [bitsOf_extend_lo, bitsOf_extend_hi, bitAt_extend_hi]))
theorem atomFaddF32 (o : IxOp) : Statement (.atomFaddF32 o) := of_code rfl ((raw_m ⟨0, o.off, o.vi, o.xb, o.data, o.g.bits, 74⟩).trans (by (first | (change @ite _ _ _ (some _) none = _) | (change some _ = _)); simp [bitsOf_extend_lo, bitsOf_extend_hi, bitAt_extend_hi]))
theorem atomFaddBf16X2 (o : IxOp) : Statement (.atomFaddBf16X2 o) := of_code rfl ((raw_m ⟨0, o.off, o.vi, o.xb, o.data, o.g.bits, 75⟩).trans (by (first | (change @ite _ _ _ (some _) none = _) | (change some _ = _)); simp [bitsOf_extend_lo, bitsOf_extend_hi, bitAt_extend_hi]))
theorem atomsAdd (o : IxOp) : Statement (.atomsAdd o) := of_code rfl ((raw_m ⟨0, o.off, o.vi, o.xb, o.data, o.g.bits, 80⟩).trans (by (first | (change @ite _ _ _ (some _) none = _) | (change some _ = _)); simp [bitsOf_extend_lo, bitsOf_extend_hi, bitAt_extend_hi]))
theorem atomsMin (o : IxOp) : Statement (.atomsMin o) := of_code rfl ((raw_m ⟨0, o.off, o.vi, o.xb, o.data, o.g.bits, 81⟩).trans (by (first | (change @ite _ _ _ (some _) none = _) | (change some _ = _)); simp [bitsOf_extend_lo, bitsOf_extend_hi, bitAt_extend_hi]))
theorem atomsMax (o : IxOp) : Statement (.atomsMax o) := of_code rfl ((raw_m ⟨0, o.off, o.vi, o.xb, o.data, o.g.bits, 82⟩).trans (by (first | (change @ite _ _ _ (some _) none = _) | (change some _ = _)); simp [bitsOf_extend_lo, bitsOf_extend_hi, bitAt_extend_hi]))
theorem atomsMinu (o : IxOp) : Statement (.atomsMinu o) := of_code rfl ((raw_m ⟨0, o.off, o.vi, o.xb, o.data, o.g.bits, 83⟩).trans (by (first | (change @ite _ _ _ (some _) none = _) | (change some _ = _)); simp [bitsOf_extend_lo, bitsOf_extend_hi, bitAt_extend_hi]))
theorem atomsMaxu (o : IxOp) : Statement (.atomsMaxu o) := of_code rfl ((raw_m ⟨0, o.off, o.vi, o.xb, o.data, o.g.bits, 84⟩).trans (by (first | (change @ite _ _ _ (some _) none = _) | (change some _ = _)); simp [bitsOf_extend_lo, bitsOf_extend_hi, bitAt_extend_hi]))
theorem atomsAnd (o : IxOp) : Statement (.atomsAnd o) := of_code rfl ((raw_m ⟨0, o.off, o.vi, o.xb, o.data, o.g.bits, 85⟩).trans (by (first | (change @ite _ _ _ (some _) none = _) | (change some _ = _)); simp [bitsOf_extend_lo, bitsOf_extend_hi, bitAt_extend_hi]))
theorem atomsOr (o : IxOp) : Statement (.atomsOr o) := of_code rfl ((raw_m ⟨0, o.off, o.vi, o.xb, o.data, o.g.bits, 86⟩).trans (by (first | (change @ite _ _ _ (some _) none = _) | (change some _ = _)); simp [bitsOf_extend_lo, bitsOf_extend_hi, bitAt_extend_hi]))
theorem atomsXor (o : IxOp) : Statement (.atomsXor o) := of_code rfl ((raw_m ⟨0, o.off, o.vi, o.xb, o.data, o.g.bits, 87⟩).trans (by (first | (change @ite _ _ _ (some _) none = _) | (change some _ = _)); simp [bitsOf_extend_lo, bitsOf_extend_hi, bitAt_extend_hi]))
theorem atomsExch (o : IxOp) : Statement (.atomsExch o) := of_code rfl ((raw_m ⟨0, o.off, o.vi, o.xb, o.data, o.g.bits, 88⟩).trans (by (first | (change @ite _ _ _ (some _) none = _) | (change some _ = _)); simp [bitsOf_extend_lo, bitsOf_extend_hi, bitAt_extend_hi]))
theorem atomsCas (o : IxOp) : Statement (.atomsCas o) := of_code rfl ((raw_m ⟨0, o.off, o.vi, o.xb, o.data, o.g.bits, 89⟩).trans (by (first | (change @ite _ _ _ (some _) none = _) | (change some _ = _)); simp [bitsOf_extend_lo, bitsOf_extend_hi, bitAt_extend_hi]))
theorem atomsFaddF32 (o : IxOp) : Statement (.atomsFaddF32 o) := of_code rfl ((raw_m ⟨0, o.off, o.vi, o.xb, o.data, o.g.bits, 90⟩).trans (by (first | (change @ite _ _ _ (some _) none = _) | (change some _ = _)); simp [bitsOf_extend_lo, bitsOf_extend_hi, bitAt_extend_hi]))
theorem atomsFaddBf16X2 (o : IxOp) : Statement (.atomsFaddBf16X2 o) := of_code rfl ((raw_m ⟨0, o.off, o.vi, o.xb, o.data, o.g.bits, 91⟩).trans (by (first | (change @ite _ _ _ (some _) none = _) | (change some _ = _)); simp [bitsOf_extend_lo, bitsOf_extend_hi, bitAt_extend_hi]))
theorem pref (xb : BitVec 4) (off : BitVec 10) (hint : BitVec 3) (g : Guard) : Statement (.pref xb off hint g) := of_code rfl ((raw_m ⟨hint, off, 0, xb, 0, g.bits, 0x60⟩).trans (by (first | (change @ite _ _ _ (some _) none = _) | (change some _ = _)); simp [bitsOf_extend_lo, bitsOf_extend_hi, bitAt_extend_hi]))
theorem clean (xb : BitVec 4) (off : BitVec 10) (g : Guard) : Statement (.clean xb off g) := of_code rfl ((raw_m ⟨0, off, 0, xb, 0, g.bits, 97⟩).trans (by (first | (change @ite _ _ _ (some _) none = _) | (change some _ = _)); simp [bitsOf_extend_lo, bitsOf_extend_hi, bitAt_extend_hi]))
theorem inval (xb : BitVec 4) (off : BitVec 10) (g : Guard) : Statement (.inval xb off g) := of_code rfl ((raw_m ⟨0, off, 0, xb, 0, g.bits, 98⟩).trans (by (first | (change @ite _ _ _ (some _) none = _) | (change some _ = _)); simp [bitsOf_extend_lo, bitsOf_extend_hi, bitAt_extend_hi]))
theorem icinv (xb : BitVec 4) (g : Guard) : Statement (.icinv xb g) := of_code rfl ((raw_m ⟨0, 0, 0, xb, 0, g.bits, 99⟩).trans (by (first | (change @ite _ _ _ (some _) none = _) | (change some _ = _)); simp [bitsOf_extend_lo, bitsOf_extend_hi, bitAt_extend_hi]))
theorem fenceAcq (g : Guard) : Statement (.fenceAcq g) := of_code rfl ((raw_m ⟨0, 0, 0, 0, 0, g.bits, 100⟩).trans (by (first | (change @ite _ _ _ (some _) none = _) | (change some _ = _)); simp [bitsOf_extend_lo, bitsOf_extend_hi, bitAt_extend_hi]))
theorem fenceRel (g : Guard) : Statement (.fenceRel g) := of_code rfl ((raw_m ⟨0, 0, 0, 0, 0, g.bits, 101⟩).trans (by (first | (change @ite _ _ _ (some _) none = _) | (change some _ = _)); simp [bitsOf_extend_lo, bitsOf_extend_hi, bitAt_extend_hi]))
theorem fenceAr (g : Guard) : Statement (.fenceAr g) := of_code rfl ((raw_m ⟨0, 0, 0, 0, 0, g.bits, 102⟩).trans (by (first | (change @ite _ _ _ (some _) none = _) | (change some _ = _)); simp [bitsOf_extend_lo, bitsOf_extend_hi, bitAt_extend_hi]))
theorem fenceSc (g : Guard) : Statement (.fenceSc g) := of_code rfl ((raw_m ⟨0, 0, 0, 0, 0, g.bits, 103⟩).trans (by (first | (change @ite _ _ _ (some _) none = _) | (change some _ = _)); simp [bitsOf_extend_lo, bitsOf_extend_hi, bitAt_extend_hi]))
theorem fenceCp (g : Guard) : Statement (.fenceCp g) := of_code rfl ((raw_m ⟨0, 0, 0, 0, 0, g.bits, 113⟩).trans (by (first | (change @ite _ _ _ (some _) none = _) | (change some _ = _)); simp [bitsOf_extend_lo, bitsOf_extend_hi, bitAt_extend_hi]))
theorem drain (g : Guard) : Statement (.drain g) := of_code rfl ((raw_m ⟨0, 0, 0, 0, 0, g.bits, 104⟩).trans (by (first | (change @ite _ _ _ (some _) none = _) | (change some _ = _)); simp [bitsOf_extend_lo, bitsOf_extend_hi, bitAt_extend_hi]))
theorem fst (o : IxOp) : Statement (.fst o) := of_code rfl ((raw_m ⟨0, o.off, o.vi, o.xb, o.data, o.g.bits, 105⟩).trans (by (first | (change @ite _ _ _ (some _) none = _) | (change some _ = _)); simp [bitsOf_extend_lo, bitsOf_extend_hi, bitAt_extend_hi]))
theorem fsig (xb : BitVec 4) (inc : BitVec 10) (g : Guard) : Statement (.fsig xb inc g) := of_code rfl ((raw_m ⟨0, inc, 0, xb, 0, g.bits, 0x6A⟩).trans (by (first | (change @ite _ _ _ (some _) none = _) | (change some _ = _)); simp [bitsOf_extend_lo, bitsOf_extend_hi, bitAt_extend_hi]))
theorem launch (data : BitVec 8) (xb : BitVec 4) (g : Guard) : Statement (.launch data xb g) := of_code rfl ((raw_m ⟨0, 0, 0, xb, data, g.bits, 107⟩).trans (by (first | (change @ite _ _ _ (some _) none = _) | (change some _ = _)); simp [bitsOf_extend_lo, bitsOf_extend_hi, bitAt_extend_hi]))
theorem acqProm (xb : BitVec 4) (g : Guard) : Statement (.acqProm xb g) := of_code rfl ((raw_m ⟨0, 0, 0, xb, 0, g.bits, 108⟩).trans (by (first | (change @ite _ _ _ (some _) none = _) | (change some _ = _)); simp [bitsOf_extend_lo, bitsOf_extend_hi, bitAt_extend_hi]))
theorem txbegin (data : BitVec 8) (xb : BitVec 4) (g : Guard) : Statement (.txbegin data xb g) := of_code rfl ((raw_m ⟨0, 0, 0, xb, data, g.bits, 109⟩).trans (by (first | (change @ite _ _ _ (some _) none = _) | (change some _ = _)); simp [bitsOf_extend_lo, bitsOf_extend_hi, bitAt_extend_hi]))
theorem txst (o : IxOp) : Statement (.txst o) := of_code rfl ((raw_m ⟨0, o.off, o.vi, o.xb, o.data, o.g.bits, 110⟩).trans (by (first | (change @ite _ _ _ (some _) none = _) | (change some _ = _)); simp [bitsOf_extend_lo, bitsOf_extend_hi, bitAt_extend_hi]))
theorem txcommit (data : BitVec 8) (g : Guard) : Statement (.txcommit data g) := of_code rfl ((raw_m ⟨0, 0, 0, 0, data, g.bits, 0x6F⟩).trans (by (first | (change @ite _ _ _ (some _) none = _) | (change some _ = _)); simp [bitsOf_extend_lo, bitsOf_extend_hi, bitAt_extend_hi]))
theorem txabort (g : Guard) : Statement (.txabort g) := of_code rfl ((raw_m ⟨0, 0, 0, 0, 0, g.bits, 112⟩).trans (by (first | (change @ite _ _ _ (some _) none = _) | (change some _ = _)); simp [bitsOf_extend_lo, bitsOf_extend_hi, bitAt_extend_hi]))
theorem mma (o : MmaOp) : Statement (.mma o) := of_code rfl ((raw_x ⟨o.lb, o.mid, o.zf, o.kb, o.fb, o.fa, o.xb, o.xa, o.tile, o.h, 1⟩).trans (by change some _ = _; simp [bitsOf_extend_lo, bitsOf_extend_hi, bitAt_extend_hi]))
theorem accz (h : Sync) (tile : BitVec 3) : Statement (.accz h tile) := of_code rfl ((raw_x ⟨false, false, false, 0, 0, 0, 0, 0, tile, h, 2⟩).trans (by (first | (change @ite _ _ _ (some _) none = _) | (change some _ = _)); simp [bitsOf_extend_lo, bitsOf_extend_hi, bitAt_extend_hi]))
theorem mst (h : Sync) (tile : BitVec 3) (xa : BitVec 4) (xb : BitVec 4) (fmt : BitVec 5) : Statement (.mst h tile xa xb fmt) := of_code rfl ((raw_x ⟨false, false, false, 0, 0, fmt, xb, xa, tile, h, 3⟩).trans (by (first | (change @ite _ _ _ (some _) none = _) | (change some _ = _)); simp [bitsOf_extend_lo, bitsOf_extend_hi, bitAt_extend_hi]))
theorem mld (h : Sync) (tile : BitVec 3) (xa : BitVec 4) (xb : BitVec 4) : Statement (.mld h tile xa xb) := of_code rfl ((raw_x ⟨false, false, false, 0, 0, 0, xb, xa, tile, h, 4⟩).trans (by (first | (change @ite _ _ _ (some _) none = _) | (change some _ = _)); simp [bitsOf_extend_lo, bitsOf_extend_hi, bitAt_extend_hi]))
theorem msync (h : Sync) : Statement (.msync h) := of_code rfl ((raw_x ⟨false, false, false, 0, 0, 0, 0, 0, 0, h, 5⟩).trans (by (first | (change @ite _ _ _ (some _) none = _) | (change some _ = _)); simp [bitsOf_extend_lo, bitsOf_extend_hi, bitAt_extend_hi]))
theorem mstat (h : Sync) (tile : BitVec 3) (xa : BitVec 4) : Statement (.mstat h tile xa) := of_code rfl ((raw_x ⟨false, false, false, 0, 0, 0, 0, xa, tile, h, 6⟩).trans (by (first | (change @ite _ _ _ (some _) none = _) | (change some _ = _)); simp [bitsOf_extend_lo, bitsOf_extend_hi, bitAt_extend_hi]))
theorem scla (lb : Bool) (xa : BitVec 4) : Statement (.scla lb xa) := of_code rfl ((raw_k ⟨lb, false, xa, 1⟩).trans (by (first | (change @ite _ _ _ (some _) none = _) | (change some _ = _)); simp [bitsOf_extend_lo, bitsOf_extend_hi, bitAt_extend_hi]))
theorem sclb (lb : Bool) (xa : BitVec 4) : Statement (.sclb lb xa) := of_code rfl ((raw_k ⟨lb, true, xa, 2⟩).trans (by (first | (change @ite _ _ _ (some _) none = _) | (change some _ = _)); simp [bitsOf_extend_lo, bitsOf_extend_hi, bitAt_extend_hi]))
theorem sclz (side : Bool) (lb : Bool) : Statement (.sclz side lb) := of_code rfl ((raw_k ⟨lb, side, 0, 3⟩).trans (by (first | (change @ite _ _ _ (some _) none = _) | (change some _ = _)); simp [bitsOf_extend_lo, bitsOf_extend_hi, bitAt_extend_hi]))
theorem copy (o : CopyOp) : Statement (.copy o) := of_code rfl ((raw_c ⟨o.timed, o.xform, o.mask, o.c.ch, o.c.tag, o.c.xd, o.c.xs, o.sh, o.c.h, 1⟩).trans (by change some _ = _; simp [bitsOf_extend_lo, bitsOf_extend_hi, bitAt_extend_hi]))
theorem copyx (o : CopyOp) : Statement (.copyx o) := of_code rfl ((raw_c ⟨o.timed, o.xform, o.mask, o.c.ch, o.c.tag, o.c.xd, o.c.xs, o.sh, o.c.h, 2⟩).trans (by change some _ = _; simp [bitsOf_extend_lo, bitsOf_extend_hi, bitAt_extend_hi]))
theorem tload (o : LoadOp) : Statement (.tload o) := of_code rfl ((raw_c ⟨false, 0, 0, o.ch, o.tag, o.xd, o.xs, 0, o.h, 3⟩).trans (by (first | (change @ite _ _ _ (some _) none = _) | (change some _ = _)); simp [bitsOf_extend_lo, bitsOf_extend_hi, bitAt_extend_hi]))
theorem pload (o : LoadOp) : Statement (.pload o) := of_code rfl ((raw_c ⟨false, 0, 0, o.ch, o.tag, o.xd, o.xs, 0, o.h, 4⟩).trans (by (first | (change @ite _ _ _ (some _) none = _) | (change some _ = _)); simp [bitsOf_extend_lo, bitsOf_extend_hi, bitAt_extend_hi]))
theorem dload (o : LoadOp) : Statement (.dload o) := of_code rfl ((raw_c ⟨false, 0, 0, o.ch, o.tag, o.xd, o.xs, 0, o.h, 5⟩).trans (by (first | (change @ite _ _ _ (some _) none = _) | (change some _ = _)); simp [bitsOf_extend_lo, bitsOf_extend_hi, bitAt_extend_hi]))
theorem intake (o : LoadOp) : Statement (.intake o) := of_code rfl ((raw_c ⟨false, 0, 0, o.ch, o.tag, o.xd, o.xs, 0, o.h, 6⟩).trans (by (first | (change @ite _ _ _ (some _) none = _) | (change some _ = _)); simp [bitsOf_extend_lo, bitsOf_extend_hi, bitAt_extend_hi]))
theorem shset (sh : BitVec 3) (field : BitVec 5) (xs : BitVec 4) : Statement (.shset sh field xs) := of_code rfl ((raw_h ⟨0, xs, field, sh, 1⟩).trans (by (first | (change @ite _ _ _ (some _) none = _) | (change some _ = _)); simp [bitsOf_extend_lo, bitsOf_extend_hi, bitAt_extend_hi]))
theorem shseti (sh : BitVec 3) (field : BitVec 5) (imm : BitVec 16) : Statement (.shseti sh field imm) := of_code rfl ((raw_h ⟨imm, 0, field, sh, 2⟩).trans (by (first | (change @ite _ _ _ (some _) none = _) | (change some _ = _)); simp [bitsOf_extend_lo, bitsOf_extend_hi, bitAt_extend_hi]))
theorem bundleIssue (core : Nat) : Statement (.bundleIssue core) := no_code rfl
theorem binAged (core : Nat) (bin : Nat) : Statement (.binAged core bin) := no_code rfl
theorem loadValueArrives (flight : Nat) : Statement (.loadValueArrives flight) := no_code rfl
theorem swapCommit (group : Nat) : Statement (.swapCommit group) := no_code rfl
theorem pageRequestPost (req : Nat) : Statement (.pageRequestPost req) := no_code rfl
theorem prrespWrite (id : BitVec 16) (refuse : Bool) : Statement (.prrespWrite id refuse) := no_code rfl
theorem waitParkCandidate (group : Nat) : Statement (.waitParkCandidate group) := no_code rfl
theorem parkGroup (group : Nat) : Statement (.parkGroup group) := no_code rfl
theorem unparkGroup (group : Nat) : Statement (.unparkGroup group) := no_code rfl
theorem groupEnd (group : Nat) : Statement (.groupEnd group) := no_code rfl
theorem siphonCommandStart (core : Nat) : Statement (.siphonCommandStart core) := no_code rfl
theorem timedCopyStartTime (cmd : Nat) : Statement (.timedCopyStartTime cmd) := no_code rfl
theorem matrixCommandStart (core : Nat) : Statement (.matrixCommandStart core) := no_code rfl
theorem commandRetire (cmd : Nat) : Statement (.commandRetire cmd) := no_code rfl
theorem frameGrant (core : Nat) (lane : Nat) : Statement (.frameGrant core lane) := no_code rfl
theorem spillTimeout (core : Nat) (lane : Nat) : Statement (.spillTimeout core lane) := no_code rfl
theorem refill (core : Nat) (lane : Nat) : Statement (.refill core lane) := no_code rfl
theorem writePerforms (core : Nat) (write : Nat) : Statement (.writePerforms core write) := no_code rfl
theorem lineEviction (core : Nat) (line : Nat) : Statement (.lineEviction core line) := no_code rfl
theorem promotionAtVictim (prom : Nat) : Statement (.promotionAtVictim prom) := no_code rfl
theorem promotionAck (prom : Nat) : Statement (.promotionAck prom) := no_code rfl
theorem launchWindowWrite (tenant : BitVec 6) (cell : BitVec 5) (off : BitVec 7) (bytes : List (BitVec 8)) : Statement (.launchWindowWrite tenant cell off bytes) := no_code rfl
theorem launchWindowRead (tenant : BitVec 6) (cell : BitVec 5) (off : BitVec 7) (len : Nat) : Statement (.launchWindowRead tenant cell off len) := no_code rfl
theorem launchBatchAccept (batch : Nat) : Statement (.launchBatchAccept batch) := no_code rfl
theorem memoryConditionPoll (launch : Nat) : Statement (.memoryConditionPoll launch) := no_code rfl
theorem queueAging (tenant : BitVec 6) (level : BitVec 3) : Statement (.queueAging tenant level) := no_code rfl
theorem placeGang (cores : List Nat) : Statement (.placeGang cores) := no_code rfl
theorem preempt (cluster : Nat) : Statement (.preempt cluster) := no_code rfl
theorem preemptDeadline (group : Nat) : Statement (.preemptDeadline group) := no_code rfl
theorem contextSave (group : Nat) : Statement (.contextSave group) := no_code rfl
theorem contextRestore (group : Nat) (cores : List Nat) : Statement (.contextRestore group cores) := no_code rfl
theorem launchComplete (launch : Nat) : Statement (.launchComplete launch) := no_code rfl
theorem launchAbort (launch : Nat) : Statement (.launchAbort launch) := no_code rfl
theorem tabownWrite (core : Nat) (hi : Bool) (value : BitVec 64) : Statement (.tabownWrite core hi value) := no_code rfl
theorem registerWrite (off : Nat) (size : Nat) (value : BitVec 64) : Statement (.registerWrite off size value) := no_code rfl
theorem serviceEntry (core : Nat) : Statement (.serviceEntry core) := no_code rfl
theorem serviceDeadline (core : Nat) : Statement (.serviceDeadline core) := no_code rfl
theorem pfadd (frame : BitVec 28) : Statement (.pfadd frame) := no_code rfl
theorem pfdel (frame : BitVec 28) : Statement (.pfdel frame) := no_code rfl
theorem uncorrectableError (addr : Nat) (met : ErrMet) : Statement (.uncorrectableError addr met) := no_code rfl
theorem scrub (stack : Nat) (found : Option (BitVec 28)) : Statement (.scrub stack found) := no_code rfl
theorem tlbinvAsid (asid : BitVec 16) : Statement (.tlbinvAsid asid) := no_code rfl
theorem tlbinvRange (asid : BitVec 16) (count : BitVec 24) : Statement (.tlbinvRange asid count) := no_code rfl
theorem tlbinvAll : Statement (.tlbinvAll) := no_code rfl
theorem tlbInvalidationDone : Statement (.tlbInvalidationDone) := no_code rfl
theorem snadd (dom : BitVec 4) (first : BitVec 24) (count : BitVec 24) : Statement (.snadd dom first count) := no_code rfl
theorem snrem (dom : BitVec 4) (first : BitVec 24) (count : BitVec 24) : Statement (.snrem dom first count) := no_code rfl
theorem snap (dom : BitVec 4) : Statement (.snap dom) := no_code rfl
theorem snout (dom : BitVec 4) : Statement (.snout dom) := no_code rfl
theorem snstop (dom : BitVec 4) : Statement (.snstop dom) := no_code rfl
theorem snpoolWrite (value : BitVec 64) : Statement (.snpoolWrite value) := no_code rfl
theorem copyBeforeWrite (page : Nat) : Statement (.copyBeforeWrite page) := no_code rfl
theorem drainPageSend (dom : BitVec 4) : Statement (.drainPageSend dom) := no_code rfl
theorem drainPageAck (dom : BitVec 4) (page : Nat) : Statement (.drainPageAck dom page) := no_code rfl
theorem drainTargetFail (dom : BitVec 4) : Statement (.drainTargetFail dom) := no_code rfl
theorem linkRetrain (port : BitVec 4) (lanes : Nat) : Statement (.linkRetrain port lanes) := no_code rfl
theorem linkFail (port : BitVec 4) : Statement (.linkFail port) := no_code rfl
theorem remoteLoadRequest (src : Nat) (id : Nat) (addr : Nat) (len : Nat) : Statement (.remoteLoadRequest src id addr len) := no_code rfl
theorem remoteLoadResponse (id : Nat) (bytes : List (BitVec 8)) : Statement (.remoteLoadResponse id bytes) := no_code rfl
theorem fstApply (src : Nat) (id : Nat) (addr : Nat) (data : BitVec 128) : Statement (.fstApply src id addr data) := no_code rfl
theorem fstAck (id : Nat) : Statement (.fstAck id) := no_code rfl
theorem fsigApply (src : Nat) (id : Nat) (handle : BitVec 64) (inc : Nat) : Statement (.fsigApply src id handle inc) := no_code rfl
theorem fsigForward (src : Nat) (id : Nat) (handle : BitVec 64) (inc : Nat) (hops : Nat) : Statement (.fsigForward src id handle inc hops) := no_code rfl
theorem targetLost (pkg : Nat) : Statement (.targetLost pkg) := no_code rfl
theorem txStage (msg : FabName) (handle : BitVec 32) (place : TxPlace) (data : BitVec 128) : Statement (.txStage msg handle place data) := no_code rfl
theorem txStageAck (handle : BitVec 32) (msg : FabName) (doom : Option (BitVec 32)) : Statement (.txStageAck handle msg doom) := no_code rfl
theorem txPrepare (msg : FabName) (handle : BitVec 32) : Statement (.txPrepare msg handle) := no_code rfl
theorem txVote (handle : BitVec 32) (msg : FabName) (no : Option (BitVec 32)) : Statement (.txVote handle msg no) := no_code rfl
theorem txVoteTimeout (handle : BitVec 32) : Statement (.txVoteTimeout handle) := no_code rfl
theorem txDecision (msg : FabName) (handle : BitVec 32) (commit : Bool) : Statement (.txDecision msg handle commit) := no_code rfl
theorem txApplyAck (handle : BitVec 32) (msg : FabName) : Statement (.txApplyAck handle msg) := no_code rfl
theorem txPartTimeout (coord : Nat) (handle : BitVec 32) : Statement (.txPartTimeout coord handle) := no_code rfl
theorem txRecovery (coord : Nat) (handle : BitVec 32) (commit : Bool) : Statement (.txRecovery coord handle commit) := no_code rfl
theorem hostAccess (addr : Nat) (op : BusOp) : Statement (.hostAccess addr op) := no_code rfl
theorem hostSnoop (line : Nat) : Statement (.hostSnoop line) := no_code rfl
theorem packageReset : Statement (.packageReset) := no_code rfl
theorem dieEnumerate (die : BitVec 8) (table : List (BitVec 8)) : Statement (.dieEnumerate die table) := no_code rfl
theorem dieIsolate (die : BitVec 8) : Statement (.dieIsolate die) := no_code rfl
theorem dieRejoin (die : BitVec 8) : Statement (.dieRejoin die) := no_code rfl
theorem dieInternalError (die : BitVec 8) : Statement (.dieInternalError die) := no_code rfl
theorem isolationComplete (die : BitVec 8) (lost : List (BitVec 28)) : Statement (.isolationComplete die lost) := no_code rfl
theorem islandFreqWrite (island : BitVec 7) (freq : BitVec 7) : Statement (.islandFreqWrite island freq) := no_code rfl
theorem islandGate (island : BitVec 7) : Statement (.islandGate island) := no_code rfl
theorem islandGated (island : BitVec 7) : Statement (.islandGated island) := no_code rfl
theorem islandUngate (island : BitVec 7) : Statement (.islandUngate island) := no_code rfl
theorem throttle (lower : Bool) : Statement (.throttle lower) := no_code rfl
theorem fatalError (cause : BitVec 8) (detail : BitVec 64) : Statement (.fatalError cause detail) := no_code rfl
theorem boot (hub : List (BitVec 8)) (service : List (BitVec 8)) (hart : List (BitVec 8)) : Statement (.boot hub service hart) := no_code rfl
theorem firmwareVerify (image : List (BitVec 8)) : Statement (.firmwareVerify image) := no_code rfl
theorem claim (term : Nat) (sender : Nat) (key : BootKey) : Statement (.claim term sender key) := no_code rfl
theorem lease (term : Nat) (sender : Nat) : Statement (.lease term sender) := no_code rfl
theorem load (term : Nat) (sender : Nat) (off : Nat) (bytes : List (BitVec 8)) : Statement (.load term sender off bytes) := no_code rfl
theorem done (term : Nat) (sender : Nat) : Statement (.done term sender) := no_code rfl
theorem leaseTimeout : Statement (.leaseTimeout) := no_code rfl
theorem claimTimeout : Statement (.claimTimeout) := no_code rfl
theorem leasePeriod : Statement (.leasePeriod) := no_code rfl
theorem mgmtDie (op : BitVec 4) (die : BitVec 8) : Statement (.mgmtDie op die) := no_code rfl
theorem mgmtIsland (island : BitVec 7) (freq : BitVec 7) (gate : Bool) : Statement (.mgmtIsland island freq gate) := no_code rfl
theorem mgmtMonitor (mon : BitVec 5) (cfg : Option (BitVec 64)) : Statement (.mgmtMonitor mon cfg) := no_code rfl
theorem mgmtKeySlot (slot : BitVec 8) (tenant : BitVec 6) (wrapped : List (BitVec 8)) : Statement (.mgmtKeySlot slot tenant wrapped) := no_code rfl
theorem mgmtServiceStore (image : List (BitVec 8)) : Statement (.mgmtServiceStore image) := no_code rfl
theorem mgmtImage (image : List (BitVec 8)) : Statement (.mgmtImage image) := no_code rfl
theorem mgmtDump : Statement (.mgmtDump) := no_code rfl
theorem getVersion : Statement (.getVersion) := no_code rfl
theorem getCapabilities : Statement (.getCapabilities) := no_code rfl
theorem negotiateAlgorithms (offersP384 : Bool) (offersSha384 : Bool) : Statement (.negotiateAlgorithms offersP384 offersSha384) := no_code rfl
theorem getDigests : Statement (.getDigests) := no_code rfl
theorem getCertificate (slot : Nat) (off : Nat) (len : Nat) : Statement (.getCertificate slot off len) := no_code rfl
theorem challenge (slot : Nat) (nonce : Nat) : Statement (.challenge slot nonce) := no_code rfl
theorem getMeasurements (index : Nat) : Statement (.getMeasurements index) := no_code rfl
theorem monitorSample (mon : BitVec 5) (value : BitVec 64) : Statement (.monitorSample mon value) := no_code rfl
theorem monitorClear (mon : BitVec 5) : Statement (.monitorClear mon) := no_code rfl
theorem linkUp (port : BitVec 4) (width : BitVec 2) : Statement (.linkUp port width) := no_code rfl
theorem fsigAck (id : Nat) (void : Bool) : Statement (.fsigAck id void) := no_code rfl
theorem hartAccess (hart : Nat) (addr : Nat) (op : HartOp) : Statement (.hartAccess hart addr op) := no_code rfl
theorem pcieMemoryRequest (port : Nat) (addr : Nat) (op : BusOp) : Statement (.pcieMemoryRequest port addr op) := no_code rfl
theorem directoryResponse (ask : DirAsk) : Statement (.directoryResponse ask) := no_code rfl
theorem islandChangeComplete (island : BitVec 7) : Statement (.islandChangeComplete island) := no_code rfl

end Sys2Proof.Laws.RoundTrip
end

