-- ==== Sys2Proof/Laws/Slots.lean ====
section
/-! SUPPORT. What the shared slot operations answer, and what the frame engine's pushes and pops leave of a thread. -/

namespace Sys2Proof.Laws

open Sys2Proof.Machine

/-! ### Slots -/

/-- A slot operation outside a bundle's issue is the fault `noIssue`. -/
theorem withIssue_none {s : State} (k : Issue → Out) (h : s.issue = none) : withIssue s k = .fault .noIssue := by
  unfold withIssue; rw [h]

theorem withIssue_some {s : State} {q : Issue} (k : Issue → Out) (h : s.issue = some q) : withIssue s k = k q := by
  unfold withIssue; rw [h]

theorem slotNext_some {s : State} {q : Issue} (f : Issue → State) (h : s.issue = some q) :
    slotNext s f = .next (f q) := withIssue_some _ h

/-- A slot that no condition keeps from acting has its effect. -/
theorem slotCond_effect {s : State} {q : Issue} {cond : Issue → Option Cond} (effect : Issue → Out)
    (hq : s.issue = some q) (h : Unbarred q (cond q)) : slotCond s cond effect = effect q := by
  unfold slotCond
  rw [withIssue_some _ hq]
  rcases h with h | h
  · rw [if_pos h]
  · rw [h]; split <;> rfl

/-- A slot whose condition stands takes it. -/
theorem slotCond_taken {s : State} {q : Issue} {cond : Issue → Option Cond} {c : Cond} (effect : Issue → Out)
    (hq : s.issue = some q) (h1 : q.cleared = false) (h2 : cond q = some c) :
    slotCond s cond effect = .next (s.takeCond q c) := by
  unfold slotCond
  rw [withIssue_some _ hq, h1, h2]
  rfl

/-- A slot that nothing holds has its effect. -/
theorem slotHeld_effect {s : State} {q : Issue} {hold : Issue → Option Hold} (effect : Issue → State)
    (hq : s.issue = some q) (h : Unheld q (hold q)) : slotHeld s hold effect = .next (effect q) := by
  unfold slotHeld
  rw [withIssue_some _ hq]
  rcases h with h | h
  · rw [if_pos h]
  · rw [h]; split <;> rfl

/-- A slot that is held freezes or stalls its run. -/
theorem slotHeld_held {s : State} {q : Issue} {hold : Issue → Option Hold} {r : Hold} (effect : Issue → State)
    (hq : s.issue = some q) (h1 : q.cleared = false) (h2 : hold q = some r) :
    slotHeld s hold effect = .next (s.hold q.run r) := by
  unfold slotHeld
  rw [withIssue_some _ hq, h1, h2]
  rfl

/-- A frame-engine slot that nothing keeps from acting has its effect. -/
theorem frameSlot_effect {s : State} {q : Issue} {needs : Issue → Wl} {cond : Issue → Option Cond}
    (effect : Issue → State) (hq : s.issue = some q)
    (h : q.cleared = true ∨ (s.wlStop q (needs q) = none ∧ cond q = none)) :
    frameSlot s needs cond effect = .next (effect q) := by
  unfold frameSlot
  rw [withIssue_some _ hq]
  rcases h with h | ⟨h1, h2⟩
  · rw [if_pos h]
  · rw [h1, h2]; split <;> rfl

/-- A frame-engine slot whose condition stands takes it. -/
theorem frameSlot_taken {s : State} {q : Issue} {needs : Issue → Wl} {cond : Issue → Option Cond} {c : Cond}
    (effect : Issue → State) (hq : s.issue = some q) (h1 : q.cleared = false) (h2 : s.wlStop q (needs q) = none)
    (h3 : cond q = some c) : frameSlot s needs cond effect = .next (s.takeCond q c) := by
  unfold frameSlot
  rw [withIssue_some _ hq, h1, h2, h3]
  rfl

/-! ### The branch slot -/

@[simp] theorem way_threads (s : State) (lane : Nat) (w : Way) : (s.way lane w).threads = s.threads := rfl
@[simp] theorem way_mem (s : State) (lane : Nat) (w : Way) : (s.way lane w).mem = s.mem := rfl
@[simp] theorem way_groups (s : State) (lane : Nat) (w : Way) : (s.way lane w).groups = s.groups := rfl
@[simp] theorem freed_threads (s : State) (core lane n : Nat) : (s.freed core lane n).threads = s.threads := by
  unfold State.freed; split <;> rfl
@[simp] theorem freed_mem (s : State) (core lane n : Nat) : (s.freed core lane n).mem = s.mem := by
  unfold State.freed; split <;> rfl
@[simp] theorem dropFlights_threads (s : State) (run tk d : Nat) : (s.dropFlights run tk d).threads = s.threads := rfl
@[simp] theorem dropFlights_mem (s : State) (run tk d : Nat) : (s.dropFlights run tk d).mem = s.mem := rfl
@[simp] theorem restoreLoop_threads (s : State) (q : Issue) (tk : Nat) (e : Entry) :
    (s.restoreLoop q tk e).threads = s.threads := rfl
@[simp] theorem restoreLoop_mem (s : State) (q : Issue) (tk : Nat) (e : Entry) : (s.restoreLoop q tk e).mem = s.mem := rfl

theorem foldl_fly {α : Type} (q : Issue) (vals : α → List (Nat × Dest × QWord)) (cs : List α) (s : State) :
    (cs.foldl (fun z c => z.fly q 1 (vals c)) s).threads = s.threads
    ∧ (cs.foldl (fun z c => z.fly q 1 (vals c)) s).mem = s.mem := by
  induction cs generalizing s with
  | nil => exact ⟨rfl, rfl⟩
  | cons c cs ih => rw [List.foldl_cons]; exact ⟨(ih _).1.trans rfl, (ih _).2.trans rfl⟩

/-! ### Changes of several threads -/

/-- Changing some threads leaves the others. -/
theorem foldl_modThread_other {α : Type} (key : α → Nat) (f : α → Thread → Thread) (ls : List α) (s : State) {k : Nat}
    (h : ∀ l ∈ ls, key l ≠ k) : (ls.foldl (fun z l => z.modThread (key l) (f l)) s).thread k = s.thread k := by
  induction ls generalizing s with
  | nil => rfl
  | cons l ls ih =>
    rw [List.foldl_cons, ih _ (fun x hx => h x (List.mem_cons_of_mem _ hx))]
    exact thread_modThread_other s (f l) (fun e => h l (List.mem_cons_self ..) e.symm)

/-- Changing some threads, each named once, changes each of them once. -/
theorem foldl_modThread_mem {α : Type} (key : α → Nat) (f : α → Thread → Thread) (ls : List α) (s : State)
    (h : (ls.map key).Nodup) {l : α} (hl : l ∈ ls) :
    (ls.foldl (fun z l => z.modThread (key l) (f l)) s).thread (key l) = f l (s.thread (key l)) := by
  induction ls generalizing s with
  | nil => cases hl
  | cons x ls ih =>
    rw [List.map_cons, List.nodup_cons] at h
    rw [List.foldl_cons]
    rcases List.mem_cons.1 hl with rfl | hl
    · rw [foldl_modThread_other key f ls _ (fun y hy e => h.1 (List.mem_map.2 ⟨y, hy, e⟩))]
      exact thread_modThread_same ..
    · rw [ih _ h.2 hl, thread_modThread_other]
      intro e; exact h.1 (List.mem_map.2 ⟨l, hl, e⟩)

/-- Changing threads changes nothing but threads. -/
theorem foldl_modThread_eq {α : Type} (key : α → Nat) (f : α → Thread → Thread) (ls : List α) (s : State) :
    ∃ ts, ls.foldl (fun z l => z.modThread (key l) (f l)) s = { s with threads := ts } := by
  induction ls generalizing s with
  | nil => exact ⟨_, rfl⟩
  | cons l ls ih =>
    obtain ⟨ts, h⟩ := ih (s.modThread (key l) (f l))
    exact ⟨ts, by rw [List.foldl_cons, h]; rfl⟩

/-- Taking threads out of a run changes runs only. -/
theorem leaveRun_eq (s : State) (run : Nat) (lanes : List (Nat × Nat)) : ∃ rs, s.leaveRun run lanes = { s with runs := rs } := by
  unfold State.leaveRun
  simp only
  split
  · split
    · exact ⟨_, rfl⟩
    · exact ⟨_, rfl⟩
  · exact ⟨_, rfl⟩

/-- A thread without its n newest frames and entries. -/
def popped (n : Nat) (t : Thread) : Thread := { t with frames := t.frames.drop n, entries := t.entries.drop n }

theorem dropFrames_threads (s : State) (core lane tk n : Nat) :
    (s.dropFrames core lane tk n).threads = (s.modThread tk (popped n)).threads ∧ (s.dropFrames core lane tk n).mem = s.mem := by
  unfold State.dropFrames
  exact ⟨freed_threads .., freed_mem ..⟩

/-- A pop changes only its thread, and there only the frames and entries; restored state is put in flight (R289). An entry
held in memory is read back before anything goes, so that then no thread changes yet (R277). -/
theorem popLane_threads (s : State) (q : Issue) (l : Nat × Nat) (n : Nat) (vs : List Word) :
    (s.popLane q l n vs).threads = (if ((s.thread l.2).entry ((s.thread l.2).depth - n + 1)).onChip then
      (s.modThread l.2 (popped n)).threads else s.threads) ∧ (s.popLane q l n vs).mem = s.mem := by
  unfold State.popLane
  simp only
  split
  · unfold State.popTo
    simp only
    generalize hz : (((s.dropFlights q.run l.2 _).dropFrames q.core l.1 l.2 n).restoreLoop q l.2 _) = z
    have h : z.threads = (s.modThread l.2 (popped n)).threads ∧ z.mem = s.mem := by
      rw [← hz, restoreLoop_threads, restoreLoop_mem, (dropFrames_threads ..).1, (dropFrames_threads ..).2]; exact ⟨rfl, rfl⟩
    split
    · exact h
    · rw [way_threads, way_mem, (foldl_fly q _ _ _).1, (foldl_fly q _ _ _).2]
      exact h
  · exact ⟨rfl, rfl⟩

/-- A thread after a granted call (R281). -/
def called (e : Entry) (vs : List Word) (dem : Nat) (t : Thread) : Thread :=
  { t.setStage 0 with entries := e :: t.entries, frames := newFrame dem vs :: t.frames, loop := LoopState.zero }

/-- A push that evicts no entry changes only its thread. -/
theorem pushFrame_fits {s : State} {tk : Nat} (e : Entry) (vs : List Word) (dem : Nat)
    (h : (s.thread tk).evicts = Option.none) : s.pushFrame tk e vs dem = s.modThread tk (called e vs dem) := by
  unfold State.pushFrame State.modThread called
  simp only [h]

/-- A call that is granted at its issue. -/
theorem callLane_granted {s : State} {q : Issue} {l : Nat × Nat} {target : DWord} {dem carry : Nat} {mark : Bool}
    (h1 : s.grantNow q.core l.1 dem = true) (h2 : (s.thread l.2).depth ≠ 65535)
    (h3 : (s.thread l.2).evicts = Option.none) :
    s.callLane q l target dem carry mark
      = ((s.modThread l.2 (called ((s.thread l.2).capture q.seqPc mark dem) ((s.thread l.2).carried carry) dem)).restoreLoop q
          l.2 { (s.thread l.2).capture q.seqPc mark dem with loop := LoopState.zero, stage := 0 }).way l.1 (.go target) := by
  have hp : s.pushNeeds l.2 = .ok [] := by unfold State.pushNeeds; simp only [h3]
  unfold State.callLane
  simp only [if_neg h2, h1, if_true, hp, pushFrame_fits _ _ _ h3]

/-! ### Filing and release -/

/-- What filing a thread leaves alone: everything but the runs, the cores, the identifiers and that thread's PC. -/
theorem fileInBin_frame {s t : State} {core g : Nat} {l : Nat × Nat} {pc : DWord} (h : s.fileInBin core g l pc = some t) :
    ∃ runs cores, t = { s with runs := runs, cores := cores } := by
  unfold State.fileInBin at h
  simp only at h
  split at h
  · cases h
    unfold State.joinHeld
    split
    · split <;> exact ⟨_, _, rfl⟩
    · exact ⟨_, _, rfl⟩
  · split at h
    · cases h; exact ⟨_, _, rfl⟩
    · cases h

/-- Filing one thread: its PC, and otherwise only runs, cores and identifiers. -/
theorem fileAll_one (s : State) (core g lane tk : Nat) (pc : DWord) :
    ∃ runs cores ids, s.fileAll core g [(lane, tk, pc)]
      = { s.modThread tk (fun t => { t with pc := pc }) with runs := runs, cores := cores, ids := ids } := by
  have start : ∀ (qs : List (DWord × List (Nat × Nat))) (z : State), ∃ runs cores ids,
      qs.foldl (fun s q => (s.startRun core g q.2 q.1 0 []).modCore core (fun c => { c with binovf := c.binovf + 1 })) z
        = { z with runs := runs, cores := cores, ids := ids } := by
    intro qs
    induction qs with
    | nil => intro z; exact ⟨_, _, _, rfl⟩
    | cons q qs ih =>
      intro z
      obtain ⟨a, b, c, h⟩ := ih ((z.startRun core g q.2 q.1 0 []).modCore core (fun c => { c with binovf := c.binovf + 1 }))
      exact ⟨a, b, c, by rw [List.foldl_cons, h]; rfl⟩
  unfold State.fileAll
  simp only [State.fileSome]
  cases hf : (s.modThread tk (fun t => { t with pc := pc })).fileInBin core g (lane, tk) pc with
  | none =>
    obtain ⟨a, b, c, h⟩ := start (byPc [(lane, tk, pc)] []) (s.modThread tk (fun t => { t with pc := pc }))
    exact ⟨a, b, c, h⟩
  | some t =>
    obtain ⟨a, b, rfl⟩ := fileInBin_frame hf
    obtain ⟨a, b, c, h⟩ := start (byPc [] []) { s.modThread tk (fun t => { t with pc := pc }) with runs := a, cores := b }
    exact ⟨a, b, c, h⟩

/-- Releasing a thread changes of the threads only that one, and of it only how it is blocked, its PC and a swap that is
due; besides that only runs, cores and identifiers. -/
theorem release_frame (s : State) (tk : Nat) : ∃ (ts : Sparse Thread) (runs : List Run) (cores : Sparse Core) (ids : Nat),
    s.release tk = { s with threads := ts, runs := runs, cores := cores, ids := ids }
    ∧ (∀ k, k ≠ tk → spGet (fun _ => Thread.none) ts k = s.thread k)
    ∧ ∃ b p d w, spGet (fun _ => Thread.none) ts tk
        = { s.thread tk with blocked := b, pc := p, swapDue := d, blockedAt := w } := by
  unfold State.release
  simp only
  split
  · exact ⟨_, _, _, _, rfl, fun k hk => spGet_spPut_other _ _ _ hk, _, _, _, _, spGet_spPut_same _ _ _ _⟩
  · split
    · exact ⟨_, _, _, _, rfl, fun k hk => spGet_spPut_other _ _ _ hk, .no, _, _, _, spGet_spPut_same _ _ _ _⟩
    · split
      · exact ⟨_, _, _, _, rfl, fun k hk => spGet_spPut_other _ _ _ hk, .refill, _, _, _, spGet_spPut_same _ _ _ _⟩
      · obtain ⟨a, b, c, h⟩ := fileAll_one (s.modThread tk (fun t => { t with blocked := .no })) ((s.group (s.thread tk).group).core)
          (s.thread tk).group ((s.thread tk).tid % 32) tk (s.thread tk).pc
        rw [h]
        refine ⟨_, _, _, _, rfl, ?_, .no, (s.thread tk).pc, (s.thread tk).swapDue, (s.thread tk).blockedAt, ?_⟩
        · intro k hk
          refine (spGet_spPut_other _ _ _ hk).trans ?_
          exact spGet_spPut_other _ _ _ hk
        · refine (spGet_spPut_same _ _ _ _).trans ?_
          rw [thread_modThread_same]

end Sys2Proof.Laws
end

