-- ==== Sys2Proof/Tests/Slice0.lean ====
section
/-! SUPPORT. Tests of the model: words and bundles of chapter 2, ill-formed terms that the checks refuse, one step of
each family on a small state, the manual's worked values, and for every statement with hypotheses a state that meets
them. -/

set_option Elab.async false
set_option maxRecDepth 4000

namespace Sys2Proof.Tests

open Sys2Proof Sys2Proof.Machine

/-- The guard (p0), leaf 7. -/
def always : Guard := Guard.always

/-! ### Encodings, from the tables of chapter 2 -/

/-- Branch-slot words: R51 and R53. -/
theorem test_words_branch :
    decodeSlot .br 0x00000080003528A0#64 = some (.br [⟨5, false, 1⟩, ⟨6, true, 2⟩] true)
    ∧ decodeSlot .br 5#64 = some .reform ∧ decodeSlot .br 6#64 = some .bar ∧ decodeSlot .br 7#64 = some .exit
    ∧ decodeSlot .br 0x80068#64 = some (.loopL1 6) ∧ decodeSlot .br 9#64 = some .lend1
    ∧ decodeSlot .br 0x1312A#64 = some (.trap 0x12 3 true) ∧ decodeSlot .br 0x1C#64 = some (.brk 1) := by decide +kernel

/-- Scalar words: R54 to R56. -/
theorem test_words_scalar :
    decodeSlot .s 0x92A183AE#64 = some (.sel 3 2 true 4 5 always)
    ∧ decodeSlot .s 0x003903B2#64 = some (.tgtReg 2 7 always)
    ∧ decodeSlot .s 0x080183B3#64 = some (.getsr 3 0x010 always)
    ∧ decodeSlot .s 0x029803BD#64 = some (.ftset 5 3 always)
    ∧ decodeSlot .s 0x021803BF#64 = some (.resumeSlots 3 4 always) := by decide +kernel

/-- A guard with sense, predicate and leaf (R49). -/
theorem test_word_guard : decodeSlot .s 0xFCA1CD11#64 = some (.addImm 3 4 (-7) ⟨true, 3, 2⟩) := by decide +kernel

/-- Frame words: the table of chapter 12. -/
theorem test_words_frame :
    decodeSlot .br 0x11B1#64 = some (.call 3 3 2 false) ∧ decodeSlot .br 0x57C1#64 = some (.call 4 15 2 true)
    ∧ decodeSlot .br 0x0A52#64 = some (.calli 5 2 true) ∧ decodeSlot .br 0x13#64 = some (.ret 1)
    ∧ decodeSlot .br 0x84#64 = some (.unwind 4) ∧ decodeSlot .br 0x14#64 = some .unwindMark := by decide +kernel

/-- Vector words: the tables of chapter 6. -/
theorem test_words_vector :
    decodeSlot .v 0xC086280E3E28#64 = some (.vcvtf ⟨7, 20, 3, 2, true, true, ⟨false, 3, 7⟩⟩ 0)
    ∧ decodeSlot .v 0x320C0A080E17#64 = some (.vsel 4 9 true 5 6 always)
    ∧ decodeSlot .v 0x060E0C0A0E30#64 = some (.vshfl 5 6 (.reg 7) 3 always)
    ∧ decodeSlot .v 0x4C083E3C0E35#64 = some (.vscan 30 31 0 true 6 always)
    ∧ decodeSlot .v 0x140006120E38#64 = some (.vaccrd 9 2 true 3 always)
    ∧ decodeSlot .v 0x4006080A0E34#64 = some (.vvote 5 4 0 3 always)
    ∧ decodeSlot .v 0x4050141A0E32#64 = some (.vmatch 13 10 (some (8, 1)) always) := by decide +kernel

/-- Function and memory words: the tables of chapters 7 and 9. -/
theorem test_words_function_memory :
    decodeSlot .f 0x22A283E2#64 = some (.fevE2 20 21 1 ⟨false, 3, 7⟩)
    ∧ decodeSlot .f 0x40C080E8#64 = some (.fdom 4 6 2 always)
    ∧ decodeSlot .m 0x0000638787D0#64 = some (.atomsAdd ⟨15, 7, 12, 0, ⟨false, 1, 7⟩⟩)
    ∧ decodeSlot .m 0x00006C8503BC#64 = some (.sts32 ⟨10, 9, 13, true, 0, 0, always⟩)
    ∧ decodeSlot .m 0x0000590503C8#64 = some (.atomExch ⟨10, 2, 11, 0, always⟩) := by decide +kernel

/-- Engine words: the tables of chapters 10, 11 and 16. -/
theorem test_words_engines :
    decodeSlot .x 0x1823EA8000008001#64 = some (.mma ⟨⟨0, 2, 0, 0⟩, 0, 4, 5, 31, 8, 0, true, true, false⟩)
    ∧ decodeSlot .x 0x088C730400000001#64 = some (.mma ⟨⟨0, 0, 0, 0⟩, 1, 8, 9, 3, 3, 1, true, false, false⟩)
    ∧ decodeSlot .x 0x0000000C00000002#64 = some (.accz ⟨0, 0, 0, 0⟩ 3)
    ∧ decodeSlot .x 0x0000378440400003#64 = some (.mst ⟨0, 0, 1, 1⟩ 1 12 11 1)
    ∧ decodeSlot .x 0x00000A8400000004#64 = some (.mld ⟨0, 0, 0, 0⟩ 1 4 5)
    ∧ decodeSlot .x 0x0000000040C00005#64 = some (.msync ⟨0, 0, 3, 1⟩)
    ∧ decodeSlot .x 0x000001A400000006#64 = some (.mstat ⟨0, 0, 0, 0⟩ 1 13)
    ∧ decodeSlot .k 0xC1#64 = some (.scla false 12) ∧ decodeSlot .k 0x342#64 = some (.sclb true 4)
    ∧ decodeSlot .k 0x103#64 = some (.sclz true false)
    ∧ decodeSlot .c 0x0020084040000001#64 = some (.copy ⟨⟨⟨0, 0, 0, 1⟩, 0, 0, 2, 4⟩, 0, 1, 0, false⟩)
    ∧ decodeSlot .c 0x0828268440404001#64 = some (.copy ⟨⟨⟨0, 1, 1, 1⟩, 1, 1, 4, 3⟩, 1, 1, 2, false⟩)
    ∧ decodeSlot .c 0x00002A8040800006#64 = some (.intake ⟨⟨0, 0, 2, 1⟩, 1, 0, 4, 5⟩) := by decide +kernel

/-- The worked bundle of chapter 2, its first four parcels changed, as its table of variants has them. -/
def variant (pres e : Nat) (slots : List (Nat × BitVec 64)) : Option Nat :=
  match decodeBundle (packBundle ⟨0, false, 0, e == 1, false, 1, BitVec.ofNat 13 pres⟩ slots) with
  | .ok _ => none
  | .error n => some n

/-- The verdicts of chapter 2's table of variants: the identifier of R67, or none where the bundle stays legal. -/
theorem test_bundle_variants :
    variant 0x8B 0 [(0, 0x2890), (1, 0x02A18B81), (3, 0x001816140A01), (7, 0x00104B0A038C)] = some 3
    ∧ variant 0x8F 0 [(0, 0x2890), (1, 0x02A18B81), (2, 0x03B18382), (3, 0x001816140801), (7, 0x00104B0A038C)] = some 2
    ∧ variant 0x8F 0 [(0, 0x2890), (1, 0x02A00B81), (2, 0x03B00382), (3, 0x001816140801), (7, 0x00104B0A038C)] = none
    ∧ variant 0x8B 0 [(0, 0x2890), (1, 0x02A18B81), (3, 0x001816140801), (7, 0x00104B05838D)] = some 7
    ∧ variant 0x8B 1 [(0, 0x2890), (1, 0x02A18B81), (3, 0x001816140801), (7, 0x00104B0A038C)] = none
    ∧ variant 0x8B 1 [(0, 0x0091), (1, 0x02A18B81), (3, 0x001816140E01), (7, 0x00104B0A038C)] = some 13 := by
  decide +kernel

/-- Reserved words and code items that no instruction has (R51, R54, R59, R61, R64). -/
theorem test_reserved_words :
    decodeSlot .br 13#64 = none ∧ decodeSlot .s 0x380#64 = none ∧ decodeSlot .f 0xE0#64 = none
    ∧ decodeSlot .f 0x40C000E8#64 = none ∧ decodeSlot .f 0x40CA00E8#64 = none
    ∧ decodeSlot .x 0x0000678440400003#64 = none ∧ decodeSlot .x 0x0000000400000005#64 = none
    ∧ decodeSlot .k 0x4C1#64 = none := by decide +kernel

/-! ### Ill-formed terms -/

/-- One ill-formed instruction for each check of `Instr.wf`; each is refused. -/
def illFormed : List Instr :=
  [.add 1 2 3 ⟨false, 0, 5⟩, .add 1 2 3 ⟨false, 0, 6⟩, .loop 1 2 5, .cmpeq 0 1 2 always,
   .br [⟨1, false, 1⟩, ⟨1, false, 1⟩, ⟨1, false, 1⟩, ⟨1, false, 1⟩, ⟨1, false, 1⟩] false, .getsr 1 0x00B always,
   .setsr 0x023 1 always]

def illFormedVector : List Instr :=
  [.vadd ⟨1, 2, .reg 3, 6, false, always⟩, .vmulh ⟨1, 2, .reg 3, 0, true, always⟩, .vdot4 ⟨1, 2, .reg 3, 0, false, always⟩,
   .vabs ⟨1, 2, .reg 3, 0, false, always⟩, .vmov ⟨1, 2, .imm 3, 0, false, always⟩, .vshl ⟨1, 2, .imm 8, 4, false, always⟩,
   .vcmpeq ⟨0, 2, .reg 3, 0, always⟩, .vcmplt ⟨1, 2, .imm 3, 6, always⟩, .vcvtf ⟨1, 2, 0, 0, false, false, always⟩ 0,
   .vcvtf ⟨1, 2, 3, 4, false, false, always⟩ 0, .vnps 1 249 0 always, .vnpm 249 1 0 always, .vshfl 1 2 (.reg 3) 6 always,
   .vmatch 1 2 (some (29, 0)) always, .vvote 1 2 3 0 always, .vvote 1 2 0 33 always, .vvote 1 2 2 1 always,
   .vscan 1 2 3 false 0 always, .vred 1 2 0 7 always, .fdom 0 1 2 always]

def illFormedMemory : List Instr :=
  [.ld32 ⟨1, 2, 0, false, 0, 4, always⟩, .ld32 ⟨1, 2, 3, false, 0, 0, always⟩, .ld64 ⟨1, 2, 0, false, 0, 0, always⟩,
   .ld128 ⟨2, 2, 0, false, 0, 0, always⟩, .lds32 ⟨1, 2, 0, false, 0, 1, always⟩, .atomCas ⟨1, 2, 3, 0, always⟩,
   .pref 1 0 4 always, .fst ⟨2, 2, 3, 0, always⟩, .txst ⟨2, 2, 3, 0, always⟩, .fsig 1 0 always, .fsig 1 512 always,
   .launch 1 2 always, .mst ⟨0, 0, 0, 0⟩ 0 1 2 3, .shset 0 18 1, .shseti 0 31 1,
   .mma ⟨⟨0, 0, 0, 0⟩, 0, 4, 5, 0, 8, 0, false, false, false⟩, .mma ⟨⟨0, 0, 0, 0⟩, 0, 4, 5, 1, 11, 0, false, false, false⟩,
   .mma ⟨⟨0, 0, 0, 0⟩, 0, 4, 5, 11, 1, 0, false, false, false⟩, .mma ⟨⟨0, 0, 0, 0⟩, 0, 4, 5, 1, 1, 0, false, true, false⟩,
   .copy ⟨⟨⟨0, 0, 0, 0⟩, 0, 0, 1, 2⟩, 0, 0, 0, false⟩, .copyx ⟨⟨⟨0, 0, 0, 0⟩, 0, 0, 1, 2⟩, 0, 1, 4, false⟩]

theorem test_ill_formed_refused :
    (illFormed ++ illFormedVector ++ illFormedMemory).all (fun i => !i.wf) = true := by decide +kernel

theorem test_well_formed_accepted :
    (Instr.add 1 2 3 always).wf = true ∧ (Instr.loop 1 2 4).wf = true ∧ (Instr.vnps 1 248 0 always).wf = true
    ∧ (Instr.fsig 1 511 always).wf = true ∧ (Instr.vmatch 1 2 (some (28, 0)) always).wf = true := by decide +kernel

/-! ### Single steps -/

/-- The number of the worked bundle. -/
def exampleBundle : Nat := 0x00104B0A038C00181614080102A18B8100000000000028900000208B

/-- Core 0 about to run the first slot of the worked bundle, in a group of 32 threads. -/
def work : State := State.reset.withFetchWord 384 exampleBundle

/-- The issue latch of `work`. -/
def workQ : Issue := work.issue.getD default

/-- The key of the group of `work` and of its thread in lane k. -/
def workG : Nat := groupKey 1 0
def lane (k : Nat) : Nat := threadKey workG k

/-- A state with the thread of a lane changed. -/
def withLane (s : State) (k : Nat) (f : Thread → Thread) : State := s.modThread (lane k) f

/-- An instruction's next state, or the state unchanged where it stops. -/
def after (i : Instr) (s : State) : State :=
  match exec i s with
  | .next t => t
  | _ => s

/-- The thread of lane 0 after an instruction and the landing of its results. -/
def landed (i : Instr) (s : State) : Thread :=
  let t := after i s
  match t.findRun workQ.run with
  | some r => (t.landDue r 100).thread (lane 0)
  | none => t.thread (lane 0)

def setX (vs : List (Nat × DWord)) (t : Thread) : Thread := { t with x := vs }
def setV (vs : List (Nat × Word)) (t : Thread) : Thread := { t with frames := [⟨16, vs, false⟩] }

/-- MULH of -1 and 2 gives the upper half of -2; x0 takes nothing (R142, R134). -/
theorem test_mulh :
    (landed (.mulh 3 1 2 always) (withLane work 0 (setX [(1, 0xFFFFFFFFFFFFFFFF), (2, 2)]))).readX 3 = 0xFFFFFFFFFFFFFFFF
    ∧ (landed (.mulhu 3 1 2 always) (withLane work 0 (setX [(1, 0xFFFFFFFFFFFFFFFF), (2, 2)]))).readX 3 = 1
    ∧ (landed (.add 0 1 2 always) (withLane work 0 (setX [(1, 1), (2, 2)]))).readX 0 = 0 := by decide +kernel

/-- A shift takes xb[5:0]; SRA keeps the sign; BEXT of a field at the top is sign-extended (R142, R143). -/
theorem test_shift_and_field :
    (landed (.sra 3 1 2 always) (withLane work 0 (setX [(1, 0x8000000000000000), (2, 0x7F)]))).readX 3 = 0xFFFFFFFFFFFFFFFF
    ∧ (landed (.bext 3 1 2 always) (withLane work 0 (setX [(1, 0xF000000000000000), (2, 0x083C)]))).readX 3 = 0xFFFFFFFFFFFFFFFF
    ∧ (landed (.bextu 3 1 2 always) (withLane work 0 (setX [(1, 0xF000000000000000), (2, 0x083C)]))).readX 3 = 0xF := by
  decide +kernel

/-- The plane words of R171 and R172. -/
theorem test_planes :
    (landed (.vnps 40 20 0 always) (withLane work 0 (setV [(20, 0xFF004DD3), (21, 0xFA05807F)]))).readV 40 = 0xA9
    ∧ (landed (.vnps 40 20 1 always) (withLane work 0 (setV [(20, 0xFF004DD3), (21, 0xFA05807F)]))).readV 40 = 0x9B
    ∧ (landed (.vnpm 20 40 1 always) (withLane work 0 (setV [(20, 0x80000080), (21, 0x80008000), (40, 0x9B)]))).readV 20
        = 0xC00040C0
    ∧ (landed (.vnpm 20 40 1 always) (withLane work 0 (setV [(20, 0x80000080), (21, 0x80008000), (40, 0x9B)]))).readV 21
        = 0xC0008040 := by decide +kernel

/-- The conversions of R98's table: E4M3 with .sat.amx of 2.0, a NaN and -500.0. -/
theorem test_amx_conversions :
    let i := Instr.vcvtf ⟨7, 20, 3, 0, true, true, always⟩ 0
    let t1 := landed i (withLane work 0 (setV [(20, 0x40000000)]))
    let t2 := landed i (withLane work 0 (fun t => { setV [(20, 0x7FC00000)] t with amax := 0x40000000 }))
    let t3 := landed i (withLane work 0 (fun t => { setV [(20, 0xC3FA0000)] t with amax := 0x140000000 }))
    t1.readV 7 = 0x40 ∧ t1.amax = 0x40000000 ∧ t1.satcnt = 0
    ∧ t2.readV 7 = 0x7F ∧ t2.amax = 0x140000000 ∧ t2.satcnt = 0
    ∧ t3.readV 7 = 0xFE ∧ t3.amax = 0x143FA0000 ∧ t3.satcnt = 1 := by decide +kernel

/-- The image of the GELU table of chapter 7: its header, segment 37 and segment 63. -/
def gelu (policy : Byte) : List Byte :=
  leBytes 4 (0x00010040 + policy.toNat * 2 ^ 24) ++ leBytes 4 0xC1000000 ++ leBytes 4 0x41000000 ++ leBytes 4 0
    ++ leBytes 4 0x40800000 ++ leBytes 4 0x42000000 ++ leBytes 4 0x6E1A0001 ++ leBytes 4 0
    ++ List.replicate (0x4C0 - 0x20) (0 : Byte)
    ++ leBytes 4 0x3FA00000 ++ leBytes 4 0x3F8F1800 ++ leBytes 4 0x3F8FB000 ++ leBytes 4 0x3D238000 ++ leBytes 4 0xBDBE0000
    ++ List.replicate (0x800 - 0x4D4) (0 : Byte)
    ++ leBytes 4 0x40F80000 ++ leBytes 4 0x40F80000 ++ leBytes 4 0x3F800000 ++ leBytes 4 0 ++ leBytes 4 0
    ++ List.replicate 12 (0 : Byte)

/-- The evaluation of x = 1.3 and the outcomes of chapter 7's table. -/
theorem test_gelu :
    evPlain (gelu 0) 0x3FA66666 = (0x3F964A17, flagNX)
    ∧ (evPlain (gelu 0) 0x42C80000).1 = 0x42C80000
    ∧ (evPlain (gelu 0) 0xC2C80000).1 = 0
    ∧ evPlain (gelu 0) 0xFF800000 = (0x7FC00000, flagNV)
    ∧ evPlain (gelu 1) 0x42C80000 = (0, flagDOM)
    ∧ tblSegment (gelu 0) 0x42C80000 = 63 := by decide +kernel

/-- The first step runs the branch slot: p5 is 0, so each lane takes leaf 4, and three slots are left (R115). -/
theorem test_step_branch_slot :
    (match step work with
      | .next t => t.issue.map (fun q => (q.slots.length, q.leafOf 31))
      | _ => none) = some (3, 4) := by decide +kernel

/-- SEMADD of 0x7FFF in 32 lanes saturates at 0xFFFF (R146, R147). -/
theorem test_semadd_saturates :
    let s := (List.range 32).foldl (fun s k => withLane s k (setX [(1, 0x7FFF)])) work
    ((after (.semadd 3 1 always) s).group workG).sem 3 = 0xFFFF
      ∧ ((after (.semadd 3 1 always) s).group workG).semSat = true := by decide +kernel

/-- A scan of ones over 32 lanes gives lane 31 its number, or 32 when inclusive (R178). -/
theorem test_scan :
    let s := (List.range 32).foldl (fun s k => withLane s k (setV [(2, 1)])) work
    let of := fun (i : Instr) => let t := after i s
      match t.findRun workQ.run with
      | some r => ((t.landDue r 100).thread (lane 31)).readV 5
      | none => 0
    of (.vscan 5 2 0 true 0 always) = 31 ∧ of (.vscan 5 2 0 false 0 always) = 32 := by decide +kernel

/-! ### Each statement with hypotheses has a state that meets them

Where a statement asks only that a bundle is being issued, or also that no condition bars the slot, its witness names the
latch of `work`, or a latch of a state made from it, that BUNDLE_ISSUE has not cleared. -/

theorem witness_issue : work.issue = some workQ ∧ workQ.cleared = false ∧ participants work workQ always ≠ [] := by
  decide +kernel

/-- The guard (!p0): no lane passes. -/
def never : Guard := ⟨true, 0, 7⟩

theorem witness_EncodedInstructionDecodes :
    (Instr.add 3 4 5 ⟨false, 2, 7⟩).wf = true ∧ encode (.add 3 4 5 ⟨false, 2, 7⟩) = some (.s, 0x02A18B81) := by
  decide +kernel

theorem witness_BundleBytesPackAndUnpack :
    (List.replicate 48 (0xA5 : Byte)).length = 48 ∧ 383 < 384
    ∧ (let slots : List (Nat × BitVec 64) := [(0, 0x2890), (1, 0x02A18B81), (3, 0x001816140801), (7, 0x00104B0A038C)]
       let h : Header := ⟨0, false, 0, false, false, 1, 0x8B⟩
       slots.map (fun q => q.1) = presentSlots h.pres ∧ parcelsOf (presentSlots h.pres) ≤ 22
        ∧ (∀ q ∈ slots, q.2.toNat < 2 ^ (16 * (kindOf q.1).parcels)) ∧ h.reserved = 0) := by decide +kernel

theorem witness_LegalBundleNamesItsSlots :
    (legalBundle (fun _ => true) 0 (BitVec.ofNat 384 exampleBundle)).toOption.isSome = true := by decide +kernel

theorem witness_StepRunsLatchedSlot :
    workQ.slots = ⟨0, 0x2890⟩ :: workQ.slots.tail ∧ decodeAt 0 0x2890 = some (.br [⟨5, false, 1⟩] false) := by decide +kernel

theorem witness_StepRunsEvent : State.reset.issue = none := by decide +kernel

theorem witness_GuardedSlotParticipants :
    (∀ j ∈ [((1, .add 1 2 3 always) : Nat × Instr)], isTree j.2 = false) ∧ (31, lane 31) ∈ workQ.lanes
    ∧ never.sense = true ∧ never.pred = 0 := by decide +kernel

theorem witness_LandedResultChangesItsRegister : 15 < 16 ∧ (work.thread (lane 0)).frames = ⟨16, [], false⟩ :: [] := by
  decide +kernel

/-- A run with one result for x3 of lane 0, due at count 1, and one for x4, due at count 5. -/
def flyingRun : Run :=
  ⟨9, 0, workG, [(0, lane 0)], 0, 0, [⟨.x 3, 1, [(lane 0, 7)], none, 0⟩, ⟨.x 4, 5, [(lane 0, 8)], none, 0⟩], 0, none, none, none,
   none⟩

/-- One witness for each clause: no result for x5 is due, the one for x3 is the last due by count 1, and the one for
x4 stays in flight. -/
theorem witness_ResultReadOnlyFromItsCount :
    (∀ f ∈ flyingRun.flights, f.land ≤ 1 → f.dest = .x 5 → lane 0 ∉ f.vals.map (fun v => v.1))
    ∧ (∃ f ∈ flyingRun.flights, f.land ≤ 1 ∧ f.dest = .x 3 ∧ f.vals.map (fun u => u.1) = [lane 0] ∧ (lane 0, 7) ∈ f.vals
        ∧ ∀ h ∈ flyingRun.flights.drop 1, h.land ≤ 1 → h.dest = .x 3 → lane 0 ∈ h.vals.map (fun u => u.1) → h.land < f.land)
    ∧ (∃ u ∈ (({ work with runs := [flyingRun] } : State).landDue flyingRun 1).runs, u.id = flyingRun.id
        ∧ ∃ f ∈ u.flights, f.dest = .x 4) := by decide +kernel

theorem witness_RegisterSlotsOnlyPutResultsInFlight :
    registerSlot (.vadd ⟨255, 0, .reg 1, 0, false, always⟩) = true
    ∧ frameCond work workQ (.vadd ⟨255, 0, .reg 1, 0, false, always⟩) = none := by decide +kernel

theorem witness_ScalarRegisterForms : work.issue = some workQ := witness_issue.1
theorem witness_ScalarImmediateForms : work.issue = some workQ := witness_issue.1
theorem witness_BitFieldSlots : work.issue = some workQ ∧ 63 < 64 := ⟨witness_issue.1, by decide⟩
theorem witness_CompareSlots : work.issue = some workQ := witness_issue.1
theorem witness_SelWritesTheChosenSource : work.issue = some workQ := witness_issue.1
theorem witness_SpecialRegisterSlots : work.issue = some workQ := witness_issue.1

/-- BitCountSlots: the clauses on the next bit are met where a 1 stands at the top, in the middle or nowhere. -/
theorem witness_BitCountSlots :
    work.issue = some workQ ∧ xOf (withLane work 0 (setX [(1, 0x8000000000000000)])) (0, lane 0) 1 = 0x8000000000000000
    ∧ 0 < 64 := by decide +kernel

/-- SemaphoreSlots: x1 = 0 is met by semaphore 255 = 0, x1 = 1 is not. -/
theorem witness_SemaphoreSlots :
    (∀ tk, leader work workQ always = some tk →
      (max 0 (min (((work.thread tk).readX 1).toInt) 65535)).toNat ≤ ((work.group workQ.group).sem 255).toNat)
    ∧ (let s := withLane work 0 (setX [(1, 1)])
       workQ.cleared = false ∧ leader s workQ always = some (lane 0)
        ∧ ((s.group workQ.group).sem 255).toNat < (max 0 (min ((s.thread (lane 0)).readX 1).toInt 65535)).toNat) := by
  refine ⟨fun tk h => ?_, by decide +kernel⟩
  have : tk = lane 0 := by
    have h0 : leader work workQ always = some (lane 0) := by decide +kernel
    exact Option.some.inj (h.symm.trans h0)
  subst this; decide +kernel

/-- CopyTagSlots: with every tag set both waits issue; with none set and bit 63 of x1 both hold. -/
theorem witness_CopyTagSlots :
    (let s := withLane work 0 (setX [(1, 0x8000000000000000)])
     leader s workQ always = some (lane 0) ∧ (s.group workQ.group).tags = 0xFFFFFFFFFFFFFFFF
      ∧ 63 < (s.group workQ.group).kernel.tagWindow ∧ ((s.thread (lane 0)).readX 1).getLsbD 63 = true
      ∧ (let t := s.modGroup workG (fun g => { g with tags := 0 })
         workQ.cleared = false ∧ leader t workQ always = some (lane 0) ∧ (t.group workQ.group).tags = 0
          ∧ 63 < (t.group workQ.group).kernel.tagWindow ∧ ((t.thread (lane 0)).readX 1).getLsbD 63 = true)) := by
  decide +kernel

theorem witness_GroupSettingSlots : leader work workQ never = none ∧ leader work workQ always = some (lane 0) := by
  decide +kernel

/-- No condition bars the slot in `work`. -/
def free (i : Instr) : Prop := workQ.cleared = false ∧ frameCond work workQ i = none

theorem witness_VectorElementArithmetic :
    free (.vadd ⟨255, 0, .reg 1, 0, false, always⟩) ∧ free (.vmad ⟨0, 255, .reg 1, 4, true, always⟩)
    ∧ free (.vdot4 ⟨1, 2, .imm 0x80, 4, true, always⟩) := by unfold free; decide +kernel
theorem witness_PackedElementsAreSeparate : 1 ∈ [1, 8, 16, 32] ∧ 31 < 32 / 1 ∧ 32 ∈ [8, 16, 32] := by decide
theorem witness_VectorBitSlots :
    free (.vand ⟨255, 0, .reg 1, 0, false, always⟩) ∧ free (.vmov ⟨255, 0, .imm 0xFF, 4, false, always⟩) := by
  unfold free; decide +kernel
theorem witness_VectorCompareSlots :
    free (.vcmpeq ⟨15, 255, .reg 1, 6, always⟩) ∧ free (.vcmple ⟨1, 2, .imm 1, 4, always⟩)
    ∧ (dec fmtFp32 0x7FC00000).isNan = true := by unfold free; decide +kernel
theorem witness_VselWritesTheChosenSource : free (.vsel 255 15 true 1 2 always) := by unfold free; decide +kernel
theorem witness_FloatSlots :
    free (.vfma ⟨255, 0, 1, 3, always⟩) ∧ free (.vfabs 255 0 always) ∧ free (.vfneg 255 0 always) := by
  unfold free; decide +kernel
theorem witness_HalfSlots : free (.vhfma ⟨255, 0, 1, 3, always⟩) ∧ free (.vbfma ⟨255, 0, 1, 3, always⟩) := by
  unfold free; decide +kernel

/-- RoundingPicksTheNeighbourOfItsMode: a significand that is cut (with a tie, above and below it) and one that is not. -/
theorem witness_RoundingPicksTheNeighbourOfItsMode :
    fmtFp32.isE8m0 = false ∧ (0x3000001 : Nat) ≠ 0
    ∧ (let r := fun m => rndMag fmtFp32 .rne false m 0
       0 < (r 0x3000001).2.1 ∧ (r 3).2.1 ≤ 0
       ∧ 2 * (0x1000001 % 2 ^ ((r 0x1000001).2.1).toNat) = 2 ^ ((r 0x1000001).2.1).toNat
       ∧ 2 * (0x2000001 % 2 ^ ((r 0x2000001).2.1).toNat) < 2 ^ ((r 0x2000001).2.1).toNat
       ∧ 2 ^ ((r 0x2000003).2.1).toNat < 2 * (0x2000003 % 2 ^ ((r 0x2000003).2.1).toNat)) := by decide +kernel

theorem witness_ConversionSlots :
    free (.vcvtf ⟨7, 20, 3, 3, true, true, always⟩ 3) ∧ free (.vcvts ⟨7, 20, 7, 7, false, true, always⟩)
    ∧ free (.vcvtx 1 2 18 3 always) ∧ free (.vftoi 1 2 true 0 true always) ∧ free (.vitof 1 2 true 0 always)
    ∧ free (.vcvth 1 2 3 true 0 true always) := by unfold free; decide +kernel
theorem witness_PlaneSlots : free (.vnps 1 248 7 always) ∧ free (.vnpm 248 1 7 always) := by unfold free; decide +kernel
theorem witness_LaneExchangeSlots :
    free (.vshfl 1 2 (.imm 255) 5 always) ∧ free (.vperm 1 2 63 always) ∧ free (.vmatch 1 2 (some (28, 0)) always)
    ∧ free (.vballot 1 15 true always) ∧ free (.vvote 1 15 2 0 always) := by unfold free; decide +kernel
theorem witness_ScanAndReduceSlots :
    free (.vscan 1 2 2 true 6 always) ∧ free (.vred 1 2 0 5 always) ∧ (2 : BitVec 2) ≠ 3 ∧ (5 : BitVec 3).toNat ≤ 5 := by
  unfold free; decide +kernel
theorem witness_VbcastSendsOneLane : free (.vbcast 255 0 31 always) := by unfold free; decide +kernel
theorem witness_MoveSlots : free (.vxtov 255 15 true always) ∧ free (.vvtox 15 255 true always) := by unfold free; decide +kernel

/-- `work` with a tile's token. -/
def tiled (t : Token) : State := work.modGroup workG (fun g => g.setTile 7 ⟨[], t⟩)

/-- TileSlots: the three tokens of tile 7, with a participant, and a guard that no lane passes. -/
theorem witness_TileSlots :
    frameCond (tiled .v) workQ (.vaccrd 1 7 true 2 always) = none ∧ (((tiled .v).group workG).tile 7).token = .v
    ∧ frameCond (tiled .v) workQ (.vaccwr 7 true 2 3 always) = none
    ∧ workQ.cleared = false ∧ participants (tiled .m) workQ always ≠ [] ∧ participants (tiled .mv) workQ always ≠ []
    ∧ frameCond (tiled .m) workQ (.vaccrd 1 7 true 2 always) = none ∧ (((tiled .m).group workG).tile 7).token = .m
    ∧ frameCond (tiled .mv) workQ (.vaccwr 7 true 2 3 always) = none ∧ (((tiled .mv).group workG).tile 7).token = .mv := by
  decide +kernel

/-- `work` with logical table 7 mapped to slot 15, in a state. -/
def tabled (st : SlotState) : State :=
  (work.modGroup workG (fun g => g.setTable 7 ⟨15, false, none⟩)).modCore 0 (fun c =>
    { c with slots := spSet (fun _ => TableSlot.reset) c.slots 15 ⟨st, some 0, gelu 0⟩ })

/-- FunctionSlots: a Ready, a Loading and an Empty slot. -/
theorem witness_FunctionSlots :
    workQ.cleared = false ∧ frameCond (tabled .ready) workQ (.fev 1 2 7 always) = none
    ∧ (tabled .ready).resolve workG 0 7 = .ready (gelu 0) ∧ participants (tabled .ready) workQ always ≠ []
    ∧ frameCond (tabled .loading) workQ (.fdom 1 2 7 always) = none ∧ (tabled .loading).resolve workG 0 7 = .loading 15
    ∧ frameCond (tabled .empty) workQ (.fseg 1 2 7 always) = none ∧ (tabled .empty).resolve workG 0 7 = .fault 2 := by
  decide +kernel

/-! ### Memory, order, fabric and transactions -/

/-- A state in which tenant 0's pages of the first 512 GiB are mapped to themselves, for every access. -/
def mapOver (s : State) : State :=
  { s with hub := [(regTctx 0, 0xA000000000000001)], mem := [(0x1000, 0x01), (0x1001, 0x08), (0x2000, 0xDF)] }

def mapped : State := mapOver (work.modGroup workG (fun g => { g with scrHalf := 0x10000, kernel := { g.kernel with scratch := 0x20000 } }))

/-- `mapped` with x1 and x2 of lane 0. -/
def mappedX (a b : DWord) : State := withLane mapped 0 (setX [(1, a), (2, b)])

/-- The guard (p1), which no lane of `work` passes, and one that lane 0 alone passes. -/
def onlyLane0 : Guard := ⟨false, 1, 7⟩
def oneLane (s : State) : State := withLane s 0 (fun t => { t with p := 2 })

/-- The conditions of a memory slot's statement. -/
def bars (s : State) (i : Instr) : Option Cond := (frameCond s workQ i).orElse (fun _ => memSlotCond s workQ i)

def codeLocsAre (s : State) (pc : DWord) (n : Nat) (ls : List Nat) : Prop := s.codeLocs workG pc n = .ok ls

/-- FetchReadsItemAndLiteral: an item in device memory, and one whose literal's 48 bytes are there too. -/
theorem witness_FetchReadsItemAndLiteral :
    isService workG = false ∧ isService (serviceKey 767) = true ∧ (∀ i < 512, (1 : DWord) ≠ BitVec.ofNat 64 (48 * i))
    ∧ codeLocsAre mapped 0x3000 2 [0x3000, 0x3001]
    ∧ codeLocsAre mapped 0x3002 48 ((List.range 48).map (fun k => 0x3002 + k)) := by
  refine ⟨by decide +kernel, by decide +kernel, by decide +kernel, ?_, ?_⟩ <;> (unfold codeLocsAre; rfl)

/-- FetchFaultsAtItsBytes: without a translation the item faults with reason 2; a literal whose bytes run beyond the
mapped pages faults at the first of them. -/
theorem witness_FetchFaultsAtItsBytes :
    isService workG = false ∧ work.codeLocs workG 0x3000 2 = .error (2, 0x3000)
    ∧ (let s := mapped.setBytes 0x7FFFFFFFFE [0xFF, 0xFF]
       s.codeLocs workG 0x7FFFFFFFFE 2 = .ok [0x7FFFFFFFFE, 0x7FFFFFFFFF]
        ∧ leNat ([0x7FFFFFFFFE, 0x7FFFFFFFFF].map (s.codeByte 0)) = 0xFFFF
        ∧ ((s.core 0).bank (s.group workG).dbank).len ≤ 2048
        ∧ s.codeLocs workG 0x8000000000 48 = .error (0, 0x8000000000)
        ∧ s.codeSite workG 0x8000000000 = .error 0) := by
  refine ⟨by decide +kernel, rfl, rfl, by decide +kernel, by decide +kernel, rfl, rfl⟩

def noBar (s : State) (i : Instr) : Bool := !workQ.cleared && bars s i == none

/-- LoadStoreSlots: in `mapped` no condition bars any width, in either space; no lane passes `never`. -/
theorem witness_LoadStoreSlots :
    ([.ldZ8 ⟨255, 1, 2, true, 0x1FF, 3, always⟩, .ld64 ⟨254, 1, 2, true, 0, 0, always⟩, .ldA16 ⟨252, 1, 0, false, 0, 0, always⟩,
      .lds128 ⟨252, 1, 0, false, 0x0FF, 0, always⟩, .stA16 ⟨252, 1, 0, false, 0, 0, always⟩, .st8 ⟨255, 1, 0, false, 0, 0, always⟩,
      .stsA16 ⟨252, 1, 0, false, 0x0FF, 0, always⟩] : List Instr).all (noBar mapped) = true
    ∧ participants mapped workQ never = [] := by decide +kernel

theorem witness_AccessPieces :
    ((0, 2) : Nat × Nat) ∈ piecesOf 0 3 false ∧ (4 : Nat) ∈ [2, 4, 8] ∧ 2 < 4 ∧ (0 + 0) % 4 = 0 := by decide +kernel

/-- MemorySlotFrame: the first has a condition (no translation), the others none. -/
theorem witness_MemorySlotFrame :
    let o : MOp := ⟨252, 1, 0, false, 0, 0, always⟩
    (memAcc (.ld32 o)).isSome = true ∧ workQ.cleared = false ∧ (bars work (.ld32 o)).isSome = true
    ∧ noBar mapped (.ld32 o) = true ∧ (memAcc (.lds32 o)).isSome = true ∧ noBar mapped (.lds32 o) = true
    ∧ (memAcc (.sts32 o)).isSome = true ∧ noBar mapped (.sts32 o) = true ∧ memSlotCond mapped workQ (.sts32 o) = none
    ∧ (mapped.group workG).scrHalf % 16 = 0 ∧ mapped.byte 0x8000 = 0
    ∧ ((List.range 4).all (fun k => (mapped.group workG).scrAt (clusterOf 0) k != some 0x8000)) = true := by decide +kernel

/-- Every L1 of `mapped` and of `work` has room for the lines of 32 lanes and more. -/
theorem witness_room (m : Nat) : mapped.hasRoom m 128 ∧ work.hasRoom m 128 := by
  cases m with
  | zero => decide +kernel
  | succ n =>
    have h1 : (mapped.core (n + 1)).lines = [] := rfl
    have h2 : (work.core (n + 1)).lines = [] := rfl
    have d1 : mapped.dir = [] := rfl
    have d2 : work.dir = [] := rfl
    simp [State.hasRoom, State.l1Locals, State.l1Copies, h1, h2, d1, d2, l1Lines]

/-- PendingWrites: a byte stored to location 0x40; a pending write that nothing holds back; a load that has all it
needs. -/
def pendingW : PendWrite := ⟨1, 1, lane 0, 0x40, .bytes [7], Rels.zero, .wb, 0⟩
/-- Two more: to a line that is held locally, and an ICINV in its place. -/
def pendingL : PendWrite := { pendingW with attr := .lcl }
def pendingC : PendWrite := { pendingW with act := .code 3 }
def pendingS : State := work.modCore 0 (fun c => { c with writes := [pendingW] })
def loadA : Access := ⟨5, 0, 1, workG, 1, .words, [(lane 0, [⟨0, 0x40, 4, .wb, none, none⟩])], none, false⟩
def loadS : State := { work with accesses := [loadA] }

theorem witness_PendingWrites :
    ([7] : List Byte) ≠ [] ∧ ownScr 0 0x40 = false ∧ isScr 0x40 = false ∧ isScr (0x40 + 1) = false ∧ (Attr.wb = .lcl → isScr 0x40 = true)
    ∧ pendingW.act = .bytes [7] ∧ pendingW.attr ≠ .lcl ∧ work.hasRoom (work.l1Owner 0 0x40) 1
    ∧ pendingL.act = .bytes [7] ∧ pendingL.attr = .lcl ∧ pendingL.bytes.length ≤ 16 ∧ pendingC.act = .code 3
    ∧ ¬(pendingL.addr ≤ 0x41 ∧ 0x41 < pendingL.addr + pendingL.bytes.length) ∧ lineOf 0x80 ∉ linesOf pendingL.addr 1
    ∧ ((work.settleCore 0).core 0).writes.find? (fun v => v.id == 1) = none
    ∧ ((pendingS.settleCore 0).core 0).writes.find? (fun v => v.id == 1) = some pendingW
    ∧ (pendingS.settleCore 0).writeReady 0 pendingW = true
    ∧ (pendingS.settleCore 0).pendWaits 0 pendingW = none ∧ (∀ n ∈ [1, 2], (pendingS.settleCore 0).levelReady 0 n pendingW = true)
    ∧ (pendingS.settleCore 0).toTell pendingW = false
    ∧ (let s := (pendingS.setReg (regHsbase 0) 0).setReg (regHscfg 0) 1
       s.toTell pendingW = true ∧ (s.pendWaits 0 pendingW).isSome = true)
    ∧ (let s := work.modCore 1 (fun c => { c with writes := [{ pendingW with level := 1 }] })
       (s.core 1).writes.any (fun v => decide (v.level ≠ 0) && inScope v.level 1 0 && v.byteAt 0x40 == some 7) = true)
    ∧ work.viewByte 0 0x40 = work.byte 0x40
    ∧ loadS.accesses.find? (fun b => b.id == 5) = some loadA ∧ loadS.accessReady loadA = true
    ∧ (let a : Access := { loadA with hub := true }
       ({ work with accesses := [a] } : State).accessReady a = false) := by decide +kernel

/-- AtomicSlots: both spaces, and a swap that does and one that does not write. -/
theorem witness_AtomicSlots :
    noBar mapped (.atomAdd ⟨255, 1, 2, 0, always⟩) = true ∧ noBar mapped (.atomsCas ⟨254, 1, 2, 0x0FF, always⟩) = true
    ∧ (fun (a : Word) => if a = 0 then some (5 : Word) else none) 0 = some 5
    ∧ Attr.nc ≠ .lcl ∧ Attr.wb ≠ .lcl ∧ work.hasRoom (work.l1Owner 0 0x40) 1
    ∧ (fun (a : Word) => if a = 1 then some (5 : Word) else none) 0 = none := by decide +kernel

/-- CacheOrderSlots. -/
def promised (reached : Bool) : State :=
  { work with fab := { work.fab with proms := [⟨8, 0, 767, 1, [lane 0], reached, 0⟩] } }

theorem witness_CacheOrderSlots :
    noBar mapped (.clean 1 0 always) = true ∧ noBar mapped (.inval 1 0x1FF always) = true ∧ noBar mapped (.icinv 1 always) = true
    ∧ participants work workQ never = [] ∧ participants work workQ always ≠ []
    ∧ ((participants work workQ always).map (fun l => l.2)).Nodup
    ∧ lane 31 ∈ (participants work workQ always).map (fun l => l.2) ∧ lane 32 ∉ (participants work workQ always).map (fun l => l.2)
    ∧ leader work workQ never = none ∧ leader work workQ always = some (lane 0)
    ∧ ((promised false).fab.proms.find? (fun r => r.id == 8 && !r.reached)).isSome = true
    ∧ (promised true).l1Waits 767 (fun _ => true) = none ∧ (promised true).victimDone ⟨8, 0, 767, 1, [lane 0], true, 0⟩ = true
    ∧ (promised true).ownedDirty 767 (fun _ => true) = false
    ∧ ((promised true).fab.proms.find? (fun r => r.id == 8 && r.reached)).isSome = true
    ∧ (767 : Nat) < 768 ∧ work.writebackWaits (work.l1Owner 767 0) (inLine 0) = none
    ∧ work.ownedDirty (work.l1Owner 767 0) (inLine 0) = false := by decide +kernel

/-! ### Fabric, transactions and engines -/

def op (k : OutKind) (target : Nat) (sent : Option Nat) : OutOp := ⟨3, 1, workG, lane 0, 0, target, k, sent, 0, 0⟩
def withOps (ops : List OutOp) : State := { work with fab := { work.fab with ops := ops } }

/-- A fabric die is up, and message (7, 3) has been taken. -/
def linked : State :=
  { work.setReg (regDiest 9) 2 with fab := { work.fab with seen := [(7, 3, 0), (7, 4, 9)] } }

/-- A signal's handle: package, launch tag, group and semaphore. -/
def handle (pkg : Nat) : DWord := BitVec.ofNat 64 (pkg * 2 ^ 46 + 2 ^ 30 + 5)

/-- FabricSlotsAndMessages: each slot unbarred; messages from another package (number 7) and of this one (0); a forward
with 8 hops and one that port 0 of pod 1's route carries. -/
theorem witness_FabricSlotsAndMessages :
    noBar mapped (.fst ⟨252, 1, 2, 0, always⟩) = true ∧ noBar mapped (.launch 254 1 always) = true
    ∧ devSize - 16 + 16 ≤ devSize ∧ (devSize - 16) % 16 = 0 ∧ work.writeWaits (devSize - 16) 16 = none
    ∧ work.readWaits (devSize - 16) 16 = none ∧ work.owned (devSize - 16) 16 = false
    ∧ linked.fabricOn = true ∧ linked.dup 7 5 = false ∧ linked.dup 7 3 = true
    ∧ linked.fab.seen.contains (7, 5, 1) = false ∧ linked.fab.seen.contains (7, 4, 8 + 1) = true
    ∧ (7 : Nat) ≠ work.globalNumber ∧ work.globalNumber = 0
    ∧ ((withOps [op (.fst 64 1) 0 none]).fab.ops.find? (fun p => p.id == 3 && p.target == 0 && p.kind == .fst 64 1)).any (fun p =>
        (withOps [op (.fst 64 1) 0 none]).canFix p.core (fun k => k == p.thread) p.place 64 16) = true ∧ work.fabricOn = false
    ∧ ((withOps [op (.fst 64 1) 7 none]).fab.ops.find? (fun p => p.id == 3 && p.target != 0)).isSome = true
    ∧ sigPkg (handle 0) = work.globalNumber
    ∧ ((withOps [op (.fsig (handle 0) 1) 0 (some 0)]).fab.ops.find? (fun p =>
        p.id == 3 && p.kind == .fsig (handle 0) 1 && p.sent.isSome)).isSome = true
    ∧ ((withOps [op (.fsig (handle 7) 1) 7 (some 0)]).fab.ops.find? (fun p =>
        p.id == 3 && p.isSig && p.sent.isSome && p.target != 0)).isSome = true
    ∧ (let s := (work.setReg (regFbroute 1) 1).setReg (regFbport 0) 0x82
       sigPkg (handle 4096) / 4096 ≠ s.pod ∧ 8 ≤ 8 ∧ 7 < 8 ∧ s.unroutable (handle 4096) = false ∧ s.podUp 1 = true)
    ∧ (let s := (work.setReg (regFbep 7) 1).sawHop 7 5 8
       s.unroutable (handle 7) = false ∧ s.podUp 0 = false)
    ∧ ((withOps [op (.load 64 2 5) 7 (some 0)]).fab.ops.find? (fun p => p.id == 3)).isSome = true ∧ ([1, 2] : List Byte).length = 2
    ∧ (3 : BitVec 2) ≠ 0 ∧ linked.dieState (9 + (7 : BitVec 4).toNat / 8) = 2 ∧ (work.setReg (regFbport 15) 1).field (regFbport 15) 0 2 ≠ 0 ∧ 1 ≤ 1 ∧ 4 ≤ 4 := by decide +kernel

/-- A transaction of lane 0 in a phase, with the target 7, which has one message to acknowledge since cycle 0. -/
def tx (p : TxPhase) : Tx :=
  ⟨0x11, lane 0, 1, 0, 0, 0, 5, 0, [7], 1, [(1, 7, 0)], none, p, [], 0, none, none, false, false, []⟩
def withTx (t : Tx) : State := { work with fab := { work.fab with txs := [t] } }
def withPart (prepared : Bool) : State :=
  { work with now := 10000000, fab := { work.fab with parts := [⟨7, 0x11, [(64, 1)], prepared, 0, false⟩] } }

theorem witness_TransactionSlotsAndMessages :
    noBar mapped (.txbegin 255 1 always) = true ∧ noBar mapped (.txst ⟨252, 1, 2, 0, always⟩) = true
    ∧ frameCond work workQ (.txcommit 255 always) = none
    ∧ ((withTx (tx .open_)).openTx (lane 0)).isSome = true ∧ work.openTx (lane 0) = none
    ∧ ({ work with fab := { work.fab with stray := [lane 0] } } : State).fab.stray.contains (lane 0) = true
    ∧ work.fab.stray.contains (lane 0) = false ∧ txDescBad (leBytes 64 1) = true ∧ txDescBad (leBytes 64 0) = false
    ∧ (work.setReg regTxlbase 0x1000).logBase ≠ 0
    ∧ (work.fab.txs.filter (fun t => !t.phase.isDecided)).length < 65536
    ∧ (7 : Nat) ≠ work.globalNumber ∧ (devSize - 16) % 16 = 0 ∧ devSize - 16 + 16 ≤ devSize
    ∧ ((withPart true).decidePart 7 0x11 true).2 = true ∧ ((withPart true).findPart 7 0x11).any (fun p => p.prepared) = true
    ∧ (({ withPart true with snap := { work.snap with copyBit := [(0, true)] } } : State).decidePart 7 0x11 true).2 = false
    ∧ ((withPart true).findPart 7 0x11).any (fun p => p.prepared && !(withPart true).partOwned p
        && ((withPart true).partWaits p).isNone) = true
    ∧ linked.fabricOn = true ∧ linked.dup 7 5 = false ∧ linked.dup 7 3 = true
    ∧ ((withTx (tx .open_)).findTx 0x11).any (fun t => t.sent 1 7 && !t.phase.isDecided) = true
    ∧ ((withTx (tx (.voting 4 0))).findTx 0x11).any (fun t => t.sent 1 7 && t.phase == .voting 4 0) = true
    ∧ ((withTx (tx (.decided true))).findTx 0x11).any (fun t => t.sent 1 7 && t.phase.isDecided) = true
    ∧ (tx (.staging 4)).out ≠ [] ∧ ({ tx (.staging 4) with out := [] } : Tx).targets ≠ []
    ∧ ({ tx (.staging 4) with out := [], targets := [] } : Tx).doomed = none
    ∧ (∀ n ∈ ({ tx (.voting 4 0) with votes := [7] } : Tx).targets, n ∈ ({ tx (.voting 4 0) with votes := [7] } : Tx).votes)
    ∧ ({ tx (.voting 4 0) with doomed := some 0x80000010 } : Tx).doomed = some 0x80000010
    ∧ ((work.setReg regTxlbase 0x1000).writeLog (tx (.decided true)) 0).2 = true
    ∧ (∃ n ∈ (tx (.voting 4 0)).targets, n ∉ (tx (.voting 4 0)).votes)
    ∧ 0 + (tx (.voting 4 0)).vote * 1024 ≤ ({ withTx (tx (.voting 4 0)) with now := 5120 } : State).now
    ∧ ((withPart false).findPart 7 0x11).any (fun p => !p.prepared && !p.gone && (withPart false).lossDue (max p.last (spGet (fun _ => 0) (withPart false).fab.heard 7))) = true
    ∧ ({ withTx (tx .open_) with now := 10000000 } : State).targetSilent 7 = true := by decide +kernel

/-- `mapped` with operand B in the other bank and a row stride of 256 bytes. -/
def engined : State := withLane mapped 0 (setX [(2, 0x100000), (3, 256)])
def xops : Sync := ⟨0, 0, 0, 0⟩
def unbarred (c : Option Cond) : Bool := !workQ.cleared && c == none

/-- EngineSlots: every command unbarred in `engined`, and one of each barred by what its check names. -/
theorem witness_EngineSlots :
    ({ engined with issue := some { workQ with lanes := [] } } : State).issue.any (fun q => q.lanes.isEmpty) = true
    ∧ engined.issue = some workQ ∧ (workQ.lanes.head?).map (fun l => l.2) = some (lane 0)
    ∧ unbarred (mmaCond engined workQ ⟨xops, 7, 1, 2, 1, 1, 0, true, false, false⟩) = true
    ∧ unbarred (tileCond engined workQ 7) = true ∧ unbarred (moveCond engined workQ 7 1 3 2 true) = true
    ∧ unbarred (moveCond engined workQ 7 1 3 0 false) = true ∧ unbarred (scaleCond engined workQ 1) = true
    ∧ (tileCond (tiled .v) workQ 7).isSome = true
    ∧ (mmaCond (tiled .v) workQ ⟨xops, 7, 1, 2, 1, 1, 0, true, false, false⟩).isSome = true
    ∧ (moveCond (tiled .v) workQ 7 1 2 0 true).isSome = true ∧ (moveCond (tiled .v) workQ 7 1 3 0 false).isSome = true
    ∧ (scaleCond work workQ 1).isSome = true ∧ (63 : Nat) < 64 := by decide +kernel

/-! ### Branches, calls and the handler, with a run of one lane -/

def oneQ : Issue := { workQ with lanes := [(0, lane 0)] }

/-- A state whose bundle runs in lane 0 alone. -/
def narrow (s : State) : State :=
  { s with issue := some oneQ, runs := s.runs.map (fun r => { r with lanes := [(0, lane 0)] }) }

def one : State := narrow mapped

/-- Lane 0 one call deep, its entry marked or not. -/
def called (mark : Bool) : State := withLane one 0 (fun t =>
  { t with entries := [⟨0x40, LoopState.zero, 0, mark, 1, true⟩], frames := [⟨2, [], false⟩, ⟨16, [], false⟩] })

/-- Lane 0 with x1 = 1 and x2 = 0x10000. -/
def oneX (s : State) : State := withLane s 0 (setX [(1, 1), (2, 0x10000)])

/-- Lane 0 in the handler of a trap of its run, x1 the suppress mask of V0, x2 the address of the block. -/
def trapped : State :=
  let s := one.modGroup workG (fun g => { g with fixedPart := some 0x20000, kernel := { g.kernel with handler := some 0x90 } })
  let s := withLane s 0 (fun t => { t with x := [(2, 0x10000)], trap := some 77 })
  { s with traps := [⟨77, workG, 0, [(0, lane 0)], 0, 0, [], 0x20000, workQ.bundle, 2⟩] }

theorem witness_BranchSlots :
    one.issue = some oneQ ∧ oneQ.cleared = false
    ∧ (∀ l ∈ oneQ.lanes, rotSize 4 ≤ (one.thread l.2).vCount)
    ∧ (let s := withLane one 0 (fun t => { t with frames := [⟨3, [], false⟩] })
       ¬ ∀ l ∈ oneQ.lanes, rotSize 4 ≤ (s.thread l.2).vCount)
    ∧ statusCond one oneQ = none ∧ isService oneQ.group = false ∧ isService ({ oneQ with group := serviceKey 767 } : Issue).group = true
    ∧ oneQ.lanes.filter (fun l => (one.thread l.2).readP 0 != true) = []
    ∧ oneQ.lanes.filter (fun l => (one.thread l.2).readP 0 != false) ≠ []
    ∧ (let s : State := { one.setReg regSrvbase 0x20000 with mgmt := { one.mgmt with serviceStore := some [] } }
       s.serviceOn = true ∧ s.serviceFull 0 = false) ∧ one.serviceOn = false := by decide +kernel

/-- The frame-engine clauses of BranchSlots: nothing stops them, or their own condition does. -/
theorem witness_BranchSlots_frames :
    (one.wlStop oneQ (callNeeds one oneQ (fun _ => 16))).isNone = true
    ∧ ({ oneQ with cleared := true } : Issue).cleared = true
    ∧ ((calliRead (narrow work) oneQ 1).orElse (fun _ => calliCond (narrow work) oneQ 1)).isSome = true
    ∧ ((called false).wlStop oneQ (.ok [])).isNone = true ∧ retCond (called false) oneQ = none
    ∧ (retCond one oneQ).isSome = true ∧ unwindCond (oneX (called false)) oneQ 1 = none
    ∧ (unwindCond (oneX one) oneQ 1).isSome = true
    ∧ ((called true).wlStop oneQ (markNeeds (called true) oneQ)).isNone = true ∧ markCond (called true) oneQ = none
    ∧ (markCond (called false) oneQ).isSome = true
    ∧ one.grantNow 0 0 16 = true ∧ (one.thread (lane 0)).depth ≠ 65535 ∧ (one.thread (lane 0)).evicts = none := by decide +kernel

/-- DSWAP with a dictionary in the other bank, and RESUME.SLOTS in a handler and outside one. -/
theorem witness_BranchSlots_resume :
    (let s := one.modCore 0 (fun c => { c with dict1 := { c.dict1 with len := 1 } })
     leader s oneQ always = some (lane 0) ∧ dswapCond s oneQ always = none ∧ (s.thread (lane 0)).readX 1 = 0
      ∧ ((oneX s).thread (lane 0)).readX 1 ≠ 0 ∧ dswapCond (oneX s) oneQ always = none)
    ∧ leader trapped oneQ always = some (lane 0) ∧ (trapped.trapOf oneQ.lanes).isSome = true
    ∧ (trapped.blockRead oneQ (lane 0) ((trapped.thread (lane 0)).readX 2)
        (blockLen (resumeMask ((trapped.thread (lane 0)).readX 1)))).toOption.isSome = true
    ∧ (resumeStop trapped oneQ 1 2 always).isNone = true ∧ (resumeStop one oneQ 1 2 always).isSome = true := by decide +kernel

/-- `trapped` before its trap: a handler, a save pool and a fixed part. -/
def trapping : State :=
  (narrow mapped).modGroup workG (fun g => { g with fixedPart := some 0x20000, kernel := { g.kernel with handler := some 0x90 } })
def pooled : State := trapping.setReg (regSvbase 0) 1
def fault07 : Cond := Cond.plain oneQ 0x07 0 7

/-- HandlerEntry: a page to be asked for; a launch that has no handler, and one in its handler; a trap with a handler
and a pool; a header's fields; amax as it can stand. -/
theorem witness_HandlerEntry :
    (let c : Cond := { Cond.plain oneQ 0x0C 0 7 with addr := 0x8000000000 }
     (c.cause = 0x01 ∨ c.cause = 0x0C) ∧ c.reason = 0 ∧ isService oneQ.group = false
      ∧ one.refusedRun oneQ.run (one.group oneQ.group).tenant (c.addr.toNat / 4096) c.kind = false
      ∧ (let s : State := { one with refused := [⟨(one.group oneQ.group).tenant, c.addr.toNat / 4096, c.kind, [oneQ.run], []⟩] }
         s.refusedRun oneQ.run (s.group oneQ.group).tenant (c.addr.toNat / 4096) c.kind = true))
    ∧ ¬ ((fault07.cause = 0x01 ∨ fault07.cause = 0x0C) ∧ fault07.reason = 0)
    ∧ (one.group oneQ.group).kernel.handler = none ∧ inHandler trapped oneQ.lanes = true
    ∧ fault07.cause < 256 ∧ fault07.ident < 256 ∧ fault07.reason < 256 ∧ (0x17FFFFFFF : BitVec 33) &&& 0x17FFFFFFF = 0x17FFFFFFF := by
  decide +kernel

theorem witness_HandlerEntry_entry :
    isService oneQ.group = false ∧ inHandler pooled oneQ.lanes = false ∧ (pooled.findRun oneQ.run).isSome = true
    ∧ (pooled.group oneQ.group).kernel.handler = some 0x90 ∧ (pooled.group oneQ.group).fixedPart = some 0x20000
    ∧ pooled.poolOn (pooled.group oneQ.group).tenant = true
    ∧ (pooled.findRun oneQ.run).any (fun r => r.awaitsAny.isNone) = true
    ∧ ((pooled.poolLocs (pooled.group oneQ.group).tenant (entryWrites pooled oneQ fault07)).toOption.any (fun ws =>
        (ws.findSome? (fun w => pooled.locHold true w.1)).isNone)) = true
    ∧ (entryWrites pooled oneQ fault07).findSome? (fun w => pooled.markWaits oneQ.group true w.1) = none
    ∧ fault07.cause ≠ 0x11 ∧ (oneQ.lanes.map (fun l => l.2)).Nodup := by decide +kernel

/-- BRK's trap: header and shadow of lane 0 lie at 0x20000 and 0x22000, and the header holds the cause at 0x38, the lanes
at 0x3C and the number at 0x50 (R342, R348, R349). -/
theorem test_brk_trap_records :
    let c := brkCond oneQ 5
    let b := headerBytes pooled oneQ c
    (entryWrites pooled oneQ c).map (fun w => (w.1, w.2.length)) = [(0x20000, 256), (0x22000, 256)]
    ∧ natAt b 0x38 1 = 0x10 ∧ natAt b 0x3C 4 = 1 ∧ natAt b 0x50 8 = 5 := by decide +kernel

/-- A launch without a handler ends at a BRK, with status 0x07 (R341). -/
theorem test_brk_without_handler : (after (.brk 5) { one with launches := [{ (default : Launch) with id := 1 }] }).launches.map
    (fun l => l.status) = [some 7] := by decide +kernel
/-! ### Events -/

/-- No bundle is being issued and no run stands; lane 0 of the group is its one thread. -/
def quiet : State :=
  { one with issue := none, runs := [], threads := one.threads.take 1, now := 1000000 }
def blocked (b : Blocked) : State := withLane quiet 0 (fun t => { t with blocked := b })

def cmd (o : CmdOp) : Cmd := { blankCmd quiet oneQ o xops (lane 0) 0 0x100 with issued := 0 }
def withCmd (c : Cmd) : State := { quiet with cmds := [c] }
def started (c : Cmd) : Cmd := { c with started := true }

theorem witness_CoreEvents_engines :
    State.reset.issue = none ∧ (State.reset.core 0).issueFrom ≤ State.reset.coreCycles 0
    ∧ (let s := quiet.modCore 0 (fun c => { c with bins := [⟨workG, 0, [(0, lane 0)], 0, 0, none, none⟩] })
       ((s.core 0).bins[0]?).any (fun b => b.ready.isNone && decide (b.oldest + (s.launchOf b.group).age ≤ s.coreCycles 0)) = true)
    ∧ (withCmd (cmd .copy)).siphonReady (cmd .copy) = true
    ∧ (∀ d ∈ (withCmd (cmd .copy)).cmds, (cmd .copy).id ≤ d.id)
    ∧ (let c : Cmd := { cmd .copy with timed := true, inBuffer := true }
       ((withCmd c).findCmd c.id).isSome = true ∧ (withCmd c).siphonReady c = true)
    ∧ (withCmd (cmd .msync)).matrixReady (cmd .msync) = true
    ∧ (let c : Cmd := { started (cmd .msync) with finished := true }
       ((withCmd c).findCmd c.id).isSome = true ∧ (recordOf (withCmd c) c).isSome = false)
    ∧ (let c : Cmd := { started (cmd (.pload true)) with xs := 0x8000000000 }
       ((withCmd c).findCmd c.id).isSome = true ∧ c.finished = false
        ∧ (((withCmd c).stepCmd c).findCmd c.id).any (fun d => !d.finished) = true)
    ∧ (let c : Cmd := started { cmd .copy with shape := List.replicate 18 0 }
       (((withCmd c).stepCmd c).findCmd c.id).any (fun d => d.finished && d.total == 0 && d.status == 0) = true) := by decide +kernel

def waiterW (dem : Nat) : Waiter := ⟨lane 0, 0, 0, ⟨0x40, LoopState.zero, 0, false, dem, true⟩, [], dem, 0x80, none⟩
def withWaiter (dem : Nat) : State := (blocked .frame).modCore 0 (fun c => { c with waiters := [waiterW dem] })
def refillR (e : Option Nat) : RefillReq := ⟨lane 0, 0, 0, 0, 0x80, e, 0, [], [], none⟩
def withRefill (e : Option Nat) : State := (blocked .refill).modCore 0 (fun c => { c with refills := [refillR e] })

theorem witness_CoreEvents_frames :
    (withWaiter 16).oldestWaiter 0 0 = some (waiterW 16) ∧ (withWaiter 16).oldestRefill 0 0 = none
    ∧ (withWaiter 16).waitsAs 0 (lane 0) .frame = true ∧ (withWaiter 16).reqOpen none = false
    ∧ 16 ≤ (withWaiter 16).blocksReady 0 0
    ∧ max (waiterW 16).since (spGet (fun _ => (0, 0)) ((withWaiter 16).core 0).lastFreed 0).1 + 1024 ≤ (withWaiter 16).coreCycles 0
    ∧ (spillUntil (withWaiter 16) 0 0 16 none 4096).2.isNone = true
    ∧ (withRefill none).oldestRefill 0 0 = some (refillR none) ∧ (withRefill none).waitsAs 0 (lane 0) .refill = true
    ∧ (withRefill (some 1)).oldestRefill 0 0 = some (refillR (some 1))
    ∧ (match (withRefill (some 1)).wlLocs (lane 0) needR ((withRefill (some 1)).recordAddr (lane 0) 1) 64 with
        | .ok _ => true
        | _ => false) = true := by decide +kernel

/-- A frame of lane 0's caller, and a demand that no free block meets, whose spill has to wait for its page. -/
def crowded : State :=
  let s := withWaiter 16
  let s := { s with mem := [] }
  s.modThread (lane 0) (fun t =>
    { t with entries := [⟨0x40, LoopState.zero, 0, false, 1, true⟩],
             frames := [⟨1, [], false⟩, ⟨255, [], false⟩] })

def swapping (m : YieldMap) : State := (blocked .swap).modGroup workG (fun g => { g with ymap := some m, swap := some 1 })
def ymap0 : YieldMap := ⟨0, [], []⟩
def svc : SvcReq := ⟨1, workG, [(0, lane 0)], 0, 0, 0, 0, true, true⟩
def serving : State :=
  (blocked .svc).modCore 0 (fun c => { c with svcQueue := [svc] })

theorem witness_CoreEvents_groups :
    (spillUntil crowded 0 0 16 none 4096).2.isSome = true
    ∧ ((swapping ymap0).group workG).ymap = some ymap0 ∧ (swapping ymap0).liveThreads workG ≠ []
    ∧ (swapping ymap0).groupRuns workG = true
    ∧ (∀ tk ∈ (swapping ymap0).liveThreads workG, ((swapping ymap0).thread tk).blocked = .swap)
    ∧ swapPasses (swapping ymap0) workG ymap0 = false
    ∧ (let m : YieldMap := ⟨0, leBytes 4 0 ++ [1, 4, 32, 0, 1, 1, 0, 1, 64, 8] ++ leBytes 2 10 ++ leBytes 4 0x20000, []⟩
       ((swapping m).group workG).ymap = some m ∧ swapPasses (swapping m) workG m = true)
    ∧ (let s := withLane quiet 0 (fun t => { t with live := false })
       (s.group workG).place ≠ .ended ∧ s.liveThreads workG = [] ∧ (∀ c ∈ s.cmds, c.group ≠ workG))
    ∧ (serving.core 0).svcQueue = [svc] ∧ (serving.core 0).service = none ∧ serving.issue = none
    ∧ svc.recorded = true ∧ svc.yielded = true
    ∧ svc.arrived + max 1 (serving.field regSrvdl 0 32) ≤ serving.coreCycles 0 := by
  decide +kernel

/-- A launch of one group of one thread of tenant 0, at level 7, ready since cycle 0. -/
def job (id : Nat) : Launch :=
  { (default : Launch) with id := id, words := [0, 7 * 2 ^ 36, 0, 0, 0, 0, 0, 0], kernel := { Kernel.none with gsize := 1 },
                            cond := true, ready := some 0, live := true }

/-- Die 0 Active with one island open, and launch 2 in the queue. -/
def ready : State :=
  { quiet with launches := [job 2],
               hub := [(regDiest 0, 2), (regTctx 0, 0xA000000000000001)]
                 ++ (List.range 11).map (fun n => (regIslctl (n + 1), 0x468046)) }

def cell : BitVec 6 × BitVec 5 := (63, 31)

theorem witness_SchedulerEvents_windows :
    (0x38 : BitVec 7).toNat % 8 = 0 ∧ (List.replicate 8 (1 : Byte)).length = 8 ∧ (0x38 : BitVec 7).toNat < 0x40
    ∧ (0x41 : BitVec 7).toNat % 8 ≠ 0 ∧ (0x78 : BitVec 7).toNat % 8 = 0 ∧ 0x40 ≤ (0x78 : BitVec 7).toNat
    ∧ (4 : Nat) ≠ 8
    ∧ quiet.canTake 63 (quiet.cell (cellKey 63 31)).words = true
    ∧ (let b : Batch := ⟨4, workG, 0, 9, 1, [(3, lane 0, 0x4000)]⟩
       let s : State := { quiet with sched := { quiet.sched with batches := [b] } }
       s.sched.batches.find? (fun c => c.id == 4) = some b ∧ s.batchFree b = true ∧ s.l1Waits b.core (fun _ => true) = none
        ∧ (s.writebackL1 0 (fun _ => true)).batchWaits (s.group b.group).tenant b = none
        ∧ ∀ l ∈ b.lanes, (s.writebackL1 0 (fun _ => true)).owned l.2.2 64 = false
          ∧ (s.writebackL1 0 (fun _ => true)).canTake (s.group b.group).tenant ((s.writebackL1 0 (fun _ => true)).batchPacket l) = true)
    ∧ (ready.findLaunch 2).isSome = true
    ∧ ready.queueOf 0 7 = [job 2]
    ∧ (let s : State := { quiet with launches := [{ job 2 with words := [0, 0, 0, 0, 0, 0, 0, 0] }] }
       let k := queueKey 0 0
       let age := s.field (regAgel (s.queue k).eff) 0 32
       (s.queueOf 0 0).length = 1 ∧ age ≠ 0 ∧ (s.queue k).eff < 7
        ∧ max 0 (s.queue k).since + age ≤ s.now) := by decide +kernel

theorem witness_SchedulerEvents_place :
    ready.mgmt.fatal = none ∧ (ready.pick).any (fun p => p.launch.id == 2 && (ready.restorable p.launch).isNone
      && !ready.launchHeld p.launch && [0].length == p.launch.step
      && (placeGangs ready p.launch p.launch.nextGroup [0] [] (p.launch.step / p.launch.gang)).isSome) = true
    ∧ (∀ c ∈ [0], ready.unparksFirst c = false) ∧ ready.freshOwned [0] = false
    ∧ ready.freshWaits [0] false = none ∧ ready.freshWaits [0] true = none
    ∧ (ready.pick).any (fun p => (ready.streamWaits p.launch).isNone) = true := by decide +kernel

/-- Lane 0 of launch 1's group waits at BAR since cycle 0; launch 2's job needs a window that this group holds. -/
def waiting : State :=
  { ready with
    threads := [(lane 0, { placedThread 0 with blocked := .bar })]
    groups := (workG, { placedGroup with tenant := 1, prio := 1 }) :: (List.range 7).map (fun n =>
      (groupKey 9 n, { placedGroup with launch := 9, gid := n, core := n + 1, prio := 7 }))
    launches := [{ job 2 with kernel := { Kernel.none with gsize := 1, sems := 256 } }] }

def parked : State :=
  waiting.modGroup workG (fun g => { g with place := .parked, parkedOn := [.semwait 0 0] })

theorem witness_SchedulerEvents_parking :
    (waiting.group workG).place = .resident ∧ (∃ w ∈ waiting.waitsOf workG, w.2 + 4096 ≤ waiting.now)
    ∧ (waiting.modGroup workG (fun g => { g with candidate := true })).parkable workG = true
    ∧ parked.canRun workG = true ∧ (parked.unparkSeat workG).isSome = true := by decide +kernel

/-- The tenants' pools are on. -/
def pooledW : State :=
  { waiting with hub := [(regDiest 0, 2), (regSvbase 0, 1), (regSvsize 0, 16), (regSvbase 1, 1), (regTctx 0, 0xA000000000000001)]
                   ++ (List.range 11).map (fun n => (regIslctl (n + 1), 0x468046)) }
def asked : State := pooledW.modGroup workG (fun g => { g with yieldReq := some 0 })

theorem witness_SchedulerEvents_preempt :
    pooledW.mgmt.fatal = none ∧ (pooledW.pressing.findSome? (fun l => pooledW.victims l.1 l.2 0)).isSome = true
    ∧ (asked.group workG).place = .resident ∧ (asked.group workG).stopped = false ∧ (asked.group workG).yieldReq = some 0
    ∧ 0 + asked.field regPredl 0 32 ≤ asked.now
    ∧ (let s := asked.modGroup workG (fun g => { g with stopped := true })
       s.saveDue workG = true ∧ s.saveReady workG = true ∧ s.poolHeld workG = false
        ∧ (s.launchOf workG).status = none) := by decide +kernel

/-- Lane 0's group, whose tenant's pool is on and mapped, with nothing to wait for. -/
def savable : State :=
  let s := mapOver (quiet.modGroup workG (fun g => { g with scrHalf := 0, kernel := { Kernel.none with gsize := 1 } }))
  { s with hub := [(regTctx 0, 0xA000000000000001), (regSvbase 0, 0x20001), (regSvsize 0, 16)].foldl (fun m q => spPut m q.1 q.2) [] }

/-- The low 256 GiB of `savable` are mapped to themselves. -/
theorem savable_xlate (va : DWord) (h : va.toNat < 2 ^ 38) : savable.xlate 0 needW va = .ok (.here va.toNat .wb) := by
  have h4 : va.toNat / 2 ^ (12 + 9 * (3 + 1)) % 512 * 8 = 0 := by rw [Nat.div_eq_of_lt (by omega)]
  have h3 : va.toNat / 2 ^ (12 + 9 * (2 + 1)) % 512 * 8 = 0 := by rw [Nat.div_eq_of_lt (by omega)]
  have cach : savable.cached hubTlb 0 va.toNat = none := rfl
  have root : savable.rootPpn 0 = 1 := by decide +kernel
  have p4 : savable.nodePte 0 va.toNat (3 + 1) (1 * 4096 + 0) = 0x801 := (by decide +kernel : savable.readPte (1 * 4096 + 0) = 0x801)
  have p3 : savable.nodePte 0 va.toNat (2 + 1) (2 * 4096 + 0) = 0xDF := (by decide +kernel : savable.readPte (2 * 4096 + 0) = 0xDF)
  have k4 : savable.nodeKept 0 va.toNat (3 + 1) (1 * 4096 + 0) = none := rfl
  have k3 : savable.nodeKept 0 va.toNat (2 + 1) (2 * 4096 + 0) = none := rfl
  have w4 : savable.pteWait (1 * 4096 + 0) = none := by decide +kernel
  have w3 : savable.pteWait (2 * 4096 + 0) = none := by decide +kernel
  have n1 : ptePpn 0x801 = 2 := by decide
  have c1 : pteInvalid 0x801 = false ∧ pteLeaf 0x801 = false := by decide
  have c2 : pteInvalid 0xDF = false ∧ pteLeaf 0xDF = true := by decide
  have la : leafPa 0xDF 3 va.toNat = va.toNat := by
    have : ptePpn 0xDF = 0 := by decide
    unfold leafPa; rw [this]; norm_num; omega
  have kind : savable.paKind va.toNat = .dev va.toNat := by
    unfold State.paKind devSize hubBase
    rw [if_neg (by omega), if_neg (by omega), if_pos (by omega)]
  have inv : leafInvalid savable 0xDF (2 + 1) va.toNat = false := by
    have : ptePpn 0xDF = 0 := by decide
    unfold leafInvalid; rw [show (2 + 1) = 3 from rfl, la, kind, this]; rfl
  have walk : savable.walk 0 va.toNat = some (0xDF, 3, 0x2000) := by
    unfold State.walk
    rw [root]
    unfold State.walkFrom
    simp only [h4, p4, c1.1, c1.2, n1, Bool.false_eq_true, if_false]
    unfold State.walkFrom
    simp only [h3, p3, c2.1, c2.2, inv, Bool.false_eq_true, if_false, if_true]
  have wait : savable.leafWait hubTlb 0 true va.toNat = none := by
    unfold State.leafWait
    rw [cach, root]
    simp only
    unfold State.walkWait
    simp only [h4, p4, k4, w4, c1.1, c1.2, n1, Option.isSome_none, Bool.false_eq_true, if_false, Bool.or_self]
    unfold State.walkWait
    simp only [h3, p3, k3, w3, c2.1, c2.2, Option.isSome_none, Bool.false_eq_true, if_false, Bool.or_true, if_true]
  have used : savable.leafUsed hubTlb 0 true va.toNat = some (0xDF, 3, 0x2000) := by
    unfold State.leafUsed
    rw [cach]; exact walk
  have can : canonical va = true := by
    unfold canonical; rw [Nat.div_eq_of_lt (by omega)]; rfl
  have mode : savable.xlMode 0 = 10 := by decide +kernel
  have perm : permits 0xDF needW = none := by decide
  have attr : leafAttr 0xDF = .wb := by decide
  have fail : savable.frameFailed va.toNat = false := rfl
  unfold State.xlate State.xlateBy
  rw [can, mode, show needW.w = true from rfl, wait, used]
  simp only [la, kind, fail, perm, attr]
  rfl

theorem savable_locs : ∀ (len : Nat) (va : DWord), va.toNat + len < 2 ^ 38 →
    ∃ ls, savable.locsVa 0 needW va len = .ok ls ∧ ls.length = len := by
  intro len
  induction len with
  | zero => intro va _; exact ⟨[], rfl, rfl⟩
  | succ len ih =>
    intro va h
    obtain ⟨ls, e, el⟩ := ih (va + 1) (by rw [BitVec.toNat_add]; simp; omega)
    exact ⟨va.toNat :: ls, by unfold State.locsVa; rw [savable_xlate va (by omega)]; simp only [e], by simp [el]⟩

theorem savable_poolLocs : ∀ ws : List (DWord × List Byte), (∀ w ∈ ws, w.1.toNat + w.2.length < 2 ^ 38) →
    ∃ ls, savable.poolLocs 0 ws = .ok ls := by
  intro ws
  induction ws with
  | nil => intro _; exact ⟨[], rfl⟩
  | cons w ws ih =>
    intro h
    obtain ⟨l1, e1, -⟩ := savable_locs w.2.length w.1 (h w List.mem_cons_self)
    obtain ⟨l2, e2⟩ := ih (fun v hv => h v (List.mem_cons_of_mem _ hv))
    exact ⟨l1.zip w.2 ++ l2, by unfold State.poolLocs; simp only [e1, e2]⟩

theorem savable_writeWaits (loc : Nat) : savable.writeWaits loc 1 = none := by
  have hs : ∀ l, savable.hostShared l = false := by
    intro l
    unfold State.hostShared
    rw [List.any_eq_false]
    intro r hr
    have : savable.hostRange r = (0, 0) := by
      have := List.mem_range.1 hr
      interval_cases r <;> decide +kernel
    rw [this]; simp
  have hh : savable.hostHolds 0 loc 1 = none := by
    unfold State.hostHolds
    split
    · rfl
    · rw [List.find?_eq_none]; intro l _; unfold State.hostLevel; rw [hs]; simp
  have hc : ∀ p, savable.copyBit p = false := fun _ => rfl
  unfold State.writeWaits
  rw [hh, hc, hc]
  split <;> rfl

/-- What the clause on a saved context assumes holds in `savable`. -/
theorem witness_SchedulerEvents_saving :
    let z := savable.landGroup workG
    let g := z.group workG
    let secs := z.sections workG (z.lastOfGang workG)
    let ws := z.shadowWrites workG ++ partWrites (BitVec.ofNat 64 131072) secs
    z.poolOn g.tenant = true ∧ z.poolFit g.tenant (partSize secs) 64 = some 131072
    ∧ ∃ ls, z.poolLocs g.tenant ws = .ok ls ∧ z.saveWaits workG ws ls = none ∧ z.saveOwned workG ws = false := by
  intro z g secs ws
  have hz : z = savable := rfl
  have ht : g.tenant = 0 := rfl
  have hw : (ws.all (fun w => decide (w.1.toNat + w.2.length < 2 ^ 38))) = true := by decide +kernel
  obtain ⟨ls, e⟩ := savable_poolLocs ws (fun w hm => by simpa using List.all_eq_true.1 hw w hm)
  refine ⟨by decide +kernel, by decide +kernel, ls, e, ?_, ?_⟩
  · unfold State.saveWaits State.poolWaits
    have h1 : ls.findSome? (fun w => z.writeWaits w.1 1) = none := by
      rw [List.findSome?_eq_none_iff]; intro w _; exact savable_writeWaits w.1
    have h2 : (ws.flatMap (fun w => pagesOf w.1 w.2.length)).findSome? (z.tenantMarkWaits (z.group workG).tenant true) = none := by
      decide +kernel
    have h3 : z.l1Waits (z.group workG).core (fun _ => true) = none := by decide +kernel
    rw [h1, h2, h3]; rfl
  · unfold State.saveOwned State.readsOwned
    have h1 : ∀ l : List Nat, l.any (fun l => z.owned l 1) = false := by
      intro l; rw [List.any_eq_false]; intro x _; rw [show z.owned x 1 = false from rfl]; decide
    have h2 : z.ownedDirty (z.group workG).core (fun _ => true) = false := by decide +kernel
    rw [h1, h2]; rfl

/-- Launch 2's one group is saved, with its context part in mapped memory, and not. -/
def saved (part : Option (Nat × Nat)) : State :=
  let g : Group := { placedGroup with launch := 2, gid := 0, place := .saved, kernel := { Kernel.none with gsize := 1 },
                                      contextPart := part, fixedPart := some 0x20000, prio := 7 }
  { (ready.setGroup (groupKey 2 0) g) with launches := [{ job 2 with nextGroup := 1 }], mem := [(0x1000, 0x01), (0x1001, 0x08), (0x2000, 0xDF)] }

theorem witness_SchedulerEvents_restore :
    (saved none).mgmt.fatal = none
    ∧ ((saved none).pick).any (fun p => p.launch.id == 2 && ((saved none).restorable p.launch) == some [groupKey 2 0]) = true
    ∧ (∀ c ∈ [0], (saved none).unparksFirst c = false) ∧ (saved none).restoreWaits [groupKey 2 0] [0] = none
    ∧ (saved none).restoreReady [groupKey 2 0] = true ∧ (saved none).restoreOwned [groupKey 2 0] [0] = false
    ∧ (restoreGangs (saved none) (saved none) ((saved none).inGangs [groupKey 2 0]) [0]).any (fun r => r.2) = true
    ∧ (let s := (saved (some (0x8000000000, 0x10000)))
       (restoreGangs s s (s.inGangs [groupKey 2 0]) [0]).any (fun r => !r.2) = true) := by decide +kernel

def request : PageReq := ⟨6, 0, 5, .read, false, 65535, 0⟩

theorem witness_SchedulerEvents_ends :
    (let s : State := { quiet with launches := [{ job 1 with ended := 1, nextGroup := 1 }] }
     (s.findLaunch 1).isSome = true ∧ s.launchDone { job 1 with ended := 1, nextGroup := 1 } = true
      ∧ s.recordHeld (job 1) = false ∧ (∀ c ∈ s.launchCores 1, s.ownedDirty c (fun _ => true) = false) ∧ s.launchWaits 1 = none)
    ∧ ({ job 1 with status := some 7 } : Launch).live = true
    ∧ (let s : State := { quiet.setReg regPrqbase 0x10002 with reqs := [request] }
       s.reqs.find? (fun q => q.id == 6 && !q.posted) = some request
        ∧ (s.queueTail + 2 ^ 32 - s.queueHead) % 2 ^ 32 ≠ s.queueSize ∧ s.hubOwned s.queueSlot 32 = false
        ∧ s.hubWaits s.queueSlot 32 = none)
    ∧ (let s : State := { quiet with reqs := [{ request with posted := true }] }
       (s.reqs.find? (fun q => q.num == (65535 : BitVec 16).toNat && q.posted)).isSome = true) := by decide +kernel

/-- No group, and die 0 and the I/O dies Active. -/
def idle : State :=
  { State.reset with hub := [(regDiest 0, 2), (regDiest 8, 2), (regDiest 9, 2), (regDiest 10, 2)] }

/-- Domain 15 in a state, with page 3 in it, cut but not copied unless the domain is Idle. -/
def domain (st : Nat) : State :=
  { idle.setDomState 15 st with snap := { idle.snap with member := [(3, some 15)], copyBit := if st = 0 then [] else [(3, true)] } }

theorem witness_HubEvents_registers :
    (767 : Nat) < 768 ∧ ((8 : Nat) = 8 ∧ 0x100 % 8 = 0) ∧ ¬ ((4 : Nat) = 8 ∧ 0x104 % 8 = 0) ∧ (63 : Nat) < 64 ∧ (11 : Nat) < 12
    ∧ devSize - 1 < devSize
    ∧ (let s : State := { idle with pageFail := [0xBFFFFFF] }
       (0xBFFFFFF : BitVec 28).toNat ∈ s.pageFail ∧ s.writeWaits (4096 * (0xBFFFFFF : BitVec 28).toNat) 4096 = none
        ∧ s.frameDue (0xBFFFFFF : BitVec 28).toNat = false ∧ ∀ l ∈ linesOf (4096 * (0xBFFFFFF : BitVec 28).toNat) 4096, s.owned l 128 = false)
    ∧ 4096 * (5 : BitVec 28).toNat < devSize ∧ idle.pageFail.length < 65536 ∧ devSize ≤ 4096 * (0xFFFFFFF : BitVec 28).toNat
    ∧ regTencfg 63 ≠ regFbep idle.pkg ∧ 0x400000 < 0x4000000
    ∧ (5 : BitVec 28).toNat ∉ idle.pageFail
    ∧ ({ idle with inval := some ⟨3, 0, 0, 0⟩ } : State).inval.isSome = true ∧ idle.inval = none
    ∧ (let v : Inval := ⟨1, 0xFFFF, 0, 0⟩
       let e : TlbEntry := ⟨true, 0, 0xFFFF, false, 5, 0, 0xDF, 0x2000⟩
       let s : State := { idle with inval := some v, tlb := [e] }
       s.inval = some v ∧ v.takes e = true ∧ s.entryQuiet e = true ∧ (s.tlb.filter v.takes).findSome? s.entryWaits = none) := by decide +kernel

theorem witness_HubEvents_snapshots :
    (domain 0).domState 15 = 0 ∧ (domain 1).domState 15 = 1 ∧ (domain 2).domState 15 = 2 ∧ (domain 3).domState 15 ≠ 0
    ∧ (domain 1).reg regSntgt = 0 ∧ ((domain 1).setReg regSntgt 7).reg regSntgt ≠ 0
    ∧ (((domain 2).toSend 15).find? (fun p => decide (spGet (fun _ => 0) (domain 2).snap.next 15 ≤ p))) = some 3
    ∧ (domain 2).drainReaches = true ∧ (domain 2).drainOwned 3 = false ∧ (domain 2).drainWaits 3 = none
    ∧ (let s := domain 2
       let t : State := { s with snap := { s.snap with sent := [(3, 15)] } }
       t.domState 15 = 2 ∧ (3, 15) ∈ t.snap.sent)
    ∧ (∀ d < 16, idle.domState d = 0) ∧ (∃ d < 16, (domain 1).domState d ≠ 0)
    ∧ (let t := (domain 1).setReg regSnpool 0x1000100
       t.copyBit 3 = true ∧ 3 ∈ (t.askCopy 3).snap.asked ∧ t.domainOf 3 = some 15 ∧ (t.freePoolPage).isSome = true ∧ (3 : Nat) < 2 ^ 24) := by decide +kernel

theorem witness_HubEvents_access :
    idle.paKind (devSize - 4) = .dev (devSize - 4)
    ∧ idle.runOk (devSize - 4) 4 = true ∧ idle.runOwned (devSize - 4) 4 = false ∧ idle.runWaits true (devSize - 4) 4 = none
    ∧ idle.runWaits false (devSize - 4) 4 = none ∧ idle.fabricOn = true ∧ atomicOk (devSize - 4) 4 = true
    ∧ idle.mgmt.reserved = []
    ∧ (let s : State := { idle.dirSet hartAgent (devSize - 4) .s with mgmt := { idle.mgmt with reserved := [(23, devSize - 4, 4)] } }
       s.mgmt.reserved.any (fun r => r.1 == 23 && decide (r.2.1 ≤ devSize - 4)) = true
        ∧ s.copyOf hartAgent (devSize - 4) ≠ .i)
    ∧ (1 : Nat) < 2 ∧ idle.dieState (9 + 1) = 2 ∧ (23 : Nat) < 24 ∧ idle.dieState 8 = 2
    ∧ ({ idle with mgmt := { idle.mgmt with hartsRunning := true } } : State).mgmt.hartsRunning = true ∧ idle.mgmt.fatal = none
    ∧ (let s := (idle.setReg (regHsbase 15) 0x10000).setReg (regHscfg 15) 1
       s.hostShared (lineOf 0x10080) = true ∧ s.runOk (lineOf 0x10080) 128 = true ∧ s.owned (lineOf 0x10080) 1 = false ∧ s.fabricOn = true)
    ∧ ({ idle with fab := { idle.fab with hostAsked := [(0x10080, true)] } } : State).fab.hostAsked.contains (lineOf 0x10080, true)
        = true := by
  decide +kernel

/-- A capability table of die 0 that passes: magic, kind, and the classes it allows. -/
def dieTable : List Byte :=
  leBytes 4 0x4C5A4350 ++ [BitVec.ofNat 8 (dieKind 0), 0, 0, 0xFF] ++ List.replicate 56 0

/-- Die 0 in a state, every other as in `idle`. -/
def die (n st : Nat) : State := idle.setDieState n st

theorem witness_PackageEvents_dies :
    (22 : BitVec 8).toNat ≤ 22 ∧ (die 0 1).dieState (0 : BitVec 8).toNat = 1 ∧ tablePasses 0 [] = false ∧ tablePasses 0 dieTable = true
    ∧ (die 0 3).dieBusy = true ∧ idle.dieBusy = false ∧ (10 : Nat) ≤ 10 ∧ idle.dieState 10 = 2
    ∧ (die 22 4).dieState 22 = 4 ∧ (die 22 4).dieBusy = false
    ∧ (die 0 3).dieState 0 = 3 ∧ (0 : Nat) < 8 ∧ (die 0 3).isolationReady 0 = true ∧ (die 0 3).cleanWaits (dieCores 0) = none
    ∧ (die 9 3).dieState 9 = 3 ∧ 9 ≤ 9
    ∧ (95 : BitVec 7).toNat < 96 ∧ 96 ≤ (96 : BitVec 7).toNat
    ∧ (let s := idle.setReg (regIslctl 95) 0x46A046
       s.islandState 95 = 1 ∧ s.islandGate 95 = true ∧ s.islandState 95 ≠ 2 ∧ s.islandIdle 95 = true ∧ s.cleanOwned (islandCores 95) = false
        ∧ s.cleanWaits (islandCores 95) = none)
    ∧ 1 ≤ (1 : BitVec 8).toNat ∧ (6 : BitVec 8).toNat ≤ 6 := by decide +kernel

def role (r : Role) : State := { idle with now := 4000000000, mgmt := { idle.mgmt with role := r } }

theorem witness_PackageEvents_boot :
    (7 : Nat) ≠ idle.globalNumber ∧ idle.fabricOn = true
    ∧ (let s : State := { idle with mgmt := { idle.mgmt with leader := some 7 } }
       (s.noteTerm 0).fromLeader 0 7 = true)
    ∧ (role .follower).mgmt.role = .follower ∧ (role .follower).mgmt.lastLease + 3500000000 ≤ (role .follower).now
    ∧ (role .claimant).mgmt.role = .claimant ∧ (role .claimant).mgmt.claimAt + 1750000000 ≤ (role .claimant).now
    ∧ (role .leader).mgmt.role = .leader ∧ (role .leader).mgmt.lastLease + 875000000 ≤ (role .leader).now
    ∧ (let s := (List.range 23).foldl (fun s d => s.setDieState d 2) idle
       s.enumerated = true ∧ s.mgmt.fatal = none)
    ∧ (let s := idle.setReg (regMon 31 0) 0x700000001
       s.field (regMon 31 0) 0 1 = 1 ∧ 1 ≤ s.field (regMon 31 0) 32 8 ∧ s.field (regMon 31 0) 32 8 ≤ 7)
    ∧ 1 ≤ 1 ∧ 5 ≤ 5 := by decide +kernel

/-! ### The standards that R387 and R442 name, on their own published examples -/

/-- XXH32 and XXH64 of nothing (the algorithm's published test values). -/
theorem test_xxhash_of_nothing : xxHash 32 [] = 0x02CC5D05 ∧ xxHash 64 [] = 0xEF46DB3751D8E999 := by decide +kernel

/-- SHA-256 of "abc" (FIPS 180-4's example). -/
theorem test_sha256_abc : beNat (sha256 [0x61, 0x62, 0x63]) =
    0xBA7816BF8F01CFEA414140DE5DAE2223B00361A396177A9CB410FF61F20015AD := by decide +kernel

/-- SHA-384 of "abc" (FIPS 180-4's example). -/
theorem test_sha384_abc : beNat (sha384 [0x61, 0x62, 0x63]) =
    0xCB00753F45A35E8BB5A03D699AC65007272C32AB0EDED1631A8B605A43FF5BED8086072BA1E7CC2358BAECA134C825A7 := by decide +kernel

/-- The substitution box (FIPS 197, 5.1.1's example). -/
theorem test_aes_substitution : aesSubOf 0x53 = 0xED := by decide +kernel

end Sys2Proof.Tests
end

/-! SUPPORT. Copy tags (R149, R150): masks within the tag window, read bit by bit. -/

namespace Sys2Proof.Proofs

open Sys2Proof Sys2Proof.Machine Sys2Proof.Laws

/-! ### Masks, bit by bit -/

@[simp] theorem getLsbD_lowMask (n k : Nat) : (lowMask n).getLsbD k = (decide (k < 64) && decide (k < n)) := by
  simp [lowMask, BitVec.getLsbD_ofNat, Nat.testBit_two_pow_sub_one]

/-- Under a window, a mask keeps the bits below it. -/
theorem getLsbD_and_lowMask (v : DWord) (n k : Nat) : (v &&& lowMask n).getLsbD k = (decide (k < n) && v.getLsbD k) := by
  rw [BitVec.getLsbD_and, getLsbD_lowMask]
  by_cases hk : k < 64
  · simp [hk, Bool.and_comm]
  · simp [BitVec.getLsbD_of_ge v k (by omega)]

theorem eq_zero_iff_bits {w : Nat} (v : BitVec w) : v = 0 ↔ ∀ k, v.getLsbD k = false :=
  ⟨fun h k => by rw [h]; exact BitVec.getLsbD_zero,
   fun h => BitVec.eq_of_getLsbD_eq (fun k _ => (h k).trans BitVec.getLsbD_zero.symm)⟩

/-- No bit of m outside t. -/
theorem and_not_eq_zero_iff {w : Nat} (m t : BitVec w) :
    m &&& ~~~t = 0 ↔ ∀ k, m.getLsbD k = true → t.getLsbD k = true := by
  rw [eq_zero_iff_bits]
  refine forall_congr' fun k => ?_
  rw [BitVec.getLsbD_and, BitVec.getLsbD_not]
  by_cases hk : k < w
  · simp [hk]
  · simp [BitVec.getLsbD_of_ge m k (by omega)]

/-- No bit that m and t share. -/
theorem and_eq_zero_iff {w : Nat} (m t : BitVec w) :
    m &&& t = 0 ↔ ∀ k, m.getLsbD k = true → t.getLsbD k = false := by
  rw [eq_zero_iff_bits]
  exact forall_congr' fun k => by rw [BitVec.getLsbD_and]; simp

/-! ### The lowest set bit -/

theorem trailingZeros_le {w : Nat} (a : BitVec w) (i n : Nat) : trailingZeros a i n ≤ n := by
  induction n generalizing i with
  | zero => exact Nat.le_refl 0
  | succ n ih =>
    have := ih (i + 1)
    simp only [trailingZeros]
    split <;> omega

theorem getLsbD_below_trailingZeros {w : Nat} (a : BitVec w) {i n k : Nat} (h : k < trailingZeros a i n) :
    a.getLsbD (i + k) = false := by
  induction n generalizing i k with
  | zero => exact absurd h (Nat.not_lt_zero k)
  | succ n ih =>
    simp only [trailingZeros] at h
    split at h
    · exact absurd h (Nat.not_lt_zero k)
    · next hi =>
      cases k with
      | zero => simpa using hi
      | succ k =>
        have := ih (i := i + 1) (k := k) (by omega)
        rwa [Nat.add_right_comm] at this

theorem getLsbD_trailingZeros {w : Nat} (a : BitVec w) {i n : Nat} (h : trailingZeros a i n < n) :
    a.getLsbD (i + trailingZeros a i n) = true := by
  induction n generalizing i with
  | zero => exact absurd h (Nat.not_lt_zero _)
  | succ n ih =>
    simp only [trailingZeros] at h ⊢
    split
    · next hi => exact hi
    · next hi =>
      rw [if_neg hi] at h
      have := ih (i := i + 1) (by omega)
      rwa [Nat.add_assoc] at this

/-! ### The waits -/

/-- The tags that a thread's mask names within the window. -/
def tagMask (s : State) (q : Issue) (a : BitVec 4) (tk : Nat) : DWord :=
  (s.thread tk).readX a.toNat &&& lowMask (s.group q.group).kernel.tagWindow

@[simp] theorem getLsbD_tagMask (s : State) (q : Issue) (a : BitVec 4) (tk k : Nat) : (tagMask s q a tk).getLsbD k
    = (decide (k < (s.group q.group).kernel.tagWindow) && ((s.thread tk).readX a.toNat).getLsbD k) :=
  getLsbD_and_lowMask ..

section Wait

variable {s : State} {q : Issue} {a : BitVec 4} {g : Guard}

theorem tagwaHold_leader {tk : Nat} (hl : leader s q g = some tk) : tagwaHold s q a g
    = if tagMask s q a tk &&& ~~~(s.group q.group).tagBase = 0 then none else some (.tag true (tagMask s q a tk)) := by
  unfold tagwaHold
  rw [hl]; rfl

theorem tagwlHold_leader {tk : Nat} (hl : leader s q g = some tk) : tagwlHold s q a g
    = if tagMask s q a tk = 0 ∨ tagMask s q a tk &&& (s.group q.group).tagBase ≠ 0 then none
      else some (.tag false (tagMask s q a tk)) := by
  unfold tagwlHold
  rw [hl]; rfl

/-- TAGWA goes on when every tag of the leader's mask is set (R149). -/
theorem tagwaHold_eq_none (h : ∀ tk, leader s q g = some tk → ∀ k, (tagMask s q a tk).getLsbD k = true →
    (s.group q.group).tagBase.getLsbD k = true) : tagwaHold s q a g = none := by
  cases hl : leader s q g with
  | none => unfold tagwaHold; rw [hl]; rfl
  | some tk => rw [tagwaHold_leader hl, if_pos ((and_not_eq_zero_iff _ _).2 (h tk hl))]

theorem tagwaHold_eq_some {tk k : Nat} (hl : leader s q g = some tk) (hm : (tagMask s q a tk).getLsbD k = true)
    (ht : (s.group q.group).tagBase.getLsbD k = false) : tagwaHold s q a g = some (.tag true (tagMask s q a tk)) := by
  rw [tagwaHold_leader hl, if_neg]
  intro h
  exact Bool.false_ne_true (ht.symm.trans ((and_not_eq_zero_iff _ _).1 h k hm))

/-- TAGWL goes on when the leader's mask is empty or names a tag that is set (R149). -/
theorem tagwlHold_eq_none (h : ∀ tk, leader s q g = some tk → (∀ k, (tagMask s q a tk).getLsbD k = false)
    ∨ ∃ k, (tagMask s q a tk).getLsbD k = true ∧ (s.group q.group).tagBase.getLsbD k = true) :
    tagwlHold s q a g = none := by
  cases hl : leader s q g with
  | none => unfold tagwlHold; rw [hl]; rfl
  | some tk =>
    rw [tagwlHold_leader hl, if_pos]
    rcases h tk hl with h | ⟨k, hm, ht⟩
    · exact .inl ((eq_zero_iff_bits _).2 h)
    · exact .inr fun h => Bool.false_ne_true (((and_eq_zero_iff _ _).1 h k hm).symm.trans ht)

theorem tagwlHold_eq_some {tk k : Nat} (hl : leader s q g = some tk) (hm : (tagMask s q a tk).getLsbD k = true)
    (ht : ∀ j, (tagMask s q a tk).getLsbD j = true → (s.group q.group).tagBase.getLsbD j = false) :
    tagwlHold s q a g = some (.tag false (tagMask s q a tk)) := by
  rw [tagwlHold_leader hl, if_neg]
  rintro (h | h)
  · exact Bool.false_ne_true (((eq_zero_iff_bits _).1 h k).symm.trans hm)
  · exact h ((and_eq_zero_iff _ _).2 ht)

end Wait

/-! ### The slots -/

/-- The number that TAGFF gives a lane (R150). -/
def firstTag (s : State) (q : Issue) (a : BitVec 4) (l : Nat × Nat) : Nat :=
  trailingZeros (xOf s l a &&& (s.group q.group).tagBits) 0 64

theorem tagff_next {s : State} {q : Issue} (d a : BitVec 4) (g : Guard) (hq : s.issue = some q) :
    exec (.tagff d a g) s = .next (s.flyX q g 1 d (fun l => BitVec.ofNat 64 (firstTag s q a l))) :=
  slotNext_some _ hq

theorem getLsbD_tagff_mask (s : State) (q : Issue) (a : BitVec 4) (l : Nat × Nat) (k : Nat) :
    (xOf s l a &&& (s.group q.group).tagBits).getLsbD k
      = ((tagMask s q a l.2).getLsbD k && (s.group q.group).tagBase.getLsbD k) := by
  unfold Group.tagBits xOf tagMask
  simp only [BitVec.getLsbD_and, Bool.and_assoc, Bool.and_comm]

/-- Settles O27: the holds of TAGWA and TAGWL, and the number of TAGFF, read bit by bit. -/
theorem copyTagSlots : Obligations.CopyTagSlots := by
  unfold Obligations.CopyTagSlots
  intro s q d a g hq
  simp only [← getLsbD_tagMask]
  refine ⟨fun h => slotHeld_effect (fun _ => s) hq (h.imp_right tagwaHold_eq_none),
    fun tk k hc hl hm ht => slotHeld_held (fun _ => s) hq hc (tagwaHold_eq_some hl hm ht),
    fun h => slotHeld_effect (fun _ => s) hq (h.imp_right tagwlHold_eq_none),
    fun tk k hc hl hm ht => slotHeld_held (fun _ => s) hq hc (tagwlHold_eq_some hl hm ht), firstTag s q a, tagff_next d a g hq,
    fun l => ⟨trailingZeros_le _ _ _, fun k hk => ?_, fun h => ?_⟩⟩
  · have := getLsbD_below_trailingZeros _ hk
    rwa [Nat.zero_add, getLsbD_tagff_mask] at this
  · have := getLsbD_trailingZeros _ h
    rwa [Nat.zero_add, getLsbD_tagff_mask] at this

end Sys2Proof.Proofs

/-! SUPPORT. Semaphore writes (R27, R147, R148, R310): one update, the updates of a cycle, and an entry of the core's order
that acts on a semaphore. -/

namespace Sys2Proof.Proofs

open Sys2Proof Sys2Proof.Machine Sys2Proof.Laws

/-! ### One update -/

/-- The value that a semaphore takes is the exact one clamped to 0 to 0xFFFF. -/
theorem satSem_toNat (v : Int) : (satSem v).toNat = (max 0 (min v 65535)).toNat := by
  unfold satSem
  split
  · have : max 0 (min v 65535) = 0 := by omega
    rw [this]; rfl
  · split
    · have : max 0 (min v 65535) = 65535 := by omega
      rw [this]; rfl
    · have : max 0 (min v 65535) = v := by omega
      rw [this, BitVec.toNat_ofInt]
      omega

theorem sem_setSem (gr : Group) (n k : Nat) (v : BitVec 16) :
    (gr.setSem n v).sem k = if k = n then v else gr.sem k := spGet_spSet ..

theorem sem_semOp (gr : Group) (o : SemOp) (k : Nat) : (gr.semOp o).sem k
    = if k = o.sem then satSem (if o.set then o.v else (gr.sem k).toNat + o.v) else gr.sem k := by
  unfold Group.semOp
  split
  · exact sem_setSem ..
  · refine (sem_setSem ..).trans ?_
    split
    · next hk => rw [hk]
    · rfl

theorem semSat_semOp (gr : Group) (o : SemOp) : (gr.semOp o).semSat
    = (gr.semSat || (!o.set && decide (65535 < ((gr.sem o.sem).toNat : Int) + o.v))) := by
  unfold Group.semOp
  cases o.set
  · rfl
  · simp [Group.setSem]

@[simp] theorem semOps_semOp (gr : Group) (o : SemOp) : (gr.semOp o).semOps = gr.semOps := by
  unfold Group.semOp
  split <;> rfl

/-! ### The updates of a cycle -/

/-- An insertion by key goes after every key that is not larger and right before the first larger one. -/
theorem insertByKey_split {α : Type} (key : α → Nat) (x : α) (xs : List α) : ∃ l r, xs = l ++ r
    ∧ insertByKey key x xs = l ++ x :: r ∧ (∀ p ∈ l, key p ≤ key x)
    ∧ (∀ p, r.head? = some p → key x < key p) := by
  induction xs with
  | nil => exact ⟨[], [], rfl, rfl, by simp, by simp⟩
  | cons y ys ih =>
    unfold insertByKey
    split
    · next h => exact ⟨[], y :: ys, rfl, rfl, by simp, by simpa using h⟩
    · next h =>
      obtain ⟨l, r, he, hi, hl, hr⟩ := ih
      refine ⟨y :: l, r, by rw [he]; rfl, by rw [hi]; rfl, ?_, hr⟩
      simpa using ⟨Nat.le_of_not_lt h, hl⟩

theorem semOps_foldl_semOp (ops : List SemOp) (gr : Group) : (ops.foldl Group.semOp gr).semOps = gr.semOps := by
  induction ops generalizing gr with
  | nil => rfl
  | cons o ops ih => rw [List.foldl_cons, ih, semOps_semOp]

/-- The updates of the cycle once one more has reached a semaphore. -/
theorem semOps_semWrite (gr : Group) (o : SemOp) :
    (gr.semWrite o).semOps = insertByKey (fun p => p.rank) o gr.semOps := semOps_foldl_semOp ..

/-! ### An entry of the core's order -/

/-- The releases that a semaphore write of some threads follows. -/
def relsOf (s : State) (tks : List Nat) : Rels := tks.foldl (fun r tk => r.join (s.thread tk).rel) Rels.zero

/-- The entry of a semaphore write. -/
def semEntry (s : State) (core g : Nat) (tks : List Nat) (o : SemOp) : PendWrite :=
  ⟨s.ids, (s.core core).seq, tks.head?.getD 0, 0, .sem o g, relsOf s tks, .nc, 0⟩

/-- The state in which that entry has joined the core's order. -/
def semPushed (s : State) (core g : Nat) (tks : List Nat) (o : SemOp) : State :=
  s.push core (tks.head?.getD 0) 0 .nc (relsOf s tks) (.sem o g)

theorem writes_semPushed (s : State) (core g : Nat) (tks : List Nat) (o : SemOp) :
    ((semPushed s core g tks o).core core).writes = (s.core core).writes ++ [semEntry s core g tks o] := by
  unfold semPushed State.push State.bumpSeq
  rw [core_modCore_same, core_modCore_same]
  rfl

/-- A semaphore write performs in its issue step if it is ready there, and else stays pending. -/
theorem storeSem_eq (s : State) (core g : Nat) (tks : List Nat) (o : SemOp) : s.storeSem core g tks o
    = if (semPushed s core g tks o).writeReady core (semEntry s core g tks o) = true
      then (semPushed s core g tks o).performWrite core (semEntry s core g tks o) else semPushed s core g tks o := by
  have h : s.storeSem core g tks o = (semPushed s core g tks o).actNew core s := rfl
  rw [h]
  unfold State.actNew
  rw [writes_semPushed, List.drop_left]
  rfl

section StoreSem

variable {s : State} {core g : Nat} {tks : List Nat} {o : SemOp}

theorem storeSem_ready (h : (semPushed s core g tks o).writeReady core (semEntry s core g tks o) = true) :
    (s.storeSem core g tks o).groups = (s.modGroup g (fun gr => gr.semWrite o)).groups := by
  rw [storeSem_eq, if_pos h]
  rfl

theorem storeSem_pending (h : (semPushed s core g tks o).writeReady core (semEntry s core g tks o) = false) :
    s.storeSem core g tks o = semPushed s core g tks o := by
  rw [storeSem_eq, if_neg (Bool.eq_false_iff.1 h)]

end StoreSem

theorem storeSem_frame (s : State) (core g : Nat) (tks : List Nat) (o : SemOp) : let t := s.storeSem core g tks o
    t.mem = s.mem ∧ t.scr = s.scr ∧ t.threads = s.threads := by
  rw [storeSem_eq]
  split
  · exact ⟨rfl, rfl, rfl⟩
  · exact ⟨rfl, rfl, rfl⟩

/-! ### SEMWAIT -/

theorem semwaitHold_eq_none {s : State} {q : Issue} {n : BitVec 8} {a : BitVec 4} {g : Guard}
    (h : ∀ tk, leader s q g = some tk → (max 0 (min ((s.thread tk).readX a.toNat).toInt 65535)).toNat
      ≤ ((s.group q.group).semStart n.toNat).toNat) : semwaitHold s q n a g = none := by
  unfold semwaitHold
  cases hl : leader s q g with
  | none => rfl
  | some tk =>
    simp only [Option.bind_some, satSem_toNat]
    exact if_neg (Nat.not_lt.2 (h tk hl))

theorem semwaitHold_eq_some {s : State} {q : Issue} {n : BitVec 8} {a : BitVec 4} {g : Guard} {tk : Nat}
    (hl : leader s q g = some tk) (h : ((s.group q.group).semStart n.toNat).toNat
      < (max 0 (min ((s.thread tk).readX a.toNat).toInt 65535)).toNat) : semwaitHold s q n a g
      = some (.semwait n.toNat (max 0 (min ((s.thread tk).readX a.toNat).toInt 65535)).toNat) := by
  unfold semwaitHold
  simp only [hl, Option.bind_some, satSem_toNat]
  exact if_pos h

/-! ### The slots -/

theorem semset_next {s : State} {q : Issue} (n : BitVec 8) (a : BitVec 4) (g : Guard) (hq : s.issue = some q) :
    exec (.semset n a g) s = .next (match leader s q g with
      | none => s
      | some tk => s.storeSem q.core q.group ((participants s q g).map (fun l => l.2))
          ⟨semRank q true, n.toNat, true, ((s.thread tk).readX a.toNat).toInt⟩) :=
  (slotNext_some _ hq).trans rfl

theorem semadd_next {s : State} {q : Issue} (n : BitVec 8) (a : BitVec 4) (g : Guard) (hq : s.issue = some q) :
    exec (.semadd n a g) s = .next (if participants s q g = [] then s
      else s.storeSem q.core q.group ((participants s q g).map (fun l => l.2))
        ⟨semRank q false, n.toNat, false, ((participants s q g).map (fun l => (xOf s l a).toInt)).sum⟩) := by
  refine (slotNext_some _ hq).trans ?_
  simp only [List.isEmpty_iff]

/-- Settles O26: each clause is a law of the update, of the core's order or of the slot. -/
theorem semaphoreSlots : Obligations.SemaphoreSlots := by
  unfold Obligations.SemaphoreSlots
  intro s q n a g hq
  refine ⟨semset_next n a g hq, semadd_next n a g hq, fun o => ⟨storeSem_ready, fun h => ⟨?_, ?_⟩, storeSem_frame ..⟩,
    fun gr o => ⟨?_, ?_⟩, fun gr o k => ⟨?_, semSat_semOp gr o, semOps_semOp gr o⟩,
    fun h => slotHeld_effect (fun _ => s) hq (h.imp_right semwaitHold_eq_none),
    fun tk hc hl h => slotHeld_held (fun _ => s) hq hc (semwaitHold_eq_some hl h)⟩
  · exact (congrArg State.groups (storeSem_pending h)).trans rfl
  · exact (congrArg (fun z : State => (z.core q.core).writes) (storeSem_pending h)).trans (writes_semPushed ..)
  · rw [semOps_semWrite]
    rfl
  · rw [semOps_semWrite]
    exact insertByKey_split _ o gr.semOps
  · rw [sem_semOp]
    split
    · exact satSem_toNat _
    · rfl

end Sys2Proof.Proofs

/-! SUPPORT. Accumulator tiles in the vector slots (R33, R180 to R182). -/

namespace Sys2Proof.Proofs

open Sys2Proof Sys2Proof.Machine Sys2Proof.Laws

section TileSlot

variable {s : State} {q : Issue} {i : Instr} {g : Guard} {tile : BitVec 3} (effect : Issue → State)

theorem tokenCond_eq_none (h : ((s.group q.group).tile tile.toNat).token ≠ .m ∨ participants s q g = []) :
    tokenCond s q g tile = none := by
  refine if_neg fun hm => ?_
  rcases h with h | h
  · exact h hm.1
  · exact hm.2 h

theorem tokenHold_eq_none (h : ((s.group q.group).tile tile.toNat).token ≠ .mv ∨ participants s q g = []) :
    tokenHold s q g tile = none := by
  refine if_neg fun hm => ?_
  rcases h with h | h
  · exact h hm.1
  · exact hm.2 h

/-- What a tile slot finds first: a register beyond a frame, else the token fault. -/
theorem tileConds_eq (hf : frameCond s q i = none) :
    (frameCond s q i).orElse (fun _ => tokenCond s q g tile) = tokenCond s q g tile := by
  rw [hf]; rfl

/-- An access on a tile in state V has its effect. -/
theorem tileSlot_effect (hq : s.issue = some q) (h : q.cleared = true ∨ (frameCond s q i = none
      ∧ (((s.group q.group).tile tile.toNat).token = .v ∨ participants s q g = []))) :
    tileSlot s i g tile effect = .next (effect q) := by
  have hc : Unbarred q ((frameCond s q i).orElse (fun _ => tokenCond s q g tile)) := h.imp_right fun ⟨hf, hv⟩ =>
    (tileConds_eq hf).trans (tokenCond_eq_none (hv.imp_left fun e => by rw [e]; decide))
  have hh : Unheld q (tokenHold s q g tile) := h.imp_right fun ⟨_, hv⟩ =>
    tokenHold_eq_none (hv.imp_left fun e => by rw [e]; decide)
  exact (slotCond_effect _ hq hc).trans (slotHeld_effect effect hq hh)

variable (hq : s.issue = some q) (hc : q.cleared = false) (hf : frameCond s q i = none) (hp : participants s q g ≠ [])
include hq hc hf hp

/-- An access on a tile in state M is a token fault. -/
theorem tileSlot_fault (h : ((s.group q.group).tile tile.toNat).token = .m) :
    tileSlot s i g tile effect = .next (s.takeCond q (Cond.plain q 0x0A 0 q.cur)) :=
  slotCond_taken _ hq hc ((tileConds_eq hf).trans (if_pos ⟨h, hp⟩))

/-- An access on a tile in state MV holds its run. -/
theorem tileSlot_hold (h : ((s.group q.group).tile tile.toNat).token = .mv) :
    tileSlot s i g tile effect = .next (s.hold q.run (.token tile.toNat)) := by
  have hn : tokenCond s q g tile = none := tokenCond_eq_none (.inl (by rw [h]; decide))
  exact (slotCond_effect _ hq (.inr ((tileConds_eq hf).trans hn))).trans (slotHeld_held effect hq hc (if_pos ⟨h, hp⟩))

end TileSlot

theorem tokv_next {s : State} {q : Issue} (tile : BitVec 3) (g : Guard) (hq : s.issue = some q) :
    exec (.tokv tile g) s = .next (if participants s q g = [] ∨ ((s.group q.group).tile tile.toNat).token ≠ .m then s
      else s.modGroup q.group (fun gr => gr.setTile tile.toNat { (s.group q.group).tile tile.toNat with
        token := if s.tileBusy q.group tile.toNat then .mv else .v })) := by
  refine (slotNext_some _ hq).trans (congrArg _ ?_)
  simp only [List.isEmpty_iff]
  by_cases hp : participants s q g = []
  · rw [if_pos hp, if_pos (.inl hp)]
  · by_cases hm : ((s.group q.group).tile tile.toNat).token = .m
    · have hn : ¬(participants s q g = [] ∨ ((s.group q.group).tile tile.toNat).token ≠ .m) := by simp [hp, hm]
      rw [if_neg hp, if_pos hm, if_neg hn]
      rfl
    · rw [if_neg hp, if_neg hm, if_pos (.inr hm)]

theorem tokm_next {s : State} {q : Issue} (tile : BitVec 3) (g : Guard) (hq : s.issue = some q) :
    exec (.tokm tile g) s = .next (if participants s q g = [] then s else s.modGroup q.group (fun gr =>
      gr.setTile tile.toNat { (s.group q.group).tile tile.toNat with token := .m })) := by
  refine (slotNext_some _ hq).trans (congrArg _ ?_)
  simp only [List.isEmpty_iff]
  rfl

/-- Settles O43: both accesses are tile slots, and both are split by the token of the tile. -/
theorem tileSlots : Obligations.TileSlots := by
  unfold Obligations.TileSlots
  intro s q vd row data tile half g hq
  refine ⟨tileSlot_effect _ hq, tileSlot_effect _ hq, fun i hi hc hf hp => ?_, tokv_next tile g hq, tokm_next tile g hq⟩
  rcases List.mem_pair.1 hi with rfl | rfl
  · exact ⟨tileSlot_fault _ hq hc hf hp, tileSlot_hold _ hq hc hf hp⟩
  · exact ⟨tileSlot_fault _ hq hc hf hp, tileSlot_hold _ hq hc hf hp⟩

end Sys2Proof.Proofs

/-! SUPPORT. Issue of engine commands (R23, R30, R36, R234, R239 to R241, R255, R257, R263): what a slot issues with and
without a leader lane. -/

namespace Sys2Proof.Proofs

open Sys2Proof Sys2Proof.Machine Sys2Proof.Laws

theorem slotNext_eq {s : State} {q : Issue} {f : Issue → State} {t : State} (hq : s.issue = some q) (h : f q = t) :
    slotNext s f = .next t := (slotNext_some f hq).trans (congrArg _ h)

/-! ### The leader lane -/

theorem leader_of_noLanes {q : Issue} (h : q.lanes = []) : q.leader = none := by
  unfold Issue.leader
  rw [h]; rfl

section NoLeader

variable {s : State} {q : Issue} (h : q.leader = none)
include h

theorem issueX_none (op : CmdOp) (hd : Sync) (u v : DWord) : s.issueX q op hd u v = s := by
  unfold State.issueX
  rw [h]

theorem issueC_none (op : CmdOp) (o : LoadOp) (f : Cmd → Cmd) : s.issueC q op o f = s := by
  unfold State.issueC
  rw [h]

theorem shapeWrite_none (sh fd : Nat) (v : DWord) : s.shapeWrite q sh fd v = s := by
  unfold State.shapeWrite
  rw [h]

end NoLeader

/-- The group once a C slot has taken its tag and its identifier. -/
def channelTaken (s : State) (q : Issue) (o : LoadOp) : State :=
  s.modGroup q.group (fun gr => (gr.takeTag o.tag.toNat).takeIdent o.ch.toNat)

section Leader

variable {s : State} {q : Issue} {tk : Nat} (h : q.leader = some tk)
include h

theorem leaderX_eq (r : BitVec 4) : leaderX s q r = (s.thread tk).readX r.toNat := by
  unfold leaderX
  rw [h]; rfl

theorem issueX_eq (op : CmdOp) (hd : Sync) {u u' v v' : DWord} (hu : u = u') (hv : v = v') :
    s.issueX q op hd u v = s.addCmd (blankCmd s q op hd tk u' v') := by
  unfold State.issueX
  rw [h, hu, hv]

theorem issueC_eq (op : CmdOp) (o : LoadOp) (f : Cmd → Cmd) : s.issueC q op o f = (channelTaken s q o).addCmd
    (f { blankCmd (channelTaken s q o) q op o.h tk ((s.thread tk).readX o.xs.toNat) ((s.thread tk).readX o.xd.toNat) with
      ch := o.ch.toNat, tag := o.tag.toNat, ident := (((channelTaken s q o).group q.group).chan o.ch.toNat).cid }) := by
  unfold State.issueC
  rw [h]; rfl

theorem shapeWrite_eq (sh fd : Nat) (v : DWord) :
    s.shapeWrite q sh fd v = s.fly q 3 [(tk, .shape sh fd, (v &&& lowMask (shapeWidth fd)).zeroExtend 128)] := by
  unfold State.shapeWrite
  rw [h]; rfl

theorem shset_next (hq : s.issue = some q) (sh : BitVec 3) (field : BitVec 5) (xa : BitVec 4) :
    exec (.shset sh field xa) s = .next (s.fly q 3 [(tk, .shape sh.toNat field.toNat,
      ((s.thread tk).readX xa.toNat &&& lowMask (shapeWidth field.toNat)).zeroExtend 128)]) := by
  refine slotNext_eq hq ((shapeWrite_eq h ..).trans ?_)
  rw [h]; rfl

end Leader

/-! ### Slots with checks -/

section Checked

variable {s : State} {q : Issue} {cond : Issue → Option Cond} {effect : Issue → Out} {u t : State} (hq : s.issue = some q)
include hq

/-- A checked slot answers its effect when no check fails, and takes the condition that fails otherwise (R257). -/
theorem slotCond_split {found : Option Cond} (hc : cond q = found) (he : effect q = .next u) (ht : u = t) :
    (Unbarred q found → slotCond s cond effect = .next t)
    ∧ ∀ bad, q.cleared = false → found = some bad → slotCond s cond effect = .next (s.takeCond q bad) :=
  ⟨fun h => (slotCond_effect effect hq (hc ▸ h)).trans (ht ▸ he),
   fun _ h1 h2 => slotCond_taken effect hq h1 (hc.trans h2)⟩

theorem slotCond_cleared (he : effect q = .next u) (ht : u = t) (h : q.cleared = true) :
    slotCond s cond effect = .next t := (slotCond_effect effect hq (.inl h)).trans (ht ▸ he)

end Checked

/-- SCLA and SCLB: their bytes are read at issue (R263). -/
theorem scaleSlot_split {s : State} {q : Issue} {tk : Nat} (hq : s.issue = some q) (hl : q.leader = some tk) (side lb : Bool)
    (xa : BitVec 4) : let v := (s.thread tk).readX xa.toNat
    (Unbarred q (scaleCond s q xa) → scaleSlot side lb xa s = .next (s.addCmd (blankCmd s q
      (.scale side lb (some (s.scrBytes q.core q.group q.seq0 v 1024))) noSync tk v 0)))
    ∧ ∀ bad, q.cleared = false → scaleCond s q xa = some bad → scaleSlot side lb xa s = .next (s.takeCond q bad) :=
  slotCond_split hq rfl rfl (by rw [← leaderX_eq hl xa]; exact issueX_eq hl _ _ rfl rfl)

/-! ### Tags and identifiers (R30) -/

section Channel

variable (gr : Group) (n ch : Nat)

theorem tagsOut_take (k : Nat) :
    ((gr.takeTag n).takeIdent ch).tagsOut k = if k = n then gr.tagsOut n + 1 else gr.tagsOut k :=
  spGet_spSet (fun _ => 0) gr.tagCount n k (gr.tagsOut n + 1)

/-- The bits of %tags once a command has taken tag n: that one clears. -/
theorem tags_take (k : Nat) :
    ((gr.takeTag n).takeIdent ch).tags.getLsbD k = (gr.tags.getLsbD k && !(decide (k < 64) && decide (n = k))) := by
  have h : ((gr.takeTag n).takeIdent ch).tags = gr.tags &&& ~~~(BitVec.ofNat 64 (2 ^ n)) := rfl
  rw [h, BitVec.getLsbD_and, BitVec.getLsbD_not, BitVec.getLsbD_ofNat, Nat.testBit_two_pow]
  by_cases hk : k < 64
  · simp [hk]
  · simp [BitVec.getLsbD_of_ge gr.tags k (by omega)]

theorem chan_take : ((gr.takeTag n).takeIdent ch).chan ch = { gr.chan ch with cid := (gr.chan ch).cid + 1 } :=
  spGet_spSet_same (fun _ => Channel.zero) gr.chans ch { gr.chan ch with cid := (gr.chan ch).cid + 1 }

/-- What taking a tag and an identifier does: one more command on the tag, whose bit clears, and the next identifier. -/
theorem channel_take (hn : n < 64) : let g' := (gr.takeTag n).takeIdent ch
    g'.tagsOut n = gr.tagsOut n + 1 ∧ g'.tags.getLsbD n = false
    ∧ (g'.chan ch).cid = (gr.chan ch).cid + 1 ∧ (g'.chan ch).cdone = (gr.chan ch).cdone
    ∧ ∀ k, k ≠ n → g'.tags.getLsbD k = gr.tags.getLsbD k ∧ g'.tagsOut k = gr.tagsOut k := by
  refine ⟨(tagsOut_take ..).trans (if_pos rfl), (tags_take ..).trans (by simp [hn]), congrArg Channel.cid (chan_take ..),
    (congrArg Channel.cdone (chan_take gr n ch)).trans rfl, fun k hk => ⟨(tags_take ..).trans (by simp [Ne.symm hk]), ?_⟩⟩
  exact (tagsOut_take ..).trans (if_neg hk)

end Channel

/-! ### The statement -/

/-- Without a leader lane no engine slot issues anything. -/
theorem engineSlots_noLanes {s : State} {q : Issue} (h : Sync) (m : MmaOp) (c : CopyOp) (o : LoadOp) (tile : BitVec 3)
    (xa xb : BitVec 4) (fmt field : BitVec 5) (sh : BitVec 3) (imm : BitVec 16) (side lb : Bool) (hq : s.issue = some q)
    (hn : q.leader = none) :
    (∀ i ∈ [Instr.msync h, .sclz side lb, .copy c, .copyx c, .tload o, .pload o, .dload o, .intake o, .shset sh field xa,
      .shseti sh field imm], exec i s = .next s)
    ∧ (q.cleared = true → ∀ i ∈ [Instr.mma m, .accz h tile, .mst h tile xa xb fmt, .mld h tile xa xb, .mstat h tile xa,
      .scla lb xa, .sclb lb xa], exec i s = .next s) := by
  constructor
  · simp only [List.forall_mem_cons]
    exact ⟨slotNext_eq hq (issueX_none hn ..), slotNext_eq hq (issueX_none hn ..), slotNext_eq hq (issueC_none hn ..),
      slotNext_eq hq (issueC_none hn ..), slotNext_eq hq (issueC_none hn ..), slotNext_eq hq (issueC_none hn ..),
      slotNext_eq hq (issueC_none hn ..), slotNext_eq hq (issueC_none hn ..), slotNext_eq hq (shapeWrite_none hn ..),
      slotNext_eq hq (shapeWrite_none hn ..), List.forall_mem_nil _⟩
  · intro hc
    have X : ∀ {cond : Issue → Option Cond} {effect : Issue → Out} {op : CmdOp} {hd : Sync} {u v : DWord},
        effect q = .next (s.issueX q op hd u v) → slotCond s cond effect = .next s :=
      fun he => slotCond_cleared hq he (issueX_none hn ..) hc
    simp only [List.forall_mem_cons]
    exact ⟨X rfl, X rfl, X rfl, X rfl, X rfl, X rfl, X rfl, List.forall_mem_nil _⟩

/-- Settles O54: with a leader lane every slot issues what `issueX` or `issueC` captures, after its checks. -/
theorem engineSlots : Obligations.EngineSlots := by
  unfold Obligations.EngineSlots
  intro s q tk h m c o tile xa xb fmt field sh imm side lb hq
  refine ⟨fun hn => engineSlots_noLanes h m c o tile xa xb fmt field sh imm side lb hq (leader_of_noLanes hn), fun hl => ?_⟩
  replace hl : q.leader = some tk := hl
  have x : ∀ r : BitVec 4, leaderX s q r = (s.thread tk).readX r.toNat := leaderX_eq hl
  exact ⟨slotCond_split hq rfl rfl (issueX_eq hl _ _ (x _) (x _)),
    slotCond_split hq rfl rfl (issueX_eq hl _ _ rfl rfl),
    slotCond_split hq rfl rfl (issueX_eq hl _ _ (x _) (x _)),
    slotCond_split hq rfl rfl (issueX_eq hl _ _ (x _) (x _)),
    slotNext_eq hq (issueX_eq hl _ _ rfl rfl),
    slotCond_split hq rfl rfl (issueX_eq hl _ _ (x _) rfl),
    scaleSlot_split hq hl false lb xa,
    scaleSlot_split hq hl true lb xa,
    slotNext_eq hq (issueX_eq hl _ _ rfl rfl),
    ⟨slotNext_eq hq (issueC_eq hl ..), slotNext_eq hq (issueC_eq hl ..)⟩,
    slotNext_eq hq (issueC_eq hl ..),
    slotNext_eq hq (issueC_eq hl ..),
    slotNext_eq hq (issueC_eq hl ..),
    slotNext_eq hq (issueC_eq hl ..),
    shset_next hl hq sh field xa,
    slotNext_eq hq (shapeWrite_eq hl ..),
    fun gr n ch hn => channel_take gr n ch hn⟩

end Sys2Proof.Proofs

/-! SUPPORT. The events of a core (R26, R103, R104, R130, R235, R236, R285, R286, R288, R358, R426): what each answers
where it is enabled, and what it leaves alone. -/

namespace Sys2Proof.Proofs

open Sys2Proof Sys2Proof.Machine Sys2Proof.Laws

/-! ### The least element -/

theorem leastBy_spec {α : Type} (key : α → Nat) (l : List α) : (l = [] ∧ leastBy key l = none)
    ∨ ∃ m ∈ l, leastBy key l = some m ∧ ∀ d ∈ l, key m ≤ key d := by
  induction l with
  | nil => exact .inl ⟨rfl, rfl⟩
  | cons x xs ih =>
    right
    unfold leastBy
    rcases ih with ⟨rfl, h⟩ | ⟨m, hm, h, hle⟩
    · rw [h]
      exact ⟨x, by simp, rfl, by simp⟩
    · rw [h]
      simp only [List.forall_mem_cons]
      split
      · next hlt => exact ⟨m, List.mem_cons_of_mem _ hm, rfl, Nat.le_of_lt hlt, hle⟩
      · next hlt =>
        exact ⟨x, List.mem_cons_self .., rfl, Nat.le_refl _, fun d hd => (Nat.le_of_not_lt hlt).trans (hle d hd)⟩

/-- An element below every other is the least. -/
theorem leastBy_eq {α : Type} {key : α → Nat} {l : List α} {c : α} (hc : c ∈ l)
    (h : ∀ d ∈ l, key c ≤ key d ∧ (key d = key c → d = c)) : leastBy key l = some c := by
  rcases leastBy_spec key l with ⟨rfl, -⟩ | ⟨m, hm, he, hle⟩
  · cases hc
  · rw [he, (h m hm).2 (Nat.le_antisymm (hle c hc) (h m hm).1)]

/-- Of the commands of a core that pass a test, the earliest is chosen. -/
theorem earliest_eq {s : State} {core : Nat} {c : Cmd} {ready : Cmd → Bool} (hm : c ∈ s.cmds) (hc : c.core = core)
    (hr : ready c = true)
    (h : ∀ d ∈ s.cmds, d.core = core → ready d = true → c.id ≤ d.id ∧ (d.id = c.id → d = c)) :
    leastBy (fun c => c.id) (s.cmds.filter (fun c => c.core == core && ready c)) = some c := by
  refine leastBy_eq (List.mem_filter.2 ⟨hm, by simp [hc, hr]⟩) fun d hd => ?_
  obtain ⟨hd, hp⟩ := List.mem_filter.1 hd
  simp only [Bool.and_eq_true, beq_iff_eq] at hp
  exact h d hd hp.1 hp.2

/-! ### Bundles and bins -/

theorem bundleIssue_next {s : State} {core : Nat} (hi : s.issue = none) (hf : (s.core core).issueFrom ≤ s.coreCycles core) :
    exec (.bundleIssue core) s
      = .next (tryAll ((s.settleCore core).sendSignals core) core (((s.settleCore core).sendSignals core).candidates core)) :=
  if_neg (by simp [hi, hf])

theorem binAged_next {s : State} {core bin : Nat} {b : Bin} (hb : (s.core core).bins[bin]? = some b) (hr : b.ready = none)
    (ha : b.oldest + (s.launchOf b.group).age ≤ s.coreCycles core) :
    exec (.binAged core bin) s = .next (s.modCore core (fun c =>
      { c with bins := modAt (fun b => { b with ready := some (b.oldest + (s.launchOf b.group).age + 1) }) c.bins bin })) := by
  show execBinAged core bin s = _
  unfold execBinAged
  simp only [hb]
  exact if_pos (by simp [hr, ha])

/-! ### Starts of engine commands -/

theorem siphonCommandStart_next {s : State} {core : Nat} {c : Cmd} (hm : c ∈ s.cmds) (hc : c.core = core)
    (hr : s.siphonReady c = true)
    (h : ∀ d ∈ s.cmds, d.core = core → s.siphonReady d = true → c.id ≤ d.id ∧ (d.id = c.id → d = c)) :
    exec (.siphonCommandStart core) s = .next (s.startSiphon c) := by
  show execSiphonCommandStart core s = _
  unfold execSiphonCommandStart
  rw [earliest_eq hm hc hr h]

theorem timedCopyStartTime_next {s : State} {cmd : Nat} {c : Cmd} (hf : s.findCmd cmd = some c) (ht : c.timed = true)
    (hr : s.siphonReady c = true) (h : ∀ d ∈ s.cmds, d.core = c.core → s.siphonReady d = true → c.id ≤ d.id) :
    exec (.timedCopyStartTime cmd) s = .next (s.startSiphon c) := by
  have hall : s.cmds.all (fun d => !(d.core == c.core && decide (d.id < c.id) && s.siphonReady d)) = true := by
    rw [List.all_eq_true]
    intro d hd
    by_contra hn
    simp only [Bool.not_eq_true', Bool.not_eq_false, Bool.and_eq_true, beq_iff_eq, decide_eq_true_eq] at hn
    exact absurd (h d hd hn.1.1 hn.2) (Nat.not_le.2 hn.1.2)
  show execTimedCopyStartTime cmd s = _
  unfold execTimedCopyStartTime
  simp only [hf]
  exact if_pos (by rw [ht, hr, hall]; rfl)

/-- A Siphon command as its start marks it; an intake fixes its keys (R447). -/
def startedCmd (s : State) (c : Cmd) : Cmd :=
  { c with started := true, inBuffer := false, startSeq := s.ids, keys := if c.op = .intake then s.mgmt.keys else [] }

/-- The state in which a Siphon command has started and done what it can. -/
def siphonStep (s : State) (c : Cmd) : State :=
  ((s.nextId.modCmd c.id (fun _ => startedCmd s c)).modCore c.core (fun k =>
    { k with siphonFrom := s.coreCycles c.core + 1 })).stepCmd (startedCmd s c)

/-- A start of the Siphon; a copy of no elements retires in it. -/
theorem startSiphon_found {s : State} {c d : Cmd} (h : (siphonStep s c).findCmd c.id = some d) : s.startSiphon c
    = if d.finished = true ∧ (d.op = .copy ∨ d.op = .copyx) ∧ d.total = 0 then (siphonStep s c).tryRetire d
      else siphonStep s c := by
  unfold siphonStep startedCmd at h ⊢
  unfold State.startSiphon
  simp only [beq_iff_eq, h, Bool.and_eq_true, Bool.or_eq_true, and_assoc]

/-- The state in which a matrix command has started, and the matrix engine has had its start of the cycle. -/
def matrixStep (s : State) (core : Nat) (c : Cmd) : State :=
  (s.startMatrix c).modCore core (fun k => { k with matrixFrom := s.coreCycles core + 1 })

theorem matrixCommandStart_next {s : State} {core : Nat} {c : Cmd} (hm : c ∈ s.cmds) (hc : c.core = core)
    (hr : s.matrixReady c = true)
    (h : ∀ d ∈ s.cmds, d.core = core → s.matrixReady d = true → c.id ≤ d.id ∧ (d.id = c.id → d = c)) :
    exec (.matrixCommandStart core) s
      = .next (if c.op = .msync then (matrixStep s core c).retireDone c.id else matrixStep s core c) := by
  show execMatrixCommandStart core s = _
  unfold execMatrixCommandStart
  rw [earliest_eq hm hc hr h]
  simp only [beq_iff_eq]
  rfl

/-! ### Retirement -/

/-- What a retirement leaves alone. -/
theorem retire_frame (s : State) (c : Cmd) (r : Option Rec) : let t := s.retire c r
    t.mem = s.mem ∧ t.scr = s.scr ∧ t.threads = s.threads ∧ t.runs = s.runs ∧ t.cores = s.cores
    ∧ (∀ k, k ≠ c.group → t.group k = s.group k) ∧ t.cmds = s.cmds.filter (fun d => d.id != c.id) :=
  ⟨rfl, rfl, rfl, rfl, rfl, fun _ hk => spGet_spPut_other _ _ _ hk, rfl⟩

theorem stepCmd_finished {s : State} {c : Cmd} (h : c.finished = true) : s.stepCmd c = s := by
  unfold State.stepCmd
  exact if_pos (by simp [h])

theorem tryRetire_room {s : State} {c : Cmd} (h : (recordOf s c).isSome = false ∨ (s.group c.group).statRoom = true) :
    s.tryRetire c = (s.retireEffect c).retire c (recordOf s c) := by
  unfold State.tryRetire
  exact if_neg (by rcases h with h | h <;> simp [h])

theorem commandRetire_next {s : State} {cmd : Nat} {c c' : Cmd} (hf : s.findCmd cmd = some c) (hs : c.started = true)
    (hf' : (s.stepCmd c).findCmd cmd = some c') : exec (.commandRetire cmd) s
      = .next (if c'.finished = true then (s.stepCmd c).tryRetire c' else s.stepCmd c) := by
  show execCommandRetire cmd s = _
  unfold execCommandRetire
  simp only [hf, hs, hf', Bool.not_true, Bool.false_eq_true, if_false]

theorem commandRetire_finished {s : State} {cmd : Nat} {c : Cmd} (hf : s.findCmd cmd = some c) (hs : c.started = true)
    (hd : c.finished = true) (h : (recordOf s c).isSome = false ∨ (s.group c.group).statRoom = true) :
    exec (.commandRetire cmd) s = .next ((s.retireEffect c).retire c (recordOf s c)) := by
  have hstep : s.stepCmd c = s := stepCmd_finished hd
  rw [commandRetire_next hf hs (by rw [hstep]; exact hf), if_pos hd, hstep, tryRetire_room h]

/-! ### Frame waits -/

section FrameWait

variable {s : State} {core lane : Nat} {w : Waiter} (hw : s.oldestWaiter core lane = some w)
  (hr : s.oldestRefill core lane = none) (hb : s.waitsAs core w.thread .frame = true) (ho : s.reqOpen w.req = false)
include hw hr hb ho

theorem frameGrant_next (hd : w.dem ≤ s.blocksReady core lane) :
    exec (.frameGrant core lane) s = .next (s.grantWaiter core w) := by
  show execFrameGrant core lane s = _
  unfold execFrameGrant
  simp only [hw]
  exact if_pos (by simp [hr, hb, ho, hd])

/-- SPILL_TIMEOUT once its time has come or while the lane spills: what stopped the spilling says what is kept (R286). -/
theorem spillTimeout_next (hd : (s.spillingFor core lane w.thread).isSome = true
      ∨ max w.since (spGet (fun _ => (0, 0)) (s.core core).lastFreed lane).1 + 1024 ≤ s.coreCycles core) :
    exec (.spillTimeout core lane) s
      = (let r := spillUntil s core lane w.dem ((s.spillingFor core lane w.thread).getD none) 4096
         match r.2 with
         | some (v, x) =>
           let z := (r.1.setSpilling core lane (some (w.thread, some v))).wlWait v.1 x
           .next (z.1.setWaiter core w.thread (fun w => some { w with req := z.2 }))
         | none => .next (r.1.setSpilling core lane
             (if w.dem ≤ r.1.blocksFree core lane then none else some (w.thread, none)))) := by
  show execSpillTimeout core lane s = _
  unfold execSpillTimeout
  simp only [hw]
  exact (if_pos (by simpa [hr, hb, ho] using hd)).trans rfl

end FrameWait

/-- A grant that evicts no entry: the push, the end of the wait, and the release at the target (R281). -/
theorem grantWaiter_fits {s : State} {core : Nat} {w : Waiter} (h : (s.thread w.thread).evicts = none) :
    s.grantWaiter core w = ((((s.modThread w.thread (called w.entry w.carried w.dem)).setWaiter core w.thread
      (fun _ => none)).modThread w.thread (fun t => { t with pc := w.target })).release w.thread) := by
  have hp : s.pushNeeds w.thread = .ok [] := by unfold State.pushNeeds; simp only [h]
  unfold State.grantWaiter
  simp only [hp, pushFrame_fits _ _ _ h]

theorem grantWaiter_frame {s : State} {core : Nat} {w : Waiter} (h : (s.thread w.thread).evicts = none) :
    let t := s.grantWaiter core w
    t.mem = s.mem ∧ (∀ k, k ≠ w.thread → t.thread k = s.thread k) ∧ t.groups = s.groups
    ∧ (t.thread w.thread).entries = w.entry :: (s.thread w.thread).entries
    ∧ (t.thread w.thread).frames = newFrame w.dem w.carried :: (s.thread w.thread).frames := by
  rw [grantWaiter_fits h]
  obtain ⟨ts, runs, cores, ids, he, hother, b, p, d, a, hsame⟩ :=
    release_frame (((s.modThread w.thread (called w.entry w.carried w.dem)).setWaiter core w.thread
      (fun _ => none)).modThread w.thread (fun t => { t with pc := w.target })) w.thread
  rw [thread_modThread_same] at hsame
  have hcalled : ((s.modThread w.thread (called w.entry w.carried w.dem)).setWaiter core w.thread (fun _ => none)).thread
      w.thread = called w.entry w.carried w.dem (s.thread w.thread) := thread_modThread_same ..
  rw [hcalled] at hsame
  rw [he]
  refine ⟨rfl, fun k hk => (hother k hk).trans ?_, rfl, (congrArg Thread.entries hsame).trans rfl,
    (congrArg Thread.frames hsame).trans rfl⟩
  rw [thread_modThread_other _ _ hk]
  exact thread_modThread_other s _ hk

/-! ### Refills -/

section Refill

variable {s : State} {core lane : Nat} {r : RefillReq} (hr : s.oldestRefill core lane = some r)
  (hb : s.waitsAs core r.thread .refill = true) (ho : s.reqOpen r.req = false)
include hr hb ho

theorem refill_frame (he : r.entryAt = none) : exec (.refill core lane) s = .next (s.refillFrame core r) := by
  show execRefill core lane s = _
  unfold execRefill
  simp [hr, hb, ho, he]

/-- An entry held in memory is read before the frame is made resident (R277, R288). -/
theorem refill_entry {d : Nat} {ls : List Nat} (he : r.entryAt = some d)
    (hl : s.wlLocs r.thread needR (s.recordAddr r.thread d) 64 = .ok ls) :
    let e := entryOf (ls.map s.byte)
    let r' := { r with entryAt := none, pops := 0, pc := e.ret }
    exec (.refill core lane) s = .next ((((((s.markRange (s.thread r.thread).group false (s.recordAddr r.thread d)
      64).dropFrames core lane r.thread r.pops).modThread r.thread (fun t => t.takeEntry e r.late)).setRefill core r.thread
      (fun _ => some r')).refillFrame core r')) := by
  show execRefill core lane s = _
  unfold execRefill
  simp only [hr, hb, ho, he, hl, Bool.not_true, Bool.or_false, Bool.false_eq_true, if_false]

end Refill

/-! ### Swaps and group ends -/

/-- SWAP_COMMIT once every live thread of the group waits (R426). -/
theorem swapCommit_next {s : State} {group : Nat} {m : YieldMap} (hm : (s.group group).ymap = some m)
    (hl : s.liveThreads group ≠ []) (hg : s.groupRuns group = true)
    (hs : ∀ tk ∈ s.liveThreads group, (s.thread tk).blocked = .swap) : exec (.swapCommit group) s
      = if swapPasses s group m = true then .next (s.switchKernel group m) else .next (s.withdrawSwap group) := by
  show execSwapCommit group s = _
  unfold execSwapCommit
  simp only [hm]
  exact if_neg (by simpa [hl, hg] using hs)

theorem groupEnd_next {s : State} {group : Nat} (hp : (s.group group).place ≠ .ended) (hl : s.liveThreads group = [])
    (hc : ∀ c ∈ s.cmds, c.group ≠ group) : exec (.groupEnd group) s = .next (s.endGroup group) := by
  show execGroupEnd group s = _
  unfold execGroupEnd
  exact if_pos ⟨hp, by rw [hl]; rfl, by simpa using hc⟩

/-- The end of a group changes, besides what only names the group, only the cores, the pools and its launch. -/
theorem endGroup_frame (s : State) (group : Nat) : let t := s.endGroup group
    t.mem = s.mem ∧ t.scr = s.scr ∧ (∀ k, k ≠ group → t.group k = s.group k)
    ∧ t.runs = s.runs.filter (fun r => r.group != group)
    ∧ t.threads = s.threads.filter (fun q => groupOfThread q.1 != group) := by
  have hpool : ∃ sched, s.endGroup group = ((State.clearGroup { s with sched := sched } group).setGroup group
      (endedGroup (s.group group))).modLaunch (s.group group).launch (fun l => { l with ended := l.ended + 1 }) := by
    unfold State.endGroup
    dsimp only
    cases (s.group group).fixedPart <;> cases (s.group group).contextPart <;> exact ⟨_, rfl⟩
  obtain ⟨sched, h⟩ := hpool
  obtain ⟨cores, hf⟩ := freedGroup_frame { s with sched := sched } group
  rw [h]
  unfold State.clearGroup
  rw [hf]
  exact ⟨rfl, rfl, fun k hk => spGet_spPut_other _ _ _ hk, rfl, rfl⟩

/-! ### Service code -/

section Service

variable {s : State} {core : Nat} {r : SvcReq} {rest : List SvcReq} (hq : (s.core core).svcQueue = r :: rest)
  (hn : (s.core core).service = none) (hi : s.issue = none) (hr : r.recorded = true)
include hq hn hi hr

theorem serviceDue_eq : s.serviceDue core = some (r, rest) := by
  unfold State.serviceDue
  simp [hq, hn, hi, hr]

theorem serviceEntry_next (hy : r.yielded = true) : exec (.serviceEntry core) s = .next (s.enterService core r rest) := by
  show execServiceEntry core s = _
  unfold execServiceEntry
  simp only [serviceDue_eq hq hn hi hr, hy, if_true]

theorem serviceDeadline_next (hd : r.arrived + max 1 (s.field regSrvdl 0 32) ≤ s.coreCycles core)
    (hf : (s.core core).issueFrom ≤ s.coreCycles core) :
    exec (.serviceDeadline core) s = .next (s.enterService core r rest) := by
  show execServiceDeadline core s = _
  unfold execServiceDeadline
  simp only [serviceDue_eq hq hn hi hr]
  exact congrArg _ (if_pos (by simp [State.svcLate, hd, hf]))

end Service

theorem foldl_setThread_frame {α : Type} (key : α → Nat) (f : State → α → Thread) (ls : List α) (s : State) :
    ∃ ts, ls.foldl (fun z l => z.setThread (key l) (f z l)) s = { s with threads := ts } := by
  induction ls generalizing s with
  | nil => exact ⟨_, rfl⟩
  | cons l ls ih =>
    obtain ⟨ts, h⟩ := ih (s.setThread (key l) (f s l))
    exact ⟨ts, by rw [List.foldl_cons, h]; rfl⟩

/-- Service code is entered by 32 threads in one run at PC 0 (R358). -/
theorem enterService_run (s : State) (core : Nat) (r : SvcReq) (rest : List SvcReq) : let t := s.enterService core r rest
    (∃ n ∈ t.runs, n.core = core ∧ n.group = serviceKey core ∧ n.pc = 0 ∧ n.count = 0
      ∧ n.lanes = (List.range 32).map (fun k => (k, threadKey (serviceKey core) k)))
    ∧ (t.core core).service = some r ∧ (t.core core).svcQueue = rest ∧ t.mem = s.mem := by
  obtain ⟨ts, h⟩ := foldl_setThread_frame (fun l : Nat × Nat => l.2)
    (fun z l => serviceThread core l.1 (z.serviceRecord core r.slot))
    ((List.range 32).map (fun k => (k, threadKey (serviceKey core) k)))
    ((s.modCore core (fun c => { c with svcQueue := rest, service := some r })).setGroup (serviceKey core) (serviceGroup core))
  unfold State.enterService
  simp only [h]
  refine ⟨⟨_, List.mem_append_right _ (List.mem_singleton_self _), rfl, rfl, rfl, rfl, rfl⟩, ?_, ?_, rfl⟩
  · exact congrArg Core.service (core_modCore_same s core (fun c => { c with svcQueue := rest, service := some r }))
  · exact congrArg Core.svcQueue (core_modCore_same s core (fun c => { c with svcQueue := rest, service := some r }))

/-! ### The statement -/

/-- Settles O57: one law of an event for each clause. -/
theorem coreEvents : Obligations.CoreEvents := by
  unfold Obligations.CoreEvents
  intro s
  refine ⟨fun core => bundleIssue_next, fun core z c rest => ⟨rfl, rfl⟩, fun core bin b => binAged_next,
    fun core c => siphonCommandStart_next, fun cmd c => timedCopyStartTime_next, fun c d hz => ⟨fun he => ?_, fun he => ?_⟩,
    fun core c hm hc hr h => ⟨fun hop => ?_, fun hop => ?_⟩, retire_frame s,
    fun cmd c hf hs => ⟨commandRetire_finished hf hs, fun c' _ hf' hn => ?_, fun c' _ hf' hn => ?_⟩,
    fun core lane w hw hr hb ho => ⟨frameGrant_next hw hr hb ho, fun hd => ⟨fun hn => ?_, fun v x hv => ?_⟩⟩,
    fun core w => grantWaiter_frame, fun core lane r hr hb ho => ⟨refill_frame hr hb ho, fun d ls => refill_entry hr hb ho⟩,
    fun group m hm hl hg hs => ⟨fun hp => ?_, fun hp => ?_⟩, fun group => groupEnd_next, endGroup_frame s,
    fun core r rest hq hn hi hr =>
      ⟨serviceEntry_next hq hn hi hr, serviceDeadline_next hq hn hi hr, enterService_run s core r rest⟩⟩
  · exact (startSiphon_found hz).trans (if_pos he)
  · exact (startSiphon_found hz).trans (if_neg he)
  · exact (matrixCommandStart_next hm hc hr h).trans (congrArg _ (if_neg hop))
  · exact (matrixCommandStart_next hm hc hr h).trans (congrArg _ (if_pos hop))
  · rw [commandRetire_next hf hs hf', if_neg (by simp [hn])]
  · rw [commandRetire_next hf hs hf', if_pos hn]
  · rw [spillTimeout_next hw hr hb ho hd]
    simp only [hn]
  · rw [spillTimeout_next hw hr hb ho hd]
    simp only [hv]
  · rw [swapCommit_next hm hl hg hs, if_pos hp]
  · rw [swapCommit_next hm hl hg hs, if_neg (by simp [hp])]

end Sys2Proof.Proofs

/-! SUPPORT. The decoder undoes the encoder (R47, R51 to R64), and its answers on the worked words. -/

namespace Sys2Proof.Laws.RoundTrip

/-- Decoding undoes encoding: the law of each constructor, in the order of the opcode table. -/
theorem decode_encode (i : Instr) : Statement i :=
  Instr.casesOn (motive := Statement) i
    br call calli ret unwind unwindMark reform bar exit loop loopL1 lend1 trap svc brk add sub mul mulh mulhu min max
    minu maxu and or xor andn sll srl sra addImm mulImm andImm orImm xorImm sllImm srlImm sraImm sh1add sh2add sh3add
    clz ctz popc bext bextu bins cmpeq cmpne cmplt cmpltu cmple cmpleu cmpeqImm cmpneImm cmpltImm cmpltuImm cmpgtImm
    cmpgtuImm sel limm adr tgtLabel tgtReg getsr setsr semset semadd semwait tagwa tagwl tagff tsel pswap ftset sqrd
    resumeSlots dswap vadd vsub vmul vmulh vmad vdot4 vmin vmax vabs vand vor vxor vandn vshl vshr vclz vpopc vmov
    vcmpeq vcmpne vcmplt vcmple vsel vfadd vfsub vfmul vfma vfmin vfmax vfabs vfneg vhadd vhsub vhmul vhfma vbadd vbsub
    vbmul vbfma vcvtf vcvts vcvtx vftoi vitof vcvth vnps vnpm vshfl vperm vmatch vballot vvote vscan vred vbcast vaccrd
    vaccwr tokv tokm vxtov vvtox fev fevE2 fevL2 fevRc fevRs fevPd fseg fdom ldZ8 ldS8 ldZ16 ldS16 ld32 ld64 ld128 ldA16
    ldsZ8 ldsS8 ldsZ16 ldsS16 lds32 lds64 lds128 ldsA16 st8 st16 st32 st64 st128 stA16 sts8 sts16 sts32 sts64 sts128
    stsA16 atomAdd atomMin atomMax atomMinu atomMaxu atomAnd atomOr atomXor atomExch atomCas atomFaddF32 atomFaddBf16X2
    atomsAdd atomsMin atomsMax atomsMinu atomsMaxu atomsAnd atomsOr atomsXor atomsExch atomsCas atomsFaddF32
    atomsFaddBf16X2 pref clean inval icinv fenceAcq fenceRel fenceAr fenceSc fenceCp drain fst fsig launch acqProm
    txbegin txst txcommit txabort mma accz mst mld msync mstat scla sclb sclz copy copyx tload pload dload intake shset
    shseti bundleIssue binAged loadValueArrives swapCommit pageRequestPost prrespWrite waitParkCandidate parkGroup
    unparkGroup groupEnd siphonCommandStart timedCopyStartTime matrixCommandStart commandRetire frameGrant spillTimeout
    refill writePerforms lineEviction promotionAtVictim promotionAck launchWindowWrite launchWindowRead
    launchBatchAccept memoryConditionPoll queueAging placeGang preempt preemptDeadline contextSave contextRestore
    launchComplete launchAbort tabownWrite registerWrite serviceEntry serviceDeadline pfadd pfdel uncorrectableError
    scrub tlbinvAsid tlbinvRange tlbinvAll tlbInvalidationDone snadd snrem snap snout snstop snpoolWrite copyBeforeWrite
    drainPageSend drainPageAck drainTargetFail linkRetrain linkFail remoteLoadRequest remoteLoadResponse fstApply fstAck
    fsigApply fsigForward targetLost txStage txStageAck txPrepare txVote txVoteTimeout txDecision txApplyAck
    txPartTimeout txRecovery hostAccess hostSnoop packageReset dieEnumerate dieIsolate dieRejoin dieInternalError
    isolationComplete islandFreqWrite islandGate islandGated islandUngate throttle fatalError boot firmwareVerify claim
    lease load done leaseTimeout claimTimeout leasePeriod mgmtDie mgmtIsland mgmtMonitor mgmtKeySlot mgmtServiceStore
    mgmtImage mgmtDump getVersion getCapabilities negotiateAlgorithms getDigests getCertificate challenge
    getMeasurements monitorSample monitorClear linkUp fsigAck hartAccess pcieMemoryRequest directoryResponse
    islandChangeComplete

end Sys2Proof.Laws.RoundTrip

namespace Sys2Proof.Proofs

open Sys2Proof Sys2Proof.Laws

/-- Settles O2: decoding undoes encoding for each constructor. -/
theorem encodedInstructionDecodes : Obligations.EncodedInstructionDecodes := by
  unfold Obligations.EncodedInstructionDecodes
  exact RoundTrip.decode_encode

/-- Settles O1: the decoder evaluated on each of the words and on the worked bundle. -/
theorem decodesWorkedWords : Obligations.DecodesWorkedWords := by
  unfold Obligations.DecodesWorkedWords
  decide +kernel

end Sys2Proof.Proofs

/-! SUPPORT. Which lanes a guard lets through (R50), and the leaf of a lane in a bundle without a tree. -/

namespace Sys2Proof.Proofs

open Sys2Proof Sys2Proof.Machine Sys2Proof.Laws

/-- Both guards of a slot pass (R50). -/
theorem passes_iff {s : State} {q : Issue} {g : Guard} {l : Nat × Nat} : passes s q g l = true
    ↔ ((if g.pred = 0 then true else (s.thread l.2).p.getLsbD g.pred.toNat) ^^ g.sense) = true
      ∧ (g.leaf = 7 ∨ g.leaf.toNat = q.leafOf l.1) := by
  have hp : (s.thread l.2).readP g.pred.toNat
      = if g.pred = 0 then true else (s.thread l.2).p.getLsbD g.pred.toNat := by
    unfold Thread.readP
    by_cases h : g.pred = 0
    · simp [h]
    · have hn : g.pred.toNat ≠ 0 := fun e => h (BitVec.eq_of_toNat_eq e)
      rw [if_neg h, beq_false_of_ne hn, Bool.false_or]
  unfold passes
  rw [hp]
  simp

/-- A guard of (!p0) lets no lane through. -/
theorem participants_not_p0 (s : State) (q : Issue) {g : Guard} (hs : g.sense = true) (hp : g.pred = 0) :
    participants s q g = [] :=
  List.filter_eq_nil_iff.2 fun l _ h => by
    obtain ⟨h, -⟩ := passes_iff.1 h
    simp [hs, hp] at h

/-- Without a tree the leaves are all 4. -/
theorem treeLeaves_eq {s : State} {q : Issue} {is : List (Nat × Instr)} (h : ∀ j ∈ is, isTree j.2 = false) :
    treeLeaves s q is = q.lanes.map (fun l => (l.1, 4)) := by
  unfold treeLeaves
  rw [List.findSome?_eq_none_iff.2]
  · rfl
  · intro j hj
    have := h j hj
    cases hi : j.2 with
    | br => rw [hi] at this; cases this
    | _ => rfl

/-- Where every entry holds v, a look-up with default v gives v. -/
theorem assoc_map_const {α : Type} (ls : List (Nat × Nat)) (v : α) (k : Nat) :
    (assoc (ls.map (fun l => (l.1, v))) k).getD v = v := by
  unfold assoc
  induction ls with
  | nil => rfl
  | cons l ls ih =>
    simp only [List.map_cons, spFind]
    split
    · rfl
    · exact ih

/-- Settles O13: the guard's own law, and the leaves of a bundle without a tree. -/
theorem guardedSlotParticipants : Obligations.GuardedSlotParticipants := by
  unfold Obligations.GuardedSlotParticipants
  intro s q g l is
  refine ⟨?_, fun ht _ => ?_, participants_not_p0 s q⟩
  · exact List.mem_filter.trans (and_congr_right fun _ => passes_iff)
  · show (assoc (treeLeaves s q is) l.1).getD 4 = 4
    rw [treeLeaves_eq ht, assoc_map_const]

end Sys2Proof.Proofs

/-! SUPPORT. The scalar forms with an immediate (R56, R142, R144). -/

namespace Sys2Proof.Proofs

open Sys2Proof Sys2Proof.Machine Sys2Proof.Laws

/-- An immediate form applies its operation to xa and the immediate. -/
theorem aluRI_next {s : State} {q : Issue} (hq : s.issue = some q) (lat : Nat) (f : DWord → DWord → DWord)
    (d a : BitVec 4) (imm : BitVec 9) (g : Guard) :
    aluRI lat f d a imm g s = .next (s.flyX q g lat d (fun l => f (xOf s l a) (immOf q imm))) :=
  slotNext_some _ hq

/-- A shift by an immediate applies its operation to xa and the amount. -/
theorem aluSh_next {s : State} {q : Issue} (hq : s.issue = some q) (f : DWord → DWord → DWord) (d a : BitVec 4)
    (sh : BitVec 6) (g : Guard) :
    aluSh f d a sh g s = .next (s.flyX q g 1 d (fun l => f (xOf s l a) (sh.zeroExtend 64))) :=
  slotNext_some _ hq

/-- Six bits are below 64, so a shift takes all of its immediate amount. -/
theorem shiftAmount_eq (sh : BitVec 6) : (sh.zeroExtend 64).toNat % 64 = sh.toNat := by
  have := sh.isLt
  simp only [BitVec.truncate_eq_setWidth, BitVec.toNat_setWidth]
  omega

/-- Settles O20: each slot is an immediate form, a shift form or an address form. -/
theorem scalarImmediateForms : Obligations.ScalarImmediateForms := by
  unfold Obligations.ScalarImmediateForms
  intro s q d a bd imm sh up g hq
  refine ⟨slotNext_some _ hq, aluRI_next hq 1 (· + ·) d a imm g, aluRI_next hq 3 (· * ·) d a imm g,
    aluRI_next hq 1 (· &&& ·) d a imm g, aluRI_next hq 1 (· ||| ·) d a imm g, aluRI_next hq 1 (· ^^^ ·) d a imm g,
    (aluSh_next hq shl64 d a sh g).trans ?_, (aluSh_next hq shr64 d a sh g).trans ?_,
    (aluSh_next hq sar64 d a sh g).trans ?_, slotNext_some _ hq, slotNext_some _ hq, slotNext_some _ hq⟩
  · simp only [shl64, shiftAmount_eq]
  · simp only [shr64, shiftAmount_eq]
  · simp only [sar64, shiftAmount_eq]

end Sys2Proof.Proofs

/-! SUPPORT. The fetch of an item and its bundle (R39, R40, R42, R356, R427). -/

namespace Sys2Proof.Proofs

open Sys2Proof Sys2Proof.Machine Sys2Proof.Laws

section Code

variable {s : State} {core g : Nat} {pc : DWord} {ls : List Nat} (hg : isService g = false)
include hg

/-- An item with a byte outside this package's device memory (R42). -/
theorem fetch_item_fault {r : Nat} {va : DWord} (h : s.codeLocs g pc 2 = .error (r, va)) :
    s.fetch core g pc = .fault 0x01 r 15 va := by
  unfold State.fetch
  rw [hg, h]
  rfl

/-- What an item whose bytes can be read leads to (R39, R40). -/
theorem fetch_item (h : s.codeLocs g pc 2 = .ok ls) :
    let item := leNat (ls.map (s.codeByte core))
    let bank := (s.core core).bank (s.group g).dbank
    s.fetch core g pc =
      if item < bank.len then .bundle (spGet (fun _ => 0) bank.bundles item) (pc + 2) pc 2 ls
      else if item = 0xFFFF then
        match s.codeLocs g (pc + 2) 48 with
        | .error (r, va) => .fault 0x01 r 15 va
        | .ok more => .bundle (bundleOfBytes (more.map (s.codeByte core))) (pc + 50) pc 50 (ls ++ more)
      else if 0xFFF0 ≤ item then .fault 0x03 0 14 0
      else .fault 0x02 0 15 0 := by
  intro item bank
  unfold State.fetch
  rw [hg, h]
  rfl

end Code

section Service

variable {s : State} {core g : Nat} {pc : DWord} (hg : isService g = true)
include hg

/-- The service store holds the bundle at a PC that is a multiple of 48 below its end (R356). -/
theorem fetch_service {i : Nat} (hi : i < 512) (hpc : pc = BitVec.ofNat 64 (48 * i)) : s.fetch core g pc
    = .bundle (bundleOfBytes (bytesAt (s.mgmt.serviceStore.getD []) (48 * i) 48)) (pc + 48) pc 0 [] := by
  have hn : pc.toNat = 48 * i := by rw [hpc, BitVec.toNat_ofNat]; omega
  unfold State.fetch serviceBytesLen
  rw [if_pos hg, hn, if_pos (by omega)]

/-- Every other PC names no bundle of the service store. -/
theorem fetch_service_fault (h : ∀ i < 512, pc ≠ BitVec.ofNat 64 (48 * i)) : s.fetch core g pc = .fault 0x02 0 15 0 := by
  unfold State.fetch serviceBytesLen
  rw [if_pos hg, if_neg]
  rintro ⟨hm, hl⟩
  refine h (pc.toNat / 48) (by omega) (BitVec.eq_of_toNat_eq ?_)
  rw [BitVec.toNat_ofNat]
  omega

end Service

/-- Settles O7: an item of code by its number, and the service store by the PC. -/
theorem fetchReadsItemAndLiteral : Obligations.FetchReadsItemAndLiteral := by
  unfold Obligations.FetchReadsItemAndLiteral
  refine ⟨?_, fun s core g pc hg => ⟨fun i hi => fetch_service hg hi, fetch_service_fault hg⟩⟩
  intro s core g pc ls more item bank hg hl hmore
  rw [fetch_item hg hl]
  refine ite_congr rfl (fun _ => rfl) fun hb => ite_congr rfl (fun hi => ?_) fun _ => rfl
  rw [hmore (Nat.le_of_not_lt hb) hi]

/-- Why a byte of code is at no place in this package's device memory (R42). -/
theorem codeSite_error_iff {s : State} {g r : Nat} {va : DWord} : s.codeSite g va = .error r
    ↔ (∃ site, s.xlateFor g needX va = .ok site ∧ (∀ pa l, site ≠ .here pa l) ∧ r = 5)
      ∨ ∃ c k, s.xlateFor g needX va = .bad c k ∧ r = (if c = 0x08 then (if k = 5 then 5 else 4) else k) := by
  unfold State.codeSite
  cases s.xlateFor g needX va with
  | ok site => cases site <;> simp [eq_comm]
  | bad c k => simp [eq_comm]

/-- Settles O8: the fault of the item, the fault of the literal bundle, and the reason. -/
theorem fetchFaultsAtItsBytes : Obligations.FetchFaultsAtItsBytes := by
  unfold Obligations.FetchFaultsAtItsBytes
  intro s core g pc r va hg
  refine ⟨fetch_item_fault hg, fun ls hl hitem hlen hmore => ?_, codeSite_error_iff⟩
  rw [fetch_item hg hl, if_neg (by omega), if_pos hitem, hmore]

end Sys2Proof.Proofs

/-! SUPPORT. Packed elements (R58, R162): a word built from elements, and the value of a narrowed element. -/

namespace Sys2Proof.Proofs

open Sys2Proof Sys2Proof.Machine Sys2Proof.Laws

/-! ### Elements of a word -/

/-- A number of e bits is kept by every width from e on. -/
theorem toNat_ofNat_of_lt_pow {x e n : Nat} (h : x < 2 ^ e) (he : e ≤ n) : (BitVec.ofNat n x).toNat = x :=
  Nat.mod_eq_of_lt (h.trans_le (Nat.pow_le_pow_right Nat.two_pos he))

/-- The number that holds element j of f at bit w * j. -/
def packed (w : Nat) (f : Nat → Nat) (n : Nat) : Nat := ((List.range n).map (fun j => f j % 2 ^ w * 2 ^ (w * j))).sum

theorem packed_succ (w : Nat) (f : Nat → Nat) (n : Nat) :
    packed w f (n + 1) = packed w f n + f n % 2 ^ w * 2 ^ (w * n) := by
  simp [packed, List.range_succ]

theorem packed_lt (w : Nat) (f : Nat → Nat) (n : Nat) : packed w f n < 2 ^ (w * n) := by
  induction n with
  | zero => exact Nat.one_pos
  | succ n ih =>
    rw [packed_succ, Nat.mul_succ, Nat.pow_add, Nat.mul_comm (f n % 2 ^ w)]
    exact Nat.add_mul_lt_mul_of_lt_of_lt ih (Nat.mod_lt _ (Nat.two_pow_pos w))

/-- The element at each place of a packed number is the one given for it. -/
theorem packed_elem (w : Nat) (f : Nat → Nat) {j n : Nat} (h : j < n) :
    packed w f n / 2 ^ (w * j) % 2 ^ w = f j % 2 ^ w := by
  induction n with
  | zero => exact absurd h (Nat.not_lt_zero j)
  | succ n ih =>
    rw [packed_succ]
    by_cases hj : j = n
    · subst hj
      rw [Nat.add_mul_div_right _ _ (Nat.two_pow_pos _), Nat.div_eq_of_lt (packed_lt w f j), Nat.zero_add, Nat.mod_mod]
    · obtain ⟨d, rfl⟩ : ∃ d, n = j + 1 + d := ⟨n - (j + 1), by omega⟩
      have hp : f (j + 1 + d) % 2 ^ w * 2 ^ (w * (j + 1 + d))
          = 2 ^ w * (f (j + 1 + d) % 2 ^ w * 2 ^ (w * d)) * 2 ^ (w * j) := by
        rw [Nat.mul_add, Nat.mul_add, Nat.pow_add, Nat.pow_add, Nat.mul_one]
        ac_rfl
      rw [hp, Nat.add_mul_div_right _ _ (Nat.two_pow_pos _), Nat.add_mul_mod_self_left, ih (by omega)]

/-- Every element of a word is the value given for it, cut to its width. -/
theorem elemAt_fromElems (w : Nat) (f : Nat → Nat) {j : Nat} (h : j < 32 / w) :
    elemAt (fromElems w f) w j = f j % 2 ^ w := by
  have hn : (fromElems w f).toNat = packed w f (32 / w) := toNat_ofNat_of_lt_pow (packed_lt w f _) (Nat.mul_div_le 32 w)
  unfold elemAt
  rw [hn, packed_elem w f h]

/-! ### Narrowing -/

/-- The least and the greatest value of an element type. -/
def elemLo (sg : Bool) (w : Nat) : Int := if sg then -(2 ^ (w - 1)) else 0
def elemHi (sg : Bool) (w : Nat) : Int := if sg then 2 ^ (w - 1) - 1 else 2 ^ w - 1

/-- The exact value that narrowing keeps modulo the width. -/
def saturated (sat sg : Bool) (w : Nat) (t : Int) : Int := if sat then max (elemLo sg w) (min (elemHi sg w) t) else t

theorem narrow_cast (sat sg : Bool) (w : Nat) (t : Int) :
    (narrow sat sg w t : Int) = saturated sat sg w t % 2 ^ w :=
  Int.toNat_of_nonneg (Int.emod_nonneg _ (by positivity))

theorem narrow_lt (sat sg : Bool) (w : Nat) (t : Int) : narrow sat sg w t < 2 ^ w := by
  have h : (narrow sat sg w t : Int) < 2 ^ w := narrow_cast sat sg w t ▸ Int.emod_lt_of_pos _ (by positivity)
  exact_mod_cast h

variable {sg : Bool} {w raw : Nat}

/-- Reading an element back adds nothing but a multiple of its range. -/
theorem elemVal_emod (sg : Bool) (w raw : Nat) : elemVal sg w raw % 2 ^ w = raw % 2 ^ w := by
  unfold elemVal
  split
  · exact Int.sub_emod_right _ _
  · rfl

theorem two_pow_pred (hw : 0 < w) : (2 : Int) ^ w = 2 * 2 ^ (w - 1) := by
  obtain ⟨n, rfl⟩ : ∃ n, w = n + 1 := ⟨w - 1, by omega⟩
  exact pow_succ' 2 n

/-- An element reads as a value of its type. -/
theorem elemVal_mem (hw : 0 < w) (h : raw < 2 ^ w) : elemLo sg w ≤ elemVal sg w raw ∧ elemVal sg w raw ≤ elemHi sg w := by
  have hp := two_pow_pred hw
  have hr : (raw : Int) < 2 ^ w := by exact_mod_cast h
  unfold elemLo elemHi elemVal
  cases sg with
  | false => simp only [Bool.false_eq_true, false_and, if_false]; omega
  | true =>
    by_cases hs : 2 ^ (w - 1) ≤ raw
    · have hs' : (2 : Int) ^ (w - 1) ≤ raw := by exact_mod_cast hs
      simp only [hs, and_self, if_true]; omega
    · have hs' : (raw : Int) < 2 ^ (w - 1) := by exact_mod_cast Nat.lt_of_not_le hs
      simp only [hs, and_false, if_true, if_false]; omega

/-- A type has 2 ^ w values. -/
theorem elemHi_eq (hw : 0 < w) (sg : Bool) : elemHi sg w = elemLo sg w + (2 ^ w - 1) := by
  have hp := two_pow_pred hw
  unfold elemLo elemHi
  cases sg with
  | false => simp only [Bool.false_eq_true, if_false]; omega
  | true => simp only [if_true]; omega

/-- A type holds one value of each residue. -/
theorem eq_of_emod_eq (hw : 0 < w) {u v : Int} (hu : elemLo sg w ≤ u ∧ u ≤ elemHi sg w)
    (hv : elemLo sg w ≤ v ∧ v ≤ elemHi sg w) (h : u % 2 ^ w = v % 2 ^ w) : u = v := by
  have hh := elemHi_eq hw sg
  have hd : (2 : Int) ^ w ∣ u - v := Int.dvd_of_emod_eq_zero (Int.emod_eq_emod_iff_emod_sub_eq_zero.1 h)
  have hz : u - v = 0 := Int.eq_zero_of_abs_lt_dvd hd (abs_lt.2 ⟨by omega, by omega⟩)
  omega

/-- A saturated value lies in its type. -/
theorem saturated_mem (hw : 0 < w) (sg : Bool) (t : Int) :
    elemLo sg w ≤ saturated true sg w t ∧ saturated true sg w t ≤ elemHi sg w := by
  have hh := elemHi_eq hw sg
  have hp : (0 : Int) < 2 ^ w := by positivity
  unfold saturated
  simp only [if_true]
  omega

theorem elemVal_narrow_emod (sat sg : Bool) (w : Nat) (t : Int) :
    elemVal sg w (narrow sat sg w t) % 2 ^ w = saturated sat sg w t % 2 ^ w := by
  rw [elemVal_emod, narrow_cast, Int.emod_emod_of_dvd _ (dvd_refl _)]

/-- Settles O30: a packed number read at each place, and the value of each residue in an element type. -/
theorem packedElementsAreSeparate : Obligations.PackedElementsAreSeparate := by
  unfold Obligations.PackedElementsAreSeparate
  refine ⟨fun w j f _ hj => elemAt_fromElems w f hj, fun sat sg w t hw => ?_⟩
  have h0 : 0 < w := by
    simp only [List.mem_cons, List.not_mem_nil, or_false] at hw
    omega
  have hm : elemLo sg w ≤ elemVal sg w (narrow sat sg w t) ∧ _ := elemVal_mem h0 (narrow_lt sat sg w t)
  refine ⟨narrow_lt sat sg w t, ?_, ?_, hm.1, hm.2⟩
  · rintro rfl
    exact eq_of_emod_eq h0 hm (saturated_mem h0 sg t) (elemVal_narrow_emod true sg w t)
  · rintro rfl
    exact Int.emod_eq_emod_iff_emod_sub_eq_zero.1 (elemVal_narrow_emod false sg w t)

end Sys2Proof.Proofs

/-! SUPPORT. What the legality checks of a bundle answer when they pass (R66, R67, R71). -/

namespace Sys2Proof.Proofs

open Sys2Proof

/-- The first slot of a list that decodes, and the rest. -/
theorem decodeSlots_cons_ok {ok : Instr → Bool} {s0 : Bool} {k : Nat} {w : BitVec 64} {ws : List (Nat × BitVec 64)}
    {is : List (Nat × Instr)} (h : decodeSlots ok s0 ((k, w) :: ws) = .ok is) :
    ∃ i js, decodeAt k w = some i ∧ ok i = true ∧ decodeSlots ok s0 ws = .ok js ∧ is = (k, i) :: js := by
  simp only [decodeSlots] at h
  cases hd : decodeAt k w with
  | none => simp [hd] at h
  | some i =>
    simp only [hd] at h
    split_ifs at h with hc
    obtain ⟨-, ho⟩ := Bool.or_eq_false_iff.1 (Bool.eq_false_iff.2 hc)
    cases hr : decodeSlots ok s0 ws with
    | error n => simp [hr] at h
    | ok js =>
      simp only [hr, Except.ok.injEq] at h
      exact ⟨i, js, rfl, by simpa using ho, rfl, h.symm⟩

/-- Slots that all decode: their places in order, and each with the instruction of its bits. -/
theorem decodeSlots_ok {ok : Instr → Bool} {s0 : Bool} {ws : List (Nat × BitVec 64)} {is : List (Nat × Instr)}
    (h : decodeSlots ok s0 ws = .ok is) : is.map (fun q => q.1) = ws.map (fun q => q.1)
      ∧ ∀ k i, (k, i) ∈ is → ok i = true ∧ ∃ w, (k, w) ∈ ws ∧ decodeAt k w = some i := by
  induction ws generalizing is with
  | nil => cases h; simp
  | cons q ws ih =>
    obtain ⟨k, w⟩ := q
    obtain ⟨i, js, hd, ho, hr, rfl⟩ := decodeSlots_cons_ok h
    obtain ⟨hk, hj⟩ := ih hr
    refine ⟨by simp [hk], fun k' i' hm => ?_⟩
    rcases List.mem_cons.1 hm with he | hm
    · cases he
      exact ⟨ho, w, List.mem_cons_self .., hd⟩
    · obtain ⟨ho', w', hw, hd'⟩ := hj k' i' hm
      exact ⟨ho', w', List.mem_cons_of_mem _ hw, hd'⟩

/-- A bundle whose checks pass has no header fault, and its slots outside the mask all decode. -/
theorem legalBundle_ok {ok : Instr → Bool} {skip : BitVec 13} {b : BitVec 384} {is : List (Nat × Instr)}
    (h : legalBundle ok skip b = .ok is) : headerIllegal b = false
      ∧ ∃ s0, decodeSlots ok s0 ((slotsOf b).filter (fun q => !skip.getLsbD q.1)) = .ok is := by
  unfold legalBundle at h
  split_ifs at h with hh
  refine ⟨Bool.eq_false_iff.2 hh, ((slotAt 1 (slotsOf b)).map (extendsS0 skip)).getD false, ?_⟩
  dsimp only at h
  split at h
  · cases h
  · next js hd =>
    split at h
    · cases h
    · cases h
      exact hd

/-- Settles O4: the slots that `decodeSlots` decodes are those that the mask leaves. -/
theorem legalBundleNamesItsSlots : Obligations.LegalBundleNamesItsSlots := by
  unfold Obligations.LegalBundleNamesItsSlots
  intro ok skip b is h
  obtain ⟨hh, s0, hd⟩ := legalBundle_ok h
  obtain ⟨hk, hi⟩ := decodeSlots_ok hd
  refine ⟨hh, hk, fun k i hm => ?_⟩
  obtain ⟨ho, w, hw, hdec⟩ := hi k i hm
  obtain ⟨hw, hs⟩ := List.mem_filter.1 hw
  exact ⟨ho, w, hw, by simpa using hs, hdec⟩

end Sys2Proof.Proofs

/-! SUPPORT. The bytes of a bundle (R45), and the packing of a header and its slots (R46, R47). -/

namespace Sys2Proof.Proofs

open Sys2Proof Sys2Proof.Machine Sys2Proof.Laws

/-! ### Bytes -/

/-- A bundle is the little-endian number of its bytes. -/
theorem bundleOfBytes_eq (bs : List Byte) : bundleOfBytes bs = BitVec.ofNat 384 (leNat bs) := by
  have : (fun (x : Byte) (acc : Nat) => acc * 256 + x.toNat) = fun x acc => x.toNat + 256 * acc := by
    funext x acc
    omega
  unfold bundleOfBytes leNat
  rw [this]

/-- Bit k of a little-endian number is bit k mod 8 of byte k/8. -/
theorem testBit_leNat (bs : List Byte) (k : Nat) : (leNat bs).testBit k = (bs.getD (k / 8) 0).getLsbD (k % 8) := by
  induction bs generalizing k with
  | nil => simp [leNat]
  | cons b bs ih =>
    have h : leNat (b :: bs) = 2 ^ 8 * leNat bs + b.toNat := by
      show b.toNat + 256 * leNat bs = _
      omega
    rw [h, Nat.testBit_two_pow_mul_add _ b.isLt]
    split
    · next hk =>
      rw [Nat.div_eq_of_lt hk, Nat.mod_eq_of_lt hk]
      rfl
    · next hk =>
      obtain ⟨j, rfl⟩ : ∃ j, k = j + 8 := ⟨k - 8, by omega⟩
      rw [Nat.add_sub_cancel, ih, Nat.add_div_right _ (by decide), Nat.add_mod_right]
      rfl

/-! ### The header -/

/-- The header is read from the low 32 bits. -/
theorem headerOf_eq {b : BitVec 384} {h : Header} (hb : b.setWidth 32 = h.bits) : headerOf b = h := by
  obtain ⟨reserved, hv, hbk, e, y, sc, pres⟩ := h
  have field (lo n : Nat) (hn : lo + n ≤ 32) : b.extractLsb' lo n = bitsOf (b.setWidth 32) lo n := by
    refine BitVec.eq_of_getLsbD_eq fun i hi => ?_
    have h32 : lo + i < 32 := by omega
    simp [bitsOf, h32]
  have flag (k : Nat) (hk : k < 32) : b.getLsbD k = bitAt (b.setWidth 32) k := by
    simp [bitAt, hk]
  unfold headerOf
  rw [field 22 10 (by decide), field 18 3 (by decide), field 13 3 (by decide), field 0 13 (by decide),
    flag 21 (by decide), flag 17 (by decide), flag 16 (by decide), hb]
  simp (disch := decide) only [Header.bits, bitsOf_append_hi, bitsOf_append_lo, bitAt_append_hi, bitAt_append_lo,
    bitsOf_whole, bitAt_ofBool, Nat.reduceSub]

/-! ### The slots -/

theorem parcels_le (kind : SlotKind) : kind.parcels ≤ 4 := by cases kind <;> decide

theorem parcelsOf_cons (k : Nat) (ks : List Nat) : parcelsOf (k :: ks) = (kindOf k).parcels + parcelsOf ks := by
  simp [parcelsOf]

/-- Each slot lies within its width. -/
def fits (slots : List (Nat × BitVec 64)) : Prop := ∀ q ∈ slots, q.2.toNat < 2 ^ (16 * (kindOf q.1).parcels)

/-- Packed slots fill parcels from their first one on: no bit below it, and none above the last. -/
theorem packBits_eq {slots : List (Nat × BitVec 64)} (hf : fits slots) (n : Nat) :
    ∃ m < 2 ^ (16 * parcelsOf (slots.map (fun q => q.1))), packBits slots n = 2 ^ (16 * n) * m := by
  induction slots generalizing n with
  | nil => exact ⟨0, Nat.two_pow_pos _, rfl⟩
  | cons q slots ih =>
    obtain ⟨k, w⟩ := q
    obtain ⟨hw, hf⟩ := List.forall_mem_cons.1 hf
    obtain ⟨m, hm, he⟩ := ih hf (n + (kindOf k).parcels)
    refine ⟨w.toNat + 2 ^ (16 * (kindOf k).parcels) * m, ?_, ?_⟩
    · rw [List.map_cons, parcelsOf_cons, Nat.mul_add, Nat.pow_add]
      exact Nat.add_mul_lt_mul_of_lt_of_lt hw hm
    · rw [packBits, he, Nat.mul_add, Nat.pow_add]
      ring

/-- The slot that stands at parcel n is what the bundle holds there, cut to the slot's parcels. -/
theorem bundleBits_slot {b : BitVec 384} {lo n p m : Nat} {w : BitVec 64} (hp : p ≤ 4) (hl : lo < 2 ^ (16 * n))
    (hw : w.toNat < 2 ^ (16 * p)) (hb : b.toNat = lo + 2 ^ (16 * n) * (w.toNat + 2 ^ (16 * p) * m)) :
    BitVec.ofNat 64 ((bundleBits b (16 * n)).toNat % 2 ^ (16 * p)) = w := by
  have hd : (2 : Nat) ^ (16 * p) ∣ 2 ^ 64 := Nat.pow_dvd_pow 2 (by omega)
  have hs : b.toNat / 2 ^ (16 * n) = w.toNat + 2 ^ (16 * p) * m := by
    rw [hb, Nat.add_mul_div_left _ _ (Nat.two_pow_pos _), Nat.div_eq_of_lt hl, Nat.zero_add]
  have hv : (bundleBits b (16 * n)).toNat % 2 ^ (16 * p) = w.toNat := by
    rw [bundleBits, BitVec.extractLsb'_toNat, Nat.shiftRight_eq_div_pow, hs, Nat.mod_mod_of_dvd _ hd,
      Nat.add_mul_mod_self_left, Nat.mod_eq_of_lt hw]
  rw [hv, BitVec.ofNat_toNat, BitVec.setWidth_eq]

/-- Packed slots come back. -/
theorem unpack_packBits {slots : List (Nat × BitVec 64)} (hf : fits slots) {b : BitVec 384} {lo n : Nat}
    (hl : lo < 2 ^ (16 * n)) (hb : b.toNat = lo + packBits slots n) : unpack b (slots.map (fun q => q.1)) n = slots := by
  induction slots generalizing lo n with
  | nil => rfl
  | cons q slots ih =>
    obtain ⟨k, w⟩ := q
    obtain ⟨hw, hf⟩ := List.forall_mem_cons.1 hf
    obtain ⟨m, -, he⟩ := packBits_eq hf (n + (kindOf k).parcels)
    have hlo : lo + 2 ^ (16 * n) * w.toNat < 2 ^ (16 * (n + (kindOf k).parcels)) := by
      rw [Nat.mul_add, Nat.pow_add]
      exact Nat.add_mul_lt_mul_of_lt_of_lt hl hw
    have hrest : b.toNat = (lo + 2 ^ (16 * n) * w.toNat) + packBits slots (n + (kindOf k).parcels) := by
      rw [hb, packBits]
      ring
    have hslot : b.toNat = lo + 2 ^ (16 * n) * (w.toNat + 2 ^ (16 * (kindOf k).parcels) * m) := by
      rw [hrest, he, Nat.mul_add, Nat.pow_add]
      ring
    show (k, _) :: unpack b (slots.map (fun q => q.1)) (n + (kindOf k).parcels) = _
    rw [bundleBits_slot (parcels_le _) hl hw hslot, ih hf hlo hrest]

/-! ### The bundle -/

section Pack

variable {h : Header} {slots : List (Nat × BitVec 64)} (hk : slots.map (fun q => q.1) = presentSlots h.pres)
  (hn : parcelsOf (presentSlots h.pres) ≤ 22) (hf : fits slots)
include hk hf

/-- Header and slots take the parcels that they need, and no more. -/
theorem pack_lt : h.bits.toNat + packBits slots 2 < 2 ^ (16 * (parcelsOf (presentSlots h.pres) + 2)) := by
  obtain ⟨m, hm, he⟩ := packBits_eq hf 2
  rw [hk] at hm
  rw [he, Nat.mul_add, Nat.add_comm (16 * _), Nat.pow_add]
  exact Nat.add_mul_lt_mul_of_lt_of_lt h.bits.isLt hm

include hn

theorem packBundle_toNat : (packBundle h slots).toNat = h.bits.toNat + packBits slots 2 :=
  toNat_ofNat_of_lt_pow (pack_lt hk hf) (by omega)

theorem headerOf_packBundle : headerOf (packBundle h slots) = h := by
  obtain ⟨m, -, he⟩ := packBits_eq hf 2
  refine headerOf_eq (BitVec.eq_of_toNat_eq ?_)
  rw [BitVec.toNat_setWidth, packBundle_toNat hk hn hf, he, Nat.add_mul_mod_self_left, Nat.mod_eq_of_lt h.bits.isLt]

theorem slotsOf_packBundle : slotsOf (packBundle h slots) = slots := by
  unfold slotsOf
  rw [headerOf_packBundle hk hn hf, ← hk]
  exact unpack_packBits hf h.bits.isLt (packBundle_toNat hk hn hf)

theorem packedRight_packBundle (hr : h.reserved = 0) : packedRight (packBundle h slots) = true := by
  unfold packedRight
  rw [headerOf_packBundle hk hn hf, packBundle_toNat hk hn hf]
  simp [hr, hn, Nat.div_eq_of_lt (pack_lt hk hf)]

end Pack

/-- Settles O3: a bundle is the little-endian number of its bytes, and packing is undone parcel by parcel. -/
theorem bundleBytesPackAndUnpack : Obligations.BundleBytesPackAndUnpack := by
  unfold Obligations.BundleBytesPackAndUnpack
  refine ⟨fun bs k _ hk => ?_, fun h slots hp hn hf => ⟨headerOf_packBundle hp hn hf, slotsOf_packBundle hp hn hf,
    packedRight_packBundle hp hn hf⟩⟩
  rw [bundleOfBytes_eq, BitVec.getLsbD_ofNat, testBit_leNat, decide_eq_true hk, Bool.true_and]

end Sys2Proof.Proofs

/-! SUPPORT. Rounding (R86, R87): the quantum of the result, and the neighbour that each mode takes. -/

namespace Sys2Proof.Proofs

open Sys2Proof Sys2Proof.Machine Sys2Proof.Laws

/-- The exponent of the last place of the rounded m * 2^e (R87). -/
def quantum (f : Fmt) (m : Nat) (e : Int) : Int := max ((Nat.log2 m : Int) + e) f.emin - f.prec + 1

/-- m / 2^d rounded to an integer in a format with a sign: the floor, or one more when the mode rounds away from zero. -/
def roundedDiv (mode : Mode) (neg : Bool) (m d : Nat) : Nat :=
  if roundsAway false mode neg (m / 2 ^ d) (m % 2 ^ d) (2 ^ d) then m / 2 ^ d + 1 else m / 2 ^ d

/-! ### What `rndMag` answers -/

section RndMag

variable {f : Fmt} {m : Nat} {e : Int} (mode : Mode) (neg : Bool) (hm : m ≠ 0)
include hm

theorem rndMag_of_quantum_le (h : quantum f m e ≤ e) :
    rndMag f mode neg m e = (m * 2 ^ (e - quantum f m e).toNat, quantum f m e, false) :=
  (if_neg hm).trans (if_pos h)

theorem rndMag_of_lt_quantum (hf : f.isE8m0 = false) (h : e < quantum f m e) : rndMag f mode neg m e
    = (roundedDiv mode neg m (quantum f m e - e).toNat, quantum f m e, m % 2 ^ (quantum f m e - e).toNat != 0) := by
  unfold rndMag roundedDiv
  rw [if_neg hm, hf]
  exact if_neg (not_le.2 h)

end RndMag

/-! ### When a mode rounds away from zero -/

section Away

variable (neg : Bool) (lo r den : Nat)

theorem roundsAway_exact (e8 : Bool) (mode : Mode) : roundsAway e8 mode neg lo 0 den = false := rfl

theorem roundsAway_rz : roundsAway false .rz neg lo r den = false := ite_self _

theorem roundsAway_rd_iff : roundsAway false .rd neg lo r den = true ↔ neg = true ∧ r ≠ 0 := by
  unfold roundsAway
  split <;> simp [*]

theorem roundsAway_ru_iff : roundsAway false .ru neg lo r den = true ↔ ¬ neg = true ∧ r ≠ 0 := by
  unfold roundsAway
  split <;> simp [*]

theorem roundsAway_rne_iff : roundsAway false .rne neg lo r den = true
    ↔ r ≠ 0 ∧ (den < 2 * r ∨ 2 * r = den ∧ lo % 2 = 1) := by
  unfold roundsAway
  split <;> simp [*]

end Away

/-! ### The neighbour of each mode -/

section Neighbour

variable (mode : Mode) (neg : Bool) (m d : Nat)

theorem roundedDiv_floor_or_succ :
    roundedDiv mode neg m d = m / 2 ^ d ∨ roundedDiv mode neg m d = m / 2 ^ d + 1 := by
  unfold roundedDiv
  split
  · exact .inr rfl
  · exact .inl rfl

/-- The rounded quotient gives m back exactly when nothing was cut off. -/
theorem roundedDiv_exact_iff : m % 2 ^ d = 0 ↔ roundedDiv mode neg m d * 2 ^ d = m := by
  have hdiv := Nat.div_add_mod' m (2 ^ d)
  constructor
  · intro h
    have hk : roundedDiv mode neg m d = m / 2 ^ d := by
      unfold roundedDiv
      rw [h, roundsAway_exact]
      rfl
    rw [hk]
    omega
  · intro h
    rw [← h, Nat.mul_mod_left]

theorem roundedDiv_rz : roundedDiv .rz neg m d = m / 2 ^ d := by
  unfold roundedDiv
  rw [roundsAway_rz]
  rfl

theorem roundedDiv_rd : roundedDiv .rd neg m d
    = if neg ∧ m % 2 ^ d ≠ 0 then m / 2 ^ d + 1 else m / 2 ^ d := if_congr (roundsAway_rd_iff ..) rfl rfl

theorem roundedDiv_ru : roundedDiv .ru neg m d
    = if ¬ neg ∧ m % 2 ^ d ≠ 0 then m / 2 ^ d + 1 else m / 2 ^ d := if_congr (roundsAway_ru_iff ..) rfl rfl

theorem roundedDiv_rne : roundedDiv .rne neg m d
    = if m % 2 ^ d ≠ 0 ∧ (2 ^ d < 2 * (m % 2 ^ d) ∨ 2 * (m % 2 ^ d) = 2 ^ d ∧ m / 2 ^ d % 2 = 1)
      then m / 2 ^ d + 1 else m / 2 ^ d := if_congr (roundsAway_rne_iff ..) rfl rfl

variable {m d}

theorem roundedDiv_rne_below (h : 2 * (m % 2 ^ d) < 2 ^ d) : roundedDiv .rne neg m d = m / 2 ^ d := by
  rw [roundedDiv_rne, if_neg]
  omega

theorem roundedDiv_rne_above (h : 2 ^ d < 2 * (m % 2 ^ d)) : roundedDiv .rne neg m d = m / 2 ^ d + 1 := by
  rw [roundedDiv_rne, if_pos]
  omega

theorem roundedDiv_rne_tie (h : 2 * (m % 2 ^ d) = 2 ^ d) : roundedDiv .rne neg m d % 2 = 0 := by
  have hp := Nat.two_pow_pos d
  rw [roundedDiv_rne]
  split <;> omega

end Neighbour

/-- Settles O36: a magnitude on the grid of its quantum stays, and any other takes the neighbour of its mode. -/
theorem roundingPicksTheNeighbourOfItsMode : Obligations.RoundingPicksTheNeighbourOfItsMode := by
  unfold Obligations.RoundingPicksTheNeighbourOfItsMode
  intro f mode neg m e hf hm
  rcases le_or_gt (quantum f m e) e with h | h
  · rw [rndMag_of_quantum_le mode neg hm h]
    exact ⟨rfl, fun _ => ⟨rfl, rfl⟩, fun h' => absurd h' (not_lt.2 h)⟩
  · rw [rndMag_of_lt_quantum mode neg hm hf h]
    refine ⟨rfl, fun h' => absurd h' (not_le.2 h), fun _ => ⟨bne_eq_false_iff_eq.trans (roundedDiv_exact_iff ..),
      roundedDiv_floor_or_succ .., ?_, ?_, ?_, ?_, ?_, ?_⟩⟩
    · rintro rfl
      exact roundedDiv_rz ..
    · rintro rfl
      exact roundedDiv_rd ..
    · rintro rfl
      exact roundedDiv_ru ..
    · rintro rfl
      exact roundedDiv_rne_below neg
    · rintro rfl
      exact roundedDiv_rne_above neg
    · rintro rfl
      exact roundedDiv_rne_tie neg

end Sys2Proof.Proofs

/-! SUPPORT. The floating-point slots of classes F and H (R166, R167) and the conversions (R168 to R170): what each puts
in flight when no participant names a register beyond its frame. -/

namespace Sys2Proof.Proofs

open Sys2Proof Sys2Proof.Machine Sys2Proof.Laws

section Framed

variable {s : State} {q : Issue} {i : Instr} (hq : s.issue = some q) (hc : Unbarred q (frameCond s q i))
include hq hc

/-- A slot whose only condition is the frame bound acts when that does not bar it (R159). -/
theorem framed_next (effect : Issue → State) : framed s i effect = .next (effect q) := slotCond_effect _ hq hc

/-- A class F slot applies its operation to the FP32 lanes. -/
theorem fSlot_next (o : FOp) (f : Nat → Nat → Nat → Nat × Flags) : fSlot i o f s = .next (s.flyVF q o.g 4 o.vd.toNat
    (fun l => (BitVec.ofNat 32 (f (vOf s l o.va).toNat (vOf s l o.vb).toNat (vOf s l o.vd).toNat).1,
      (f (vOf s l o.va).toNat (vOf s l o.vb).toNat (vOf s l o.vd).toNat).2))) := framed_next hq hc _

/-- A class H slot applies its operation to half 0 and to half 1. -/
theorem hSlot_next (o : FOp) (f : Nat → Nat → Nat → Nat × Flags) :
    let half := fun (l : Nat × Nat) (j : Nat) =>
      f (elemAt (vOf s l o.va) 16 j) (elemAt (vOf s l o.vb) 16 j) (elemAt (vOf s l o.vd) 16 j)
    hSlot i o f s = .next (s.flyVF q o.g 4 o.vd.toNat
      (fun l => (fromElems 16 (fun j => (half l j).1), (half l 0).2 ||| (half l 1).2))) := framed_next hq hc _

end Framed

/-- Settles O34: six class F slots, and two that write the canonical NaN for a NaN. -/
theorem floatSlots : Obligations.FloatSlots := by
  unfold Obligations.FloatSlots
  intro s q o vd va g hq
  exact ⟨fun h => fSlot_next hq h o (fun a b _ => fpAdd fmtFp32 (modeOf o.rnd) a b),
    fun h => fSlot_next hq h o (fun a b _ => fpSub fmtFp32 (modeOf o.rnd) a b),
    fun h => fSlot_next hq h o (fun a b _ => fpMul fmtFp32 (modeOf o.rnd) a b),
    fun h => fSlot_next hq h o (fun a b c => fpFma fmtFp32 (modeOf o.rnd) a b c),
    fun h => fSlot_next hq h o (fun a b _ => fpMin fmtFp32 a b),
    fun h => fSlot_next hq h o (fun a b _ => fpMax fmtFp32 a b),
    fun h => framed_next hq h _,
    fun h => framed_next hq h _⟩

/-- Settles O35: each slot is a class H slot with the operation of its format. -/
theorem halfSlots : Obligations.HalfSlots := by
  unfold Obligations.HalfSlots
  intro s q o hq
  exact ⟨fun h => hSlot_next hq h o (fun a b _ => fpAdd fmtFp16 (modeOf o.rnd) a b),
    fun h => hSlot_next hq h o (fun a b _ => fpSub fmtFp16 (modeOf o.rnd) a b),
    fun h => hSlot_next hq h o (fun a b _ => fpMul fmtFp16 (modeOf o.rnd) a b),
    fun h => hSlot_next hq h o (fun a b c => fpFma fmtFp16 (modeOf o.rnd) a b c),
    fun h => hSlot_next hq h o (fun a b _ => fpAdd fmtBf16 (modeOf o.rnd) a b),
    fun h => hSlot_next hq h o (fun a b _ => fpSub fmtBf16 (modeOf o.rnd) a b),
    fun h => hSlot_next hq h o (fun a b _ => fpMul fmtBf16 (modeOf o.rnd) a b),
    fun h => hSlot_next hq h o (fun a b c => fpFma fmtBf16 (modeOf o.rnd) a b c)⟩

/-- What VCVTF and VCVTS do: the encodings and their status bits go in flight, and each participant's registers of R95
and R96 change at once. -/
theorem cvtSlot_eq (o : CvtOp) (mode : Nat × Nat → Mode) (step : Thread → Thread) (s : State) (q : Issue) :
    let z := fun (l : Nat × Nat) => enc (cvtFmt o.fmt) (dec fmtFp32 (vOf s l o.va).toNat) (mode l) o.sat
    cvtSlot o mode step s q = (participants s q o.g).foldl (fun s' l => s'.modThread l.2 (fun t =>
        step (if o.amx then { t with amax := amaxUpdate t.amax (vOf s l o.va),
                                     satcnt := if (z l).range ∧ t.satcnt ≠ 0xFFFFFFFF then t.satcnt + 1 else t.satcnt }
              else t)))
      (s.flyVF q o.g 4 o.vd.toNat (fun l =>
        (insertElem (vOf s l o.vd) (cvtFmt o.fmt).width o.pos.toNat (z l).bits, (z l).flags))) := rfl

/-- Settles O37: two slots of `cvtSlot`, and four that only put their results in flight. -/
theorem conversionSlots : Obligations.ConversionSlots := by
  unfold Obligations.ConversionSlots
  intro s q o rnd vd va vb fmt pos u sat bf g hq
  exact ⟨fun h => (framed_next hq h _).trans (congrArg _ (cvtSlot_eq o (fun _ => modeOf rnd) id s q)),
    fun h => (framed_next hq h _).trans (congrArg _
      (cvtSlot_eq o (fun l => .sr (srDraw s q l)) (fun t => { t with rctr := t.rctr + 1 }) s q)),
    fun h => framed_next hq h _,
    fun h => framed_next hq h _,
    fun h => framed_next hq h _,
    fun h => framed_next hq h _⟩

end Sys2Proof.Proofs

/-! SUPPORT. One step (R104): the next slot of the latched bundle, or the next event. -/

namespace Sys2Proof.Proofs

open Sys2Proof Sys2Proof.Machine Sys2Proof.Laws

theorem keepWf_some {c : Option Instr} {i : Instr} (h : keepWf c = some i) : i.wf = true := by
  unfold keepWf at h
  split at h
  · split at h
    · next hw => cases h; exact hw
    · cases h
  · cases h

/-- The decoder of slots answers only well-formed instructions. -/
theorem decodeAt_wf {pos : Nat} {w : BitVec 64} {i : Instr} (h : decodeAt pos w = some i) : i.wf = true := by
  unfold decodeAt at h
  split at h
  · next hd =>
    split at h
    · cases h; exact keepWf_some hd
    · cases h
  · exact keepWf_some h

section Latched

variable {s : State} {q : Issue} (hq : s.issue = some q)
include hq

theorem step_noSlots (h : q.slots = []) : step s = .next (s.finishIssue.endStep s.mem) := by
  unfold step
  simp only [hq, h]

theorem step_slot {w : SlotWord} {rest : List SlotWord} (h : q.slots = w :: rest) : step s = stepSlot s q w rest := by
  unfold step
  simp only [hq, h]

end Latched

theorem stepSlot_reserved (s : State) (q : Issue) {w : SlotWord} (rest : List SlotWord)
    (h : decodeAt w.pos w.bits = none) : stepSlot s q w rest = .fault .noIssue := by
  unfold stepSlot
  rw [h]

/-- Settles O5: the decoder keeps only well-formed instructions, and the step is that of the latch's next slot. -/
theorem stepRunsLatchedSlot : Obligations.StepRunsLatchedSlot := by
  unfold Obligations.StepRunsLatchedSlot
  intro s q hq
  refine ⟨step_noSlots hq, fun w rest hw => ⟨fun h => ?_, fun i h => ⟨decodeAt_wf h, ?_⟩⟩⟩
  · rw [step_slot hq hw, stepSlot_reserved s q rest h]
  · rw [step_slot hq hw]
    unfold stepSlot
    rw [h] <;> rfl

/-- Settles O6: between bundles a step is the run of its event, for which a slot operation is BUNDLE_ISSUE of core 0. -/
theorem stepRunsEvent : Obligations.StepRunsEvent := by
  unfold Obligations.StepRunsEvent
  intro s hs ev i at_
  have hstep : step s = runEvent ev at_ := by
    unfold step
    rw [hs]
    rfl
  rw [hstep]
  unfold runEvent
  rw [← apply_ite (fun j => exec j at_)] <;> rfl

end Sys2Proof.Proofs

/-! SUPPORT. Results in flight (R108, R111): how the values of a slot are grouped by destination, and what a landed
value changes of its thread. -/

namespace Sys2Proof.Proofs

open Sys2Proof Sys2Proof.Machine Sys2Proof.Laws

/-! ### The results of a slot -/

/-- Some result of a list carries a lane value for a destination. -/
def Carries (fs : List Flight) (d : Dest) (u : Nat × QWord) : Prop := ∃ f ∈ fs, f.dest = d ∧ u ∈ f.vals

theorem carries_cons {f : Flight} {fs : List Flight} {d : Dest} {u : Nat × QWord} :
    Carries (f :: fs) d u ↔ (f.dest = d ∧ u ∈ f.vals) ∨ Carries fs d u := by
  unfold Carries
  simp

section AddResult

variable (land : Nat) (wait : Option Nat) (part : Nat)

theorem carries_addResult (d e : Dest) (q u : Nat × QWord) (fs : List Flight) :
    Carries (addResult land wait part d q fs) e u ↔ Carries fs e u ∨ (e = d ∧ u = q) := by
  induction fs with
  | nil =>
    simp [addResult, Carries, eq_comm]
  | cons f fs ih =>
    unfold addResult
    split
    · next h =>
      rw [carries_cons, carries_cons, List.mem_append, List.mem_singleton, h, @eq_comm _ e d, and_or_left,
        or_right_comm]
    · rw [carries_cons, carries_cons, ih, or_assoc]

/-- A value joins the result of its destination, or becomes a result of its own at the end. -/
theorem dests_addResult (d : Dest) (q : Nat × QWord) (fs : List Flight) :
    (addResult land wait part d q fs).map (fun f => f.dest)
      = if d ∈ fs.map (fun f => f.dest) then fs.map (fun f => f.dest) else fs.map (fun f => f.dest) ++ [d] := by
  induction fs with
  | nil => rfl
  | cons f fs ih =>
    unfold addResult
    by_cases h : f.dest = d
    · simp [h]
    · have h' : ¬ d = f.dest := fun e => h e.symm
      rw [if_neg h, List.map_cons, ih, List.map_cons, if_congr (List.mem_cons.trans (or_iff_right h')) rfl rfl,
        apply_ite (f.dest :: ·)]
      rfl

theorem nodup_addResult (d : Dest) (q : Nat × QWord) {fs : List Flight} (h : (fs.map (fun f => f.dest)).Nodup) :
    ((addResult land wait part d q fs).map (fun f => f.dest)).Nodup := by
  rw [dests_addResult]
  split
  · exact h
  · next hd => exact h.append (List.nodup_singleton d) (by simpa using hd)

theorem landsAt_addResult (d : Dest) (q : Nat × QWord) {fs : List Flight}
    (h : ∀ f ∈ fs, f.land = land ∧ f.wait = wait) :
    ∀ f ∈ addResult land wait part d q fs, f.land = land ∧ f.wait = wait := by
  induction fs with
  | nil => simp [addResult]
  | cons f fs ih =>
    obtain ⟨hf, hfs⟩ := List.forall_mem_cons.1 h
    unfold addResult
    split
    · exact List.forall_mem_cons.2 ⟨hf, hfs⟩
    · exact List.forall_mem_cons.2 ⟨hf, ih hfs⟩

/-- The last value of a list is added to the results of the values before it. -/
theorem resultsOf_append_singleton (vals : List (Nat × Dest × QWord)) (v : Nat × Dest × QWord) :
    resultsOf land wait part (vals ++ [v])
      = addResult land wait part v.2.1 (v.1, v.2.2) (resultsOf land wait part vals) := by
  unfold resultsOf
  rw [List.foldl_append]
  rfl

variable (vals : List (Nat × Dest × QWord))

theorem landsAt_resultsOf : ∀ f ∈ resultsOf land wait part vals, f.land = land ∧ f.wait = wait := by
  induction vals using List.reverseRecOn with
  | nil => exact fun f hf => nomatch hf
  | append_singleton vals v ih =>
    rw [resultsOf_append_singleton]
    exact landsAt_addResult land wait part _ _ ih

theorem nodup_resultsOf : ((resultsOf land wait part vals).map (fun f => f.dest)).Nodup := by
  induction vals using List.reverseRecOn with
  | nil => exact List.nodup_nil
  | append_singleton vals v ih =>
    rw [resultsOf_append_singleton]
    exact nodup_addResult land wait part _ _ ih

theorem carries_resultsOf (d : Dest) (tk : Nat) (v : QWord) :
    Carries (resultsOf land wait part vals) d (tk, v) ↔ (tk, d, v) ∈ vals := by
  induction vals using List.reverseRecOn with
  | nil => simp [resultsOf, Carries]
  | append_singleton vals u ih =>
    obtain ⟨k, e, w⟩ := u
    rw [resultsOf_append_singleton, carries_addResult, ih, List.mem_append, List.mem_singleton]
    simp only [Prod.mk.injEq]
    tauto

/-- Of results with distinct destinations, one that carries a value is the one of its destination. -/
theorem mem_vals_iff_carries {fs : List Flight} (h : (fs.map (fun f => f.dest)).Nodup) {f : Flight} (hf : f ∈ fs)
    (u : Nat × QWord) : u ∈ f.vals ↔ Carries fs f.dest u := by
  constructor
  · exact fun hu => ⟨f, hf, rfl, hu⟩
  · rintro ⟨f', hf', hd, hu⟩
    rwa [← List.inj_on_of_nodup_map h hf' hf hd]

end AddResult

/-- Settles O14: the results of the slot are grouped by destination, each landing at the same count. -/
theorem resultsPutInFlight : Obligations.ResultsPutInFlight := by
  unfold Obligations.ResultsPutInFlight
  intro s q lat vals
  have hn := nodup_resultsOf (q.count + lat) none 0 vals
  refine ⟨resultsOf (q.count + lat) none 0 vals, rfl, fun f hf => ?_, fun tk d v hv => ?_, hn⟩
  · obtain ⟨hl, hw⟩ := landsAt_resultsOf _ _ _ vals f hf
    exact ⟨hl, hw, fun tk v => (mem_vals_iff_carries hn hf _).trans (carries_resultsOf ..)⟩
  · exact (carries_resultsOf ..).2 hv

/-! ### A landed value -/

theorem readX_writeX (t : Thread) (r k : Nat) (v : DWord) :
    (t.writeX r v).readX k = if k = r ∧ r ≠ 0 then v else t.readX k := by
  unfold Thread.writeX Thread.readX
  by_cases hr : r = 0
  · simp [hr]
  · rw [if_neg hr]
    by_cases hk : k = 0
    · have : ¬ k = r := by omega
      simp [hk, Ne.symm hr]
    · simp [hk, hr, spGet_spSet]

theorem getLsbD_pow_two {i r : Nat} (hr : r < 16) : (BitVec.ofNat 16 (2 ^ r)).getLsbD i = decide (i = r) := by
  rw [BitVec.getLsbD_ofNat, Nat.testBit_two_pow]
  by_cases h : i = r
  · simp [h, hr]
  · simp [h, Ne.symm h]

theorem getLsbD_bit {r : Nat} (hr : r < 16) (v : Bool) (i : Nat) :
    (if v then BitVec.ofNat 16 (2 ^ r) else 0).getLsbD i = (v && decide (i = r)) := by
  cases v
  · exact BitVec.getLsbD_zero
  · exact getLsbD_pow_two hr

theorem readP_writeP (t : Thread) {r : Nat} (hr : r < 16) (k : Nat) (v : Bool) :
    (t.writeP r v).readP k = if k = r ∧ r ≠ 0 then v else t.readP k := by
  unfold Thread.writeP Thread.readP
  by_cases h0 : r = 0
  · simp [h0]
  · rw [if_neg h0]
    simp only [BitVec.getLsbD_or, BitVec.getLsbD_and, BitVec.getLsbD_not, getLsbD_pow_two hr, getLsbD_bit hr]
    by_cases hk : k = r
    · subst hk
      simp [h0]
    · by_cases h16 : k < 16
      · simp [hk, h16]
      · simp [hk, BitVec.getLsbD_of_ge t.p k (Nat.le_of_not_lt h16)]

theorem readB_writeB (t : Thread) (r k : Nat) (v : DWord) :
    (t.writeB r v).readB k = if k = r then v else t.readB k := spGet_spSet ..

/-- A write to the current frame, by physical register. -/
theorem writeV_current {t : Thread} {f : Frame} {fs : List Frame} (h : t.frames = f :: fs) (r : Nat) (v : Word) :
    t.writeV t.depth r v = { t with frames := { f with regs := spSet (fun _ => 0) f.regs r v } :: fs } := by
  unfold Thread.writeV
  rw [if_neg (Nat.lt_irrefl _), Nat.sub_self, h]
  rfl

/-- Settles O15: each register file's law of a read after a write. -/
theorem landedResultChangesItsRegister : Obligations.LandedResultChangesItsRegister := by
  unfold Obligations.LandedResultChangesItsRegister
  intro t v r k
  refine ⟨rfl, rfl, readX_writeX .., ?_, fun hr => readP_writeP t hr k _, ?_, readB_writeB .., rfl, rfl,
    fun f fs h => ?_⟩
  · show { t.writeX r _ with x := t.x } = t
    unfold Thread.writeX
    split <;> rfl
  · show { t.writeP r _ with p := t.p } = t
    unfold Thread.writeP
    split <;> rfl
  · have hl : t.land (.v t.depth r) v = _ := writeV_current h r (v.truncate 32)
    have hf : t.frame = f := by unfold Thread.frame; rw [h]; rfl
    rw [hl, hf]
    exact ⟨spGet_spSet .., rfl, rfl⟩

end Sys2Proof.Proofs

/-! SUPPORT. The slots whose whole effect is results put in flight (R108, R109, R111): `FliesOnly`, and the operations
that keep it. -/

namespace Sys2Proof.Proofs

open Sys2Proof Sys2Proof.Machine Sys2Proof.Laws

/-- A value of a slot with guard g that names the destinations ds: it is for a participant, and for one of ds or for the
status bits. -/
def NamedValue (s : State) (q : Issue) (g : Guard) (ds : List DestName) (tk : Nat) (d : Dest) : Prop :=
  (∃ l ∈ participants s q g, l.2 = tk) ∧ (d = .status ∨ ∃ n ∈ ds, destIs (s.thread tk) n d)

/-- t is s with results in flight, which land after the bundle's count, for the destinations and participants named. -/
def FliesOnly (s : State) (q : Issue) (g : Guard) (ds : List DestName) (t : State) : Prop :=
  ∃ fs : List Flight, t = s.modRun q.run (fun r => { r with flights := r.flights ++ fs })
    ∧ ∀ f ∈ fs, q.count < f.land ∧ ∀ u ∈ f.vals, NamedValue s q g ds u.1 f.dest

theorem modRun_append_nil (s : State) (run : Nat) :
    s.modRun run (fun r => { r with flights := r.flights ++ [] }) = s := by
  unfold State.modRun
  simp

theorem modRun_append_append (s : State) (run : Nat) (fs gs : List Flight) :
    (s.modRun run (fun r => { r with flights := r.flights ++ fs })).modRun run
        (fun r => { r with flights := r.flights ++ gs })
      = s.modRun run (fun r => { r with flights := r.flights ++ (fs ++ gs) }) := by
  unfold State.modRun
  simp only [List.map_map, State.mk.injEq, true_and, and_true]
  refine List.map_congr_left fun r _ => ?_
  by_cases h : r.id = run
  · simp [h]
  · simp [h]

theorem FliesOnly.refl (s : State) (q : Issue) (g : Guard) (ds : List DestName) : FliesOnly s q g ds s :=
  ⟨[], (modRun_append_nil s q.run).symm, fun _ hf => nomatch hf⟩

section Fly

variable {s t : State} {q : Issue} {g : Guard} {ds : List DestName} {lat : Nat}

theorem FliesOnly.thread (h : FliesOnly s q g ds t) (k : Nat) : t.thread k = s.thread k := by
  obtain ⟨fs, rfl, -⟩ := h
  rfl

theorem FliesOnly.participants (h : FliesOnly s q g ds t) : participants t q g = participants s q g := by
  obtain ⟨fs, rfl, -⟩ := h
  rfl

theorem FliesOnly.fly (h : FliesOnly s q g ds t) (hl : 0 < lat) {vals : List (Nat × Dest × QWord)}
    (hv : ∀ v ∈ vals, NamedValue s q g ds v.1 v.2.1) : FliesOnly s q g ds (t.fly q lat vals) := by
  obtain ⟨fs, rfl, hfs⟩ := h
  refine ⟨fs ++ resultsOf (q.count + lat) none 0 vals, modRun_append_append .., fun f hf => ?_⟩
  rcases List.mem_append.1 hf with hf | hf
  · exact hfs f hf
  · obtain ⟨hland, -⟩ := landsAt_resultsOf _ _ _ vals f hf
    refine ⟨by omega, fun u hu => ?_⟩
    exact hv (u.1, f.dest, u.2) ((carries_resultsOf ..).1 ⟨f, hf, rfl, hu⟩)

/-- Every participant gets a value. -/
theorem FliesOnly.flyMap (h : FliesOnly s q g ds t) (hl : 0 < lat) {d : Nat × Nat → Dest} {v : Nat × Nat → QWord}
    {n : DestName} (hn : n ∈ ds) (hd : ∀ l, destIs (s.thread l.2) n (d l)) :
    FliesOnly s q g ds (t.fly q lat ((Machine.participants t q g).map (fun l => (l.2, d l, v l)))) := by
  refine h.fly hl fun u hu => ?_
  rw [h.participants] at hu
  obtain ⟨l, hm, rfl⟩ := List.mem_map.1 hu
  exact ⟨⟨l, hm, rfl⟩, .inr ⟨n, hn, hd l⟩⟩

theorem FliesOnly.flyX {xd : BitVec 4} (hl : 0 < lat) (f : Nat × Nat → DWord) :
    FliesOnly s q g (xDest xd) (s.flyX q g lat xd f) := by
  unfold State.flyX xDest
  split
  · exact .refl ..
  · exact (FliesOnly.refl ..).flyMap hl (List.mem_singleton_self _) fun _ => rfl

theorem FliesOnly.flyP {pd : BitVec 4} (hl : 0 < lat) (f : Nat × Nat → Bool) :
    FliesOnly s q g [.p pd.toNat] (s.flyP q g lat pd f) :=
  (FliesOnly.refl ..).flyMap hl (List.mem_singleton_self _) fun _ => rfl

theorem FliesOnly.flyB {bd : BitVec 3} (hl : 0 < lat) (f : Nat × Nat → DWord) :
    FliesOnly s q g [.b bd.toNat] (s.flyB q g lat bd f) :=
  (FliesOnly.refl ..).flyMap hl (List.mem_singleton_self _) fun _ => rfl

theorem FliesOnly.flyV (h : FliesOnly s q g ds t) (hl : 0 < lat) {vd : Nat} (hn : .v vd ∈ ds)
    (f : Nat × Nat → Word) : FliesOnly s q g ds (t.flyV q g lat vd f) :=
  h.flyMap hl hn fun l => by rw [h.thread]; rfl

theorem FliesOnly.flyStatus (h : FliesOnly s q g ds t) (hl : 0 < lat) (f : Nat × Nat → Flags) :
    FliesOnly s q g ds (t.flyStatus q g lat f) := by
  refine h.fly hl fun u hu => ?_
  rw [h.participants] at hu
  obtain ⟨l, hm, rfl⟩ := List.mem_map.1 hu
  exact ⟨⟨l, (List.mem_filter.1 hm).1, rfl⟩, .inl rfl⟩

theorem mem_vRun {r : BitVec 8} {n k : Nat} (hk : k < n) : DestName.v (r.toNat + k) ∈ vRun r n :=
  List.mem_map.2 ⟨k, List.mem_range.2 hk, rfl⟩

/-- A slot that writes the one register vd. -/
theorem FliesOnly.flyOneV {vd : BitVec 8} (hl : 0 < lat) (f : Nat × Nat → Word) :
    FliesOnly s q g (vRun vd 1) (s.flyV q g lat vd.toNat f) :=
  (FliesOnly.refl ..).flyV hl (mem_vRun Nat.one_pos) f

theorem FliesOnly.flyVF {vd : BitVec 8} (hl : 0 < lat) (f : Nat × Nat → Word × Flags) :
    FliesOnly s q g (vRun vd 1) (s.flyVF q g lat vd.toNat f) :=
  (FliesOnly.flyOneV hl _).flyStatus hl _

/-- A slot that writes registers of a run one after the other. -/
theorem FliesOnly.foldl_flyV (h : FliesOnly s q g ds t) (hl : 0 < lat) {vd : Nat} (f : Nat → Nat × Nat → Word)
    {ks : List Nat} (hk : ∀ k ∈ ks, .v (vd + k) ∈ ds) :
    FliesOnly s q g ds (ks.foldl (fun z k => z.flyV q g lat (vd + k) (f k)) t) := by
  induction ks generalizing t with
  | nil => exact h
  | cons k ks ih =>
    obtain ⟨hk, hks⟩ := List.forall_mem_cons.1 hk
    exact ih (h.flyV hl hk (f k)) hks

end Fly

/-- The instruction completes, and only puts results in flight for its destinations and participants. -/
def Flies (s : State) (q : Issue) (i : Instr) : Prop :=
  ∃ t, exec i s = .next t ∧ FliesOnly s q ((guardIn i).getD Guard.always) (destsOf i) t

section Slots

variable {s : State} {q : Issue} {i : Instr} {effect : Issue → State} (hq : s.issue = some q)
include hq

theorem flies_of_slotNext (he : exec i s = slotNext s effect)
    (h : FliesOnly s q ((guardIn i).getD Guard.always) (destsOf i) (effect q)) : Flies s q i :=
  ⟨effect q, he.trans (slotNext_some effect hq), h⟩

theorem flies_of_framed (hc : Unbarred q (frameCond s q i)) (he : exec i s = framed s i effect)
    (h : FliesOnly s q ((guardIn i).getD Guard.always) (destsOf i) (effect q)) : Flies s q i :=
  ⟨effect q, he.trans (framed_next hq hc effect), h⟩

end Slots

theorem fliesOnly_setsr (s : State) (q : Issue) (sr : BitVec 9) (xa : BitVec 4) (g : Guard) :
    FliesOnly s q g [.sr sr.toNat] (s.fly q latScalar
      ((if sr = 0x051 then (participants s q g).take 1 else participants s q g).map
        (fun l => (l.2, .sr sr.toNat, (xOf s l xa).zeroExtend 128)))) := by
  refine (FliesOnly.refl ..).fly (by decide) fun u hu => ?_
  obtain ⟨l, hm, rfl⟩ := List.mem_map.1 hu
  have hp : l ∈ participants s q g := by
    split at hm
    · exact List.mem_of_mem_take hm
    · exact hm
  exact ⟨⟨l, hp, rfl⟩, .inr ⟨_, List.mem_singleton_self _, rfl⟩⟩

/-- A class Q slot writes one predicate, and status bits of an FP32 compare. -/
theorem fliesOnly_qSlot (s : State) (q : Issue) (o : QOp) (f : Nat × Nat → Bool) (c : Prop) [Decidable c]
    (ff : Nat × Nat → Bool) (fl : Nat × Nat → Flags) : FliesOnly s q o.g [.p o.pd.toNat]
      (if c then (s.flyP q o.g latVector o.pd ff).flyStatus q o.g latVector fl else s.flyP q o.g latVector o.pd f) := by
  split
  · exact (FliesOnly.flyP (by decide) ff).flyStatus (by decide) fl
  · exact FliesOnly.flyP (by decide) f

/-- Every slot of `registerSlot` puts its results in flight and does nothing else. -/
theorem registerSlot_flies {s : State} {q : Issue} {i : Instr} (hi : registerSlot i = true) (hq : s.issue = some q)
    (hc : Unbarred q (frameCond s q i)) : Flies s q i := by
  cases i with
  | add | sub | mul | mulh | mulhu | min | max | minu | maxu | and | or | xor | andn | sll | srl | sra | addImm | mulImm
  | andImm | orImm | xorImm | sllImm | srlImm | sraImm | sh1add | sh2add | sh3add | clz | ctz | popc | bext | bextu
  | bins | sel | adr | getsr | tagff => exact flies_of_slotNext hq rfl (FliesOnly.flyX (by decide) _)
  | cmpeq | cmpne | cmplt | cmpltu | cmple | cmpleu | cmpeqImm | cmpneImm | cmpltImm | cmpltuImm | cmpgtImm
  | cmpgtuImm => exact flies_of_slotNext hq rfl (FliesOnly.flyP (by decide) _)
  | tgtLabel | tgtReg => exact flies_of_slotNext hq rfl (FliesOnly.flyB (by decide) _)
  | setsr sr xa g => exact flies_of_slotNext hq rfl (fliesOnly_setsr s q sr xa g)
  | vadd | vsub | vmul | vmulh | vmad | vdot4 | vmin | vmax | vabs | vand | vor | vxor | vandn | vshl | vshr | vclz
  | vpopc | vmov | vsel | vfabs | vfneg | vnps | vmatch | vballot | vbcast | vxtov =>
    exact flies_of_framed hq hc rfl (FliesOnly.flyOneV (by decide) _)
  | vfadd | vfsub | vfmul | vfma | vfmin | vfmax | vhadd | vhsub | vhmul | vhfma | vbadd | vbsub | vbmul | vbfma | vcvtx
  | vftoi | vitof | vcvth | vshfl | vperm | vscan | vred =>
    exact flies_of_framed hq hc rfl (FliesOnly.flyVF (by decide) _)
  | vvote => exact flies_of_framed hq hc rfl (FliesOnly.flyP (by decide) _)
  | vvtox => exact flies_of_framed hq hc rfl (FliesOnly.flyX (by decide) _)
  | vnpm =>
    exact flies_of_framed hq hc rfl
      ((FliesOnly.refl ..).foldl_flyV (by decide) _ fun k hk => mem_vRun (List.mem_range.1 hk))
  | vcmpeq | vcmpne | vcmplt | vcmple => exact flies_of_framed hq hc rfl (fliesOnly_qSlot ..)
  | _ => cases hi

/-- Settles O17: each slot of `registerSlot` has no condition, or the frame bound as its only one, and its effect is one of
the ways to put results in flight. -/
theorem registerSlotsOnlyPutResultsInFlight : Obligations.RegisterSlotsOnlyPutResultsInFlight := by
  unfold Obligations.RegisterSlotsOnlyPutResultsInFlight
  intro i s q hi hq hc
  obtain ⟨t, ht, fs, rfl, hfs⟩ := registerSlot_flies hi hq hc
  exact ⟨fs, ht, hfs⟩

end Sys2Proof.Proofs

/-! SUPPORT. The branch-slot kinds (R115 to R133, R155, R281 to R291, R344): what each answers when nothing stops it and
when its own condition does, and what a granted call and a pop leave of the threads. -/

namespace Sys2Proof.Proofs

open Sys2Proof Sys2Proof.Machine Sys2Proof.Laws

/-! ### Branch trees -/

/-- A test of a tree is 1 in a lane (R115). -/
def testHolds (s : State) (l : Nat × Nat) (x : Test) : Bool := (s.thread l.2).readP x.pred.toNat != x.sense

theorem firstTest_index (t : Thread) (tests : List Test) (k : Nat) : (firstTest t tests k).map (fun r => r.1)
    = (tests.findIdx? (fun x => t.readP x.pred.toNat != x.sense)).map (fun n => k + n) := by
  induction tests generalizing k with
  | nil => rfl
  | cons x xs ih =>
    rw [firstTest, List.findIdx?_cons]
    split
    · rfl
    · rw [ih, Option.map_map]
      exact congrArg (Option.map · _) (funext fun n => Nat.add_right_comm k 1 n)

theorem firstTest_test (t : Thread) (tests : List Test) (k : Nat) : (firstTest t tests k).map (fun r => r.2)
    = tests.find? (fun x => t.readP x.pred.toNat != x.sense) := by
  induction tests generalizing k with
  | nil => rfl
  | cons x xs ih =>
    rw [firstTest, List.find?_cons]
    cases t.readP x.pred.toNat != x.sense
    · exact ih (k + 1)
    · rfl

theorem leafOf_eq (s : State) (l : Nat × Nat) (tests : List Test) :
    leafOf (s.thread l.2) tests = (tests.findIdx? (testHolds s l)).getD 4 := by
  have h : leafOf (s.thread l.2) tests = ((firstTest (s.thread l.2) tests 0).map (fun r => r.1)).getD 4 := by
    unfold leafOf
    cases firstTest (s.thread l.2) tests 0 <;> rfl
  rw [h, firstTest_index]
  simp only [Nat.zero_add, Option.map_id']
  rfl

/-- The way of a lane through a tree, as the threads stand in s. -/
def branchWay (s : State) (tests : List Test) (z : State) (l : Nat × Nat) : State :=
  match tests.find? (testHolds s l) with
  | some x => z.way l.1 (.go (evenPc ((s.thread l.2).readB x.breg.toNat)))
  | none => z

theorem foldl_branchWay {s : State} (tests : List Test) (ls : List (Nat × Nat)) {z : State}
    (h : z.threads = s.threads) : ls.foldl (fun z l => match firstTest (z.thread l.2) tests 0 with
      | some (_, x) => z.way l.1 (.go (evenPc ((z.thread l.2).readB x.breg.toNat)))
      | none => z) z = ls.foldl (branchWay s tests) z := by
  induction ls generalizing z with
  | nil => rfl
  | cons l ls ih =>
    have ht : z.thread l.2 = s.thread l.2 := by unfold State.thread; rw [h]
    have hf := firstTest_test (s.thread l.2) tests 0
    have hx : tests.find? (testHolds s l) = _ := hf.symm
    rw [List.foldl_cons, List.foldl_cons, branchWay, hx, ht]
    cases firstTest (s.thread l.2) tests 0 with
    | none => exact ih h
    | some r => exact ih h

theorem br_next {s : State} {q : Issue} (tests : List Test) (file : Bool) (hq : s.issue = some q) :
    exec (.br tests file) s = .next (q.lanes.foldl (branchWay s tests) { s with issue := some { q with
      leaf := q.lanes.map (fun l => (l.1, (tests.findIdx? (testHolds s l)).getD 4)), file := q.file || file } }) := by
  refine (slotNext_some _ hq).trans (congrArg _ ?_)
  have hl : leaves s q tests = q.lanes.map (fun l => (l.1, (tests.findIdx? (testHolds s l)).getD 4)) :=
    List.map_congr_left fun l _ => by rw [leafOf_eq]
  rw [← hl]
  exact foldl_branchWay tests q.lanes rfl

/-! ### Loops, barriers and traps -/

theorem loopCond_of_fits {s : State} {q : Issue} {rot : BitVec 3}
    (h : ∀ l ∈ q.lanes, rotSize rot.toNat ≤ (s.thread l.2).vCount) : loopCond s q rot = none :=
  if_neg (by simpa using h)

theorem loopCond_of_not_fits {s : State} {q : Issue} {rot : BitVec 3}
    (h : ¬ ∀ l ∈ q.lanes, rotSize rot.toNat ≤ (s.thread l.2).vCount) :
    loopCond s q rot = some (Cond.plain q 0x05 0 0) :=
  if_pos (by simpa using h)

/-- The lanes in which the test of a TRAP is 1 (R131). -/
def trapHits (s : State) (q : Issue) (pred : BitVec 4) (sense : Bool) : List (Nat × Nat) :=
  q.lanes.filter (fun l => (s.thread l.2).readP pred.toNat != sense)

theorem trapCond_eq (s : State) (q : Issue) (code : BitVec 8) (pred : BitVec 4) (sense : Bool) :
    trapCond s q code pred sense = if trapHits s q pred sense = [] then none
      else some { Cond.plain q 0x0F 0 0 with
        lanes := (trapHits s q pred sense).map (fun l => l.1), info := code.zeroExtend 64 } := by
  unfold trapCond
  simp only [List.isEmpty_iff]
  rfl

section Slots

variable {s : State} {q : Issue} (hq : s.issue = some q)
include hq

theorem exit_next (h : Unbarred q (statusCond s q)) (hg : isService q.group = false) : exec .exit s
    = .next ((q.lanes.foldl (fun z l => z.endThread l.2) ((s.landShapes q.run).leaveRun q.run q.lanes)).barCheck q.group) :=
  (slotCond_effect _ hq h).trans (if_neg (by simp [hg]))

/-- EXIT in the service context: the records come first (R357, R358). -/
theorem exit_service (h : Unbarred q (statusCond s q)) (hg : isService q.group = true) : exec .exit s
    = .next (match if q.cleared then none else s.recordHold q.core with
      | some w => s.hold q.run w
      | none => s.exitService q) := by
  refine ((slotCond_effect _ hq h).trans (if_pos hg)).trans ?_
  cases (if q.cleared then none else s.recordHold q.core) <;> rfl

theorem svc_on (num : BitVec 16) (hon : s.serviceOn = true) (h : q.cleared = true ∨ s.serviceFull q.core = false) :
    exec (.svc num) s = .next (q.lanes.foldl (fun z l => z.way l.1 (.block .svc q.seqPc)) (s.postService q num)) :=
  (slotHeld_effect _ hq (h.imp_right fun hf => if_neg (by simp [hf]))).trans (congrArg _ (if_pos hon))

theorem svc_off (num : BitVec 16) (hoff : s.serviceOn = false) : exec (.svc num) s
    = .next { s.fly q 1 (q.lanes.map (fun l => (l.2, .x 1, 0xFFFFFFFFFFFFFFFF))) with
        issue := some { q with file := true } } :=
  (slotHeld_effect _ hq (.inr (if_neg (by simp [hoff])))).trans (congrArg _ (if_neg (by simp [hoff])))

/-! ### Calls and pops -/

/-- A frame-engine slot acts when nothing stops it, and takes its condition when its accesses can be made (R279). -/
theorem frameSlot_split {o : Out} {needs : Issue → Wl} {cond : Issue → Option Cond} {effect : Issue → State}
    (ho : o = frameSlot s needs cond effect) :
    (q.cleared = true ∨ (s.wlStop q (needs q) = none ∧ cond q = none) → o = .next (effect q))
    ∧ ∀ bad, q.cleared = false → s.wlStop q (needs q) = none → cond q = some bad →
      o = .next (s.takeCond q bad) :=
  ⟨fun h => ho.trans (frameSlot_effect effect hq h), fun _ hc hw h => ho.trans (frameSlot_taken effect hq hc hw h)⟩

theorem calli_cleared (xa : BitVec 4) (carry : BitVec 3) (mark : Bool) (hc : q.cleared = true) :
    exec (.calli xa carry mark) s = .next (s.calliLanes q xa carry mark) :=
  (withIssue_some _ hq).trans (if_pos hc)

theorem calli_taken {xa : BitVec 4} (carry : BitVec 3) (mark : Bool) {bad : Cond} (hc : q.cleared = false)
    (h : (calliRead s q xa).orElse (fun _ => calliCond s q xa) = some bad) :
    exec (.calli xa carry mark) s = .next (s.takeCond q bad) := by
  refine (withIssue_some _ hq).trans ((if_neg (by simp [hc])).trans ?_)
  cases hr : calliRead s q xa with
  | some c =>
    rw [hr] at h
    cases h
    rfl
  | none =>
    rw [hr] at h
    rw [show calliCond s q xa = some bad from h]

/-- The entries that the tests of the lanes have read are marked (R291). -/
def marksRead (s : State) (q : Issue) : State := q.lanes.foldl (fun z l => z.readMarks l) s

theorem unwindMark_next (h : q.cleared = true ∨ (s.wlStop q (markNeeds s q) = none ∧ markCond s q = none)) :
    exec .unwindMark s = .next (q.lanes.foldl (fun z l => z.unwindToMark q l (markOf s l)) (marksRead s q)) := by
  refine (withIssue_some _ hq).trans ?_
  rcases h with h | ⟨hw, hc⟩
  · exact if_pos h
  · rw [hw, hc]
    exact ite_self _

theorem unwindMark_taken {bad : Cond} (hc : q.cleared = false) (hw : s.wlStop q (markNeeds s q) = none)
    (h : markCond s q = some bad) : exec .unwindMark s = .next ((marksRead s q).takeCond q bad) := by
  refine (withIssue_some _ hq).trans ((if_neg (by simp [hc])).trans ?_)
  rw [hw, h]
  rfl

/-! ### DSWAP and RESUME.SLOTS -/

/-- What DSWAP does with the address of a leader lane (R155, R424). -/
theorem dswap_next {tk : Nat} {xa : BitVec 4} {g : Guard} (hl : leader s q g = some tk)
    (hc : Unbarred q (dswapCond s q g)) : let a := (s.thread tk).readX xa.toNat
    let z := s.withdrawSwap q.group
    exec (.dswap xa g) s = .next (if a = 0 then z else match z.readMap q tk a with
      | none => z.markMap q tk a
      | some m => (z.markMap q tk a).modGroup q.group (fun g => { g with swap := some a, ymap := some m })) := by
  intro a z
  refine (slotCond_effect _ hq hc).trans ?_
  simp only [hl]
  by_cases ha : a = 0
  · rw [if_pos ha, if_pos ha]
  · rw [if_neg ha, if_neg ha]
    cases z.readMap q tk a <;> rfl

theorem resumeSlots_stopped {xa xb : BitVec 4} {g : Guard} {st : ResumeStop} (h : resumeStop s q xa xb g = some st) :
    exec (.resumeSlots xa xb g) s = .next (s.takeResumeStop q st) := by
  refine (withIssue_some _ hq).trans ?_
  rw [h]

theorem resumeSlots_next {tk : Nat} {r : TrapRec} {bs : List Byte} {xa xb : BitVec 4} {g : Guard}
    (hl : leader s q g = some tk) (hr : s.trapOf q.lanes = some r)
    (hb : s.blockRead q tk ((s.thread tk).readX xb.toNat) (blockLen (resumeMask ((s.thread tk).readX xa.toNat))) = .ok bs)
    (h : resumeStop s q xa xb g = none) : exec (.resumeSlots xa xb g) s
      = .next ((s.markPages q.group ((s.thread tk).readX xb.toNat) bs.length).resume q r
          ((s.thread tk).readX xa.toNat) bs) := by
  refine (withIssue_some _ hq).trans ?_
  simp only [h, hl, hr, hb]

end Slots

/-! ### What a call and a pop leave of the threads -/

/-- A granted call changes its thread only (R281). -/
theorem callLane_frame {s : State} {q : Issue} {l : Nat × Nat} {target : DWord} {dem carry : Nat} {mark : Bool}
    (h1 : s.grantNow q.core l.1 dem = true) (h2 : (s.thread l.2).depth ≠ 65535) (h3 : (s.thread l.2).evicts = none) :
    let z := s.callLane q l target dem carry mark
    z.thread l.2 = called ((s.thread l.2).capture q.seqPc mark dem) ((s.thread l.2).carried carry) dem (s.thread l.2)
    ∧ (∀ k, k ≠ l.2 → z.thread k = s.thread k) ∧ z.mem = s.mem := by
  intro z
  have hz : z = _ := callLane_granted h1 h2 h3
  rw [hz]
  exact ⟨thread_modThread_same .., fun k hk => thread_modThread_other s _ hk, rfl⟩

/-- A pop takes frames and entries, once the entry that it returns to is on chip (R277, R289). -/
theorem popLane_frame (s : State) (q : Issue) (l : Nat × Nat) (m : Nat) (vs : List Word) :
    let t := s.thread l.2
    let z := s.popLane q l m vs
    z.thread l.2 = (if (t.entry (t.depth - m + 1)).onChip = true then popped m t else t)
    ∧ (∀ k, k ≠ l.2 → z.thread k = s.thread k) ∧ z.mem = s.mem := by
  intro t z
  obtain ⟨ht, hm⟩ := popLane_threads s q l m vs
  have h : ∀ k, z.thread k
      = (if (t.entry (t.depth - m + 1)).onChip = true then s.modThread l.2 (popped m) else s).thread k := by
    intro k
    unfold State.thread
    rw [apply_ite State.threads]
    exact congrArg (spGet _ · k) ht
  refine ⟨(h _).trans ?_, fun k hk => (h k).trans ?_, hm⟩
  · split
    · exact thread_modThread_same ..
    · rfl
  · split
    · exact thread_modThread_other s _ hk
    · rfl

/-- Settles O55: one law of a branch-slot kind for each clause. -/
theorem branchSlots : Obligations.BranchSlots := by
  unfold Obligations.BranchSlots
  intro s q tests file mark sense xa xb pred dem epi code rot carry breg num g hq L T n lp F
  refine ⟨br_next tests file hq, slotNext_some _ hq,
    ⟨fun h => slotCond_effect _ hq (h.imp_right loopCond_of_fits),
      fun hc h => slotCond_taken _ hq hc (loopCond_of_not_fits h)⟩,
    slotNext_some _ hq, slotNext_some _ hq,
    fun h => ⟨slotCond_effect _ hq h, exit_next hq h, fun hg hr => ?_, fun w hg hc hr => ?_⟩,
    ⟨fun h => ?_, fun h hc => ?_⟩, fun hc => slotCond_taken (cond := fun q => some (brkCond q code)) _ hq hc rfl,
    svc_on hq num, svc_off hq num, frameSlot_split (o := execCall breg dem carry mark s) hq rfl,
    calli_cleared hq xa carry mark, fun hc bad => calli_taken hq carry mark hc,
    frameSlot_split (o := execRet carry s) hq rfl, frameSlot_split (o := execUnwind xa s) hq rfl,
    ⟨unwindMark_next hq, fun bad => unwindMark_taken hq⟩, fun tk hl hc => ⟨fun ha => ?_, fun ha => ?_⟩,
    fun tk r bs => resumeSlots_next hq, fun st => resumeSlots_stopped hq, fun l target d c => callLane_frame,
    fun l m vs => ?_⟩
  · rw [exit_service hq h hg]
    rcases hr with hr | hr <;> simp [hr]
  · rw [exit_service hq h hg, hc, hr]
    rfl
  · exact slotCond_effect _ hq (.inr ((trapCond_eq ..).trans (if_pos h)))
  · exact slotCond_taken _ hq hc ((trapCond_eq ..).trans (if_neg h))
  · exact (dswap_next hq hl hc).trans (congrArg _ (if_pos ha))
  · exact (dswap_next hq hl hc).trans (congrArg _ (if_neg ha))
  · obtain ⟨hs, ho, hm⟩ := popLane_frame s q l m vs
    refine ⟨fun he => ?_, fun he => hs.trans (if_neg (by simp [he])), ?_, ?_, ?_, ho, hm⟩
    · rw [hs, if_pos he]
      exact ⟨rfl, rfl⟩
    all_goals
      rw [hs]
      split <;> rfl

end Sys2Proof.Proofs

/-! SUPPORT. A state that refutes PendingWrites: its list of cores is not in the order of their numbers. -/

namespace Sys2Proof.Proofs

open Sys2Proof Sys2Proof.Machine

/-- A core with one store, of one byte at location 0, that has performed at a scope and not yet everywhere. -/
def storingCore (level : Nat) (b : Byte) : Core :=
  { Core.reset with writes := [⟨0, 0, 0, 0, .bytes [b], Rels.zero, .wb, level⟩] }

/-- Cores 5 and 1, listed in that order, have each performed a store to location 0 as far as core 0, whose cluster has a
fused L1. -/
def unorderedCores : State :=
  { State.reset with
    cores := [(5, storingCore 3 0xAA), (1, storingCore 1 0xBB)]
    sched := { State.reset.sched with fused := [(0, true)] } }

/-- A store of core 0 to the local line 128, which the member of core 1 holds (R205). -/
def localStore : PendWrite := ⟨1, 0, 0, 128, .bytes [0x11], Rels.zero, .lcl, 0⟩

theorem lines_unorderedCores (m : Nat) : (unorderedCores.core m).lines = [] := by
  unfold State.core spGet unorderedCores
  simp only [spFind]
  split
  · rfl
  · split <;> rfl

theorem hasRoom_unorderedCores (m : Nat) : unorderedCores.hasRoom m 2 := by
  have hl : unorderedCores.l1Locals m = [] := by unfold State.l1Locals; rw [lines_unorderedCores]; rfl
  have hc : unorderedCores.l1Copies m = [] := rfl
  unfold State.hasRoom
  rw [hl, hc]
  decide

/-- Core 0 reads the store of core 5, which is found first. -/
theorem localByte_unorderedCores : unorderedCores.localByte 0 0 = 0xAA := by decide +kernel

/-- Writing the line into core 1's member has put core 1 before core 5 in the list, so that its store is found first. -/
theorem localByte_performWrite_unorderedCores :
    (unorderedCores.performWrite 0 localStore).localByte 0 0 = 0xBB := by decide +kernel

/-- Refutes O49: a store that performs in a local line must leave what its core reads of other lines. Nothing asks the list
of cores to be in key order, and a change of the member that holds the line moves one out of order to an earlier place. Where
two other cores have each performed a store to one byte as far as the reading core, it then reads the other of the two. -/
theorem not_pendingWrites : ¬ Obligations.PendingWrites := by
  unfold Obligations.PendingWrites
  rintro ⟨-, -, hperform, -⟩
  obtain ⟨-, hlocal, -⟩ := hperform unorderedCores 0 localStore
  obtain ⟨-, -, hother⟩ := hlocal [0x11] rfl rfl (by decide) hasRoom_unorderedCores 0
  have h := hother (by decide) (.inl (by decide))
  rw [localByte_performWrite_unorderedCores, localByte_unorderedCores] at h
  exact absurd h (by decide)

end Sys2Proof.Proofs

/-! SUPPORT. The products of the multiplies (R142): the high half of a product of two 64-bit operands. -/

namespace Sys2Proof.Proofs

open Sys2Proof Sys2Proof.Machine Sys2Proof.Laws

/-- The upper half of a 128-bit value, as the quotient by 2 ^ 64. -/
theorem extractLsb'_ofInt_high (x : Int) : (BitVec.ofInt 128 x).extractLsb' 64 64 = BitVec.ofInt 64 (x / 2 ^ 64) := by
  apply BitVec.eq_of_toNat_eq
  rw [BitVec.extractLsb'_toNat, BitVec.toNat_ofInt, BitVec.toNat_ofInt, Nat.shiftRight_eq_div_pow]
  omega

/-- A sign extension keeps the signed value, so that the product of two is the signed product. -/
theorem mulHigh_eq (a b : DWord) : mulHigh a b = (a.signExtend 128 * b.signExtend 128).extractLsb' 64 64 := by
  have hp : a.signExtend 128 * b.signExtend 128 = BitVec.ofInt 128 (a.toInt * b.toInt) := (BitVec.ofInt_mul ..).symm
  rw [hp, extractLsb'_ofInt_high]
  rfl

/-- The product of two 64-bit numbers fits in 128 bits. -/
theorem toNat_zeroExtend_mul (a b : DWord) : (a.zeroExtend 128 * b.zeroExtend 128).toNat = a.toNat * b.toNat := by
  have hlt : a.toNat * b.toNat < 2 ^ 64 * 2 ^ 64 := Nat.mul_lt_mul'' a.isLt b.isLt
  rw [BitVec.toNat_mul, BitVec.toNat_setWidth_of_le (by decide), BitVec.toNat_setWidth_of_le (by decide)]
  exact Nat.mod_eq_of_lt hlt

theorem mulHighU_eq (a b : DWord) : mulHighU a b = (a.zeroExtend 128 * b.zeroExtend 128).extractLsb' 64 64 := by
  apply BitVec.eq_of_toNat_eq
  rw [BitVec.extractLsb'_toNat, toNat_zeroExtend_mul, Nat.shiftRight_eq_div_pow]
  exact BitVec.toNat_ofNat ..

theorem mul_eq_low (a b : DWord) : a * b = (a.zeroExtend 128 * b.zeroExtend 128).extractLsb' 0 64 := by
  apply BitVec.eq_of_toNat_eq
  rw [BitVec.extractLsb'_toNat, toNat_zeroExtend_mul, Nat.shiftRight_zero, BitVec.toNat_mul]

theorem high_append_low (p : BitVec 128) : p.extractLsb' 64 64 ++ p.extractLsb' 0 64 = p :=
  (BitVec.extractLsb'_append_extractLsb'_eq_extractLsb' rfl).trans BitVec.extractLsb'_eq_self

/-- Settles O19: each high half is one of the exact product, whose two halves make it up. -/
theorem multiplyHighIsHighHalf : Obligations.MultiplyHighIsHighHalf := by
  unfold Obligations.MultiplyHighIsHighHalf
  refine fun a b => ⟨mulHigh_eq a b, mulHighU_eq a b, ?_⟩
  rw [mulHighU_eq, mul_eq_low, high_append_low]

end Sys2Proof.Proofs

/-! SUPPORT. The scalar forms of one or two source registers, the compares and the selection (R142, R143, R145, R146). -/

namespace Sys2Proof.Proofs

open Sys2Proof Sys2Proof.Machine Sys2Proof.Laws

section Forms

variable {s : State} {q : Issue} (hq : s.issue = some q)
include hq

/-- A register form applies its operation to xa and xb. -/
theorem aluRR_next (lat : Nat) (f : DWord → DWord → DWord) (d a b : BitVec 4) (g : Guard) :
    aluRR lat f d a b g s = .next (s.flyX q g lat d (fun l => f (xOf s l a) (xOf s l b))) :=
  slotNext_some _ hq

/-- A form of one source applies its operation to xa. -/
theorem aluR_next (f : DWord → DWord) (d a : BitVec 4) (g : Guard) :
    aluR f d a g s = .next (s.flyX q g 1 d (fun l => f (xOf s l a))) :=
  slotNext_some _ hq

/-- A compare of registers writes what its test says of xa and xb. -/
theorem cmpRR_next (f : DWord → DWord → Bool) (p a b : BitVec 4) (g : Guard) :
    cmpRR f p a b g s = .next (s.flyP q g 1 p (fun l => f (xOf s l a) (xOf s l b))) :=
  slotNext_some _ hq

/-- A compare with an immediate writes what its test says of xa and the immediate. -/
theorem cmpRI_next (f : DWord → DWord → Bool) (p a : BitVec 4) (imm : BitVec 9) (g : Guard) :
    cmpRI f p a imm g s = .next (s.flyP q g 1 p (fun l => f (xOf s l a) (immOf q imm))) :=
  slotNext_some _ hq

end Forms

/-- Settles O18: each slot is a register form of its operation. -/
theorem scalarRegisterForms : Obligations.ScalarRegisterForms := by
  unfold Obligations.ScalarRegisterForms
  intro s q d a b g hq
  exact ⟨aluRR_next hq 1 (· + ·) d a b g, aluRR_next hq 1 (· - ·) d a b g, aluRR_next hq 3 (· * ·) d a b g,
    aluRR_next hq 3 mulHigh d a b g, aluRR_next hq 3 mulHighU d a b g, aluRR_next hq 1 minS d a b g,
    aluRR_next hq 1 maxS d a b g, aluRR_next hq 1 minU d a b g, aluRR_next hq 1 maxU d a b g,
    aluRR_next hq 1 (· &&& ·) d a b g, aluRR_next hq 1 (· ||| ·) d a b g, aluRR_next hq 1 (· ^^^ ·) d a b g,
    aluRR_next hq 1 (fun x y => x &&& ~~~y) d a b g, aluRR_next hq 1 shl64 d a b g, aluRR_next hq 1 shr64 d a b g,
    aluRR_next hq 1 sar64 d a b g, aluRR_next hq 1 (fun x y => (x <<< 1) + y) d a b g,
    aluRR_next hq 1 (fun x y => (x <<< 2) + y) d a b g, aluRR_next hq 1 (fun x y => (x <<< 3) + y) d a b g⟩

theorem bne_eq_decide_ne (x y : DWord) : (x != y) = decide (x ≠ y) := decide_not.symm

/-- Settles O23: each slot is a compare of registers or with an immediate. -/
theorem compareSlots : Obligations.CompareSlots := by
  unfold Obligations.CompareSlots
  intro s q p a b imm g hq
  simp only [← bne_eq_decide_ne]
  exact ⟨cmpRR_next hq (· == ·) p a b g, cmpRR_next hq (· != ·) p a b g, cmpRR_next hq ltS p a b g,
    cmpRR_next hq ltU p a b g, cmpRR_next hq leS p a b g, cmpRR_next hq leU p a b g, cmpRI_next hq (· == ·) p a imm g,
    cmpRI_next hq (· != ·) p a imm g, cmpRI_next hq ltS p a imm g, cmpRI_next hq ltU p a imm g,
    cmpRI_next hq (fun x y => ltS y x) p a imm g, cmpRI_next hq (fun x y => ltU y x) p a imm g⟩

/-- A predicate that an operand names, with p0 read as 1 (R134). -/
theorem readP_operand (t : Thread) (n : BitVec 4) : t.readP n.toNat = if n = 0 then true else t.p.getLsbD n.toNat := by
  unfold Thread.readP
  by_cases h : n = 0
  · rw [if_pos h, h]; rfl
  · have hn : n.toNat ≠ 0 := fun e => h (BitVec.eq_of_toNat_eq e)
    rw [if_neg h, beq_false_of_ne hn, Bool.false_or]

/-- Settles O24: the slot's choice, by the predicate that its operand names. -/
theorem selWritesTheChosenSource : Obligations.SelWritesTheChosenSource := by
  unfold Obligations.SelWritesTheChosenSource
  intro s q d n a b sense g hq
  simp only [← readP_operand, ← Bool.bne_eq_xor]
  exact slotNext_some _ hq

end Sys2Proof.Proofs

/-! SUPPORT. Bit fields and bit counts (R142, R143), read bit by bit. -/

namespace Sys2Proof.Proofs

open Sys2Proof Sys2Proof.Machine Sys2Proof.Laws

/-! ### Bit fields -/

section Field

variable (a b d : DWord) {k : Nat}

/-- The field of xa that xb names. -/
def fieldOf : BitVec (fieldWidth b) := a.extractLsb' (fieldPos b) (fieldWidth b)

theorem fieldOf_toNat : (fieldOf a b).toNat = a.toNat / 2 ^ fieldPos b % 2 ^ fieldWidth b := by
  unfold fieldOf
  rw [BitVec.extractLsb'_toNat, Nat.shiftRight_eq_div_pow]

theorem fieldWidth_le : fieldWidth b ≤ 64 := (Nat.min_le_right ..).trans (Nat.sub_le ..)

/-- BEXTU extends the field by zeros. -/
theorem bextu64_eq : bextu64 a b = (fieldOf a b).zeroExtend 64 := by
  unfold bextu64
  rw [← fieldOf_toNat, BitVec.ofNat_toNat]

/-- The sign bit of the field; a field without bits has none. -/
theorem msb_fieldOf : (fieldOf a b).msb = true ↔ fieldWidth b ≠ 0 ∧ 2 ^ (fieldWidth b - 1) ≤ (fieldOf a b).toNat := by
  rw [BitVec.msb_eq_decide, decide_eq_true_iff]
  refine ⟨fun h => ⟨fun h0 => ?_, h⟩, And.right⟩
  have hlt := (fieldOf a b).isLt
  have hle : 2 ^ (fieldWidth b - 1) < 2 ^ fieldWidth b := h.trans_lt hlt
  rw [h0] at hle
  exact absurd hle (by decide)

/-- BEXT extends the field by its sign bit. -/
theorem bext64_eq : bext64 a b = (fieldOf a b).signExtend 64 := by
  unfold bext64 BitVec.signExtend
  rw [← fieldOf_toNat, BitVec.toInt_eq_msb_cond]
  simp only [← msb_fieldOf]
  split
  · rw [Nat.cast_pow]; rfl
  · exact (BitVec.ofInt_natCast ..).symm

theorem getLsbD_bextu64 (hk : k < 64) :
    (bextu64 a b).getLsbD k = (decide (k < fieldWidth b) && a.getLsbD (fieldPos b + k)) := by
  rw [bextu64_eq, BitVec.getLsbD_setWidth, decide_eq_true hk, Bool.true_and]
  exact BitVec.getLsbD_extractLsb' ..

theorem getLsbD_bext64 (hk : k < 64) : (bext64 a b).getLsbD k
    = (decide (fieldWidth b ≠ 0) && a.getLsbD (fieldPos b + min k (fieldWidth b - 1))) := by
  rw [bext64_eq, BitVec.getLsbD_signExtend, decide_eq_true hk, Bool.true_and, BitVec.msb_eq_getLsbD_last]
  unfold fieldOf
  simp only [BitVec.getLsbD_extractLsb']
  by_cases hw : k < fieldWidth b
  · have h0 : fieldWidth b ≠ 0 := by omega
    have hm : min k (fieldWidth b - 1) = k := by omega
    rw [if_pos hw, hm, decide_eq_true hw, decide_eq_true h0]
  · have hm : min k (fieldWidth b - 1) = fieldWidth b - 1 := by omega
    have h0 : fieldWidth b - 1 < fieldWidth b ↔ fieldWidth b ≠ 0 := by omega
    rw [if_neg hw, hm, decide_eq_decide.2 h0]

/-- The mask of BINS covers the field. -/
theorem getLsbD_fieldMask (hk : k < 64) : (BitVec.ofNat 64 ((2 ^ fieldWidth b - 1) * 2 ^ fieldPos b)).getLsbD k
    = decide (fieldPos b ≤ k ∧ k < fieldPos b + fieldWidth b) := by
  have hd : k - fieldPos b < fieldWidth b ∧ fieldPos b ≤ k ↔ fieldPos b ≤ k ∧ k < fieldPos b + fieldWidth b := by omega
  rw [BitVec.getLsbD_ofNat, decide_eq_true hk, Bool.true_and, Nat.testBit_mul_two_pow, Nat.testBit_two_pow_sub_one,
    Bool.and_comm, ← Bool.decide_and, decide_eq_decide.2 hd]

theorem getLsbD_bins64 (hk : k < 64) : (bins64 d a b).getLsbD k
    = if fieldPos b ≤ k ∧ k < fieldPos b + fieldWidth b then a.getLsbD (k - fieldPos b) else d.getLsbD k := by
  unfold bins64
  simp only [BitVec.getLsbD_or, BitVec.getLsbD_and, BitVec.getLsbD_not, BitVec.getLsbD_shiftLeft, getLsbD_fieldMask b hk]
  by_cases h : fieldPos b ≤ k ∧ k < fieldPos b + fieldWidth b
  · have hp : ¬ k < fieldPos b := by omega
    simp [h, hk, hp]
  · simp [h, hk]

end Field

/-- Settles O21: each slot is a form of its operation, whose bits are given above. -/
theorem bitFieldSlots : Obligations.BitFieldSlots := by
  unfold Obligations.BitFieldSlots
  intro s q d a b g hq
  exact ⟨fun l => bextu64 (xOf s l a) (xOf s l b), fun l => bext64 (xOf s l a) (xOf s l b),
    fun l => bins64 (xOf s l d) (xOf s l a) (xOf s l b), aluRR_next hq 1 bextu64 d a b g, aluRR_next hq 1 bext64 d a b g,
    slotNext_some _ hq, fun l k hk => ⟨getLsbD_bextu64 _ _ hk, getLsbD_bext64 _ _ hk, getLsbD_bins64 _ _ _ hk⟩⟩

/-! ### Bit counts -/

section Count

variable {w : Nat} (a : BitVec w)

theorem leadingZeros_le (n : Nat) : leadingZeros a n ≤ n := by
  induction n with
  | zero => exact Nat.le_refl 0
  | succ n ih =>
    simp only [leadingZeros]
    split <;> omega

theorem getLsbD_above_leadingZeros {n k : Nat} (h : k < leadingZeros a n) : a.getLsbD (n - 1 - k) = false := by
  induction n generalizing k with
  | zero => exact absurd h (Nat.not_lt_zero k)
  | succ n ih =>
    simp only [leadingZeros] at h
    split at h
    · exact absurd h (Nat.not_lt_zero k)
    · next hn =>
      cases k with
      | zero => simpa using hn
      | succ k =>
        have hi : n + 1 - 1 - (k + 1) = n - 1 - k := by omega
        rw [hi]
        exact ih (by omega)

theorem getLsbD_leadingZeros {n : Nat} (h : leadingZeros a n < n) : a.getLsbD (n - 1 - leadingZeros a n) = true := by
  induction n with
  | zero => exact absurd h (Nat.not_lt_zero _)
  | succ n ih =>
    simp only [leadingZeros] at h ⊢
    split
    · next hn => exact hn
    · next hn =>
      rw [if_neg hn] at h
      have hi : n + 1 - 1 - (1 + leadingZeros a n) = n - 1 - leadingZeros a n := by omega
      rw [hi]
      exact ih (by omega)

theorem countOnes_eq (n : Nat) : countOnes a n = ((List.range n).filter (fun k => a.getLsbD k)).length := by
  induction n with
  | zero => rfl
  | succ n ih =>
    rw [List.range_succ, List.filter_append, List.length_append, ← ih, List.filter_singleton]
    show (if a.getLsbD n then 1 else 0) + countOnes a n = _
    cases a.getLsbD n
    · exact Nat.zero_add _
    · exact Nat.add_comm ..

end Count

/-- Settles O22: each slot is a form of its count. -/
theorem bitCountSlots : Obligations.BitCountSlots := by
  unfold Obligations.BitCountSlots
  intro s q d a g hq
  refine ⟨fun l => leadingZeros (xOf s l a) 64, fun l => trailingZeros (xOf s l a) 0 64, fun l => countOnes (xOf s l a) 64,
    aluR_next hq clz64 d a g, aluR_next hq ctz64 d a g, aluR_next hq popc64 d a g, fun l => ⟨leadingZeros_le _ 64,
    fun k => getLsbD_above_leadingZeros _, getLsbD_leadingZeros _, trailingZeros_le _ 0 64, fun k hk => ?_, fun h => ?_,
    countOnes_eq _ 64⟩⟩
  · have := getLsbD_below_trailingZeros _ hk
    rwa [Nat.zero_add] at this
  · have := getLsbD_trailingZeros _ h
    rwa [Nat.zero_add] at this

end Sys2Proof.Proofs

/-! SUPPORT. Special registers (R138 to R140) and the settings of a group that scalar slots change (R151 to R154). -/

namespace Sys2Proof.Proofs

open Sys2Proof Sys2Proof.Machine Sys2Proof.Laws

/-- Settles O25: the slots put their values in flight, and the table is read and written number by number. -/
theorem specialRegisterSlots : Obligations.SpecialRegisterSlots := by
  unfold Obligations.SpecialRegisterSlots
  intro s q d a sr g hq
  refine ⟨slotNext_some _ hq, slotNext_some _ hq, fun l => ?_, fun t v => ⟨rfl, rfl, rfl, rfl, rfl, rfl, rfl⟩,
    fun k u => rfl⟩
  and_intros <;> rfl

section Settings

variable {s : State} {q : Issue} (hq : s.issue = some q)
include hq

/-- TSEL maps the logical table when it has a leader lane. -/
theorem tsel_next (tb : BitVec 3) (a : BitVec 4) (g : Guard) : exec (.tsel tb a g) s
    = .next ((leader s q g).elim s fun tk =>
        s.mapTable q.group q.core tb.toNat (((s.thread tk).readX a.toNat).truncate 8)) := by
  refine (slotNext_some _ hq).trans ?_
  cases leader s q g <;> rfl

/-- PSWAP flips the pattern bank when it has a leader lane. -/
theorem pswap_next (g : Guard) : exec (.pswap g) s
    = .next ((leader s q g).elim s fun _ => s.modGroup q.group (fun gr => { gr with pbank := !gr.pbank })) := by
  refine (slotNext_some _ hq).trans ?_
  cases leader s q g <;> rfl

/-- FTSET writes its entry of the format table when it has a leader lane. -/
theorem ftset_next (ft a : BitVec 4) (g : Guard) : exec (.ftset ft a g) s
    = .next ((leader s q g).elim s fun tk => s.modGroup q.group (fun gr => { gr with
        fmt := spSet (fun _ => (0, 0)) gr.fmt ft.toNat
          (bitsOf ((s.thread tk).readX a.toNat) 0 5, bitsOf ((s.thread tk).readX a.toNat) 8 5) })) := by
  refine (slotNext_some _ hq).trans ?_
  cases leader s q g <;> rfl

end Settings

/-- Settles O28: the three settings with and without a leader lane, and the two effects of SQRD. -/
theorem groupSettingSlots : Obligations.GroupSettingSlots := by
  unfold Obligations.GroupSettingSlots
  intro s q tb ft d a w g hq
  rw [tsel_next hq, pswap_next hq, ftset_next hq]
  refine ⟨fun hl => ?_, fun tk hl => ?_, slotNext_some _ hq⟩
  · rw [hl]
    exact ⟨rfl, rfl, rfl⟩
  · rw [hl]
    exact ⟨rfl, rfl, rfl⟩

end Sys2Proof.Proofs

/-! SUPPORT. Bit planes (R171, R172): a word read and changed bit by bit. -/

namespace Sys2Proof.Proofs

open Sys2Proof Sys2Proof.Machine Sys2Proof.Laws

/-- An element of one bit is that bit of the word. -/
theorem elemAt_one (v : Word) (n : Nat) : elemAt v 1 n = (v.getLsbD n).toNat := by
  unfold elemAt
  rw [Nat.one_mul, pow_one]
  exact (Nat.toNat_testBit v.toNat n).symm

/-- A word built from bits has each of them in its place. -/
theorem getLsbD_fromElems_one (c : Nat → Bool) {n : Nat} (hn : n < 32) :
    (fromElems 1 (fun k => if c k then 1 else 0)).getLsbD n = c n := by
  have h := elemAt_fromElems 1 (fun k => if c k then 1 else 0) (j := n) hn
  rw [elemAt_one] at h
  cases hc : c n <;> simpa [hc] using h

/-- Inserting an element of one bit replaces that bit and keeps the others. -/
theorem getLsbD_insertElem_one (old : Word) {pos i : Nat} (c : Bool) (hi : i < 32) :
    (insertElem old 1 pos c.toNat).getLsbD i = if i = pos then c else old.getLsbD i := by
  unfold insertElem
  have hmask : (2 ^ 1 - 1) * 2 ^ (1 * pos) = 2 ^ pos := by rw [Nat.one_mul, pow_one, Nat.one_mul]
  have hval : c.toNat % 2 ^ 1 * 2 ^ (1 * pos) = if c then 2 ^ pos else 0 := by cases c <;> simp
  rw [hmask, hval, BitVec.getLsbD_or, BitVec.getLsbD_and, BitVec.getLsbD_not, BitVec.getLsbD_ofNat, BitVec.getLsbD_ofNat,
    decide_eq_true hi, Nat.testBit_two_pow]
  by_cases hp : i = pos
  · cases c <;> simp [hp]
  · have hp' : pos ≠ i := Ne.symm hp
    cases c <;> simp [hp, hp']

/-- Merging the first n of a register's four elements replaces bit 7 - p of each of their bytes. -/
theorem getLsbD_foldl_insertElem_one (old plane : Word) (p k : Nat) {n b j : Nat} (hn : n ≤ 4) (hb : b < 4) (hj : j < 8) :
    ((List.range n).foldl (fun w b => insertElem w 1 (8 * b + (7 - p)) (elemAt plane 1 (4 * k + b))) old).getLsbD (8 * b + j)
      = if j = 7 - p ∧ b < n then plane.getLsbD (4 * k + b) else old.getLsbD (8 * b + j) := by
  induction n with
  | zero => rw [if_neg (fun h => Nat.not_lt_zero b h.2)]; rfl
  | succ n ih =>
    rw [List.range_succ, List.foldl_append, List.foldl_cons, List.foldl_nil, elemAt_one,
      getLsbD_insertElem_one _ _ (by omega), ih (by omega)]
    by_cases hp : j = 7 - p ∧ b = n
    · obtain ⟨rfl, rfl⟩ := hp
      rw [if_pos rfl, if_pos ⟨rfl, Nat.lt_succ_self b⟩]
    · have hpos : 8 * b + j ≠ 8 * n + (7 - p) := by omega
      have hlt : j = 7 - p ∧ b < n + 1 ↔ j = 7 - p ∧ b < n := by omega
      rw [if_neg hpos, if_congr hlt rfl rfl]

theorem getLsbD_mergePlane (old plane : Word) (p k : Nat) {b j : Nat} (hb : b < 4) (hj : j < 8) :
    (mergePlane old plane p k).getLsbD (8 * b + j)
      = if j = 7 - p then plane.getLsbD (4 * k + b) else old.getLsbD (8 * b + j) :=
  (getLsbD_foldl_insertElem_one old plane p k (Nat.le_refl 4) hb hj).trans (if_congr (and_iff_left hb) rfl rfl)

/-- Settles O38: the gathered word and the merged registers, read bit by bit. -/
theorem planeSlots : Obligations.PlaneSlots := by
  unfold Obligations.PlaneSlots
  intro s q vd va p g hq
  exact ⟨fun l => fromElems 1 (fun n => if planeBit s l va.toNat p.toNat n then 1 else 0),
    fun k l => mergePlane ((s.thread l.2).readV (vd.toNat + k)) (vOf s l va) p.toNat k,
    fun h => framed_next hq h _, fun h => framed_next hq h _,
    fun l => ⟨fun _ hn => getLsbD_fromElems_one (planeBit s l va.toNat p.toNat) hn,
      fun _ _ _ _ hb hj => getLsbD_mergePlane _ _ _ _ hb hj⟩⟩

end Sys2Proof.Proofs

/-! SUPPORT. The integer slots, compares and selection of the vector engine (R162 to R165): what the shared slot of each
class puts in flight. -/

namespace Sys2Proof.Proofs

open Sys2Proof Sys2Proof.Machine Sys2Proof.Laws

section Results

variable {s : State} {q : Issue} {g : Guard} {lat vd : Nat}

/-- Results in flight are the same when each lane's word is. -/
theorem next_flyV_congr {f f' : Nat × Nat → Word} (h : ∀ l, f l = f' l) :
    (.next (s.flyV q g lat vd f) : Out) = .next (s.flyV q g lat vd f') := by
  rw [funext h]

/-- Results with status bits are the same when each lane's word and bits are. -/
theorem next_flyVF_congr {f f' : Nat × Nat → Word × Flags} (h : ∀ l, f l = f' l) :
    (.next (s.flyVF q g lat vd f) : Out) = .next (s.flyVF q g lat vd f') := by
  rw [funext h]

end Results

section ClassA

variable {s : State} {q : Issue} {i : Instr} (hq : s.issue = some q) (hc : Unbarred q (frameCond s q i)) (o : AOp)
include hq hc

/-- A class A slot on values narrows the exact result for each element of va, source b and vd. -/
theorem aSlot_next (lat : Nat) (f : Int → Int → Int → Int) :
    let w := typeWidth o.ty.toNat
    let sg := typeSigned o.ty.toNat
    aSlot lat i o f s = .next (s.flyV q o.g lat o.vd.toNat (fun l => fromElems w (fun j => narrow o.sat sg w
      (f (elemVal sg w (elemAt (vOf s l o.va) w j)) (elemVal sg w (elemAt (srcWord s l w o.b) w j))
        (elemVal sg w (elemAt (vOf s l o.vd) w j)))))) := framed_next hq hc _

/-- A class A slot on words applies its operation to va and source b. -/
theorem aRaw_next (f : Word → Word → Word) : aRaw i o f s = .next (s.flyV q o.g 2 o.vd.toNat
    (fun l => f (vOf s l o.va) (srcWord s l (typeWidth o.ty.toNat) o.b))) := framed_next hq hc _

/-- A class A shift gives its operation each element of va and its amount. -/
theorem aShift_next (f : Bool → Nat → Nat → Nat → Nat) :
    let w := typeWidth o.ty.toNat
    aShift i o f s = .next (s.flyV q o.g 2 o.vd.toNat (fun l => fromElems w (fun j =>
      f (typeSigned o.ty.toNat) w (elemAt (vOf s l o.va) w j) (shiftAmount s l w j o.b)))) := framed_next hq hc _

/-- A class A slot of one source applies its operation to each element of va. -/
theorem aElem_next (f : Nat → Nat → Nat) :
    let w := typeWidth o.ty.toNat
    aElem i o f s = .next (s.flyV q o.g 2 o.vd.toNat (fun l => fromElems w (fun j => f w (elemAt (vOf s l o.va) w j)))) :=
  framed_next hq hc _

end ClassA

/-- VDOT4 adds the four products to the accumulator (R163). -/
theorem dot4Lane_eq (s : State) (o : AOp) (l : Nat × Nat) :
    let sg := typeSigned o.ty.toNat
    let m := fun j => elemVal sg 8 (elemAt (vOf s l o.va) 8 j) * elemVal sg 8 (elemAt (srcWord s l 8 o.b) 8 j)
    dot4Lane s o l
      = BitVec.ofNat 32 (narrow o.sat sg 32 (elemVal sg 32 (vOf s l o.vd).toNat + (m 0 + m 1 + m 2 + m 3))) := by
  intro sg m
  have hsum : ((List.range 4).map m).sum = m 0 + m 1 + m 2 + m 3 := by simp [List.range_succ, add_assoc]
  exact congrArg (fun t => BitVec.ofNat 32 (narrow o.sat sg 32 (elemVal sg 32 (vOf s l o.vd).toNat + t))) hsum

/-- Settles O29: eight class A slots on values, and VDOT4. -/
theorem vectorElementArithmetic : Obligations.VectorElementArithmetic := by
  unfold Obligations.VectorElementArithmetic
  intro s q o hq
  exact ⟨fun h => aSlot_next hq h o 2 (fun a b _ => a + b), fun h => aSlot_next hq h o 2 (fun a b _ => a - b),
    fun h => aSlot_next hq h o 4 (fun a b _ => a * b),
    fun h => aSlot_next hq h o 4 (fun a b _ => a * b / 2 ^ typeWidth o.ty.toNat),
    fun h => aSlot_next hq h o 4 (fun a b c => c + a * b), fun h => aSlot_next hq h o 2 (fun a b _ => min a b),
    fun h => aSlot_next hq h o 2 (fun a b _ => max a b), fun h => aSlot_next hq h o 2 (fun a _ _ => max a (-a)),
    fun h => (framed_next hq h _).trans (next_flyV_congr (dot4Lane_eq s o))⟩

/-- Settles O31: four slots on words, two shifts, two counts and the move. -/
theorem vectorBitSlots : Obligations.VectorBitSlots := by
  unfold Obligations.VectorBitSlots
  intro s q o hq
  refine ⟨fun h => aRaw_next hq h o (· &&& ·), fun h => aRaw_next hq h o (· ||| ·), fun h => aRaw_next hq h o (· ^^^ ·),
    fun h => aRaw_next hq h o (fun a b => a &&& ~~~b), fun h => ?_, fun h => ?_,
    fun h => aElem_next hq h o (fun w raw => leadingZeros (BitVec.ofNat 32 raw) w),
    fun h => aElem_next hq h o (fun w raw => countOnes (BitVec.ofNat 32 raw) w),
    fun h => (framed_next hq h _).trans (next_flyV_congr fun l => ?_)⟩
  · exact aShift_next hq h o (fun _ _ raw n => raw * 2 ^ n)
  · exact aShift_next hq h o shrElem
  · cases o.b <;> rfl

/-! ### Compares -/

/-- A class Q slot compares FP32 numbers, with the invalid bit, or every element (R164). -/
theorem qSlot_next {s : State} {q : Issue} {i : Instr} (hq : s.issue = some q) (hc : Unbarred q (frameCond s q i)) (o : QOp)
    (f : Int → Int → Bool) (ff : Machine.Num → Machine.Num → Bool) (any : Bool) :
    let w := typeWidth o.ty.toNat
    let sg := typeSigned o.ty.toNat
    let x := fun l => dec fmtFp32 (vOf s l o.va).toNat
    let y := fun l => dec fmtFp32 (srcWord s l 32 o.b).toNat
    qSlot i o f ff any s = .next (if o.ty = 6 then
        (s.flyP q o.g 2 o.pd (fun l => ff (x l) (y l))).flyStatus q o.g 2 (fun l => cmpFlags any (x l) (y l))
      else s.flyP q o.g 2 o.pd (fun l => (List.range (32 / w)).all (fun j =>
        f (elemVal sg w (elemAt (vOf s l o.va) w j)) (elemVal sg w (elemAt (srcWord s l w o.b) w j))))) :=
  framed_next hq hc _

theorem numLt_of_isNan {u v : Machine.Num} (h : u.isNan || v.isNan) : numLt u v = false := by
  cases u with
  | nan => rfl
  | inf | fin =>
    cases v with
    | nan => rfl
    | inf | fin => cases h

theorem numEq_of_isNan {u v : Machine.Num} (h : u.isNan || v.isNan) : numEq u v = false := by
  unfold numEq
  cases hu : u.isNan
  · rw [hu, Bool.false_or] at h
    rw [h]
    rfl
  · rfl

/-- Settles O32: four class Q slots, and the order of R92 at a NaN and at the two zeros. -/
theorem vectorCompareSlots : Obligations.VectorCompareSlots := by
  unfold Obligations.VectorCompareSlots
  intro s q o hq
  have hne : ∀ x y : Int, decide (x ≠ y) = (x != y) := fun _ _ => decide_not
  simp only [hne]
  exact ⟨fun h => qSlot_next hq h o (· == ·) numEq false,
    fun h => qSlot_next hq h o (· != ·) (fun a b => !numEq a b) false,
    fun h => qSlot_next hq h o (fun a b => decide (a < b)) numLt true,
    fun h => qSlot_next hq h o (fun a b => decide (a ≤ b)) (fun a b => numLt a b || numEq a b) true,
    fun _ _ h => ⟨numEq_of_isNan h, numLt_of_isNan h⟩, by decide⟩

/-- Settles O33: the slot's choice, by the predicate that its operand names. -/
theorem vselWritesTheChosenSource : Obligations.VselWritesTheChosenSource := by
  unfold Obligations.VselWritesTheChosenSource
  intro s q vd va vb n sense g hq h
  simp only [← readP_operand, ← Bool.bne_eq_xor]
  exact framed_next hq h _

/-- Settles O42: each slot only puts its value in flight, and x0 takes none. -/
theorem moveSlots : Obligations.MoveSlots := by
  unfold Obligations.MoveSlots
  intro s q v x b g hq
  refine ⟨fun h => (framed_next hq h _).trans ?_, fun h => framed_next hq h _, fun _ => if_pos rfl⟩
  cases b <;> rfl

end Sys2Proof.Proofs

/-! SUPPORT. Lane exchange (R173 to R179): what a lane receives, and the folds over lanes. -/

namespace Sys2Proof.Proofs

open Sys2Proof Sys2Proof.Machine Sys2Proof.Laws

/-! ### Receiving from a lane -/

/-- A lane receives va of the source lane, or its own with OWN (R173). -/
theorem receive_eq (s : State) (ps : List (Nat × Nat)) (va : BitVec 8) (l : Nat × Nat) (src : Nat) :
    receive s ps va l src = match assoc ps src with
      | some tk => ((s.thread tk).readV va.toNat, flagNone)
      | none => (vOf s l va, flagOWN) := by
  unfold receive partOn
  cases assoc ps src <;> rfl

theorem receive_word (s : State) (ps : List (Nat × Nat)) (va : BitVec 8) (l : Nat × Nat) (src : Nat) :
    (receive s ps va l src).1 = match assoc ps src with
      | some tk => (s.thread tk).readV va.toNat
      | none => vOf s l va := by
  rw [receive_eq]
  cases assoc ps src <;> rfl

/-- Settles O41: each participant receives from the one lane. -/
theorem vbcastSendsOneLane : Obligations.VbcastSendsOneLane := by
  unfold Obligations.VbcastSendsOneLane
  intro s q vd va n g hq h
  exact (framed_next hq h _).trans (next_flyV_congr fun l => receive_word s _ va l n.toNat)

/-- Settles O39: two slots that receive from a lane, three that count or mask the participants. -/
theorem laneExchangeSlots : Obligations.LaneExchangeSlots := by
  unfold Obligations.LaneExchangeSlots
  intro s q vd va vb w pat quorum pd pn key inv mode g hq
  refine ⟨fun h => (framed_next hq h _).trans (next_flyVF_congr fun l => ?_),
    fun h => (framed_next hq h _).trans (next_flyVF_congr fun l => ?_),
    fun h => (framed_next hq h _).trans (next_flyV_congr fun l => ?_), fun h => framed_next hq h _,
    fun h => framed_next hq h _⟩
  · cases vb <;> exact receive_eq ..
  · exact if_congr Iff.rfl rfl (receive_eq ..)
  · cases key <;> rfl

/-! ### Folds over lanes -/

/-- A step of a fold adds, or takes the minimum or the maximum, in the element's type (R178). -/
theorem foldStep_eq (op : BitVec 2) (ty : BitVec 3) (a b : Nat) :
    let w := typeWidth ty.toNat
    let sg := typeSigned ty.toNat
    foldStep op.toNat ty.toNat a b
      = if ty = 6 then (if op = 0 then fpAdd fmtFp32 .rne a b else if op = 1 then fpMin fmtFp32 a b else fpMax fmtFp32 a b)
        else if op = 0 then ((a + b) % 2 ^ w, flagNone)
        else if op = 1 then (if elemVal sg w b < elemVal sg w a then b else a, flagNone)
        else (if elemVal sg w b < elemVal sg w a then a else b, flagNone) := by
  intro w sg
  have hty : ty.toNat = 6 ↔ ty = 6 := BitVec.toNat_inj (y := 6)
  have h0 : op.toNat = 0 ↔ op = 0 := BitVec.toNat_inj (y := 0)
  have h1 : op.toNat = 1 ↔ op = 1 := BitVec.toNat_inj (y := 1)
  unfold foldStep
  simp only [hty, h0, h1]
  refine if_congr Iff.rfl rfl (if_congr Iff.rfl rfl ?_)
  by_cases hop : op = 1
  · rw [if_pos hop, h1.2 hop]
    simp [w, sg]
  · rw [if_neg hop, beq_false_of_ne (fun h => hop (h1.1 h))]
    by_cases hlt : elemVal sg w b < elemVal sg w a
    · rw [if_pos hlt, decide_eq_true hlt]
      rfl
    · rw [if_neg hlt, decide_eq_false hlt]
      rfl

/-- A lone FP32 element is delivered as it stands, a NaN as the canonical one (R81). -/
theorem foldElems_singleton (op : Nat) (ty : BitVec 3) {x : Nat} (hx : x < 2 ^ 32) : foldElems op ty.toNat [x]
    = (if ty = 6 ∧ (dec fmtFp32 x).isNan = true then 0x7FC00000 else x, flagNone) := by
  have hty : ty.toNat = 6 ↔ ty = 6 := BitVec.toNat_inj (y := 6)
  have hw : (BitVec.ofNat 32 x).toNat = x := Nat.mod_eq_of_lt hx
  simp only [foldElems, hty, canonOr]
  by_cases h6 : ty = 6
  · rw [if_pos h6, hw]
    by_cases hn : (dec fmtFp32 x).isNan = true
    · rw [if_pos hn, if_pos ⟨h6, hn⟩]
      rfl
    · rw [if_neg hn, if_neg (fun h => hn h.2), hw]
  · rw [if_neg h6, if_neg (fun h => h6 h.1)]

theorem elemAt_lt_two_pow (v : Word) (w j : Nat) (hw : w ≤ 32) : elemAt v w j < 2 ^ 32 :=
  (Nat.mod_lt _ (Nat.two_pow_pos w)).trans_le (Nat.pow_le_pow_right Nat.two_pos hw)

theorem typeWidth_le (ty : Nat) : typeWidth ty ≤ 32 := by
  unfold typeWidth
  split
  · exact Nat.le_refl 32
  · split <;> omega

/-- Two ways to fold that agree on elements agree on lanes. -/
theorem foldLanes_congr (s : State) (va : BitVec 8) (op ty : Nat) {F : List Nat → Nat × Flags}
    (hF : ∀ S, (∀ x ∈ S, x < 2 ^ 32) → foldElems op ty S = F S) (ls : List (Nat × Nat)) :
    let w := typeWidth ty
    let r := fun j => F (ls.map (fun p => elemAt (vOf s p va) w j))
    foldLanes s va op ty ls
      = (fromElems w (fun j => (r j).1), (List.range (32 / w)).foldl (fun f j => f ||| (r j).2) flagNone) := by
  intro w r
  have hr : (fun j => foldElems op ty (ls.map (fun p => elemAt (vOf s p va) w j))) = r := by
    refine funext fun j => hF _ fun x hx => ?_
    obtain ⟨p, -, rfl⟩ := List.mem_map.1 hx
    exact elemAt_lt_two_pow _ w j (typeWidth_le ty)
  rw [← hr]
  rfl

/-- Settles O40: the fold is that of the statement, for no element, for one and from the first on. -/
theorem scanAndReduceSlots : Obligations.ScanAndReduceSlots := by
  unfold Obligations.ScanAndReduceSlots
  intro s q vd va op excl ty g hq C P w sg step F fold
  have hF : ∀ S, (∀ x ∈ S, x < 2 ^ 32) → foldElems op.toNat ty.toNat S = F S
    | [], _ => rfl
    | [x], hx => foldElems_singleton _ ty (hx x (List.mem_singleton_self x))
    | x :: y :: ys, _ => by
      have hstep : foldStep op.toNat ty.toNat = step := funext fun a => funext fun b => foldStep_eq op ty a b
      show (y :: ys).foldl (fun a z => ((foldStep op.toNat ty.toNat a.1 z).1,
        a.2 ||| (foldStep op.toNat ty.toNat a.1 z).2)) (x, flagNone) = _
      rw [hstep]
  have hfold : ∀ ls, foldLanes s va op.toNat ty.toNat ls = fold ls := foldLanes_congr s va _ _ hF
  refine ⟨fun _ h => (framed_next hq h _).trans (next_flyVF_congr fun l => hfold _),
    fun _ h => (framed_next hq h _).trans (next_flyVF_congr fun _ => hfold _), rfl, rfl, rfl, fun hle => ?_⟩
  have h6 : ty.toNat ≠ 6 := by omega
  exact ⟨if_neg h6, if_neg h6⟩

end Sys2Proof.Proofs

/-! SUPPORT. The function engine (R190 to R197): what a logical table resolves to, what a slot does with it, the table
function and its reductions. -/

namespace Sys2Proof.Proofs

open Sys2Proof Sys2Proof.Machine Sys2Proof.Laws

/-! ### Resolution -/

/-- Settles O45: the tests stand in the model's order; a slot's state and an armed identifier are split. -/
theorem tableResolution : Obligations.TableResolution := by
  unfold Obligations.TableResolution
  intro s group core tb g m t
  have hown : (m.unusable || t.owner != some g.tenant) = true ↔ m.unusable = true ∨ t.owner ≠ some g.tenant := by simp
  refine ite_congr rfl (fun _ => rfl) fun _ => ite_congr (propext hown) (fun _ => rfl) fun _ => ?_
  cases hst : t.state
  case empty | failed | loading => rfl
  case ready =>
    cases m.armed with
    | none => simp only [reduceCtorEq, false_and, exists_false, if_false]; rfl
    | some i =>
      simp only [reduceCtorEq, if_false, Option.some.injEq, exists_eq_left', ne_eq, ite_not]
      exact if_congr eq_comm rfl rfl

/-! ### Slots that name a table -/

section TableSlot

variable {s : State} {q : Issue} {g : Guard} {tb : BitVec 3}

/-- Neither the fault nor the wait of a table stops a slot that resolves to an image, or has no participant. -/
theorem table_clear (h : participants s q g = [] ∨ ∃ im, s.resolve q.group q.core tb.toNat = .ready im) :
    tableCond s q g tb = none ∧ tableHold s q g tb = none := by
  unfold tableCond tableHold
  simp only [List.isEmpty_iff]
  rcases h with h | ⟨im, h⟩
  · exact ⟨if_pos h, if_pos h⟩
  · rw [h]
    exact ⟨ite_self _, ite_self _⟩

variable {i : Instr} (effect : Issue → State) (hq : s.issue = some q)
include hq

/-- A use of a Ready image has its effect, and disarms the identifier check if a lane participates (R191). -/
theorem tableSlot_effect (h : q.cleared = true ∨ (frameCond s q i = none
      ∧ (participants s q g = [] ∨ ∃ im, s.resolve q.group q.core tb.toNat = .ready im))) :
    tableSlot s i g tb effect = .next (if participants s q g = [] then effect q
      else (effect q).modGroup q.group (fun gr => gr.setTable tb.toNat { gr.table tb.toNat with armed := none })) := by
  have hc : Unbarred q ((frameCond s q i).orElse (fun _ => tableCond s q g tb)) :=
    h.imp_right fun ⟨hf, hr⟩ => by rw [hf]; exact (table_clear hr).1
  have hh : Unheld q (tableHold s q g tb) := h.imp_right fun ⟨_, hr⟩ => (table_clear hr).2
  refine ((slotCond_effect _ hq hc).trans (slotHeld_effect _ hq hh)).trans ?_
  simp only [List.isEmpty_iff]

variable (hc : q.cleared = false) (hf : frameCond s q i = none) (hp : participants s q g ≠ [])
include hc hf hp

/-- A use of a table that is Loading holds its run. -/
theorem tableSlot_loading (n : Nat) (h : s.resolve q.group q.core tb.toNat = .loading n) :
    tableSlot s i g tb effect = .next (s.hold q.run (.table n)) := by
  have hb : (frameCond s q i).orElse (fun _ => tableCond s q g tb) = none := by
    rw [hf]
    unfold tableCond
    rw [h]
    exact ite_self _
  have hh : tableHold s q g tb = some (.table n) := by
    unfold tableHold
    rw [h]
    exact if_neg (by simpa using hp)
  exact (slotCond_effect _ hq (.inr hb)).trans (slotHeld_held _ hq hc hh)

/-- A use of a table that resolves to a fault is a table fault with that reason. -/
theorem tableSlot_fault (r : Nat) (h : s.resolve q.group q.core tb.toNat = .fault r) :
    ∃ c, c.cause = 0x0B ∧ c.reason = r ∧ c.ident = q.cur ∧ tableSlot s i g tb effect = .next (s.takeCond q c) := by
  have hb : tableCond s q g tb = some { Cond.plain q 0x0B r q.cur with
      info := BitVec.ofNat 64 (tb.toNat + ((s.group q.group).table tb.toNat).byte.toNat * 2 ^ 8
        + (((s.group q.group).table tb.toNat).armed.getD 0).toNat * 2 ^ 16) } := by
    unfold tableCond
    rw [h]
    exact if_neg (by simpa using hp)
  exact ⟨_, rfl, rfl, rfl, slotCond_taken _ hq hc (by rw [hf]; exact hb)⟩

omit hc hf hp in
/-- What a use of a table answers: its effect, or the wait or the fault of its resolution. -/
theorem tableSlot_answers :
    (q.cleared = true ∨ (frameCond s q i = none
        ∧ (participants s q g = [] ∨ ∃ im, s.resolve q.group q.core tb.toNat = .ready im)) →
      tableSlot s i g tb effect = .next (if participants s q g = [] then effect q
        else (effect q).modGroup q.group (fun gr => gr.setTable tb.toNat { gr.table tb.toNat with armed := none })))
    ∧ (q.cleared = false → frameCond s q i = none → participants s q g ≠ [] →
      (∀ n, s.resolve q.group q.core tb.toNat = .loading n → tableSlot s i g tb effect = .next (s.hold q.run (.table n)))
      ∧ ∀ r, s.resolve q.group q.core tb.toNat = .fault r → ∃ c, c.cause = 0x0B ∧ c.reason = r ∧ c.ident = q.cur
        ∧ tableSlot s i g tb effect = .next (s.takeCond q c)) :=
  ⟨tableSlot_effect effect hq,
    fun hc hf hp => ⟨tableSlot_loading effect hq hc hf hp, tableSlot_fault effect hq hc hf hp⟩⟩

end TableSlot

/-! ### The table function (R193) -/

theorem tablefn_eq (img : List Byte) (x : Nat) : tablefn img x
    = if (dec fmtFp32 x).isNan = true then (0x7FC00000, if (dec fmtFp32 x).isSnan = true then flagNV else flagNone, false)
      else if tblIndom img x = false ∧ natAt img 3 1 % 2 = 1 then (tblGap img, flagDOM, true)
      else if segField img (tblSegment img x) 0x14 % 2 = 1 then (tblGap img, flagGAP, true)
      else ((tblCubic img (tblSegment img x) x).1, (tblCubic img (tblSegment img x) x).2, false) := by
  have hdom : (!tblIndom img x && tblPolicy img == 1) = true ↔ tblIndom img x = false ∧ natAt img 3 1 % 2 = 1 := by
    simp [tblPolicy]
  have hgap : segGap img (tblSegment img x) = true ↔ segField img (tblSegment img x) 0x14 % 2 = 1 := beq_iff_eq
  unfold tablefn
  simp only [hdom, hgap]
  rfl

/-! ### Reductions (R194) -/

section Reductions

variable (img : List Byte) {x : Nat}

theorem reductions_nan {sg : Bool} (h : dec fmtFp32 x = .nan sg) : let N := ((0x7FC00000 : Nat), flagNone)
    evE2 img x = N ∧ evL2 img x = N ∧ evRc img x = N ∧ evRs img x = N ∧ evPd img x = N := by
  unfold evE2 evL2 evRc evRs evPd
  rw [h]
  exact ⟨rfl, rfl, rfl, rfl, rfl⟩

theorem reductions_inf {neg : Bool} (h : dec fmtFp32 x = .inf neg) :
    evE2 img x = (if neg then 0 else 0x7F800000, flagNone)
    ∧ evL2 img x = (if neg then (0x7FC00000, flagNV) else (0x7F800000, flagNone))
    ∧ evRc img x = (if neg then 0x80000000 else 0, flagNone)
    ∧ evRs img x = (if neg then (0x7FC00000, flagNV) else (0, flagNone)) ∧ evPd img x = (0x7FC00000, flagNV) := by
  have hs : fmtFp32.signBit neg = if neg then 0x80000000 else 0 := by cases neg <;> rfl
  unfold evE2 evL2 evRc evRs evPd
  rw [h, ← hs]
  exact ⟨rfl, rfl, rfl, rfl, rfl⟩

theorem reductions_zero {neg : Bool} {e : Int} (h : dec fmtFp32 x = .fin neg 0 e) :
    evL2 img x = (0xFF800000, flagNone) ∧ evRc img x = (if neg then 0xFF800000 else 0x7F800000, flagNone)
    ∧ evRs img x = (if neg then 0xFF800000 else 0x7F800000, flagNone) := by
  have hs : fmtFp32.infBits neg = if neg then 0xFF800000 else 0x7F800000 := by cases neg <;> rfl
  unfold evL2 evRc evRs
  rw [h, ← hs]
  exact ⟨rfl, rfl, rfl⟩

theorem reductions_negative {m : Nat} {e : Int} (h : dec fmtFp32 x = .fin true m e) (hm : m ≠ 0) :
    evL2 img x = (0x7FC00000, flagNV) ∧ evRs img x = (0x7FC00000, flagNV) := by
  unfold evL2 evRs
  rw [h]
  exact ⟨if_neg hm, if_neg hm⟩

/-- A number above 256 is not below -256. -/
theorem numLt_neg256_of_256_numLt {neg : Bool} {m : Nat} {e : Int} (h : numLt (.fin false 1 8) (.fin neg m e) = true) :
    numLt (.fin neg m e) (.fin true 1 8) = false := by
  have hlt := of_decide_eq_true h
  have hpos : ∀ n : ℕ, (0 : Int) < 2 ^ n := fun n => Int.pow_pos (by decide)
  have hm : 0 < signedOf neg m := by
    refine pos_of_mul_pos_left (lt_trans ?_ hlt) (hpos _).le
    exact mul_pos one_pos (hpos _)
  refine decide_eq_false (not_lt.2 ?_)
  exact le_trans (mul_nonpos_of_nonpos_of_nonneg (by decide) (hpos _).le) (mul_nonneg hm.le (hpos _).le)

section Finite

variable {neg : Bool} {m : Nat} {e : Int} (h : dec fmtFp32 x = .fin neg m e)
include h

theorem evE2_above (hx : numLt (.fin false 1 8) (.fin neg m e) = true) : evE2 img x = (0x7F800000, flagOF ||| flagNX) := by
  unfold evE2
  rw [h]
  exact if_pos hx

theorem evE2_below (hx : numLt (.fin neg m e) (.fin true 1 8) = true) : evE2 img x = (0, flagUF ||| flagNX) := by
  have ha : ¬ numLt (.fin false 1 8) (.fin neg m e) = true := fun ha => by
    rw [numLt_neg256_of_256_numLt ha] at hx
    exact Bool.false_ne_true hx
  unfold evE2
  rw [h]
  exact (if_neg ha).trans (if_pos hx)

theorem evE2_within (ha : numLt (.fin false 1 8) (.fin neg m e) = false)
    (hb : numLt (.fin neg m e) (.fin true 1 8) = false) :
    evE2 img x = foldBack (tablefn img (fracOf neg m e (nearest neg m e)))
      (fun t => round32 (numScale false (nearest neg m e) t)) := by
  unfold evE2
  rw [h]
  exact (if_neg (by simp [ha])).trans (if_neg (by simp [hb]))

theorem evPd_fin : evPd img x = evPlain img (fracOf neg m e (nearest neg m e)) := by
  unfold evPd
  rw [h]
  rfl

theorem evRc_fin (hm : m ≠ 0) : evRc img x = foldBack (tablefn img (round32 (.fin false m (-(Nat.log2 m : Int)))).1)
    (fun t => round32 (numScale neg (-((Nat.log2 m : Int) + e)) t)) := by
  unfold evRc
  rw [h]
  exact if_neg hm

theorem evRs_fin (hm : m ≠ 0) (hn : neg = false) : let odd := ((Nat.log2 m : Int) + e) % 2
    evRs img x = foldBack (tablefn img (round32 (.fin false m (odd - Nat.log2 m))).1)
      (fun t => round32 (numScale false (-((Nat.log2 m + e - odd) / 2)) t)) := by
  unfold evRs
  rw [h]
  exact (if_neg hm).trans (if_neg (by simp [hn]))

end Finite

end Reductions

/-- Settles O44: the answers of a table slot for each of the eight, the table function, and the reductions by the kind of
their input. -/
theorem functionSlots : Obligations.FunctionSlots := by
  unfold Obligations.FunctionSlots
  refine ⟨fun s q vd va pd tb g hq => ?_, fun img x => ?_, fun img x => ?_⟩
  · exact ⟨tableSlot_answers _ hq, tableSlot_answers _ hq, tableSlot_answers _ hq, tableSlot_answers _ hq,
      tableSlot_answers _ hq, tableSlot_answers _ hq, tableSlot_answers _ hq, tableSlot_answers _ hq⟩
  · exact ⟨rfl, rfl, rfl, rfl, rfl, tablefn_eq img x⟩
  · exact ⟨fun sg => reductions_nan img, fun neg => reductions_inf img, fun neg e => reductions_zero img,
      fun m e => reductions_negative img, fun neg m e h => ⟨evE2_above img h, evE2_below img h, evE2_within img h,
        evPd_fin img h, fun hm => ⟨evRc_fin img h hm, evRs_fin img h hm⟩⟩⟩

end Sys2Proof.Proofs

/-! SUPPORT. Writes of hub registers (R430, R431): every one is answered, and what a register without behaviour of its own
takes. -/

namespace Sys2Proof.Proofs

open Sys2Proof Sys2Proof.Machine Sys2Proof.Laws

/-- An operation answers a next state. -/
def Answers (o : Out) : Prop := ∃ t, o = .next t

theorem answers_next (t : State) : Answers (.next t) := ⟨t, rfl⟩

theorem answers_ite {c : Prop} [Decidable c] {a b : Out} (ha : Answers a) (hb : Answers b) :
    Answers (if c then a else b) := by
  split
  · exact ha
  · exact hb

section Registers

variable (s : State)

theorem answers_launchWindowWrite (tenant : BitVec 6) (cell : BitVec 5) (off : BitVec 7) (bs : List Byte) :
    Answers (execLaunchWindowWrite tenant cell off bs s) := answers_ite (answers_next _) (answers_next _)

theorem answers_pfdel (f : BitVec 28) : Answers (execPfdel f s) :=
  answers_ite (answers_next _) (answers_ite (answers_next _) (answers_next _))

theorem answers_writeTlbinv (v : DWord) : Answers (s.writeTlbinv v) :=
  answers_ite (answers_next _) (answers_ite (answers_next _) (answers_ite (answers_next _) (answers_next _)))

theorem answers_prrespWrite (id : BitVec 16) (refuse : Bool) : Answers (execPrrespWrite id refuse s) := by
  unfold execPrrespWrite
  split
  · exact answers_next _
  · exact answers_next _

theorem answers_writeSncmd (v : DWord) : Answers (s.writeSncmd v) :=
  answers_ite (answers_next _) (answers_ite (answers_next _) (answers_ite (answers_next _) (answers_ite (answers_next _)
    (answers_ite (answers_next _) (answers_next _)))))

theorem answers_snpoolWrite (v : BitVec 64) : Answers (execSnpoolWrite v s) :=
  answers_ite (answers_next _) (answers_next _)

/-- Every register write is answered, in the order of the banks. -/
theorem answers_hubWrite (off : Nat) (v : DWord) : Answers (s.hubWrite off v) := by
  unfold State.hubWrite
  refine answers_ite (answers_next _) (answers_ite (answers_launchWindowWrite ..) ?_)
  refine answers_ite (answers_next _) (answers_ite (answers_next _) ?_)
  refine answers_ite (answers_next _) (answers_ite (answers_pfdel ..) (answers_ite (answers_writeTlbinv ..) ?_))
  refine answers_ite (answers_next _) (answers_ite (answers_prrespWrite ..) (answers_ite (answers_writeSncmd ..) ?_))
  refine answers_ite (answers_snpoolWrite ..) (answers_ite (answers_next _) (answers_ite (answers_next _) ?_))
  exact answers_ite (answers_next _) (answers_next _)

/-- A register without behaviour of its own. -/
theorem hubWrite_plain {off : Nat} (v : DWord) (hoff : off < 0x4000000)
    (hlw : ¬ (lwBase ≤ off ∧ off < lwBase + 0x40000)) (htab : inBank off (regTabown 0 false) 8 1536 = false)
    (hsn : inBank off (regSnstat 0) 8 16 = false) (hisl : inBank off islBase 8 128 = false)
    (hmon : inBank off monBase 0x100 32 = false)
    (hown : off ∉ [regDiecmd, regPfadd, regPfdel, regTlbinv, regTlbstat, regPrresp, regSncmd, regSnpool]) :
    s.hubWrite off v = .next (s.plainWrite off v) := by
  simp only [List.mem_cons, List.not_mem_nil, or_false, not_or] at hown
  obtain ⟨hdie, hadd, hdel, hinv, hstat, hresp, hcmd, hpool⟩ := hown
  unfold State.hubWrite
  simp only [Nat.not_le.2 hoff, hlw, htab, hsn, hisl, hmon, hdie, hadd, hdel, hinv, hstat, hresp, hcmd, hpool,
    Bool.false_eq_true, if_false]

theorem inBank_eq_false_of_lt {off base : Nat} (stride n : Nat) (h : off < base) : inBank off base stride n = false := by
  simp [inBank, Nat.not_le.2 h]

theorem tencfg_lt {t : Nat} (ht : t < 64) : regTencfg t < schBase + 0x200 := by
  unfold regTencfg
  omega

theorem hubMask_tencfg {t : Nat} (ht : t < 64) : hubMask (regTencfg t) = 0x107FF := by
  have hne : regTencfg t ≠ regDumpaddr := by unfold regTencfg schBase regDumpaddr mgBase; omega
  have hb : inBank (regTencfg t) (regTencfg 0) 8 64 = true := by
    have hlt : 8 * t < 512 := by omega
    simpa [inBank, regTencfg] using hlt
  unfold hubMask
  rw [if_neg hne, if_pos hb]

theorem hubWrite_tencfg {t : Nat} (v : DWord) (ht : t < 64) (hep : regTencfg t ≠ regFbep s.pkg) :
    s.hubWrite (regTencfg t) v = .next (s.writeReg (regTencfg t) v) := by
  have hlt := tencfg_lt ht
  have hge : schBase ≤ regTencfg t := Nat.le_add_right _ _
  unfold schBase at hlt hge
  have hb : ∀ base stride n, schBase + 0x200 ≤ base → inBank (regTencfg t) base stride n = false :=
    fun _ _ _ h => inBank_eq_false_of_lt _ _ (hlt.trans_le h)
  have hplain : s.plainWrite (regTencfg t) v = s.writeReg (regTencfg t) v := by
    unfold State.plainWrite
    simp only [if_neg hep, hb (regFbport 0) _ _ (by decide), hb (regFbroute 0) _ _ (by decide), Bool.or_self,
      Bool.false_eq_true, if_false]
  rw [hubWrite_plain s v (by omega) (by unfold lwBase; omega) (hb _ _ _ (by decide)) (hb _ _ _ (by decide))
    (hb _ _ _ (by decide)) (hb _ _ _ (by decide)), hplain]
  simp only [List.mem_cons, List.not_mem_nil, or_false, not_or]
  unfold regDiecmd mgBase regPfadd regPfdel pfBase regTlbinv regTlbstat regPrresp trBase regSncmd regSnpool snBase
  omega

end Registers

end Sys2Proof.Proofs

/-! SUPPORT. The page-fail table and TLB shootdown (R366 to R369, R375, R376). -/

namespace Sys2Proof.Proofs

open Sys2Proof Sys2Proof.Machine Sys2Proof.Laws

/-! ### Frames that join and leave the table -/

/-- A fold whose steps leave the state alone. -/
theorem foldl_eq_self {α β : Type} {f : β → α → β} {b : β} {l : List α} (h : ∀ x ∈ l, f b x = b) :
    l.foldl f b = b := by
  induction l with
  | nil => rfl
  | cons x l ih =>
    rw [List.foldl_cons, h x (List.mem_cons_self ..)]
    exact ih fun y hy => h y (List.mem_cons_of_mem _ hy)

/-- Reading open loads changes nothing else. -/
theorem foldl_fixReads_frame (f : Nat) (cs : List Nat) (s : State) : ∃ as,
    cs.foldl (fun s c => s.fixReads c (fun _ => true) (s.core c).seq (4096 * f) 4096) s = { s with accesses := as } := by
  induction cs generalizing s with
  | nil => exact ⟨_, rfl⟩
  | cons c cs ih =>
    obtain ⟨as, h⟩ := ih (s.fixReads c (fun _ => true) (s.core c).seq (4096 * f) 4096)
    exact ⟨as, h⟩

/-- With no write of a core and no remote store due to a frame, only open loads are read. -/
theorem flushFrame_quiet {s : State} {f : Nat}
    (hw : ∀ q ∈ s.cores, ∀ w ∈ (s.core q.1).writes, w.onFrame f = false)
    (ho : ∀ o ∈ s.fab.ops, ∀ a v, o.kind = .fst a v → inFrame f a = false) :
    ∃ as, s.flushFrame f = { s with accesses := as } := by
  have hwrites : (s.cores.map (fun c => c.1)).foldl (fun s c => ((s.core c).writes.filter (fun w =>
      w.onFrame f && w.len != 0)).foldl (fun s w => s.performWrite c w) s) s = s := by
    refine foldl_eq_self fun c hc => ?_
    obtain ⟨q, hq, rfl⟩ := List.mem_map.1 hc
    rw [List.filter_eq_nil_iff.2 (fun w hm => by simp [hw q hq w hm])]
    rfl
  unfold State.flushFrame
  simp only [hwrites]
  rw [(List.filter_eq_nil_iff (l := s.fab.ops)).2 fun o hm => ?_]
  · exact foldl_fixReads_frame f _ s
  · cases hk : o.kind with
    | fst a v => simp [ho o hm a v hk]
    | _ => simp

/-- The state in which a frame has joined the table, before the cores settle. -/
def frameEntered (y : State) (f : Nat) : State :=
  { y with
    pageFail := y.pageFail ++ [f], tlb := y.tlb.filter (fun e => !e.onFrame y f)
    cores := y.cores.map (fun (c : Nat × Core) => (c.1, c.2.loseFrame f))
    dir := y.dir.filter (fun q => q.1 % 2 ^ 33 / 32 != f) }

section Frames

variable {s : State} {f : Nat}

theorem addFrame_same (h : f ∈ s.pageFail ∨ devSize ≤ 4096 * f) : s.addFrame f = s := by
  unfold State.addFrame
  rw [if_pos (by simpa using h)]

variable (hn : f ∉ s.pageFail) (hd : 4096 * f < devSize)
include hn hd

theorem addFrame_full (hl : 65536 ≤ s.pageFail.length) : s.addFrame f = s.enterFatal 1 (BitVec.ofNat 64 f) := by
  unfold State.addFrame
  rw [if_neg (by simp [hn, hd]), if_pos hl]

theorem addFrame_enters (hl : s.pageFail.length < 65536) :
    s.addFrame f = (frameEntered (s.flushFrame f) f).settleCores := by
  unfold State.addFrame
  rw [if_neg (by simp [hn, hd]), if_neg (Nat.not_le.2 hl)]
  rfl

end Frames

/-- What a frame that joins takes with it: the lines that cores hold of it, and the translations onto it (R366). -/
theorem frameEntered_frame (y : State) (f : Nat) : let z := frameEntered y f
    z.pageFail = y.pageFail ++ [f] ∧ z.mem = y.mem ∧ z.threads = y.threads ∧ z.groups = y.groups
    ∧ (∀ q ∈ z.cores, ∀ l ∈ q.2.lines, inFrame f l.1 = false) ∧ ∀ e ∈ z.tlb, e ∈ y.tlb ∧ e.onFrame y f = false := by
  refine ⟨rfl, rfl, rfl, rfl, fun q hq l hl => ?_, fun e he => ?_⟩
  · obtain ⟨c, -, rfl⟩ := List.mem_map.1 hq
    simpa using (List.mem_filter.1 hl).2
  · simpa using List.mem_filter.1 he

theorem pfdel_next {s : State} {f : BitVec 28} (hf : f.toNat ∈ s.pageFail)
    (ho : ∀ l ∈ linesOf (4096 * f.toNat) 4096, s.owned l 128 = false) (hd : s.frameDue f.toNat = false)
    (hw : s.writeWaits (4096 * f.toNat) 4096 = none) : execPfdel f s
      = .next { s.zeroFrame f.toNat with pageFail := s.pageFail.filter (fun g => g != f.toNat) } := by
  have hany : (linesOf (4096 * f.toNat) 4096).any (fun l => s.owned l 128) = false := by simpa using ho
  unfold execPfdel
  simp only [hany, hd, hw]
  rw [if_neg (by simpa using hf)]
  rfl

theorem pfdel_absent {s : State} {f : BitVec 28} (hf : f.toNat ∉ s.pageFail) : execPfdel f s = .next s := by
  unfold execPfdel
  simp only
  rw [if_pos (by simp [hf])]

theorem uncorrectableError_next {s : State} {addr : Nat} (met : ErrMet) (h : addr < devSize) :
    execUncorrectableError addr met s = .next ((s.errorMet addr met).addFrame (addr / 4096)) := if_neg (Nat.not_le.2 h)

/-! ### Shootdown -/

theorem tlbinv_busy {s : State} (asid : BitVec 16) (n : BitVec 24) (h : s.inval.isSome = true) :
    execTlbinvAsid asid s = .next (s.setField regTlbstat 1 1 1) ∧ execTlbinvRange asid n s = .next (s.setField regTlbstat 1 1 1)
    ∧ execTlbinvAll s = .next (s.setField regTlbstat 1 1 1) :=
  ⟨congrArg _ (if_pos h), congrArg _ (if_pos h), congrArg _ (if_pos h)⟩

theorem tlbinv_idle {s : State} (asid : BitVec 16) (n : BitVec 24) (h : s.inval = none) :
    let I := fun (v : Inval) => ({ s.setField regTlbstat 0 1 1 with inval := some v } : State)
    execTlbinvAsid asid s = .next (I ⟨1, asid, s.field regTlbva 0 45, 0⟩)
    ∧ execTlbinvRange asid n s = .next (I ⟨2, asid, s.field regTlbva 0 45, n.toNat + 1⟩)
    ∧ execTlbinvAll s = .next (I ⟨3, 0, s.field regTlbva 0 45, 0⟩) := by
  have hn : ¬ s.inval.isSome = true := by simp [h]
  exact ⟨congrArg _ (if_neg hn), congrArg _ (if_neg hn), congrArg _ (if_neg hn)⟩

/-- An invalidation whose entries are quiet ends, and they are gone. -/
theorem tlbInvalidationDone_next {s : State} {v : Inval} (hv : s.inval = some v)
    (hq : ∀ e ∈ s.tlb, v.takes e = true → s.entryQuiet e = true)
    (hw : (s.tlb.filter v.takes).findSome? s.entryWaits = none) :
    ∃ t, execTlbInvalidationDone s = .next t ∧ t.inval = none ∧ ∀ e ∈ t.tlb, v.takes e = false := by
  have hall : (s.tlb.filter v.takes).all s.entryQuiet = true :=
    List.all_eq_true.2 fun e he => hq e (List.mem_filter.1 he).1 (List.mem_filter.1 he).2
  unfold execTlbInvalidationDone
  simp only [hv, hall, hw]
  refine ⟨_, rfl, rfl, fun e he => ?_⟩
  simpa using (List.mem_filter.1 he).2

end Sys2Proof.Proofs

/-! SUPPORT. Snapshots (R379 to R384): the commands of a domain, the drain and the copy before a write. -/

namespace Sys2Proof.Proofs

open Sys2Proof Sys2Proof.Machine Sys2Proof.Laws

section Domain

variable {s : State} {d : Nat} {states : List Nat} (f : State → State)

theorem next_domCmd_admitted (h : s.domState d ∈ states) : (.next (s.domCmd d states f) : Out) = .next (f s) :=
  congrArg _ (if_pos (by simpa using h))

theorem next_domCmd_refused (h : s.domState d ∉ states) : (.next (s.domCmd d states f) : Out) = .next (s.setRes 1) :=
  congrArg _ (if_neg (by simpa using h))

end Domain

theorem drainPageSend_next {s : State} {d : BitVec 4} {p : Nat} (hs : s.domState d.toNat = 2)
    (hf : (s.toSend d.toNat).find? (fun p => decide (spGet (fun _ => 0) s.snap.next d.toNat ≤ p)) = some p)
    (hr : s.drainReaches = true) (ho : s.drainOwned p = false) (hw : s.drainWaits p = none) :
    execDrainPageSend d s = .next (s.sendPage d.toNat p).settleTxs := by
  unfold execDrainPageSend
  simp only [hs, hf, hr, ho, hw]
  rfl

theorem drainPageAck_next {s : State} {d : BitVec 4} {p : Nat} (hs : s.domState d.toNat = 2)
    (hm : (p, d.toNat) ∈ s.snap.sent) : execDrainPageAck d p s = .next
      ({ s with snap := { s.snap with sent := s.snap.sent.filter (fun q => q != (p, d.toNat)),
                                      copies := s.snap.copies.filter (fun c => c.1 != p) } }.drainEnd d.toNat) := by
  unfold execDrainPageAck
  simp only
  rw [if_neg (by simp [hs, hm])]

theorem snpoolWrite_idle {s : State} (v : BitVec 64) (h : ∀ d < 16, s.domState d = 0) :
    execSnpoolWrite v s = .next (s.setReg regSnpool (v &&& 0xFFFFFFFFFFFF)) :=
  if_pos (by simpa [List.all_eq_true] using h)

theorem snpoolWrite_busy {s : State} (v : BitVec 64) (h : ∃ d < 16, s.domState d ≠ 0) :
    execSnpoolWrite v s = .next (s.setRes 4) :=
  if_neg (by simpa [List.all_eq_true] using h)

theorem copyBeforeWrite_next {s : State} {page d p : Nat} (hc : s.copyBit page = true) (ha : page ∈ s.snap.asked)
    (hd : s.domainOf page = some d) (hp : s.freePoolPage = some p) :
    let t := (s.copyPage page p).setCopyBits [page] false
    execCopyBeforeWrite page s
      = .next { t with snap := { t.snap with copies := t.snap.copies ++ [(page, p, d)] } }.settleTxs := by
  intro t
  have hb : (s.copyBit page && s.snap.asked.contains page) = true := by simp [hc, ha]
  unfold execCopyBeforeWrite
  rw [hb, hd, hp]

end Sys2Proof.Proofs

/-! SUPPORT. Accesses of hosts, devices and running harts to device memory, and the switch-resident directory (R318, R364,
R399, R400). -/

namespace Sys2Proof.Proofs

open Sys2Proof Sys2Proof.Machine Sys2Proof.Laws

/-! ### Hosts and devices -/

/-- An agent may read or write a run of device memory: it exists, no command owns it, and nothing is waited for. -/
def RunFree (s : State) (write : Bool) (loc len : Nat) : Prop :=
  s.runOk loc len = true ∧ s.runOwned loc len = false ∧ s.runWaits write loc len = none

/-- The guards that every access passes first. -/
theorem guarded_next {s : State} {write : Bool} {loc len : Nat} (h : RunFree s write loc len) (o : Out) :
    (if !s.runOk loc len || s.runOwned loc len then .next s
      else if (s.runWaits write loc len).isSome then .next (s.askFor (s.runWaits write loc len)) else o) = o := by
  obtain ⟨hok, hown, hw⟩ := h
  rw [hok, hown, hw]
  rfl

section Bus

variable {s : State} {addr loc : Nat} (hp : s.paKind addr = .dev loc)
include hp

theorem hostAccess_dev (hf : s.fabricOn = true) (op : BusOp) : execHostAccess addr op s = s.busAccess 0 loc op := by
  unfold execHostAccess
  rw [hp, hf]
  rfl

theorem pcieMemoryRequest_dev {port : Nat} (hport : port < 2) (hdie : s.dieState (9 + port) = 2) (op : BusOp) :
    execPcieMemoryRequest port addr op s = s.busAccess (1 + port) loc op := by
  unfold execPcieMemoryRequest
  rw [if_neg (by omega), hp]

theorem hartAccess_dev {hart : Nat} (hh : hart < 24) (hdie : s.dieState 8 = 2) (hrun : s.mgmt.hartsRunning = true)
    (hfatal : s.mgmt.fatal = none) (op : HartOp) : execHartAccess hart addr op s = s.hartMemory hart (3 + hart) loc op := by
  unfold execHartAccess
  rw [if_neg (by simp [hh, hdie, hrun, hfatal]), hp]

end Bus

theorem busAccess_read {s : State} {loc len : Nat} (agent : Nat) (h : RunFree s false loc len) :
    s.busAccess agent loc (.read len) = .next ((s.homeReads loc len).busReply agent (s.bytes loc len)) := guarded_next h _

theorem busAccess_write {s : State} {loc : Nat} {bs : List Byte} (agent : Nat) (h : RunFree s true loc bs.length) :
    s.busAccess agent loc (.write bs) = .next (s.putRun loc bs) := guarded_next h _

/-! ### Harts -/

/-- A hart's write changes the bytes that it names, and of the cores nothing (R318). -/
theorem hartPut_bytes (s : State) (hart loc : Nat) (bs : List Byte) (a : Nat) : let t := s.hartPut hart loc bs
    (s.putRun loc bs).byte a = (if loc ≤ a ∧ a < loc + bs.length then bs.getD (a - loc) 0 else s.byte a)
    ∧ t.byte a = (s.putRun loc bs).byte a ∧ t.threads = s.threads ∧ t.groups = s.groups ∧ t.runs = s.runs
    ∧ t.cores = s.cores := by
  intro t
  obtain ⟨dir, mgmt, ht⟩ : ∃ dir mgmt, t = { s.putRun loc bs with dir := dir, mgmt := mgmt } := hartPut_frame s hart loc bs
  have hm := memOnly_putRun s loc bs
  rw [ht]
  exact ⟨byte_putRun s loc bs a, rfl, hm.threads, hm.groups, hm.runs, hm.cores⟩

/-- The operand of an atomic is aligned in a run that exists and that no command owns. -/
def AtomFree (s : State) (loc len : Nat) : Prop :=
  atomicOk loc len = true ∧ s.runOk loc len = true ∧ s.runOwned loc len = false

/-- The guard that every atomic passes first. -/
theorem atomGuarded_next {s : State} {loc len : Nat} (h : AtomFree s loc len) (o : Out) :
    (if !atomicOk loc len || !s.runOk loc len || s.runOwned loc len then .next s else o) = o := by
  obtain ⟨ha, hok, hown⟩ := h
  rw [ha, hok, hown]
  rfl

/-- A hart holds a reservation of a run, and LZ1-P a copy of its line. -/
def reservationHeld (s : State) (hart loc len : Nat) : Bool :=
  s.mgmt.reserved.any (fun r => r.1 == hart && decide (r.2.1 ≤ loc) && decide (loc + len ≤ r.2.1 + r.2.2))
    && s.copyOf hartAgent loc != .i

section Hart

variable {s : State} {hart agent loc len : Nat} (v : BitVec 64) (aq rl : Bool)

theorem hartMemory_load (h : RunFree s false loc len) : s.hartMemory hart agent loc (.load len)
    = .next ((s.hartRead loc len).reply agent (s.bytes loc len)) := guarded_next h _

theorem hartMemory_store {bs : List Byte} (h : RunFree s true loc bs.length) : s.hartMemory hart agent loc (.store bs)
    = .next (s.hartPut hart loc bs) := guarded_next h _

variable (ha : AtomFree s loc len)
include ha

theorem hartMemory_lr (hw : s.runWaits false loc len = none) : s.hartMemory hart agent loc (.lr len aq rl)
    = .next (((s.hartRead loc len).reserve hart (some (loc, len))).reply agent (s.bytes loc len)) :=
  (atomGuarded_next ha _).trans (if_neg (by simp [hw]))

/-- Without its reservation a store-conditional answers 1. -/
theorem hartMemory_sc_lost (hh : reservationHeld s hart loc len = false) : s.hartMemory hart agent loc (.sc len v aq rl)
    = .next ((s.reserve hart none).reply agent (leBytes len 1)) := by
  have hr : s.reservedBy hart loc len = false := Bool.and_eq_false_imp.2 fun h => absurd (hh.symm.trans h) (by decide)
  exact (atomGuarded_next ha _).trans (if_pos (by rw [hr]; rfl))

/-- With it, a store-conditional stores and answers 0, or fails all the same. -/
theorem hartMemory_sc_held (hh : reservationHeld s hart loc len = true) (hw : s.runWaits true loc len = none) :
    s.hartMemory hart agent loc (.sc len v aq rl) = if Config.scFails s.turn = true
      then .next ((s.reserve hart none).reply agent (leBytes len 1))
      else .next (((s.hartPut hart loc (leBytes len v.toNat)).reserve hart none).reply agent (leBytes len 0)) := by
  have hr : (!s.reservedBy hart loc len) = Config.scFails s.turn :=
    (congrArg (fun b => !(b && !Config.scFails s.turn)) hh).trans (by simp)
  refine (atomGuarded_next ha _).trans ?_
  rw [hr, hw]
  rfl

theorem hartMemory_amo (op : AmoOp) (hw : s.runWaits true loc len = none) : s.hartMemory hart agent loc (.amo op len v aq rl)
    = .next ((s.hartPut hart loc (leBytes len (amoResult op (8 * len) (leNat (s.bytes loc len))
        (v.toNat % 2 ^ (8 * len))))).reply agent (s.bytes loc len)) :=
  (atomGuarded_next ha _).trans (if_neg (by simp [hw]))

end Hart

/-! ### The directory -/

theorem hostSnoop_next {s : State} {line : Nat} (hf : s.fabricOn = true) (hs : s.hostShared (lineOf line) = true)
    (hok : s.runOk (lineOf line) 128 = true) (ho : s.owned (lineOf line) 1 = false) : execHostSnoop line s
      = .next (((s.dirDrop (lineOf line)).setHostLine (lineOf line) 2).fabSend s.pod
          (.snoopReply (lineOf line) (s.bytes (lineOf line) 128))) := by
  unfold execHostSnoop
  simp only [hf, hs, hok, ho]
  rfl

theorem directoryResponse_next {s : State} {ask : DirAsk} (hf : s.fabricOn = true)
    (hc : s.fab.hostAsked.contains (lineOf ask.line, ask.inval) = true) : let l := lineOf ask.line
    let t := { s with fab := { s.fab with hostAsked := s.fab.hostAsked.filter (fun k => k != (l, ask.inval)) } }
    execDirectoryResponse ask s
      = .next (((t.setHostLine l (if ask.inval = true then 0 else min 1 (t.hostLevel l))).settleCores).settleConds) := by
  intro l t
  unfold execDirectoryResponse
  simp only [hf, hc]
  rfl

/-- Settles O59: the clauses in their order; each is a law of its event, where the conditions that it names hold. -/
theorem hubEvents : Obligations.HubEvents := by
  unfold Obligations.HubEvents
  intro s
  refine ⟨fun core hi v hc => if_pos hc,
    fun off size v => ⟨fun h => if_pos h, fun h => if_neg h, answers_ite (answers_hubWrite s off v) (answers_next s), ?plain⟩,
    fun t v ht hep => ?tencfg, fun f => ?frames, fun asid n => ⟨tlbinv_busy asid n, tlbinv_idle asid n⟩,
    fun v hv hq hw => tlbInvalidationDone_next hv hq hw, fun d first n => ?domains,
    fun v => ⟨snpoolWrite_idle v, snpoolWrite_busy v⟩,
    fun page d p hc ha hd hp => ⟨copyBeforeWrite_next hc ha hd hp, fun hpage _ a ha => byte_copyPage s page p a ha hpage⟩,
    ?accesses, fun line hf hs hok ho => hostSnoop_next hf hs hok ho, fun ask hf hc => directoryResponse_next hf hc⟩
  case plain =>
    intro hsize halign hoff hlw htab hsn hisl hmon hown
    exact ⟨(if_pos ⟨hsize, halign⟩).trans (hubWrite_plain s v hoff hlw htab hsn hisl hmon hown), rfl⟩
  case tencfg =>
    refine ⟨(if_pos ⟨rfl, by unfold regTencfg schBase; omega⟩).trans (hubWrite_tencfg s v ht hep), ?_⟩
    rw [← hubMask_tencfg ht]
    exact reg_setReg_same ..
  case frames =>
    refine ⟨rfl, fun stack hs => if_pos hs, fun _ => rfl, fun addr met h => uncorrectableError_next met h, addFrame_same,
      fun hn hd => ⟨addFrame_full hn hd, fun hl => ⟨⟨_, addFrame_enters hn hd hl, frameEntered_frame _ _⟩, fun hw ho => ?_⟩⟩,
      fun addr g va => ⟨rfl, rfl⟩, fun hf ho hd hw => ⟨_, pfdel_next hf ho hd hw, by dsimp only, ?_, ?_⟩, pfdel_absent⟩
    · obtain ⟨as, hy⟩ := flushFrame_quiet hw ho
      rw [hy]
      exact ⟨rfl, rfl, rfl, rfl, rfl⟩
    · simp
    · intro g hg
      simp [hg]
  case domains =>
    intro D
    refine ⟨fun h => ?idle, fun h => ⟨fun hz => ?_, fun hz => ?_⟩, fun h => next_domCmd_admitted _ (List.mem_pair.2 h),
      fun h => ?busy, fun p hs hf hr ho hw => ⟨drainPageSend_next hs hf hr ho hw, sendPage_frame s D p⟩,
      fun p hs hm => drainPageAck_next hs hm, rfl⟩
    case idle =>
      have h0 : s.domState D ∈ [0] := List.mem_singleton.2 h
      exact ⟨next_domCmd_admitted _ h0, next_domCmd_admitted _ h0, next_domCmd_admitted _ h0⟩
    case busy =>
      have h0 : s.domState D ∉ [0] := fun hm => h (List.mem_singleton.1 hm)
      exact ⟨next_domCmd_refused _ h0, next_domCmd_refused _ h0, next_domCmd_refused _ h0⟩
    · exact (next_domCmd_admitted _ (List.mem_singleton.2 h)).trans (congrArg _ (if_pos hz))
    · exact (next_domCmd_admitted _ (List.mem_singleton.2 h)).trans (congrArg _ (if_neg hz))
  case accesses =>
    intro addr loc len bs hp y rd okR okW
    refine ⟨fun hart a => hartPut_bytes s hart loc bs a, fun hf => ⟨fun h => ?_, fun h => ?_⟩,
      fun port hport hdie => ⟨fun h => ?_, fun h => ?_⟩, fun hart v aq rl hh hdie hrun hfatal => ?_⟩
    · exact (hostAccess_dev hp hf _).trans (busAccess_read 0 h)
    · exact (hostAccess_dev hp hf _).trans (busAccess_write 0 h)
    · exact (pcieMemoryRequest_dev hp hport hdie _).trans (busAccess_read (1 + port) h)
    · exact (pcieMemoryRequest_dev hp hport hdie _).trans (busAccess_write (1 + port) h)
    · intro X ans okA held
      have hX : ∀ o, X o = s.hartMemory hart (3 + hart) loc o := hartAccess_dev hp hh hdie hrun hfatal
      simp only [hX]
      exact ⟨hartMemory_load, hartMemory_store, fun _ => rfl, hartMemory_lr aq rl, hartMemory_sc_lost v aq rl,
        hartMemory_sc_held v aq rl, fun op ha hw => hartMemory_amo v aq rl ha op hw⟩

end Sys2Proof.Proofs

/-! SUPPORT. One step keeps the canonical form of memory and of the scratchpads: its parts around the meaning of an
instruction do, and `wf_exec` says it of every meaning. -/

namespace Sys2Proof.Proofs

open Sys2Proof Sys2Proof.Machine Sys2Proof.Laws

section Canonical

variable {s : State} (h : MemWf s)
include h

theorem wf_noteWrites (before : Sparse Byte) : MemWf (s.noteWrites before) :=
  wf_ite (fun _ => wf_State_settleConds s h) (fun _ => h)

theorem wf_settle : MemWf s.settle := by
  unfold State.settle
  refine wf_State_freeHolds _ (wf_State_dropReserved _ (wf_State_settleDump _ (wf_State_settleShadows _
    (wf_State_writeSvcRecords _ (wf_State_settleTxs _ ?_)))))
  exact wf_foldl _ _ h (fun t c ht => wf_State_sendSignals t c ht)

theorem wf_endSlots : MemWf s.endSlots := by
  unfold State.endSlots
  split
  · exact h
  · exact wf_ite (fun _ => wf_State_finishIssue s h) (fun _ => h)

theorem wf_beginCycles (before : State) : MemWf (s.beginCycles before) := by
  unfold State.beginCycles
  exact wf_foldl _ _ h (fun t k ht => wf_State_settleTokens _ k (wf_State_modGroup t k Group.semCycle ht))

end Canonical

theorem wf_endStep {s : State} (h : MemWf s) (before : Sparse Byte) : MemWf (s.endStep before) :=
  wf_settle (wf_noteWrites h before)

theorem wf_tick {s : State} (h : MemWf s) : MemWf s.tick := by
  unfold State.tick
  refine wf_State_readSome _ (wf_beginCycles (wf_State_advance _ _ ?_) s)
  exact wf_mk rfl rfl h

theorem wf_stepSlot {s : State} (h : MemWf s) (q : Issue) (w : SlotWord) (rest : List SlotWord) :
    OutWf (stepSlot s q w rest) := by
  have hat : MemWf (s.takeSlot q w rest) := wf_mk rfl rfl h
  unfold stepSlot
  split
  · exact wf_fault _
  · split
    · next ht => exact wf_next (wf_endStep (wf_endSlots (wf_outGet ht (wf_exec _ _ hat))) _)
    · exact wf_fault _
    · exact wf_refused _

theorem wf_runEvent {s : State} (h : MemWf s) (i : Instr) : OutWf (runEvent i s) := by
  unfold runEvent
  split
  · next ht => exact wf_next (wf_endStep (wf_outGet ht (wf_iteO (fun _ => wf_exec _ s h) (fun _ => wf_exec i s h))) _)
  · exact wf_fault _
  · exact wf_refused _

/-- A step is the end of a bundle, the next slot of one, or an event after time has passed. -/
theorem wf_step {s : State} (h : MemWf s) : OutWf (step s) := by
  unfold step
  split
  · split
    · exact wf_stepSlot h _ _ _
    · exact wf_next (wf_endStep (wf_State_finishIssue s h) _)
  · exact wf_runEvent (wf_tick h) _

/-- Settles O10: no byte of memory and of the scratchpads is listed after reset. -/
theorem resetMemoryIsCanonical : Obligations.ResetMemoryIsCanonical := wf_State_reset

/-- Settles O11: `State.canonical` is the form `MemWf` that every step keeps. -/
theorem stepsKeepMemoryCanonical : Obligations.StepsKeepMemoryCanonical := by
  unfold Obligations.StepsKeepMemoryCanonical
  intro s t hs ht
  exact wf_outGet ht (wf_step hs)

end Sys2Proof.Proofs

/-! SUPPORT. Loads and stores (R199, R208): the address, and the slot whose conditions are the frame bound and that of its
access. -/

namespace Sys2Proof.Proofs

open Sys2Proof Sys2Proof.Machine Sys2Proof.Laws

/-- The address of R199: the index register adds nothing in a form that is not indexed. -/
theorem moEa_eq (s : State) (o : MOp) (size : Nat) (l : Nat × Nat) : moEa s o size l
    = xOf s l o.xb + (if o.ix then (vOf s l o.vi).signExtend 64 * BitVec.ofNat 64 size else 0)
      + o.off.signExtend 64 * BitVec.ofNat 64 size := by
  unfold moEa memEa
  cases o.ix <;> rfl

/-- The memory condition of a slot is that of its access. -/
theorem memSlotCond_of_acc {i : Instr} {a : MemAcc} (s : State) (q : Issue) (ha : memAcc i = some a) :
    memSlotCond s q i = memCond s q (accLanes s q i) (a.ea s) a.size a.align a.need a.reach a.scr := by
  unfold memSlotCond
  rw [ha]
  rfl

section MemorySlots

variable {s : State} {q : Issue} {i : Instr} {o : MOp} {size words : Nat} {x : Ext} {whole scr : Bool}
  (hl : accLanes s q i = participants s q o.g)
  (hc : Unbarred q ((frameCond s q i).orElse (fun _ => memSlotCond s q i)))
include hl hc

/-- The condition that a load or a store tests is the one of the bundle's checks. -/
theorem unbarred_memCond {a : MemAcc} (ha : memAcc i = some a) : Unbarred q ((frameCond s q i).orElse (fun _ =>
    memCond s q (participants s q o.g) (a.ea s) a.size a.align a.need a.reach a.scr)) := by
  rw [memSlotCond_of_acc s q ha, hl] at hc
  exact hc

/-- A load that no condition bars starts the reads of its participants. -/
theorem loadSlot_next (hq : s.issue = some q) (ha : memAcc i = some (moAcc .load o size (if whole then 16 else 1) scr)) :
    loadSlot i o size words x whole scr s = .next (s.startLoad q (participants s q o.g) (moEa s o size) size words
      (if scr then latScratch else latLoad s q) x whole scr o.hint.toNat o.data.toNat) := by
  have hbar := unbarred_memCond hl hc ha
  unfold loadSlot memSlot
  exact slotCond_effect _ hq hbar

/-- A store that no condition bars stores in its participants one after the other. -/
theorem storeSlot_next (hq : s.issue = some q) (ha : memAcc i = some (moAcc .store o size (if whole then 16 else 1) scr)) :
    storeSlot i o size whole scr s = .next ((participants s q o.g).foldl (fun z l =>
      z.storeLane q l.2 (moEa s o size l) (dataBytes s l o.data size) whole scr o.hint.toNat) s) := by
  have hbar := unbarred_memCond hl hc ha
  unfold storeSlot memSlot
  exact slotCond_effect _ hq hbar

end MemorySlots

theorem startLoad_nil (s : State) (q : Issue) (ea : Nat × Nat → DWord) (size words lat : Nat) (x : Ext) (whole scr : Bool)
    (hint data : Nat) : s.startLoad q [] ea size words lat x whole scr hint data = s := rfl

/-- Settles O46: sixteen loads and twelve stores at the address of R199; without a participant neither does anything. -/
theorem loadStoreSlots : Obligations.LoadStoreSlots := by
  unfold Obligations.LoadStoreSlots
  intro s q o hq C P ea L S
  have hea : ea = moEa s o := by
    funext size l
    exact (moEa_eq s o size l).symm
  clear_value ea
  subst hea
  have load : ∀ {i size words x whole scr}, memAcc i = some (moAcc .load o size (if whole then 16 else 1) scr) →
      accLanes s q i = P → exec i s = loadSlot i o size words x whole scr s → C i (L size words x whole scr) :=
    fun ha hl he hc => he.trans (loadSlot_next hl hc hq ha)
  have store : ∀ {i size whole scr}, memAcc i = some (moAcc .store o size (if whole then 16 else 1) scr) →
      accLanes s q i = P → exec i s = storeSlot i o size whole scr s → C i (S size whole scr) :=
    fun ha hl he hc => he.trans (storeSlot_next hl hc hq ha)
  refine ⟨load rfl rfl rfl, load rfl rfl rfl, load rfl rfl rfl, load rfl rfl rfl, load rfl rfl rfl, load rfl rfl rfl,
    load rfl rfl rfl, load rfl rfl rfl, load rfl rfl rfl, load rfl rfl rfl, load rfl rfl rfl, load rfl rfl rfl,
    load rfl rfl rfl, load rfl rfl rfl, load rfl rfl rfl, load rfl rfl rfl, store rfl rfl rfl, store rfl rfl rfl,
    store rfl rfl rfl, store rfl rfl rfl, store rfl rfl rfl, store rfl rfl rfl, store rfl rfl rfl, store rfl rfl rfl,
    store rfl rfl rfl, store rfl rfl rfl, store rfl rfl rfl, store rfl rfl rfl, fun hP size words x whole scr => ?_⟩
  simp only [L, S, hP, startLoad_nil, List.foldl_nil, and_self]

end Sys2Proof.Proofs

/-! SUPPORT. A state that refutes AtomicSlots: as in the refutation of PendingWrites, its list of cores is not in the order
of their numbers, and here core 1 holds the word of the atomic. -/

namespace Sys2Proof.Proofs

open Sys2Proof Sys2Proof.Machine

/-- The member of core 1 holds the line at 128, of which the first word is listed. -/
def unorderedHolder : State :=
  { unorderedCores with
    cores := [(5, storingCore 3 0xAA),
      (1, { storingCore 1 0xBB with lines := [(128, 0, false), (129, 0, false), (130, 0, false), (131, 0, false)] })] }

/-- An exchange of core 0 on the word at 128, which the member of core 1 holds for it (R205). -/
def localExchange : PendWrite := ⟨1, 0, 0, 128, .atom .exch 0x11 0 0, Rels.zero, .lcl, 0⟩

/-- Core 0 reads the store of core 5, which is found first. -/
theorem localByte_unorderedHolder : unorderedHolder.localByte 0 0 = 0xAA := by decide +kernel

/-- Writing the word into core 1's member has put core 1 before core 5 in the list, so that its store is found first. -/
theorem localByte_atomStep_unorderedHolder :
    (unorderedHolder.atomStep 0 localExchange .exch 0x11 0 0).localByte 0 0 = 0xBB := by decide +kernel

/-- Refutes O50: an atomic in a local line must change no byte that its core reads but those of its word. Nothing asks the
list of cores to be in key order, and writing the member that holds the line moves that core to an earlier place. Where two
other cores have each performed a store to one byte as far as the reading core, it then reads the other of the two. -/
theorem not_atomicSlots : ¬ Obligations.AtomicSlots := by
  unfold Obligations.AtomicSlots
  intro h
  obtain ⟨-, -, -, -, -, -, -, -, -, -, -, -, -, -, -, -, -, -, -, -, -, -, -, -, -, hstep, -⟩ :=
    h { State.reset with issue := some default } default default rfl
  obtain ⟨-, hlocal⟩ := hstep unorderedHolder 0 localExchange .exch 0x11 0 0
  obtain ⟨-, -, -, hput⟩ := hlocal rfl (by decide) (by decide +kernel) (by decide +kernel)
  have hread := hput 0 0xAA localByte_unorderedHolder
  rw [localByte_atomStep_unorderedHolder] at hread
  exact absurd hread (by decide)

end Sys2Proof.Proofs

/-! SUPPORT. Pieces of an access (R305): the largest piece at an address, and the run of bytes that the pieces make up. -/

namespace Sys2Proof.Proofs

open Sys2Proof Sys2Proof.Machine Sys2Proof.Laws

/-! ### One piece -/

/-- The choice of the piece: a size is taken where it divides the address and fits, and the one above does not. -/
theorem pieceLen_cases (a rem : Nat) :
    pieceLen a rem = 8 ∧ 8 ≤ min rem (8 - a % 8) ∧ a % 8 = 0
    ∨ pieceLen a rem = 4 ∧ 4 ≤ min rem (8 - a % 8) ∧ a % 4 = 0 ∧ ¬(8 ≤ min rem (8 - a % 8) ∧ a % 8 = 0)
    ∨ pieceLen a rem = 2 ∧ 2 ≤ min rem (8 - a % 8) ∧ a % 2 = 0 ∧ ¬(4 ≤ min rem (8 - a % 8) ∧ a % 4 = 0)
    ∨ pieceLen a rem = 1 ∧ ¬(2 ≤ min rem (8 - a % 8) ∧ a % 2 = 0) := by
  simp only [pieceLen]
  split_ifs <;> omega

theorem pieceLen_mem (a rem : Nat) : pieceLen a rem ∈ [1, 2, 4, 8] := by
  obtain ⟨h, -⟩ | ⟨h, -⟩ | ⟨h, -⟩ | ⟨h, -⟩ := pieceLen_cases a rem <;> simp [h]

theorem mod_pieceLen (a rem : Nat) : a % pieceLen a rem = 0 := by
  obtain ⟨h, -, hdvd⟩ | ⟨h, -, hdvd, -⟩ | ⟨h, -, hdvd, -⟩ | ⟨h, -⟩ := pieceLen_cases a rem
  · rw [h, hdvd]
  · rw [h, hdvd]
  · rw [h, hdvd]
  · rw [h, Nat.mod_one]

theorem pieceLen_pos (a rem : Nat) : 0 < pieceLen a rem := by
  have := pieceLen_cases a rem
  omega

/-- A piece lies within the access and within the 8-byte unit of its address. -/
theorem pieceLen_le_min (a : Nat) {rem : Nat} (h : 0 < rem) : pieceLen a rem ≤ min rem (8 - a % 8) := by
  have := pieceLen_cases a rem
  omega

theorem min_lt_of_pieceLen_lt {a rem n : Nat} (hn : n ∈ [2, 4, 8]) (hlt : pieceLen a rem < n) (hdvd : a % n = 0) :
    min rem (8 - a % 8) < n := by
  have := pieceLen_cases a rem
  obtain rfl | rfl | rfl : n = 2 ∨ n = 4 ∨ n = 8 := by simpa using hn
  all_goals omega

/-! ### All pieces -/

/-- Each piece of a run is the one that its address and what is left of the run give. -/
theorem eq_pieceLen_of_mem_piecesFrom {a fuel off rem : Nat} {p : Nat × Nat} (hp : p ∈ piecesFrom a fuel off rem) :
    p.1 < off + rem ∧ p.2 = pieceLen (a + p.1) (off + rem - p.1) := by
  induction fuel generalizing off rem with
  | zero => exact absurd hp List.not_mem_nil
  | succ fuel ih =>
    unfold piecesFrom at hp
    split at hp
    · exact absurd hp List.not_mem_nil
    · next hrem =>
      have hle := pieceLen_le_min (a + off) (Nat.pos_of_ne_zero hrem)
      obtain rfl | hp := List.mem_cons.1 hp
      · exact ⟨by omega, by rw [Nat.add_sub_cancel_left]⟩
      · have hend : off + pieceLen (a + off) rem + (rem - pieceLen (a + off) rem) = off + rem := by omega
        simpa only [hend] using ih hp

/-- The pieces of a run follow one another from its first byte to its last; every piece has a byte, so that the number of
bytes is fuel enough. -/
theorem flatMap_piecesFrom (a : Nat) {fuel off rem : Nat} (h : rem ≤ fuel) :
    (piecesFrom a fuel off rem).flatMap (fun p => (List.range p.2).map (fun k => p.1 + k)) = List.range' off rem := by
  induction fuel generalizing off rem with
  | zero => rw [Nat.le_zero.1 h]; rfl
  | succ fuel ih =>
    unfold piecesFrom
    split
    · next hrem => rw [hrem]; rfl
    · next hrem =>
      have hpos := pieceLen_pos (a + off) rem
      have hle := pieceLen_le_min (a + off) (Nat.pos_of_ne_zero hrem)
      rw [List.flatMap_cons, ih (by omega), ← List.range'_eq_map_range, List.range'_append_1]
      congr 1
      omega

@[simp] theorem piecesOf_false (a len : Nat) : piecesOf a len false = piecesFrom a len 0 len := rfl

@[simp] theorem piecesOf_true (a len : Nat) : piecesOf a len true = [(0, len)] := rfl

theorem mem_piecesOf_false {a len : Nat} {p : Nat × Nat} (hp : p ∈ piecesOf a len false) :
    p.1 < len ∧ p.2 = pieceLen (a + p.1) (len - p.1) := by
  simpa only [Nat.zero_add] using eq_pieceLen_of_mem_piecesFrom hp

/-- Settles O47: each piece is the largest at its address, and the pieces make up the run of the access. -/
theorem accessPieces : Obligations.AccessPieces := by
  unfold Obligations.AccessPieces
  refine ⟨fun a len => ⟨?_, fun p hp => ?_, piecesOf_true a len⟩, by decide, by decide, by decide⟩
  · rw [piecesOf_false, flatMap_piecesFrom a (Nat.le_refl len), List.range_eq_range']
  · obtain ⟨hlt, hlen⟩ := mem_piecesOf_false hp
    have hpos := pieceLen_pos (a + p.1) (len - p.1)
    have hle := pieceLen_le_min (a + p.1) (Nat.sub_pos_of_lt hlt)
    rw [hlen]
    exact ⟨pieceLen_mem _ _, mod_pieceLen _ _, by omega, by omega, fun n hn => min_lt_of_pieceLen_lt hn⟩

/-! ### Bytes -/

/-- Settles O12: writing the run byte by byte leaves what the last write to each location has put there. -/
theorem readAfterWriteOfBytes : Obligations.ReadAfterWriteOfBytes := by
  unfold Obligations.ReadAfterWriteOfBytes
  exact fun s loc bs => byte_setBytes bs s loc

end Sys2Proof.Proofs

/-! SUPPORT. The machine after package reset: every component is empty, and every hub register reads its reset value
(R327, R358, R397, R435, R439). -/

namespace Sys2Proof.Proofs

open Sys2Proof Sys2Proof.Machine

/-! ### Banks of registers -/

theorem inBank_eq_false_of_le {off base stride n : Nat} (h : base + stride * n ≤ off) :
    inBank off base stride n = false := by
  simp [inBank, Nat.not_lt.2 h]

theorem inBank_of_lt (base : Nat) {stride n i : Nat} (hs : 0 < stride) (hi : i < n) :
    inBank (base + stride * i) base stride n = true := by
  have hlt : stride * i < stride * n := Nat.mul_lt_mul_of_pos_left hi hs
  simp [inBank, hlt]

/-! ### Reset values of the hub registers -/

/-- No register is written before reset ends. -/
theorem reg_reset (off : Nat) : State.reset.reg off = hubReset off := rfl

theorem field_reset (off lo n : Nat) : State.reset.field off lo n = (hubReset off).toNat / 2 ^ lo % 2 ^ n := rfl

theorem hubReset_tencfg {t : Nat} (ht : t < 64) : hubReset (regTencfg t) = 1 :=
  if_pos (inBank_of_lt schBase (by decide) ht)

/-- The aging limits follow the bank of TENCFG. -/
theorem hubReset_agel {l : Nat} (hl : l < 8) : hubReset (regAgel l) = 0xF4240 := by
  have htencfg : inBank (regAgel l) (regTencfg 0) 8 64 = false := inBank_eq_false_of_le (Nat.le_add_right _ _)
  have hagel : inBank (regAgel l) (regAgel 0) 8 8 = true := inBank_of_lt (schBase + 0x200) (by decide) hl
  simp [hubReset, htencfg, hagel]

/-- The islands' registers stand above every other register that does not reset to 0, but for the monitors'. -/
theorem hubReset_islctl {n : Nat} (hn : n < 128) : hubReset (regIslctl n) = BitVec.ofNat 64 (70 * 2 ^ 16 + 70) := by
  have hle : islBase ≤ regIslctl n := Nat.le_add_right _ _
  have hbelow : ∀ {base count}, base + 8 * count ≤ islBase → inBank (regIslctl n) base 8 count = false :=
    fun h => inBank_eq_false_of_le (h.trans hle)
  have hne : ∀ {off}, off < islBase → regIslctl n ≠ off := fun h => (h.trans_le hle).ne'
  have hisl : inBank (regIslctl n) islBase 8 128 = true := inBank_of_lt islBase (by decide) hn
  have htencfg : inBank (regIslctl n) (regTencfg 0) 8 64 = false := hbelow (by decide)
  have hagel : inBank (regIslctl n) (regAgel 0) 8 8 = false := hbelow (by decide)
  have hpredl : regIslctl n ≠ regPredl := hne (by decide)
  have hsrvdl : regIslctl n ≠ regSrvdl := hne (by decide)
  have hfbloss : regIslctl n ≠ regFbloss := hne (by decide)
  simp [hubReset, htencfg, hagel, hpredl, hsrvdl, hfbloss, hisl]

/-- Below the scheduler's registers everything resets to 0. -/
theorem hubReset_of_lt_schBase {off : Nat} (h : off < schBase) : hubReset off = 0 := by
  have habove : ∀ {base} stride count, schBase ≤ base → inBank off base stride count = false :=
    fun stride count hb => inBank_eq_false_of_lt stride count (h.trans_le hb)
  have hne : ∀ {reg}, schBase ≤ reg → off ≠ reg := fun hr => (h.trans_le hr).ne
  have htencfg : inBank off (regTencfg 0) 8 64 = false := habove _ _ (by decide)
  have hagel : inBank off (regAgel 0) 8 8 = false := habove _ _ (by decide)
  have hpredl : off ≠ regPredl := hne (by decide)
  have hsrvdl : off ≠ regSrvdl := hne (by decide)
  have hfbloss : off ≠ regFbloss := hne (by decide)
  have hisl : inBank off islBase 8 128 = false := habove _ _ (by decide)
  have hmon : inBank off (monBase + 0x08) 0x100 32 = false := habove _ _ (by decide)
  simp [hubReset, htencfg, hagel, hpredl, hsrvdl, hfbloss, hisl, hmon]

theorem diest_lt_schBase {d : Nat} (hd : d < 23) : regDiest d < schBase := by
  unfold regDiest mgBase schBase
  omega

theorem dieState_reset {d : Nat} (hd : d < 23) : State.reset.dieState d = 0 := by
  unfold State.dieState
  rw [field_reset, hubReset_of_lt_schBase (diest_lt_schBase hd)]
  rfl

/-- CUR and FREQ read 70, and the two fields between them, GATE and STATE, read 0 (R439). -/
theorem islctl_fields_reset {n : Nat} (hn : n < 128) :
    State.reset.field (regIslctl n) 16 7 = 70 ∧ State.reset.field (regIslctl n) 0 7 = 70
    ∧ State.reset.field (regIslctl n) 15 1 = 0 ∧ State.reset.field (regIslctl n) 13 2 = 0 := by
  simp only [field_reset, hubReset_islctl hn]
  decide

/-- A byte that nothing has written reads 0, in device memory as in a scratchpad (log entry 1). -/
theorem byte_reset (a : Nat) : State.reset.byte a = 0 := by
  unfold State.byte
  split <;> rfl

/-- Settles O9: the components are empty, and the hub registers read their reset values. -/
theorem resetState : Obligations.ResetState := by
  unfold Obligations.ResetState
  exact ⟨rfl, rfl, rfl, rfl, rfl, rfl, rfl, rfl, rfl, rfl, rfl, rfl, rfl, rfl, byte_reset, fun _ => hubReset_tencfg,
    fun _ => hubReset_agel, by decide, by decide, by decide, fun _ => islctl_fields_reset, fun _ => dieState_reset,
    fun _ => rfl⟩

end Sys2Proof.Proofs

/-! SUPPORT. Taking a precise condition (R340 to R344, R347 to R349): the path that it goes, a handler's entry, and the fields
of a trap header and of a thread shadow read back. -/

namespace Sys2Proof.Proofs

open Sys2Proof Sys2Proof.Machine Sys2Proof.Laws

/-! ### Fields of a layout -/

theorem natAt_one (bs : List Byte) (off : Nat) : natAt bs off 1 = (bs.getD off 0).toNat := by
  simp [natAt, bytesAt, leNat]

/-- A word fits bytes of its width, or of a greater one. -/
theorem toNat_mod_bytes {w n : Nat} (v : BitVec w) (h : w ≤ 8 * n) : v.toNat % 256 ^ n = v.toNat := by
  apply Nat.mod_eq_of_lt
  calc v.toNat < 2 ^ w := v.isLt
    _ ≤ 2 ^ (8 * n) := Nat.pow_le_pow_right (by decide) h
    _ = 256 ^ n := by rw [Nat.pow_mul]

theorem natAt_leBytes_toNat {w n : Nat} (v : BitVec w) (h : w ≤ 8 * n) : natAt (leBytes n v.toNat) 0 n = v.toNat := by
  rw [natAt_leBytes, toNat_mod_bytes v h]

theorem natAt_table_toNat {m k : Nat} (f : Nat → DWord) (h : k < m) :
    natAt ((List.range m).flatMap (fun k => leBytes 8 (f k).toNat)) (8 * k) 8 = (f k).toNat := by
  rw [natAt_table 8 m (fun k => (f k).toNat) h, toNat_mod_bytes _ (by decide)]

theorem leBytes_zero (n : Nat) : leBytes n 0 = List.replicate n 0 := by
  induction n with
  | zero => rfl
  | succ n ih => rw [leBytes, Nat.zero_div, ih]; rfl

/-! ### The trap header (R348) -/

/-- The bundle that the header shows: none that was not fetched. -/
def shownBundle (q : Issue) (c : Cond) : BitVec 384 := if c.cause = 1 ∨ c.cause = 2 then 0 else q.bundle

theorem headerBytes_bundle (q : Issue) (c : Cond) :
    (if c.cause = 1 ∨ c.cause = 2 then List.replicate 48 0 else leBytes 48 q.bundle.toNat)
      = leBytes 48 (shownBundle q c).toNat := by
  unfold shownBundle
  split
  · exact (leBytes_zero 48).symm.trans (congrArg (leBytes 48) BitVec.toNat_zero.symm)
  · rfl

/-- Each field of the header: what stands before it is skipped, what stands behind it is not read. -/
theorem header_fields (s : State) (q : Issue) (c : Cond) :
    let b := headerBytes s q c
    natAt b 0 8 = q.pc.toNat ∧ natAt b 8 48 = (shownBundle q c).toNat
    ∧ b.getD 0x38 0 = BitVec.ofNat 8 c.cause ∧ b.getD 0x39 0 = BitVec.ofNat 8 c.ident
    ∧ b.getD 0x3A 0 = BitVec.ofNat 8 c.reason ∧ b.getD 0x3B 0 = (if c.write then 1 else 0)
    ∧ natAt b 0x3C 4 = (maskOf (q.lanes.map (fun l => l.1))).toNat ∧ natAt b 0x40 4 = (maskOf c.lanes).toNat
    ∧ natAt b 0x48 8 = c.addr.toNat ∧ natAt b 0x50 8 = c.info.toNat := by
  intro b
  simp only [b, headerBytes, headerBytes_bundle, List.append_assoc]
  refine ⟨?_, ?_, ?_, ?_, ?_, ?_, ?_, ?_, ?_, ?_⟩
  all_goals
    simp (disch := simp) only [natAt_right, natAt_left, List.getD_append_right, leBytes_length, List.length_cons,
      List.length_nil, Nat.reduceAdd, Nat.reduceSub, natAt_leBytes_toNat]
  all_goals rfl

/-! ### The thread shadow (R344, R349) -/

theorem tableBytes8_length (m : Nat) (f : Nat → DWord) :
    ((List.range m).flatMap (fun k => leBytes 8 (f k).toNat)).length = 8 * m :=
  tableBytes_length 8 m (fun k => (f k).toNat)

section Shadow

variable (t : Thread) (pc : DWord) (h : Bool) (w : Blocked)

/-- The fields behind the tables of x and b registers. -/
def shadowTail : List Byte :=
  leBytes 8 t.loop.ls0.toNat ++ (leBytes 8 t.loop.ls1.toNat ++ (leBytes 4 t.loop.lc0.toNat ++
  (leBytes 4 t.loop.lc1.toNat ++ ([t.loop.ec, t.loop.rrb.zeroExtend 8, t.loop.rot.zeroExtend 8,
    BitVec.ofNat 8 ((if h then 1 else 0) + 2 * w.code)] ++ (leBytes 2 (t.p ||| 1).toNat ++ (leBytes 2 t.depth ++
  (leBytes 8 t.status.toNat ++ (leBytes 8 t.amax.toNat ++ (leBytes 8 t.rctr.toNat ++ (leBytes 4 t.satcnt.toNat ++
  leBytes 4 0))))))))))

theorem shadowBytes_eq : shadowBytes t pc h w =
    leBytes 8 pc.toNat ++ ((List.range 15).flatMap (fun k => leBytes 8 (t.readX (k + 1)).toNat) ++
      ((List.range 8).flatMap (fun k => leBytes 8 (t.readB k).toNat) ++ shadowTail t h w)) := by
  simp only [shadowBytes, shadowTail, List.append_assoc]

theorem shadow_x {k : Nat} (hk : k < 15) : natAt (shadowBytes t pc h w) (8 + 8 * k) 8 = (t.readX (k + 1)).toNat := by
  rw [shadowBytes_eq, natAt_right (by simp), leBytes_length, Nat.add_sub_cancel_left,
    natAt_left (by rw [tableBytes8_length]; omega)]
  exact natAt_table_toNat (fun k => t.readX (k + 1)) hk

theorem shadow_b {k : Nat} (hk : k < 8) : natAt (shadowBytes t pc h w) (0x80 + 8 * k) 8 = (t.readB k).toNat := by
  rw [shadowBytes_eq, natAt_right (by rw [leBytes_length]; omega),
    natAt_right (by rw [tableBytes8_length, leBytes_length]; omega), tableBytes8_length, leBytes_length,
    show 0x80 + 8 * k - 8 - 8 * 15 = 8 * k by omega, natAt_left (by rw [tableBytes8_length]; omega)]
  exact natAt_table_toNat t.readB hk

theorem shadow_fields :
    let b := shadowBytes t pc h w
    natAt b 0xC0 8 = t.loop.ls0.toNat ∧ natAt b 0xC8 8 = t.loop.ls1.toNat ∧ natAt b 0xD0 4 = t.loop.lc0.toNat
    ∧ natAt b 0xD4 4 = t.loop.lc1.toNat ∧ b.getD 0xD8 0 = t.loop.ec ∧ b.getD 0xD9 0 = t.loop.rrb.zeroExtend 8
    ∧ b.getD 0xDA 0 = t.loop.rot.zeroExtend 8 ∧ natAt b 0xDC 2 = (t.p ||| 1).toNat ∧ b.getD 0xE0 0 = t.status
    ∧ natAt b 0xE8 8 = t.amax.toNat ∧ natAt b 0xF0 8 = t.rctr.toNat ∧ natAt b 0xF8 4 = t.satcnt.toNat := by
  intro b
  simp only [b, shadowBytes_eq, shadowTail]
  refine ⟨?_, ?_, ?_, ?_, ?_, ?_, ?_, ?_, ?_, ?_, ?_, ?_⟩
  all_goals
    simp (disch := simp) only [natAt_right, natAt_left, List.getD_append_right, leBytes_length, tableBytes8_length,
      List.length_cons, List.length_nil, Nat.reduceAdd, Nat.reduceMul, Nat.reduceSub, natAt_leBytes_toNat]
  · rfl
  · rfl
  · rfl
  · exact (BitVec.ofNat_toNat 8 t.status).trans (BitVec.setWidth_eq _)

end Shadow

/-! ### Reloading a shadow -/

/-- Writes to different keys one after the other leave at each what was written to it. -/
theorem spGet_foldl_spSet {α : Type} [DecidableEq α] (d : Nat → α) {key : Nat → Nat} (hkey : Function.Injective key)
    (f : Nat → α) (m : Sparse α) {k n : Nat} (hk : k < n) :
    spGet d ((List.range n).foldl (fun m k => spSet d m (key k) (f k)) m) (key k) = f k := by
  induction n with
  | zero => exact absurd hk (Nat.not_lt_zero k)
  | succ n ih =>
    rw [List.range_succ, List.foldl_append, List.foldl_cons, List.foldl_nil, spGet_spSet]
    by_cases hkn : k = n
    · rw [if_pos (congrArg key hkn), hkn]
    · rw [if_neg (hkey.ne hkn), ih (by omega)]

theorem foldl_writeX (f : Nat → DWord) (t : Thread) (n : Nat) :
    ∃ x, (List.range n).foldl (fun t k => t.writeX (k + 1) (f k)) t = { t with x := x }
      ∧ ∀ k, k < n → spGet (fun _ => 0) x (k + 1) = f k :=
  ⟨_, List.foldl_hom (fun x => { t with x := x }) (fun _ _ => rfl),
    fun _ => spGet_foldl_spSet _ (key := fun k => k + 1) (add_left_injective 1) f t.x⟩

theorem foldl_writeB (f : Nat → DWord) (t : Thread) (n : Nat) :
    ∃ b, (List.range n).foldl (fun t k => t.writeB k (f k)) t = { t with b := b }
      ∧ ∀ k, k < n → spGet (fun _ => 0) b k = f k :=
  ⟨_, List.foldl_hom (fun b => { t with b := b }) (fun _ _ => rfl),
    fun _ => spGet_foldl_spSet _ (key := fun k => k) Function.injective_id f t.b⟩

/-- What a reload reads, field by field: it leaves frames and entries (R344). -/
theorem reload_fields (v : Thread) (bs : List Byte) : let u := v.reload bs
    (∀ k, k < 15 → u.readX (k + 1) = BitVec.ofNat 64 (natAt bs (8 + 8 * k) 8))
    ∧ (∀ k, k < 8 → u.readB k = BitVec.ofNat 64 (natAt bs (0x80 + 8 * k) 8))
    ∧ u.loop = ⟨BitVec.ofNat 32 (natAt bs 0xD0 4), BitVec.ofNat 32 (natAt bs 0xD4 4), bs.getD 0xD8 0,
        (bs.getD 0xD9 0).truncate 6, (bs.getD 0xDA 0).truncate 3, BitVec.ofNat 64 (natAt bs 0xC0 8),
        BitVec.ofNat 64 (natAt bs 0xC8 8)⟩
    ∧ u.p = BitVec.ofNat 16 (natAt bs 0xDC 2 / 2 * 2) ∧ u.status = bs.getD 0xE0 0
    ∧ u.amax = BitVec.ofNat 33 (natAt bs 0xE8 8) &&& 0x17FFFFFFF ∧ u.rctr = BitVec.ofNat 64 (natAt bs 0xF0 8)
    ∧ u.satcnt = BitVec.ofNat 32 (natAt bs 0xF8 4) ∧ u.frames = v.frames ∧ u.entries = v.entries := by
  obtain ⟨x, hx, hkx⟩ := foldl_writeX (fun k => BitVec.ofNat 64 (natAt bs (8 + 8 * k) 8)) v 15
  obtain ⟨b, hb, hkb⟩ := foldl_writeB (fun k => BitVec.ofNat 64 (natAt bs (0x80 + 8 * k) 8)) { v with x := x } 8
  simp only [Thread.reload, hx, hb, and_self, and_true]
  exact ⟨hkx, hkb⟩

theorem ofNat_toNat_self {n : Nat} (v : BitVec n) : BitVec.ofNat n v.toNat = v :=
  (BitVec.ofNat_toNat n v).trans (BitVec.setWidth_eq v)

/-- p0 stands as 1 in a shadow and is dropped by a reload; every other predicate comes back. -/
theorem getLsbD_reloaded_p (p : BitVec 16) {k : Nat} (hk : 1 ≤ k) :
    (BitVec.ofNat 16 ((p ||| 1).toNat / 2 * 2)).getLsbD k = p.getLsbD k := by
  obtain ⟨k, rfl⟩ : ∃ j, k = j + 1 := ⟨k - 1, by omega⟩
  have hbit : (p ||| 1).getLsbD (k + 1) = p.getLsbD (k + 1) := by simp
  rw [BitVec.getLsbD_ofNat, Nat.testBit_succ, Nat.mul_div_cancel _ (by decide), ← Nat.testBit_succ, ← BitVec.getLsbD,
    hbit]
  by_cases h : k + 1 < 16
  · simp [h]
  · simp [h, BitVec.getLsbD_of_ge p (k + 1) (by omega)]

/-- What a reload takes from the shadow of a thread is what stood in the thread. -/
theorem reload_shadowBytes (t v : Thread) (pc : DWord) (h : Bool) (w : Blocked) (ha : t.amax &&& 0x17FFFFFFF = t.amax) :
    let u := v.reload (shadowBytes t pc h w)
    (∀ k, k < 16 → u.readX k = t.readX k) ∧ (∀ k, k < 8 → u.readB k = t.readB k) ∧ u.loop = t.loop
    ∧ (∀ k, 1 ≤ k → u.p.getLsbD k = t.p.getLsbD k) ∧ u.status = t.status ∧ u.amax = t.amax ∧ u.rctr = t.rctr
    ∧ u.satcnt = t.satcnt ∧ u.frames = v.frames ∧ u.entries = v.entries := by
  obtain ⟨hls0, hls1, hlc0, hlc1, hec, hrrb, hrot, hp, hstatus, hamax, hrctr, hsatcnt⟩ := shadow_fields t pc h w
  obtain ⟨hux, hub, huloop, hup, hustatus, huamax, hurctr, husatcnt, huframes⟩ := reload_fields v (shadowBytes t pc h w)
  generalize v.reload (shadowBytes t pc h w) = u at *
  refine ⟨fun k hk => ?_, fun k hk => ?_, ?_, fun k hk => ?_, hustatus.trans hstatus, ?_, ?_, ?_, huframes⟩
  · cases k with
    | zero => rfl
    | succ k => rw [hux k (by omega), shadow_x t pc h w (by omega), ofNat_toNat_self]
  · rw [hub k hk, shadow_b t pc h w hk, ofNat_toNat_self]
  · rw [huloop, hls0, hls1, hlc0, hlc1, hec, hrrb, hrot]
    simp
  · rw [hup, hp, getLsbD_reloaded_p t.p hk]
  · rw [huamax, hamax, ofNat_toNat_self, ha]
  · rw [hurctr, hrctr, ofNat_toNat_self]
  · rw [husatcnt, hsatcnt, ofNat_toNat_self]

/-! ### The path of a condition -/

section Paths

variable (s : State) (q : Issue) (c : Cond)

/-- A condition goes to the page path, and to the handler once its request was refused (R340). -/
theorem takeCond_paged (hc : c.cause = 0x01 ∨ c.cause = 0x0C) (hr : c.reason = 0) (hs : isService q.group = false) :
    s.takeCond q c = if s.refusedRun q.run (s.group q.group).tenant (c.addr.toNat / 4096) c.kind = true then
        s.handlerBound q { c with reason := 2 }
      else s.holdPage q.run (s.group q.group).tenant c.addr c.kind :=
  if_pos ⟨hc, hr, hs⟩

theorem takeCond_unpaged (h : ¬ ((c.cause = 0x01 ∨ c.cause = 0x0C) ∧ c.reason = 0)) :
    s.takeCond q c = s.handlerBound q c :=
  if_neg fun ⟨hc, hr, _⟩ => h ⟨hc, hr⟩

/-- A condition in a handler, and one that no handler can take, end the launch (R341, R343). -/
theorem handlerBound_fatal (hs : isService q.group = false)
    (h : inHandler s q.lanes = true ∨ (s.group q.group).kernel.handler = none ∨ s.poolOn (s.group q.group).tenant = false) :
    s.handlerBound q c = s.fatalCond q c := by
  unfold State.handlerBound
  rw [hs, if_neg Bool.false_ne_true]
  split
  · rfl
  · next hi =>
    obtain hh | hh := h.resolve_left hi
    · simp only [hh]
    · simp only [hh, Bool.not_false, if_true]
      split <;> rfl

theorem launch_fatalCond {l : Launch} (hl : l ∈ s.launches) (hid : l.id = (s.group q.group).launch)
    (hst : l.status = none) :
    { l with status := some 0x07, badGid := (s.group q.group).gid, detail := trapDetail c q.pc }
      ∈ (s.fatalCond q c).launches := by
  refine List.mem_map.2 ⟨l, hl, ?_⟩
  simp only [if_pos hid, hst]

/-- Once nothing is awaited and every byte of header and shadows can be written, the handler is entered (R342). -/
theorem handlerBound_enters {r : Run} {h : DWord} {fp : Nat} {ws : List (Nat × Byte)} (hs : isService q.group = false)
    (hi : inHandler s q.lanes = false) (hr : s.findRun q.run = some r) (hh : (s.group q.group).kernel.handler = some h)
    (hfp : (s.group q.group).fixedPart = some fp) (hp : s.poolOn (s.group q.group).tenant = true)
    (ha : r.awaitsAny = none) (hws : s.poolLocs (s.group q.group).tenant (entryWrites s q c) = .ok ws)
    (hl : ws.findSome? (fun w => s.locHold true w.1) = none)
    (hm : (entryWrites s q c).findSome? (fun w => s.markWaits q.group true w.1) = none) (hc : c.cause ≠ 0x11) :
    s.handlerBound q c = s.enterHandler q c r h (shownBundle q c) ws := by
  simp only [State.handlerBound, hs, hi, hr, hh, hfp, hp, ha, hws, hl, hm, if_neg hc, shownBundle, Bool.false_eq_true,
    if_false, Bool.not_true, Option.orElse_none, Option.map_none]

end Paths

/-! ### A handler's entry (R342) -/

section Entry

variable (s : State) (q : Issue) (c : Cond)

/-- The state with the header and the shadows written, and the pages of their addresses marked. -/
def written (ws : List (Nat × Byte)) : State :=
  (entryWrites s q c).foldl (fun z w => z.markRange q.group true w.1 w.2.length) (ws.foldl (fun z w => z.put w.1 [w.2]) s)

theorem memOnly_written (ws : List (Nat × Byte)) : MemOnly s (written s q c ws) :=
  (MemOnly.foldl (fun _ _ => memOnly_put _ _ _) _ _).trans (MemOnly.foldl (fun _ _ => memOnly_markRange _ _ _ _ _) _ _)

theorem ids_written (ws : List (Nat × Byte)) : (written s q c ws).ids = s.ids := by
  obtain ⟨_, _, _, _, _, _, h⟩ := memOnly_written s q c ws
  rw [h]

theorem traps_written (ws : List (Nat × Byte)) : (written s q c ws).traps = s.traps := by
  obtain ⟨_, _, _, _, _, _, h⟩ := memOnly_written s q c ws
  rw [h]

/-- The address of the header: that of the least thread index among the trapped lanes (R347). -/
def entryHeader : DWord := headerAddr (s.group q.group)
  (((leastBy (fun l => (s.thread l.2).tid) q.lanes).map (fun l => (s.thread l.2).tid)).getD 0)

/-- The results of a run that its trap holds: those for its own threads. -/
def heldFlights (lanes : List (Nat × Nat)) (fs : List Flight) : List Flight :=
  (fs.map (fun f => { f with vals := f.vals.filter (fun v => lanes.any (fun l => l.2 == v.1)) })).filter
    (fun f => !f.vals.isEmpty)

theorem filterMap_held (lanes : List (Nat × Nat)) (fs : List Flight) :
    fs.filterMap (fun f =>
      let vs := f.vals.filter (fun v => lanes.any (fun l => l.2 == v.1))
      if vs.isEmpty then none else some { f with vals := vs }) = heldFlights lanes fs := by
  unfold heldFlights
  induction fs with
  | nil => rfl
  | cons f fs ih =>
    simp only [List.filterMap_cons, List.map_cons, List.filter_cons, ih]
    cases (f.vals.filter (fun v => lanes.any (fun l => l.2 == v.1))).isEmpty <;> rfl

/-- The record of the trap. -/
def trapRecord (r : Run) (b : BitVec 384) : TrapRec :=
  ⟨s.ids, q.group, q.core, q.lanes, q.pc, q.count, heldFlights q.lanes r.flights, entryHeader s q, b, q.seqPc⟩

/-- What an entry makes of a trapped thread. -/
def trapped (t : Thread) : Thread := t.enterHandler s.ids (entryHeader s q) (shadowAddr (s.group q.group) t.tid)

/-- The state with the trap recorded and the trapped threads changed, before their run gives way to the handler's. -/
def trappedState (r : Run) (b : BitVec 384) (ws : List (Nat × Byte)) : State :=
  q.lanes.foldl (fun z l => z.modThread l.2 (trapped s q))
    { (written s q c ws).nextId with traps := s.traps ++ [trapRecord s q r b] }

theorem enterHandler_eq (r : Run) (h : DWord) (b : BitVec 384) (ws : List (Nat × Byte)) :
    s.enterHandler q c r h b ws = ((((trappedState s q c r b ws).leaveRun q.run q.lanes).endWait q.core q.run).startRun
      q.core q.group q.lanes h 0 []).leaveIssue := by
  unfold trappedState trapped trapRecord
  rw [← filterMap_held, ← traps_written s q c ws, ← ids_written s q c ws]
  rfl

/-- A run that gives way to one of the same lanes leaves everything but the runs and what holds them back. -/
theorem restart_eq (z : State) (run core group : Nat) (lanes : List (Nat × Nat)) (pc : DWord) :
    ∃ rs n ids refused cores, (((z.leaveRun run lanes).endWait core run).startRun core group lanes pc 0 []).leaveIssue
        = { z with runs := rs ++ [n], ids := ids, refused := refused, cores := cores, issue := none }
      ∧ n.core = core ∧ n.group = group ∧ n.lanes = lanes ∧ n.pc = pc ∧ n.count = 0 ∧ n.flights = [] ∧ n.ways = none
      ∧ n.held = none := by
  obtain ⟨rs, h⟩ := leaveRun_eq z run lanes
  rw [h]
  exact ⟨_, _, _, _, _, rfl, rfl, rfl, rfl, rfl, rfl, rfl, rfl, rfl⟩

/-- What a handler's entry does to the machine: a run at the handler, a trap record, the bytes written; of the threads it
changes those that are trapped, each named once. -/
theorem enterHandler_frame (r : Run) (h : DWord) (b : BitVec 384) (ws : List (Nat × Byte))
    (hn : (q.lanes.map (fun l => l.2)).Nodup) :
    let t := s.enterHandler q c r h b ws
    (∃ n ∈ t.runs, n.core = q.core ∧ n.group = q.group ∧ n.lanes = q.lanes ∧ n.pc = h ∧ n.count = 0 ∧ n.flights = []
      ∧ n.ways = none ∧ n.held = none)
    ∧ t.traps = s.traps ++ [trapRecord s q r b] ∧ t.issue = none ∧ t.groups = s.groups ∧ t.mem = (written s q c ws).mem
    ∧ (∀ l ∈ q.lanes, t.thread l.2 = trapped s q (s.thread l.2))
    ∧ ∀ k, (∀ l ∈ q.lanes, l.2 ≠ k) → t.thread k = s.thread k := by
  intro t
  obtain ⟨rs, n, ids, refused, cores, ht, hrun⟩ := restart_eq (trappedState s q c r b ws) q.run q.core q.group q.lanes h
  have ht : t = _ := (enterHandler_eq s q c r h b ws).trans ht
  have hthread : ∀ k, t.thread k = (trappedState s q c r b ws).thread k := fun k => by rw [ht]; rfl
  have hwritten : ∀ k, (written s q c ws).thread k = s.thread k := fun k =>
    congrArg (spGet _ · k) (memOnly_written s q c ws).threads
  obtain ⟨ts, hts⟩ := foldl_modThread_eq (fun l : Nat × Nat => l.2) (fun _ => trapped s q) q.lanes
    { (written s q c ws).nextId with traps := s.traps ++ [trapRecord s q r b] }
  have hstate : trappedState s q c r b ws = _ := hts
  refine ⟨⟨n, ?_, hrun⟩, ?_, ?_, ?_, ?_, fun l hl => ?_, fun k hk => ?_⟩
  · rw [ht]
    exact List.mem_append_right _ (List.mem_singleton_self n)
  · rw [ht, hstate]
  · rw [ht]
  · rw [ht, hstate]
    exact (memOnly_written s q c ws).groups
  · rw [ht, hstate]
    rfl
  · rw [hthread, ← hwritten]
    exact foldl_modThread_mem (fun l : Nat × Nat => l.2) (fun _ => trapped s q) q.lanes _ hn hl
  · rw [hthread, ← hwritten]
    exact foldl_modThread_other (fun l : Nat × Nat => l.2) (fun _ => trapped s q) q.lanes _ hk

/-- The registers of a trapped thread (R342). -/
theorem trapped_registers (v : Thread) : let u := trapped s q v
    u.readX 1 = entryHeader s q ∧ u.readX 2 = shadowAddr (s.group q.group) v.tid
    ∧ (∀ k, 3 ≤ k → u.readX k = v.readX k) ∧ (∀ k, k < 8 → u.p.getLsbD k = v.p.getLsbD k)
    ∧ (∀ k, 8 ≤ k → u.p.getLsbD k = false) := by
  intro u
  have hx : ∀ k, u.readX k = ((v.writeX 1 (entryHeader s q)).writeX 2 (shadowAddr (s.group q.group) v.tid)).readX k :=
    fun _ => rfl
  have hp : u.p = (0 : BitVec 8) ++ v.p.truncate 8 := rfl
  refine ⟨?_, ?_, fun k hk => ?_, fun k hk => ?_, fun k hk => ?_⟩
  · simp [hx, readX_writeX]
  · simp [hx, readX_writeX]
  · rw [hx, readX_writeX, readX_writeX, if_neg (by omega), if_neg (by omega)]
  · rw [hp, BitVec.getLsbD_append, if_pos hk, BitVec.truncate, BitVec.getLsbD_setWidth]
    simp [hk]
  · rw [hp, BitVec.getLsbD_append, if_neg (by omega)]
    exact BitVec.getLsbD_zero

end Entry

theorem headerAddr_eq {g : Group} {fp : Nat} (h : g.fixedPart = some fp) (tid : Nat) :
    headerAddr g tid = BitVec.ofNat 64 (fp + 256 * tid) := by
  rw [headerAddr, h, Option.getD_some]

theorem shadowAddr_eq {g : Group} {fp : Nat} (h : g.fixedPart = some fp) (tid : Nat) :
    shadowAddr g tid = BitVec.ofNat 64 (fp + 256 * (g.kernel.gsize + tid)) := by
  rw [shadowAddr, h, Option.getD_some]

/-- Settles O56: the path, the entry from the state with header and shadows written, the fields of the header, and those of
a shadow as a reload takes them. -/
theorem handlerEntry : Obligations.HandlerEntry := by
  unfold Obligations.HandlerEntry
  refine ⟨fun s q c => ⟨fun hc hr hs => ?_, takeCond_unpaged s q c⟩, fun s q c hs h => ?_,
    fun s q c r h fp ws hs hi hr hh hfp hp ha hws hl hm hc hn => ?_, fun s q c hcause hident hreason => ?_,
    fun t v pc h w ha => reload_shadowBytes t v pc h w ha⟩
  · rw [takeCond_paged s q c hc hr hs]
    exact ⟨fun h => if_neg (by rw [h]; decide), fun h => if_pos h⟩
  · rw [handlerBound_fatal s q c hs h]
    exact ⟨rfl, rfl, fun l => launch_fatalCond s q c⟩
  · have header_eq : entryHeader s q = _ := headerAddr_eq hfp _
    rw [handlerBound_enters s q c hs hi hr hh hfp hp ha hws hl hm hc]
    obtain ⟨hrun, htraps, hissue, hgroups, hmem, hthread, hother⟩ := enterHandler_frame s q c r h (shownBundle q c) ws hn
    refine ⟨hrun, ?_, hissue, hgroups, hmem, fun l hl => ?_, hother⟩
    · rw [htraps, trapRecord, header_eq]
      rfl
    · rw [hthread l hl]
      obtain ⟨h1, h2, hx, hlow, hhigh⟩ := trapped_registers s q (s.thread l.2)
      exact ⟨h1.trans header_eq, h2.trans (shadowAddr_eq hfp _), hx, rfl, hlow, hhigh, rfl, rfl, rfl, rfl, rfl, rfl, rfl,
        rfl⟩
  · obtain ⟨hpc, hbundle, hb38, hb39, hb3A, hb3B, hmask, hlanes, haddr, hinfo⟩ := header_fields s q c
    refine ⟨hpc, ?_, ?_, ?_, ?_, ?_, hmask, hlanes, haddr, hinfo⟩
    · rw [hbundle, shownBundle, apply_ite BitVec.toNat]
      exact congrArg (fun n => if c.cause = 1 ∨ c.cause = 2 then n else q.bundle.toNat) BitVec.toNat_zero
    · rw [natAt_one, hb38, BitVec.toNat_ofNat, Nat.mod_eq_of_lt hcause]
    · rw [natAt_one, hb39, BitVec.toNat_ofNat, Nat.mod_eq_of_lt hident]
    · rw [natAt_one, hb3A, BitVec.toNat_ofNat, Nat.mod_eq_of_lt hreason]
    · rw [natAt_one, hb3B]
      split <;> rfl

end Sys2Proof.Proofs

/-! SUPPORT. Dies and islands (R432 to R441): the guards that their events pass, and changes that stay within the hub
registers. -/

namespace Sys2Proof.Proofs

open Sys2Proof Sys2Proof.Machine Sys2Proof.Laws

/-! ### Changes of hub registers alone -/

/-- t differs from s in hub registers only. -/
def RegsOnly (s t : State) : Prop := ∃ h, t = { s with hub := h }

theorem RegsOnly.refl (s : State) : RegsOnly s s := ⟨s.hub, rfl⟩

theorem RegsOnly.trans {s t u : State} (h1 : RegsOnly s t) (h2 : RegsOnly t u) : RegsOnly s u := by
  obtain ⟨_, rfl⟩ := h1
  obtain ⟨h, rfl⟩ := h2
  exact ⟨h, rfl⟩

theorem RegsOnly.foldl {α : Type} {f : State → α → State} (h : ∀ s x, RegsOnly s (f s x)) (xs : List α) (s : State) :
    RegsOnly s (xs.foldl f s) := by
  induction xs generalizing s with
  | nil => exact .refl s
  | cons x xs ih => exact (h s x).trans (ih _)

section Registers

variable (s : State)

theorem regsOnly_setReg (off : Nat) (v : DWord) : RegsOnly s (s.setReg off v) := ⟨_, rfl⟩

theorem regsOnly_setField (off lo n v : Nat) : RegsOnly s (s.setField off lo n v) := regsOnly_setReg ..

theorem regsOnly_nextDie : RegsOnly s s.nextDie := by
  unfold State.nextDie
  split
  · exact .refl s
  · split
    · exact .refl s
    · exact regsOnly_setField ..

theorem regsOnly_noteClock (n : Nat) : RegsOnly s (s.noteClock n) := by
  unfold State.noteClock
  split
  · exact regsOnly_setField ..
  · exact .refl s

theorem regsOnly_setFreq (n f : Nat) : RegsOnly s (s.setFreq n f) := (regsOnly_setField ..).trans (regsOnly_noteClock ..)

theorem regsOnly_clearMonitor (m : Nat) : RegsOnly s (s.clearMonitor m) :=
  (RegsOnly.foldl (fun t _ => regsOnly_setReg t ..) _ s).trans (regsOnly_setReg ..)

theorem regsOnly_writeMonitor (m : Nat) (v : DWord) : RegsOnly s (s.writeMonitor m v) := by
  have hw : RegsOnly s (s.writeReg (regMon m 0) v) := regsOnly_setReg ..
  unfold State.writeMonitor
  split
  · exact hw.trans (regsOnly_clearMonitor ..)
  · exact hw

/-- Homes that move change the home map only. -/
theorem spreadHomes_eq (d : Nat) : ∃ m, s.spreadHomes d = { s with hmap := m } := by
  unfold State.spreadHomes
  dsimp only
  split
  · exact ⟨s.hmap, rfl⟩
  · exact ⟨_, rfl⟩

end Registers

/-! ### Branches that answer -/

/-- Two branches that answer, as one answer with two branches. -/
theorem ite_next {p q : Prop} [Decidable p] [Decidable q] (h : p ↔ q) (a b : State) :
    (if p then .next a else .next b : Out) = .next (if q then a else b) :=
  (if_congr h rfl rfl).trans (apply_ite Host.Outcome.next q a b).symm

/-- An event that answers its own state unless a condition holds, and then as known. -/
theorem unless_next {p q : Prop} [Decidable p] [Decidable q] (h : p ↔ ¬ q) {o : Out} {t : State} (ho : o = .next t)
    (s : State) : (if p then .next s else o) = .next (if q then t else s) := by
  rw [ho, ite_next h s t, ite_not]

/-! ### Package reset -/

/-- What PACKAGE_RESET keeps (R432): module flash, and what the machine has of its surroundings. -/
def resetKept (s : State) : State :=
  { State.reset with
    agenda := s.agenda, turn := s.turn, outbox := s.outbox, mgmt := { State.reset.mgmt with flash := s.mgmt.flash } }

theorem packageReset_next (s : State) : execPackageReset s = .next (resetKept s).nextDie := rfl

/-- After PACKAGE_RESET all is as at reset but for module flash and the die that enumerates. -/
theorem nextDie_resetKept (s : State) : let t := (resetKept s).nextDie
    t.mgmt.flash = s.mgmt.flash ∧ t.mem = [] ∧ t.threads = [] ∧ t.groups = [] ∧ t.launches = [] ∧ t.cores = []
    ∧ t.now = State.reset.now := by
  intro t
  obtain ⟨h, ht⟩ : RegsOnly (resetKept s) t := regsOnly_nextDie _
  rw [ht]
  exact ⟨rfl, rfl, rfl, rfl, rfl, rfl, rfl⟩

/-! ### Dies -/

section Dies

variable {s : State} {die : BitVec 8}

theorem dieEnumerate_next {table : List (BitVec 8)} {j : State} (hd : die.toNat ≤ 22) (he : s.dieState die.toNat = 1)
    (hj : (s.setCaps die.toNat table).judgeDie die.toNat table = j) :
    execDieEnumerate die table s = .next j.nextDie := by
  rw [← hj]
  exact if_neg (by simp [he, Nat.not_lt.2 hd])

theorem judgeDie_fails (s : State) {d : Nat} {table : List (BitVec 8)} (h : tablePasses d table = false) :
    s.judgeDie d table = (s.setGrant d none).dieFails d := if_neg (by simp [h])

theorem judgeDie_passes (s : State) {d : Nat} {table : List (BitVec 8)} (h : tablePasses d table = true) :
    let y := ((s.setDieState d 2).setField (regDiest d) 4 2 (dieClass d)).setGrant d (some (grantOf s.turn d table))
    s.judgeDie d table = if d < 8 ∧ s.isolations d ≠ 0 then y.returnHomes d else y := if_pos h

theorem dieCommand_busy (h : s.dieBusy = true) (op d : Nat) : s.dieCommand op d = s := if_pos h

theorem dieCommand_isolate {d : Nat} (h : s.dieBusy = false) (hd : d ≤ 10) (ha : s.dieState d = 2) :
    s.dieCommand 1 d = s.isolate d := by
  unfold State.dieCommand
  rw [if_neg (by simp [h]), if_pos ⟨rfl, hd, ha⟩]

theorem dieCommand_rejoin {d : Nat} (h : s.dieBusy = false) (hd : d ≤ 22) (hi : s.dieState d = 4) :
    s.dieCommand 2 d = s.setDieState d 1 := by
  unfold State.dieCommand
  rw [if_neg (by simp [h]), if_neg (by simp), if_pos ⟨rfl, hd, hi⟩]

/-- Only a compute die has cores that an isolation waits for. -/
theorem isolationReady_of_le {d : Nat} (h : 8 ≤ d) : s.isolationReady d = true := by
  unfold State.isolationReady
  exact decide_eq_true fun hd => absurd hd (Nat.not_lt.2 h)

/-- The guards of ISOLATION_COMPLETE pass on an isolating die that is ready. -/
theorem isolation_next {d : Nat} (hd : d ≤ 10) (hs : s.dieState d = 3) (hr : s.isolationReady d = true)
    (hw : d < 8 → s.cleanWaits (dieCores d) = none) (o : Out) :
    (if 10 < d ∨ s.dieState d ≠ 3 ∨ !s.isolationReady d then .next s
      else if d < 8 ∧ (s.cleanWaits (dieCores d)).isSome = true then .next (s.askFor (s.cleanWaits (dieCores d)))
      else o) = o := by
  rw [if_neg (by simp [hs, hr, hd]), if_neg (fun ⟨h8, h⟩ => by simp [hw h8] at h)]

theorem isolationComplete_lz1c (lost : List (BitVec 28)) (hs : s.dieState die.toNat = 3) (hd : die.toNat < 8)
    (hr : s.isolationReady die.toNat = true) (hw : s.cleanWaits (dieCores die.toNat) = none) :
    execIsolationComplete die lost s = .next
      (((lost.filter (fun f => s.mayLose die.toNat f.toNat)).foldl (fun z f => z.addFrame f.toNat)
        ((s.flushReset (dieCores die.toNat)).spreadHomes die.toNat)).setDieState die.toNat 4) := by
  refine (isolation_next (by omega) hs hr (fun _ => hw) _).trans ?_
  simp only [if_pos hd, if_pos hd.le]

theorem isolationComplete_lz1p (lost : List (BitVec 28)) (hs : s.dieState die.toNat = 3) (hd : die.toNat = 8) :
    let z := { s with dir := s.dir.filter (fun q => q.1 / 2 ^ 33 != 768) }
    execIsolationComplete die lost s = .next (((lost.filter (fun (f : BitVec 28) => s.mayLose die.toNat f.toNat)).foldl
      (fun (z : State) f => z.addFrame f.toNat) z).setDieState die.toNat 4) := by
  intro z
  refine (isolation_next (by omega) hs (isolationReady_of_le hd.ge) (fun h => absurd hd h.ne) _).trans ?_
  simp only [if_neg hd.not_lt, if_pos hd, if_pos hd.le]
  rfl

theorem isolationComplete_lz1n (lost : List (BitVec 28)) (hs : s.dieState die.toNat = 3) (h9 : 9 ≤ die.toNat)
    (hd : die.toNat ≤ 10) : execIsolationComplete die lost s = .next (s.setDieState die.toNat 4) := by
  have h8 : 8 < die.toNat := h9
  refine (isolation_next hd hs (isolationReady_of_le h8.le) (fun h => absurd h h8.not_gt) _).trans ?_
  simp only [if_neg h8.not_gt, if_neg h8.ne', if_neg h8.not_ge]

end Dies

/-! ### Islands -/

section Islands

variable {s : State} {n : BitVec 7}

theorem islandGated_next (hn : n.toNat < 96) (hg : s.islandGate n.toNat = true) (hs : s.islandState n.toNat ≠ 2)
    (hi : s.islandIdle n.toNat = true) (ho : s.cleanOwned (islandCores n.toNat) = false)
    (hw : s.cleanWaits (islandCores n.toNat) = none) :
    execIslandGated n s = .next ((s.flushReset (islandCores n.toNat)).setIslandState n.toNat 2) := by
  unfold execIslandGated
  simp only
  rw [if_neg (by simp [hn, hg, hs, hi, ho]), if_neg (by simp [hw])]

theorem mgmtIsland_compute (s : State) (f : BitVec 7) (gate : Bool) (hn : n.toNat < 96) : execMgmtIsland n f gate s
    = .next (if gate then (s.setFreq n.toNat f.toNat).gateOn n.toNat else (s.setFreq n.toNat f.toNat).gateOff n.toNat) :=
  if_neg (Nat.not_le.2 hn)

theorem islandChangeComplete_next (h : s.islandState n.toNat = 1) :
    let z := s.setField (regIslctl n.toNat) 16 7 (s.islandTarget n.toNat)
    execIslandChangeComplete n s = .next (if z.islandGate n.toNat then z else { z.setIslandState n.toNat 0 with
      mgmt := { z.mgmt with waking := z.mgmt.waking.filter (fun k => k != n.toNat) } }) :=
  (if_neg (not_not_intro h)).trans (ite_next Iff.rfl _ _)

end Islands

end Sys2Proof.Proofs

/-! SUPPORT. Fatal errors, firmware images, boot and the pod boot leader (R442 to R445, R450). -/

namespace Sys2Proof.Proofs

open Sys2Proof Sys2Proof.Machine Sys2Proof.Laws

/-! ### The dump of a fatal error -/

theorem fabSend_eq (s : State) (pod : Nat) (m : Msg) : ∃ fab outbox,
    s.fabSend pod m = { s with fab := fab, outbox := outbox } := by
  unfold State.fabSend
  split
  · exact ⟨_, _, rfl⟩
  · exact ⟨_, _, rfl⟩

theorem pod_fabSend (s : State) (pod : Nat) (m : Msg) : (s.fabSend pod m).pod = s.pod := by
  obtain ⟨_, _, h⟩ := fabSend_eq s pod m
  rw [h]
  rfl

/-- What an access waits for is asked for in the fabric, or noted with the snapshots. -/
theorem askFor_eq (s : State) (w : Option WaitOn) : ∃ fab outbox snap,
    s.askFor w = { s with fab := fab, outbox := outbox, snap := snap } := by
  unfold State.askFor
  split
  · unfold State.askLine
    split
    · exact ⟨_, _, _, rfl⟩
    · obtain ⟨fab, outbox, h⟩ := fabSend_eq _ s.pod _
      exact ⟨fab, outbox, s.snap, h⟩
  · unfold State.askCopy
    split
    · exact ⟨_, _, _, rfl⟩
    · exact ⟨_, _, _, rfl⟩
  · exact ⟨_, _, _, rfl⟩

/-- A dump that is due is written, waits or has no place (R450): what changes is memory, what is asked for, and whether the
dump is still due. -/
theorem settleDump_eq (s : State) : ∃ due mem scr fab dir tlb outbox snap,
    s.settleDump = { s with
      mem := mem, scr := scr, fab := fab, dir := dir, tlb := tlb, outbox := outbox, snap := snap,
      mgmt := { s.mgmt with dumpDue := due } } := by
  have same : ∃ due mem scr fab dir tlb outbox snap, s = { s with
      mem := mem, scr := scr, fab := fab, dir := dir, tlb := tlb, outbox := outbox, snap := snap,
      mgmt := { s.mgmt with dumpDue := due } } := ⟨_, _, _, _, _, _, _, _, rfl⟩
  unfold State.settleDump
  split
  · exact same
  · dsimp only
    split
    · exact ⟨_, _, _, _, _, _, _, _, rfl⟩
    · next off _ =>
      split
      · obtain ⟨_, _, _, h⟩ := askFor_eq s (s.writeWaits off s.mgmt.dump.length)
        exact ⟨_, _, _, _, _, _, _, _, h⟩
      · split
        · exact same
        · obtain ⟨_, _, _, _, _, _, h⟩ := memOnly_put { s with mgmt := { s.mgmt with dumpDue := false } } off s.mgmt.dump
          exact ⟨_, _, _, _, _, _, _, _, h⟩

theorem settleDump_frame (s : State) : s.settleDump.mgmt.fatal = s.mgmt.fatal ∧ s.settleDump.mgmt.dump = s.mgmt.dump
    ∧ s.settleDump.threads = s.threads ∧ s.settleDump.groups = s.groups ∧ s.settleDump.runs = s.runs := by
  obtain ⟨_, _, _, _, _, _, _, _, h⟩ := settleDump_eq s
  rw [h]
  exact ⟨rfl, rfl, rfl, rfl, rfl⟩

theorem fatalError_next (s : State) {cause : BitVec 8} (h1 : 1 ≤ cause.toNat) (h6 : cause.toNat ≤ 6) (detail : BitVec 64) :
    execFatalError cause detail s = .next (s.enterFatal cause.toNat detail) := if_neg (by omega)

/-! ### Images -/

section Images

variable (s : State) (image : List (BitVec 8))

theorem firmwareVerify_next : execFirmwareVerify image s = .next (if s.enumerated = true ∧ acceptedAs 1 image = true then
    { s with mgmt := { s.mgmt with hubImage := some image } } else (s.loadService image).loadHarts image) :=
  ite_next (Bool.and_eq_true_iff ..) _ _

theorem loadService_eq : s.loadService image = if s.mgmt.serviceLoads = false ∧ s.enumerated = true
      ∧ s.mgmt.hubImage.isSome = true ∧ acceptedAs 2 image = true
    then s.setMgmt (fun m => { m with serviceStore := some (imagePayload image), serviceLoads := true }) else s := by
  unfold State.loadService State.firmwareRuns
  rw [← ite_not]
  exact if_congr (by simp [and_assoc, Option.isSome_iff_ne_none]) rfl rfl

theorem loadHarts_eq : s.loadHarts image = if s.enumerated = true ∧ s.mgmt.hubImage.isSome = true
      ∧ acceptedAs 3 image = true
    then s.setMgmt (fun m => { m with hartImage := some image, hartsRunning := s.dieState 8 == 2 && m.fatal.isNone })
    else s := if_congr (by simp [State.firmwareRuns, and_assoc]) rfl rfl

theorem mgmtImage_next : execMgmtImage image s
    = .next (if accepted image = true then { s with mgmt := { s.mgmt with flash := some image } } else s) :=
  ite_next Iff.rfl _ _

end Images

/-- The state with a hub image installed at boot, before the service store and the harts are loaded (R444). -/
def bootInstalled (s : State) (image : List (BitVec 8)) : State :=
  { s with mgmt := { s.mgmt with hubImage := some image } }.setReg regFbid (BitVec.ofNat 64 (Config.bootFbid % 2 ^ 18))

theorem boot_next {s : State} (he : s.enumerated = true) (hf : s.mgmt.fatal = none) (hub service hart : List (BitVec 8)) :
    execBoot hub service hart s = .next (match s.bootImage hub with
      | none => s
      | some bs => if acceptedAs 1 bs = true then ((bootInstalled s bs).loadService service).loadHarts hart else s) := by
  unfold execBoot
  rw [if_pos (by simp [he, hf])]
  cases s.bootImage hub with
  | none => rfl
  | some bs => exact unless_next (by simp) rfl s

/-! ### The pod boot leader -/

section Leader

variable {s : State} {term sender : Nat}

theorem claim_next (hs : sender ≠ s.globalNumber) (key : BootKey) : execClaim term sender key s
    = .next (if Config.bootsrc = 1 ∧ s.fabricOn = true then (s.stepDown (decide (s.mgmt.ownTerm < term)
        || (term == s.mgmt.ownTerm && keyLess key Config.bootKey))).noteTerm term else s) :=
  unless_next (by simp [hs, imp_iff_not_or]) rfl s

theorem lease_next (hs : sender ≠ s.globalNumber) :
    let z := (s.stepDown (decide (s.mgmt.ownTerm < term))).noteTerm term
    execLease term sender s = .next (if Config.bootsrc = 1 ∧ s.fabricOn = true then
      (if term = z.mgmt.term ∧ z.mgmt.role = .follower then
        z.setMgmt (fun m => { m with leader := some sender, lastLease := z.now }) else z) else s) :=
  unless_next (by simp [hs, imp_iff_not_or]) (ite_next Iff.rfl _ _) s

theorem load_next {z : State} (hn : s.noteTerm term = z) (hz : z.fromLeader term sender = true) (off : Nat)
    (bytes : List (BitVec 8)) : execLoad term sender off bytes s = .next (if Config.bootsrc = 1 ∧ s.fabricOn = true then
      z.setMgmt (fun m => { m with partTerm := term, partLen := max m.partLen (off + bytes.length),
                                   part := spSetN (fun _ => none) m.part off (bytes.map some) }) else s) := by
  subst hn
  exact unless_next (by simp [imp_iff_not_or]) (if_neg (by simp [hz])) s

theorem done_next {z : State} (hn : s.noteTerm term = z) (hz : z.fromLeader term sender = true) :
    execDone term sender s = .next (if Config.bootsrc = 1 ∧ s.fabricOn = true then (match z.mgmt.partImage with
      | none => z.setMgmt (fun m => { m with part := [], partLen := 0 })
      | some bs => if acceptedAs 1 bs = true
          then z.setMgmt (fun m => { m with hubImage := some bs, part := [], partLen := 0 })
          else z.setMgmt (fun m => { m with part := [], partLen := 0 })) else s) := by
  subst hn
  refine unless_next (by simp [imp_iff_not_or]) ((if_neg (by simp [hz])).trans ?_) s
  dsimp only
  cases (s.noteTerm term).mgmt.partImage with
  | none => rfl
  | some bs =>
    dsimp only
    split
    · rfl
    · rfl

theorem leaseTimeout_next (hr : s.mgmt.role = .follower) (ht : s.mgmt.lastLease + 3500000000 ≤ s.now) :
    execLeaseTimeout s = .next (if (Config.bootsrc = 1 ∧ s.fabricOn = true) ∧ s.bootCandidate = true then
      (s.setMgmt (fun m => { m with role := .claimant, term := m.term + 1, ownTerm := m.term + 1, leader := none,
                                    claimAt := s.now })).fabSend s.pod (.claim (s.mgmt.term + 1) Config.bootKey) else s) := by
  have hd : ¬ s.now < s.mgmt.lastLease + 2 * second := Nat.not_lt.2 ht
  exact unless_next (by simp [hr, hd, imp_iff_not_or, or_assoc]) rfl s

/-- The messages that a package sends within its pod, one after another. -/
def sendAll (s : State) (pod : Nat) (ms : List Msg) : State := ms.foldl (fun z x => z.fabSend pod x) s

theorem claimTimeout_next (hf : s.fabricOn = true) (hr : s.mgmt.role = .claimant)
    (ht : s.mgmt.claimAt + 1750000000 ≤ s.now) : execClaimTimeout s = .next
      (sendAll { s with mgmt := { s.mgmt with role := .leader, lastLease := s.now } } s.pod
        [.lease s.mgmt.ownTerm, .bootLoad s.mgmt.ownTerm 0 (s.mgmt.flash.getD []), .bootDone s.mgmt.ownTerm]) := by
  have hd : ¬ s.now < s.mgmt.claimAt + second := Nat.not_lt.2 ht
  refine (if_neg (by simp [hr, hf, hd])).trans ?_
  dsimp only
  rw [pod_fabSend]
  rfl

theorem leasePeriod_next (hf : s.fabricOn = true) (hr : s.mgmt.role = .leader)
    (ht : s.mgmt.lastLease + 875000000 ≤ s.now) : execLeasePeriod s = .next
      (sendAll { s with mgmt := { s.mgmt with lastLease := s.now } } s.pod [.lease s.mgmt.ownTerm]) := by
  have hd : ¬ s.now < s.mgmt.lastLease + second / 2 := Nat.not_lt.2 ht
  exact if_neg (by simp [hr, hf, hd])

end Leader

end Sys2Proof.Proofs

/-! SUPPORT. Monitors, the side-band port and SPDM answers (R446 to R448). -/

namespace Sys2Proof.Proofs

open Sys2Proof Sys2Proof.Machine Sys2Proof.Laws

theorem monitorSample_next {s : State} {m : BitVec 5} (v : BitVec 64) (he : s.field (regMon m.toNat 0) 0 1 = 1)
    (h1 : 1 ≤ s.field (regMon m.toNat 0) 32 8) (h7 : s.field (regMon m.toNat 0) 32 8 ≤ 7) :
    let lo := if v.toNat < (s.reg (regMon m.toNat 0x08)).toNat then v else s.reg (regMon m.toNat 0x08)
    let hi := if (s.reg (regMon m.toNat 0x10)).toNat < v.toNat then v else s.reg (regMon m.toNat 0x10)
    execMonitorSample m v s = .next ((((s.setReg (regMon m.toNat 0x08) lo).setReg (regMon m.toNat 0x10) hi).countReg
      (regMon m.toNat 0x18)).countReg (regMon m.toNat (0x20
        + 8 * monBin v.toNat (s.field (regMon m.toNat 0) 16 16) (s.field (regMon m.toNat 0) 8 8)))) :=
  if_neg (by omega)

theorem mgmtKeySlot_next (s : State) (slot : BitVec 8) (tenant : BitVec 6) (wrapped : List (BitVec 8)) :
    execMgmtKeySlot slot tenant wrapped s = .next (match unwrapKey Config.keyWrapKey wrapped with
      | none => s
      | some k => s.setMgmt (fun m =>
          { m with keys := spSet (fun _ => none) m.keys slot.toNat (some (tenant.toNat, k)) })) := by
  unfold execMgmtKeySlot
  cases unwrapKey Config.keyWrapKey wrapped with
  | none => rfl
  | some k => rfl

/-- The algorithms selected stand at bytes 12 to 19 of the ALGORITHMS response. -/
theorem spdmAlgorithms_selected (e h : Bool) :
    bytesAt (spdmAlgorithms e h) 12 8 = leBytes 4 (if e then 0x80 else 0) ++ leBytes 4 (if h then 2 else 0) := by
  unfold spdmAlgorithms
  dsimp only
  rw [bytesAt_left (by simp [spdmHead, bytesAt]), bytesAt_left (by simp [spdmHead, bytesAt]), List.append_assoc,
    bytesAt_right (by simp [spdmHead, bytesAt])]
  exact bytesAt_all (by simp)

theorem leBytes_selected (e h : Bool) : leBytes 4 (if e then 0x80 else 0) ++ leBytes 4 (if h then 2 else 0)
    = [if e then 0x80 else 0, 0, 0, 0, if h then 2 else 0, 0, 0, 0] := by
  cases e <;> cases h <;> rfl

theorem getMeasurements_next (s : State) {index : Nat} (h1 : 1 ≤ index) (h5 : index ≤ 5) :
    execGetMeasurements index s = .next (s.send (.spdm 0xE0 (s.measurement index))) := by
  unfold execGetMeasurements
  rw [if_neg (by omega), if_neg (by omega)]

/-- Settles O60: the clauses in their order; each is a law of its event, where the conditions that it names hold. -/
theorem packageEvents : Obligations.PackageEvents := by
  unfold Obligations.PackageEvents
  intro s
  refine ⟨⟨_, packageReset_next s, nextDie_resetKept s⟩, fun die table hd he => ?enumerate, fun die => ?dies,
    fun n f => ?islands, fun lower => rfl,
    fun cause detail h1 h6 => ⟨fatalError_next s h1 h6 detail, rfl, settleDump_frame s⟩, spreadHomes_eq s,
    fun M v => ?monitorRegs, fun d n => ?freqFrame,
    fun image => ⟨firmwareVerify_next s image, rfl, fun z => ⟨loadService_eq z image, loadHarts_eq z image⟩,
      mgmtImage_next s image⟩,
    fun hub service hart he hf => boot_next he hf hub service hart,
    fun term sender off key bytes hs => ⟨claim_next hs key, lease_next hs,
      fun hz => ⟨load_next rfl hz off bytes, done_next rfl hz⟩, leaseTimeout_next⟩,
    fun hf => ⟨claimTimeout_next hf, leasePeriod_next hf, fun _ => rfl⟩,
    fun m v => ⟨rfl, rfl, rfl, monitorSample_next v⟩, mgmtKeySlot_next s, rfl, fun c a e h slot off len nonce index => ?spdm⟩
  case enumerate =>
    exact ⟨fun hp => dieEnumerate_next hd he (judgeDie_fails _ hp), fun hp => dieEnumerate_next hd he (judgeDie_passes _ hp)⟩
  case dies =>
    exact ⟨fun h => ⟨congrArg _ (dieCommand_busy h 1 _), congrArg _ (dieCommand_busy h 2 _)⟩,
      fun h hd ha => congrArg _ (dieCommand_isolate h hd ha), fun h hd hi => congrArg _ (dieCommand_rejoin h hd hi),
      fun hd ha => if_pos ⟨hd, ha⟩,
      fun lost hs => ⟨isolationComplete_lz1c lost hs, isolationComplete_lz1p lost hs, isolationComplete_lz1n lost hs⟩,
      fun _ => rfl⟩
  case islands =>
    exact ⟨fun hn => ⟨if_pos hn, if_pos hn, if_pos hn, islandGated_next hn, fun gate => mgmtIsland_compute s f gate hn⟩,
      fun hn => ⟨if_neg (Nat.not_lt.2 hn), if_neg (Nat.not_lt.2 hn), fun _ => if_pos hn⟩, islandChangeComplete_next⟩
  case monitorRegs =>
    obtain ⟨h, hw⟩ := regsOnly_writeMonitor s M v
    obtain ⟨k, hc⟩ := regsOnly_clearMonitor s M
    exact ⟨h, k, hw, hc⟩
  case freqFrame =>
    obtain ⟨h, hf⟩ := regsOnly_setFreq s n d
    rw [hf]
    exact ⟨rfl, rfl, rfl⟩
  case spdm =>
    exact ⟨rfl, rfl, rfl, rfl, (spdmAlgorithms_selected e h).trans (leBytes_selected e h), rfl, rfl, getMeasurements_next s, rfl⟩

end Sys2Proof.Proofs
